-- ==== Sys2Proof/Word.lean ====
section
/-!
DEFINITION. Words, bytes, little-endian packing and the sparse canonical tables the state is built from.
Rules: R6, R7, R10.
-/

namespace Sys2Proof

/-- A 32-bit register word of the device control space. -/
abbrev Word := BitVec 32

/-- One byte of memory. -/
abbrev Byte := BitVec 8

/-- Bits `hi` down to `lo` of a number (R6: bit 0 is the least significant). -/
def bits (v hi lo : Nat) : Nat := (v / 2 ^ lo) % 2 ^ (hi + 1 - lo)

/-- Bit `i` of a number as a truth value. -/
def bit (v i : Nat) : Bool := v.testBit i

/-- A truth value as a one-bit number. -/
def b2n (b : Bool) : Nat := if b then 1 else 0

/-- `v` with its bits `hi` down to `lo` replaced by the low bits of `x`. -/
def setBits (v hi lo x : Nat) : Nat :=
  (v / 2 ^ (hi + 1)) * 2 ^ (hi + 1) + (x % 2 ^ (hi + 1 - lo)) * 2 ^ lo + v % 2 ^ lo

/-- The little-endian value of a byte list (R6). -/
def leNat : List Byte → Nat
  | [] => 0
  | b :: bs => b.toNat + 256 * leNat bs

/-- The low `n` bytes of a number, lowest first (R6). -/
def leBytes : Nat → Nat → List Byte
  | 0, _ => []
  | n + 1, v => BitVec.ofNat 8 v :: leBytes n (v / 256)

/-- A number read as a two's complement integer of `w` bits (R10). -/
def signed (w v : Nat) : Int :=
  if v % 2 ^ w < 2 ^ (w - 1) then (v % 2 ^ w : Nat) else ((v % 2 ^ w : Nat) : Int) - (2 ^ w : Nat)

/-- An integer wrapped to `w` bits (R10). -/
def wrapInt (w : Nat) (i : Int) : Nat := (i % (2 ^ w : Nat)).toNat

/-- A sum held at the greatest `w`-bit value (saturating counts of R535). -/
def satAdd (w a b : Nat) : Nat := min (a + b) (2 ^ w - 1)

/-- `(a - b) mod 2^16` lies from 1 to 32767: 16-bit sequence number `a` is newer than `b` (R536). -/
def seqNewer (a b : Nat) : Bool :=
  let d := (a + 65536 - b % 65536) % 65536
  decide (1 ≤ d ∧ d ≤ 32767)

/-! Sparse tables: strictly rising keys, and no entry equal to what an unlisted key reads as. -/

namespace Tab

variable {α : Type}

/-- What key `k` holds: its entry, or the default `d k`. -/
def get (d : Nat → α) : List (Nat × α) → Nat → α
  | [], k => d k
  | (j, v) :: t, k => if k = j then v else get d t k

/-- Drop every entry of key `k`. -/
def erase : List (Nat × α) → Nat → List (Nat × α)
  | [], _ => []
  | (j, v) :: t, k => if k = j then erase t k else (j, v) :: erase t k

/-- Put the entry of key `k`, keeping the keys rising. -/
def insert : List (Nat × α) → Nat → α → List (Nat × α)
  | [], k, x => [(k, x)]
  | (j, v) :: t, k, x =>
    if k < j then (k, x) :: (j, v) :: t
    else if k = j then (k, x) :: t
    else (j, v) :: insert t k x

/-- Make key `k` hold `x`: an entry, or none when `x` is the default. -/
def set [DecidableEq α] (d : Nat → α) (t : List (Nat × α)) (k : Nat) (x : α) : List (Nat × α) :=
  if x = d k then erase t k else insert t k x

/-- Every key of the table is above `b`. -/
def above (b : Nat) (t : List (Nat × α)) : Bool := t.all fun e => decide (b < e.1)

/-- The canonical form: strictly rising keys, no entry that holds its default. -/
def wf [DecidableEq α] (d : Nat → α) : List (Nat × α) → Bool
  | [] => true
  | (j, v) :: t => decide (v ≠ d j) && above j t && wf d t

end Tab

/-- Replace entry `i` of a list, leaving it alone past the end. -/
def listSet {α : Type} (l : List α) (i : Nat) (x : α) : List α := l.set i x

/-- Entry `i` of a list, or a default past the end. -/
def listGet {α : Type} (l : List α) (i : Nat) (d : α) : α := l.getD i d

/-- Drop the first entry that meets `p`. -/
def dropFirst {α : Type} (p : α → Bool) : List α → List α
  | [] => []
  | x :: xs => if p x then xs else x :: dropFirst p xs

/-- `f` applied `n` times. -/
def iterate {α : Type} (f : α → α) : Nat → α → α
  | 0, a => a
  | n + 1, a => iterate f n (f a)

end Sys2Proof
end

