-- ==== Sys2Proof/Syntax.lean ====
section
/-!
DEFINITION. The commands of the part: one constructor for each row of the opcode table.
-/

namespace Sys2Proof

/-- What the error-correcting code finds in the word a step reads: an operand, because the spec gives no rule by which a word
goes bad. Log entry 4 (DESIGN CHOICE, safe). -/
inductive Ecc where
  | good
  | corrected
  | uncorrectable
  deriving DecidableEq, Repr

/-- The agent of a Field that makes an access, by its number and index of Table 22-3, and its resident slot. -/
structure Requester where
  field : Fin 72
  slot : Fin 4
  agent : Fin 16
  index : Fin 64
  deriving DecidableEq, Repr

/-- One access that wants a Field-memory bank in a step (R235, R236). `rank` is the agent's place in the rotation; the patrol
scrubber is 8 and ranks last. `eccs` is what the check of the words that it reads finds, by their places in the access; a word not named is good. -/
structure BankReq where
  rank : Fin 9
  agent : Fin 16
  index : Fin 64
  slot : Option (Fin 4)
  off : Nat
  len : Nat
  write : Bool
  data : List Byte
  eccs : List (Fin 8 × Ecc)
  deriving DecidableEq, Repr

/-- Where a hurdle operation comes from (R273): a write to FLD_HRD_OP, or a token at a grid port. -/
inductive HurdleSrc where
  | dcs (slot : Fin 4) (vid : Fin 1024) (count : Fin 65536)
  | port (g : Fin 16)
  deriving DecidableEq, Repr

/-- An instruction shifted into the TAP (R562). A maker instruction has a command code. -/
inductive TapInstr where
  | idcode
  | bypass
  | samplePreload
  | clamp
  | highz
  | extest
  | extestPulse
  | extestTrain
  | maker (code : Word)
  deriving DecidableEq, Repr

/-- The acknowledgement of a channel's set-up (R254): at the receiving Field, or at the Field of the sender of a remote channel, with what
that endpoint is told. The ends of a remote channel tell each other of its closing in the same way (R269): the sending end is marked CLOSING, its
part has no record in flight for a receive channel that is closing, and the sending end is free. Log entry 77 (DESIGN CHOICE, safe). -/
inductive OpenAck where
  | closing (n : Fin 32)
  | idle (n : Fin 32)
  | freed (n : Fin 32)
  | receiver (n : Fin 32)
  | sender (n : Fin 32) (slot : Fin 4) (dev : Fin 1024) (lf : Fin 64) (rx : Fin 32) (gen : Fin 2048) (size : Fin 21) (limit : Fin 1048577)
  deriving DecidableEq, Repr

/-- What an IP packet's header says (R372 to R375): version, addresses, whether it is an IPv4 fragment or has IPv6 extension headers, and its
ECN bits (3: congestion experienced). -/
structure IpHead where
  v6 : Bool
  src : Nat
  dst : Nat
  frag : Bool
  ecn : Fin 4
  deriving DecidableEq, Repr

/-- RoCEv2 operations (R376) and the congestion notification (R375). -/
inductive RoceOp where
  | write
  | read
  | send
  | atomic
  | cnp
  deriving DecidableEq, Repr

/-- A RoCEv2 request as a whole message: transport RC or another, operation, local queue pair, PSN of its first packet, VA, rkey, length,
immediate data and data. -/
structure RocePkt where
  rc : Bool
  op : RoceOp
  qp : Nat
  psn : Nat
  va : Nat
  rkey : Nat
  len : Nat
  imm : Option Word
  data : List Byte
  deriving DecidableEq, Repr

/-- What a received frame carries. -/
inductive NetBody where
  | arp (target : Nat)
  | neighbour (target : Nat)
  | echo (data : List Byte)
  | udp (sport dport : Nat) (data : List Byte)
  | roce (p : RocePkt)
  | other
  deriving DecidableEq, Repr

/-- The MACsec tag of a protected frame (R381): SCI, association number, packet number, and whether its integrity check passes under the
association's SAK. -/
structure SecTag where
  sci : Nat
  an : Nat
  pn : Nat
  icvOk : Bool
  deriving DecidableEq, Repr

/-- A frame on the Ethernet port: bytes from destination address to FCS, FCS good, MAC addresses, 802.1Q tags as VLAN id and priority, MACsec
tag, IP header and content. Log entry 4 (DESIGN CHOICE, safe). -/
structure EthFrame where
  len : Nat
  fcsOk : Bool
  dst : Nat
  src : Nat
  tags : List (Nat × Nat)
  sec : Option SecTag
  ip : Option IpHead
  body : NetBody
  deriving DecidableEq, Repr

/-- A plan variant of a context (R460): the largest value it accepts in each shape register, the section numbers of its legs and macros, and
the largest output of a sequence in a heat; its phases as preferred point and fixed rate. -/
structure PlanVariant where
  shapes : List Nat
  legs : List Nat
  macros : List Nat
  outMax : Nat
  phases : List (Option (Fin 8) × Option (Fin 256))
  deriving DecidableEq, Repr

/-- A context as its CONTEXT and PLAN sections and the deployment record declare it (R402, R455, R459, R460): partition, model id, the
logical Fields granted with the slot on each, its gang (R28), state pairs as the VAs of CUR and SHD, the shape register that holds the
tracked length, its input region as base and stride per batch slot, demand regions, resident VA ranges with the VA of the committed
copy that is their source, resident ranges of Field memory by logical Field, offset and length with the VA of theirs, the largest number of Silt chunks on
a logical Field, and plan variants. Log entry 100 (DESIGN CHOICE, unsafe). -/
structure CtxDecl where
  part : Fin 16
  model : Nat
  fields : List (Fin 64 × Fin 4)
  gang : List (Fin 64)
  pairs : List (Nat × Nat)
  lenShape : Fin 16
  input : Nat × Nat
  demand : List (Nat × Nat)
  copies : List (Nat × Nat × Nat)
  fmCopies : List (Fin 64 × Nat × Nat × Nat)
  silt : List (Fin 64 × Nat)
  variants : List PlanVariant
  deriving DecidableEq, Repr

/-- A heat group as the deployment record names it, seen by one member (R420, R422): members, this member's index, the leader's index, and
the part offset of this member's decision word. -/
structure GroupDecl where
  members : Nat
  me : Nat
  leader : Nat
  word : Nat
  deriving DecidableEq, Repr

/-- A leg to place at load: logical Field, unit, leg and its 256 bytes (R458). -/
structure LegPlace where
  lfield : Fin 64
  unit : Fin 32
  leg : Fin 8
  bytes : List Byte
  deriving DecidableEq, Repr

/-- The Field-side end of a reduction tree that goes on to other parts (R356): the value of tree `tree` of the context at a level and position goes,
under the tree's key and generation, to a side of a node of a device. Log entry 84 (DESIGN CHOICE, unsafe). -/
structure TreeEnd where
  tree : Fin 256
  level : Nat
  pos : Nat
  key : Fin 65536
  dev : Fin 1024
  node : Fin 64
  side : Fin 2
  gen : Fin 16
  deriving DecidableEq, Repr

/-- What firmware does to load a context (R403, R458, R466): its declaration, its group, its root table, the registers it sets, the MU storage
and the part offsets it newly grants (Field, MU, offset, length; offset, length), its legs and the MACROS and CONST blocks for Field memory
by section number, what it places in stack memory (tables, CONST data), and the ends of trees that it opens with the context. Log entry 100 (DESIGN CHOICE, unsafe). -/
structure CtxLoad where
  decl : CtxDecl
  group : Option GroupDecl
  root : Word
  regs : List (Fin 64 × Nat × Word)
  muZero : List (Fin 64 × Fin 16 × Nat × Nat)
  stackZero : List (Nat × Nat)
  legs : List (Nat × LegPlace)
  blocks : List (Nat × Fin 64 × Nat × List Byte)
  stackData : List (Nat × List Byte)
  trees : List TreeEnd
  deriving DecidableEq, Repr

/-- What a sequence of a heat's batch has produced at the heat's end (R390, R413): its batch slot, where its output lies (the VA of an inline
output, or the window offset written), its length, whether its model ends it, and by how many tokens its tracked length grows. Log entry 99 (DESIGN CHOICE, unsafe). -/
structure SeqOut where
  slot : Fin 4096
  va : Nat
  len : Nat
  ended : Bool
  grow : Nat
  deriving DecidableEq, Repr

/-- The values of a deployment record (Table 19-3), entry by entry; none where the record has no such entry. `rspill` is the largest size of a spill area
of a Quipel port in MiB (R360), `results` the part offset of the result buffer of a partition (R401). Log entry 95 (DESIGN CHOICE, unsafe). Log entry 84
(DESIGN CHOICE, unsafe). -/
structure DeployRec where
  version : Nat
  locked : Bool
  device : Option (Fin 1024)
  mac : Nat
  ipv4 : Nat
  ipv6 : Nat
  linkLocal : Nat
  parts : List (Fin 16 × Nat × Word × Fin 256)
  admits : List (Fin 64 × Word × Option (Bool × Nat × Nat))
  ctxs : List (Fin 64 × Fin 16)
  power : Option (Nat × Nat)
  cmps : List (Fin 6 × Word)
  steps : Option (List Word)
  untagged : Bool
  pfc : Option Word
  csp : Option Word
  routes : List (Nat × Word)
  rspill : Nat
  results : List (Fin 16 × Nat)
  deriving DecidableEq, Repr

/-- What an object to be staged holds beyond the parts whose layout the spec gives: a deployment record's values, or whether an image keeps
the rules of R461, with the contexts it declares. Log entry 111 (DESIGN CHOICE, unsafe). -/
inductive StageBody where
  | record (r : DeployRec)
  | image (rulesOk : Bool) (ctxs : List (Fin 64 × CtxLoad))
  | firmware
  deriving DecidableEq, Repr

/-- The boot flash as the part finds it (R453, R561): its bytes where it offers 8D-8D-8D at 200 MHz, and for each directory entry what its
object holds beyond the parts whose layout the spec gives. -/
structure Flash where
  bytes : List Byte
  bodies : List StageBody
  deriving DecidableEq, Repr

/-- What a start-up finds outside the state: the flash, the slots of the NV store that no longer pass R463, and the two copies of the audit
log, as how many records verify in one copy only and whether the newest fails its chain in both (R494), and how many sectors hold an
uncorrectable word whose content another copy has (R450); and where firmware places the telemetry buffer, in units of 256 MiB from the first
byte of the stacks of Q1 (R531). Log entry 4 (DESIGN CHOICE, safe). -/
structure BootInput where
  flash : Option Flash
  slotsBad : List (Fin 6)
  auditMissing : Nat
  auditTorn : Bool
  sectorsBad : Nat
  telBuf : Fin 1536
  deriving DecidableEq, Repr

/-- A stage of the telemetry path (Table 22-5): the queue of a source, or the collector of a quadrant. -/
inductive TelPoint where
  | source (src : Fin 2048)
  | collector (q : Fin 4)
  deriving DecidableEq, Repr

/-- What the power manager reads and estimates in one action (R436, R444, R550, R560): package power of the last 100 µs, the estimates of a stack
step and of a step of each quadrant, and of demand at preference and at floor, in tenths of a watt and in mW; Tj of each quadrant; the
excess of each quadrant's partitions over their shares; the waiting fraction of Table 18-5; and the AVSBus selects whose frame has
failed twice. Log entry 4 (DESIGN CHOICE, safe). Log entry 104 (DESIGN CHOICE, safe). -/
structure PowerReading where
  p100 : Fin 65536
  stackStep : Nat
  quadStep : List Nat
  wantMw : Nat
  floorMw : Nat
  tj : List (Fin 256)
  excess : List Nat
  waitFrac : Fin 65536
  avsFail : List (Fin 9)
  deriving DecidableEq, Repr

/-- The commands of the part, in the order of the opcode table, those without operands last. Operands are what the command brings from outside the state: the place it
acts on, the value written, and what the spec leaves to the world (an error found, a frame received, a reading). -/
inductive Instr where
  /-- DCS_REGISTER_WRITE (R11): A write to a DCS register that has no row of its own takes effect by the access codes of its fields. -/
  | dcsRegisterWrite (addr : Word) (size : Nat) (value : Word)
  /-- HANDSHAKE_STEP (R39): A self-timed stage passes data to its successor by one request toggle and one acknowledge toggle. -/
  | handshakeStep (p : Fin 72) (stage : Nat) (place : Option (List Byte))
  /-- CROSSING_TOKEN (R52): A token crosses between the grid and a synchronous island through a crossing queue. -/
  | crossingToken (island : Fin 60) (toIsland : Bool) (tok : Option (List Byte)) (take : Bool)
  /-- PACER_PERMIT (R46): In fixed-rate mode the pacer adds the set rate to its phase accumulator in each oscillator period and issues a permit for each whole unit. -/
  | pacerPermit (p : Fin 72)
  /-- TRIM_LOCK (R45): The local oscillator reaches its trim tolerance and TRIM_LOCKED is set. -/
  | trimLock (p : Fin 72)
  /-- PACER_CTRL_WRITE (R48): A write to FLD_PACER_CTRL changes the pacer setting within 1 µs, or holds it for the next heat boundary, and applies it to every gang member. -/
  | pacerCtrlWrite (p : Fin 72) (value : Word)
  /-- RATE_DISTURBED (R49): The rate monitor finds the natural rate below the set rate, and the Field runs at its natural rate, sets RATE_DISTURBED and flags macro completion records. -/
  | rateDisturbed (p : Fin 72) (natural : Fin 65536)
  /-- RATE_RECOVERED (R49): The natural rate rises above the set rate again and the Field returns to the set rate. -/
  | rateRecovered (p : Fin 72) (natural : Fin 65536)
  /-- RATE_MON_UPDATE (R49): Every 65,536 oscillator periods FLD_RATE_MON takes the measured natural and actual rates. -/
  | rateMonUpdate (p : Fin 72) (natural actual : Fin 65536)
  /-- SEQ_ISSUE_POST (R112): A write to FLD_SEQ_ISSUE posts a macro descriptor into an array's queue, or sets ISSUE_OVERRUN when the queue or share is full. -/
  | seqIssuePost (p : Fin 72) (a : Fin 2) (value : Word)
  /-- GRID_POST (R183): A data token reaching a grid port bound as a post port posts the lane-0 word to the bound target for the binding's context. -/
  | gridPost (p : Fin 72) (g : Fin 16)
  /-- GP_POST_BIND (R183): A write to FLD_GP_POST binds a grid port as a post port, or leaves the register unchanged for a bad target or a double binding. -/
  | gpPostBind (p : Fin 72) (g : Fin 16) (value : Word)
  /-- MACRO_ISSUE (R113): The tile sequencer takes a macro from its queue, snapshots the shape registers and makes the checks at issue. -/
  | macroIssue (p : Fin 72) (a : Fin 2)
  /-- B_TILE_LOAD (R88): The next stationary B tile loads into the cells' second registers, one array row per step. -/
  | bTileLoad (p : Fin 72) (a : Fin 2) (ecc : Ecc)
  /-- KTILE_RUN (R120): The passes of one K-tile of an output tile run through the array and add their groups into the slot. -/
  | ktileRun (p : Fin 72) (a : Fin 2) (residue : Option (Fin 130)) (ecc : Ecc)
  /-- SLOT_RESUME (R99): A spilled tile is loaded back from its completed frame and accumulation continues. -/
  | slotResume (p : Fin 72) (a : Fin 2) (ecc : Ecc)
  /-- TILE_DRAIN (R97): A FULL slot drains row by row through the output chain once the drain path is free, and becomes FREE. -/
  | tileDrain (p : Fin 72) (a : Fin 2) (n : Fin 8) (ecc : Ecc)
  /-- TREE_COMBINE (R102): A reduction-tree node adds two part results once both have arrived. -/
  | treeCombine (c : Fin 64) (tree : Fin 256) (tidx level pos : Nat)
  /-- ARRAY_SUSPEND (R108): A suspension request takes effect at the next K-tile boundary, and the context's slots become HELD or are spilled. -/
  | arraySuspend (p : Fin 72) (a : Fin 2) (slot : Fin 4) (mask : Fin 256) (eccs : List (Fin 8 × Ecc))
  /-- HALO_EXCHANGE (R134): Once the neighbour has issued a matching macro, the sequencer sends its halo lines, and it reads A when its receive regions are full. -/
  | haloExchange (p : Fin 72) (a : Fin 2) (i : Fin 4)
  /-- MACRO_COMPLETE (R138): After the last tile drains, or after a fault following issue, the sequencer writes the completion record. -/
  | macroComplete (p : Fin 72) (a : Fin 2)
  /-- PAIR_ISSUE (R141): A PAIR head and its partner on the other array issue together once both are present. -/
  | pairIssue (p : Fin 72)
  /-- PAIR_VISIT (R144): A dY tile is fetched once and delivered to MA0 as A rows and to MA1 as stationary B. -/
  | pairVisit (p : Fin 72)
  /-- PAIR_SUSPEND (R146): A paired macro suspends at a visit boundary and its pair buffer is discarded. -/
  | pairSuspend (p : Fin 72)
  /-- PAIR_PARTNER_STOP (R147): The partner of a faulted member stops at the next visit boundary with FLT_PAIR_PARTNER. -/
  | pairPartnerStop (p : Fin 72)
  /-- ENG_ISSUE_POST (R159): A write to FLD_ENG_ISSUE posts a descriptor into the vector or row engine queue, or sets ISSUE_OVERRUN. -/
  | engIssuePost (p : Fin 72) (e : Fin 2) (value : Word)
  /-- ENG_OP_ISSUE (R160): An engine takes a descriptor, snapshots the shape registers and makes its checks at issue. -/
  | engOpIssue (p : Fin 72) (e : Fin 2)
  /-- VE_CHAIN_VECTOR (R171): The vector engine passes one vector through the chain's stages and sink. -/
  | veChainVector (p : Fin 72) (ecc : Ecc) (u : Fin 32) (q : Fin 4) (leg : Fin 8)
  /-- RE_SEGMENT (R174): The row engine processes one segment of one pass of a row group. -/
  | reSegment (p : Fin 72) (ecc : Ecc)
  /-- ENG_SUSPEND (R173): An engine operation suspends at a vector or segment boundary. -/
  | engSuspend (p : Fin 72) (e : Fin 2) (spill : Bool)
  /-- ENG_COMPLETE (R163): After its writes are accepted, an engine writes the completion record and arrives at its hurdle. -/
  | engComplete (p : Fin 72) (e : Fin 2)
  /-- CU_STEP (R190): A compute unit takes its queue heads, passes one token through its stages and delivers at most one token. -/
  | cuStep (p : Fin 72) (u : Fin 16)
  /-- LEG_SWITCH (R208): A unit switches to its next leg on quota or LEG baton once the old leg's last token has left the pipeline. -/
  | legSwitch (p : Fin 72) (u : Fin 32)
  /-- AG_TOKEN (R200): A memory-unit address generator reads or writes one 128-byte token; `eccs` is what the check of the words
  it reads finds, 0 to 4 those of the token, 5 and 6 those of the index array; a word not named is good. -/
  | agToken (p : Fin 72) (m : Fin 16) (g : Fin 4) (eccs : List (Fin 8 × Ecc))
  /-- AG_RING_SLOT (R203): A ring-target generator takes a slot of its ring once one is available, and publishes or frees it after its step. -/
  | agRingSlot (p : Fin 72) (m : Fin 16) (g : Fin 4)
  /-- STALL_COUNT_TICK (R211): In each oscillator period a stall counter whose condition holds advances. -/
  | stallCountTick (p : Fin 72)
  /-- GRID_CNT_CLEAR (R212): A write to FLD_GRID_CNT_CLEAR zeroes the selected stall counters and flags. -/
  | gridCntClear (p : Fin 72) (units queues : Bool)
  /-- NO_PROGRESS_WINDOW (R213): The no-progress window of a context expires and the detector snapshots its wait-for edges. -/
  | noProgressWindow (p : Fin 72) (slot : Fin 4)
  /-- RECONF_ISSUE_POST (R222): A write to FLD_RECONF_ISSUE posts a region record to the reconfiguration port's queue. -/
  | reconfIssuePost (p : Fin 72) (value : Word)
  /-- REGION_START (R223): The port takes a region record, checks it, makes border queues refuse outside entries and appends SEALs. -/
  | regionStart (p : Fin 72)
  /-- REGION_DRAINED (R224): Every region leg is sealed and every SEAL consumed or absorbed, so the border is held and the new legs are written. -/
  | regionDrained (p : Fin 72)
  /-- DRAIN_TIMEOUT (R225): The drain timeout expires and leftovers are written to Silt with TIMED_OUT set. -/
  | drainTimeout (p : Fin 72)
  /-- WALK_ISSUE_POST (R230): A write to FLD_WALK_ISSUE posts a walk descriptor to the walker's queue. -/
  | walkIssuePost (p : Fin 72) (value : Word)
  /-- WALK_START (R232): The walker takes a walk descriptor and makes its checks at issue. -/
  | walkStart (p : Fin 72)
  /-- WALK_EDGE_STEP (R233): The walker processes one edge or node of the graph. -/
  | walkEdgeStep (p : Fin 72)
  /-- WALK_COMPLETE (R231): The walk writes its labels, its completion record and its hurdle arrival. -/
  | walkComplete (p : Fin 72)
  /-- BANK_ACCESS (R235): A Field-memory bank serves one access in one bank step, granting contenders in rotation. -/
  | bankAccess (p : Fin 72) (b : Fin 64) (rs : List BankReq)
  /-- BANK_WAKE_DONE (R250): A waking bank becomes ACTIVE, zeroed if it came from OFF, and the held access proceeds. -/
  | bankWakeDone (p : Fin 72) (b : Fin 64)
  /-- BANK_IDLE_EXPIRY (R247): An AUTO bank idle for 2^IDLE_LOG2 periods sends its gate fence towards retention. -/
  | bankIdleExpiry (p : Fin 72) (b : Fin 64)
  /-- GATE_FENCE_ACK (R248): A DMA engine acknowledges a bank's gate fence, and the bank enters its low-power state once all four have done so. -/
  | gateFenceAck (p : Fin 72) (b : Fin 64) (d : Fin 4)
  /-- SLICE_MODE_WRITE (R238): A write to FLD_FM_SLICE_MODE sets a pending slice setting, or leaves the register unchanged for a bad cache count. -/
  | sliceModeWrite (p : Fin 72) (value : Word)
  /-- CACHE_ACCESS (R239): A VA access of a cache-enabled context hits or fills a line of the Field-memory cache. -/
  | cacheAccess (p : Fin 72) (slot : Fin 4) (va n : Nat) (bs : Option (List Byte)) (lineEcc : Ecc)
  /-- FLUSH (R241): Range operation FLUSH writes back the dirty bytes of the context's lines in the range. -/
  | flush (p : Fin 72) (slot : Fin 4)
  /-- INVAL (R241): Range operation INVAL discards the context's lines in the range. -/
  | inval (p : Fin 72) (slot : Fin 4)
  /-- FLUSH_INVAL (R241): Range operation FLUSH_INVAL flushes and then invalidates the range. -/
  | flushInval (p : Fin 72) (slot : Fin 4)
  /-- ZERO (R241): Range operation ZERO writes zeros over a Field-memory offset range. -/
  | zero (p : Fin 72)
  /-- FLUSH_INVAL_CTX (R241): Range operation FLUSH_INVAL_CTX flushes and invalidates every line of the context. -/
  | flushInvalCtx (p : Fin 72) (slot : Fin 4)
  /-- FLUSH_INVAL_ALL (R241): Range operation FLUSH_INVAL_ALL flushes and invalidates every line of every context. -/
  | flushInvalAll (p : Fin 72)
  /-- CMO_DONE (R241): A range operation ends and sets DONE, with ERR or RANGE_ERR as it found. -/
  | cmoDone (p : Fin 72)
  /-- FM_SCRUB_TICK (R246): The patrol scrubber reads and corrects the next granule of Field memory or MU storage. -/
  | fmScrubTick (p : Fin 72) (ecc : Ecc) (word : Fin 8)
  /-- CH_OPEN (R253): A posted OPEN descriptor checks and opens a channel, resetting its offsets and advancing its generation. -/
  | chOpen (p : Fin 72) (value : Word)
  /-- CH_CLOSE (R269): A posted CLOSE descriptor marks both ends of a channel CLOSING. -/
  | chClose (p : Fin 72) (value : Word)
  /-- CH_OPEN_ACK (R254): The sender's endpoint acknowledges set-up and the channel reads open. -/
  | chOpenAck (p : Fin 72) (a : OpenAck)
  /-- CH_SEND (R262): A write to FLD_CH_SEND sends a prepared record on a send endpoint. -/
  | chSend (p : Fin 72) (value : Word)
  /-- LEG_RECORD_SEND (R262): A leg sends a record as a header token and payload tokens through a send-endpoint grid port. -/
  | legRecordSend (p : Fin 72) (g : Fin 16)
  /-- RECORD_PLACE (R260): Once credit covers it, a record, with a PAD where needed, is written into the ring and WPTR advances. -/
  | recordPlace (p : Fin 72) (n : Fin 32)
  /-- CREDIT_UPDATE (R258): A credit update returns freed ring bytes to the sending endpoint. -/
  | creditUpdate (p : Fin 72) (n : Fin 32)
  /-- RPTR_WRITE (R263): A write to FLD_CH_RPTR releases records, or sets RPTR_ERR for a bad value. -/
  | rptrWrite (p : Fin 72) (n : Fin 32) (value : Word)
  /-- SELECT_DELIVER (R265): A select group with DELIVER sends the chosen record as tokens through its bound grid port. -/
  | selectDeliver (p : Fin 72) (g : Fin 16) (u : Fin 32) (q : Fin 4) (leg : Fin 8)
  /-- ARRIVE (R272): ARRIVE adds to a hurdle's COUNT, or faults FLT_HURDLE_OVER beyond EXPECTED. -/
  | arrive (p : Fin 72) (src : HurdleSrc)
  /-- CLAIM (R272): CLAIM subtracts from COUNT at once, or faults FLT_HURDLE_UNDER. -/
  | claim (p : Fin 72) (src : HurdleSrc)
  /-- HURDLE_WAIT (R272): WAIT joins a hurdle's waiter queue, or is refused with FLT_HURDLE_UNDER when n exceeds EXPECTED. -/
  | hurdleWait (p : Fin 72) (g : Fin 16)
  /-- WAIT_COMPLETE (R272): A waiter at the head of the queue finds COUNT large enough, subtracts n and completes. -/
  | waitComplete (p : Fin 72) (h : Fin 256)
  /-- DMA_ISSUE_POST (R279): A write to FLD_DMA_ISSUE posts a DMA descriptor, or sets ISSUE_OVERRUN when full. -/
  | dmaIssuePost (p : Fin 72) (e : Fin 4) (value : Word)
  /-- COPY (R280): A COPY descriptor is issued and checked, and its transfer begins. -/
  | copy (p : Fin 72) (e : Fin 4)
  /-- RELAY (R292): A RELAY descriptor is issued and checked, and its chain is set up. -/
  | relay (p : Fin 72) (e : Fin 4)
  /-- FILL (R281): A FILL descriptor is issued and checked, and writes its pattern. -/
  | fill (p : Fin 72) (e : Fin 4)
  /-- RELAY_RESERVE (R293): The head reserves a relay entry at every station once entries are free. -/
  | relayReserve (p : Fin 72) (e : Fin 4)
  /-- DMA_GRANULE (R283): A DMA granule is read and written, and BYTES_DONE advances over the accepted prefix. -/
  | dmaGranule (p : Fin 72) (e : Fin 4) (u : Fin 32) (q : Fin 4) (leg : Fin 8)
  /-- DMA_SUSPEND (R284): A DMA stops at a granule boundary and writes a record with SUSPENDED set. -/
  | dmaSuspend (p : Fin 72) (e : Fin 4)
  /-- DMA_COMPLETE (R285): A finished DMA writes its completion record and arrives at its hurdle. -/
  | dmaComplete (p : Fin 72) (e : Fin 4)
  /-- RELAY_GRANULE (R294): A relay station lands a granule in its slot and forwards it to the next station. -/
  | relayGranule (p : Fin 72) (k : Fin 8)
  /-- STREAM_ARBITRATE (R296): When the network attachment can take a granule request, the arbiter chooses among ready streams. -/
  | streamArbitrate (p : Fin 72)
  /-- RING_RELEASE (R290): The ring's WAIT on its release hurdle completes and frees the oldest published slot. -/
  | ringRelease (p : Fin 72) (n : Fin 16)
  /-- RING_PRODUCE (R289): FLD_RING_OP PRODUCE takes slot HEAD and publishes it with LEN, or sets OP_ERR. -/
  | ringProduce (p : Fin 72) (n : Fin 16) (slot : Fin 4) (len : Fin 16777216)
  /-- RING_FREE (R290): FLD_RING_OP FREE frees the oldest published slot, or sets OP_ERR. -/
  | ringFree (p : Fin 72) (n : Fin 16) (slot : Fin 4)
  /-- STACK_READ (R299): A stack serves a read of a 64-byte transfer. -/
  | stackRead (k : Fin 32) (a : Nat) (by' : Option Requester) (ecc : Ecc)
  /-- STACK_WRITE (R301): A stack accepts a write into its pseudo-channel queue. -/
  | stackWrite (k : Fin 32) (a : Nat) (bs : List Byte) (by' : Option Requester) (ecc : Ecc)
  /-- GATHER (R310): A gather request of up to 32 addresses is read and returned in request order. -/
  | gather (k : Fin 32) (as : List Nat) (by' : Option Requester) (ecc : Ecc)
  /-- SCATTER_ADD (R311): A scatter-add adds each valid element of a token into stack memory indivisibly, from a VA on. -/
  | scatterAdd (va fmt mask : Nat) (tok : List Byte) (r : Requester)
  /-- ATOMIC (R313): An atomic acts on an aligned 64-bit word at a VA and returns its old value. -/
  | atomic (va op x new : Nat) (r : Requester)
  /-- STACK_REFRESH (R305): The logic die refreshes a row of a bank at the period the stack temperature sets. -/
  | stackRefresh (k : Fin 32) (pc : Fin 32) (bank : Fin 64) (row : Fin 12288)
  /-- STACK_TEMP_UPDATE (R305): Every 1 ms the stack reports its hottest die temperature and sets HOT above 95 °C. -/
  | stackTempUpdate (k : Fin 32) (t : Fin 256)
  /-- STACK_SCRUB_PAGE (R306): The stack patrol scrubber reads and corrects one page. -/
  | stackScrubPage (k : Fin 32) (ecc : Ecc) (xfer : Fin 32)
  /-- DIE_COPY_START (R307): STK_SPARE_CTRL START begins copying a logical die to the spare die. -/
  | dieCopyStart (k : Fin 32) (die : Fin 16)
  /-- DIE_COPY_DONE (R307): The last row is copied and the die map switches to the spare. -/
  | dieCopyDone (k : Fin 32)
  /-- ROW_REMAP (R308): STK_ROW_REMAP START holds a row's accesses and copies it to a spare row, or sets NO_SPARE. -/
  | rowRemap (k : Fin 32) (pc : Fin 32) (bank : Fin 64) (row : Fin 12288)
  /-- ROW_REMAP_DONE (R308): The remapped row is redirected and its held accesses are released. -/
  | rowRemapDone (k : Fin 32)
  /-- STACK_IDLE_EXPIRY (R316): An AUTO stack idle for 2^IDLE_LOG2 interface clocks enters SELF_REFRESH. -/
  | stackIdleExpiry (k : Fin 32)
  /-- STACK_WAKE (R317): A stack woken by an access becomes ACTIVE and the held access proceeds. -/
  | stackWake (k : Fin 32)
  /-- TLB_WALK (R331): A TLB miss walks the translation tables and fills the TLB. -/
  | tlbWalk (p : Fin 72) (slot : Fin 4) (agent : Fin 8) (index : Fin 64) (va : Nat) (need : Fin 4)
  /-- FAULT_QUEUE_WRITE (R334): A stopped agent writes its fault-queue entry once the queue has space. -/
  | faultQueueWrite (q : Fin 4)
  /-- INVAL_RANGE (R332): XLT_INVAL_CTRL scope 1 invalidates one context's range in every TLB and walk cache. -/
  | invalRange (c : Fin 64)
  /-- INVAL_CONTEXT (R332): XLT_INVAL_CTRL scope 2 invalidates a whole context. -/
  | invalContext (c : Fin 64)
  /-- RESOLVE_RETRY (R335): XLT_RESOLVE RETRY resumes the context's suspended agents to repeat their accesses, firmware having mapped zeroed pages
  (VA and part offset) of the demand regions they touch. -/
  | resolveRetry (c : Fin 64) (pages : List (Nat × Nat))
  /-- RESOLVE_FAIL (R335): XLT_RESOLVE FAIL stops the context's suspended agents with their recorded codes. -/
  | resolveFail (c : Fin 64)
  /-- REMOTE_RETRY_TIMER (R337): After RETRY_US a Field repeats a remote access answered NOT_PRESENT, faulting once RETRY_LIMIT is reached. -/
  | remoteRetryTimer (p : Fin 72) (agent : Fin 8) (index : Fin 64)
  /-- CONTEXT_DESCHEDULE (R339): The control core stops a context issuing and its agents stop at their next restart points. -/
  | contextDeschedule (c : Fin 64)
  /-- CONTEXT_DESCHEDULED (R339): The last agent of the context stops and another resident context runs. -/
  | contextDescheduled (c : Fin 64)
  /-- PORT_TRAINING (R342): A Quipel port with EN set trains, deskews and exchanges credits and identity. -/
  | portTraining (n : Fin 4)
  /-- LINK_UP (R342): Training completes and the Quipel link carries traffic. -/
  | linkUp (n : Fin 4) (dev : Fin 1024) (port : Fin 4) (switch nodeHost : Bool)
  /-- LANE_ERROR_CHECK (R343): Each second a receiver measures each lane's symbol error ratio. -/
  | laneErrorCheck (n : Fin 4) (lane : Fin 5) (serLog : Fin 16) (exceeded : Bool)
  /-- QPL_STEER (R343): QPL_STEER START requests that a lane be moved onto the spare. -/
  | qplSteer (n : Fin 4) (lane : Fin 5) (dir : Fin 2)
  /-- STEER_DONE (R343): A lane change completes and sets DONE. -/
  | steerDone (n : Fin 4)
  /-- FLIT_RECEIVE (R347): A receiver accepts an in-order flit with good CRC, or discards it and sends a NAK. -/
  | flitReceive (n : Fin 4) (bs : List Byte) (bad : List (Fin 272))
  /-- RETRAIN_TIMEOUT (R347): A retrain not complete within 10 ms takes the link down. -/
  | retrainTimeout (n : Fin 4)
  /-- FLIT_SEND (R349): A sender sends a flit from the chosen virtual channel holding a credit. -/
  | flitSend (n : Fin 4)
  /-- FLIT_FORWARD (R362): A part forwards torus traffic from port to port across its Field network. -/
  | flitForward (n : Fin 4) (vc : Fin 4)
  /-- QPL_READ (R353): A holding part checks and performs a READ and answers RD_DATA. -/
  | qplRead (n : Fin 4)
  /-- QPL_WRITE (R353): A holding part checks and performs a WRITE and answers WR_ACK. -/
  | qplWrite (n : Fin 4)
  /-- QPL_ATOMIC (R353): A holding part checks and performs an ATOMIC and answers AT_DATA. -/
  | qplAtomic (n : Fin 4)
  /-- QPL_SCATTER_ADD (R353): A holding part checks and performs a SCATTER_ADD and answers SA_ACK. -/
  | qplScatterAdd (n : Fin 4)
  /-- MSG (R266): A remote channel record lands in its receive channel, stale generations discarded, and MSG_ACK is sent. -/
  | msg (n : Fin 4)
  /-- HURDLE_ARRIVE (R277): A remote arrival is checked by EN and GEN and applied, or refused. -/
  | hurdleArrive (n : Fin 4)
  /-- CH_CREDIT (R353): A CH_CREDIT message returns ring credit to a remote sending endpoint. -/
  | chCredit (n : Fin 4)
  /-- REDUCE (R356): A reduction node holds or combines a REDUCE operand and sends the result onward. -/
  | reduce (n : Fin 4)
  /-- PING (R352): A PING is answered with PONG copying its arguments. -/
  | ping (n : Fin 4)
  /-- PONG (R352): A PONG answer reaches the requester. -/
  | pong (n : Fin 4)
  /-- RD_DATA (R350): A READ response with its data reaches the requester by tag. -/
  | rdData (n : Fin 4)
  /-- WR_ACK (R350): A WRITE response reaches the requester by tag. -/
  | wrAck (n : Fin 4)
  /-- AT_DATA (R350): An ATOMIC response with the old value reaches the requester. -/
  | atData (n : Fin 4)
  /-- SA_ACK (R350): A SCATTER_ADD response reaches the requester. -/
  | saAck (n : Fin 4)
  /-- MSG_ACK (R350): A MSG response reaches the sender. -/
  | msgAck (n : Fin 4)
  /-- HA_ACK (R350): A HURDLE_ARRIVE response, or its REFUSED status, reaches the sender. -/
  | haAck (n : Fin 4)
  /-- QPL_RESPONSE_TIMEOUT (R368): A request without response after TIMEOUT_US fails with FLT_QPL_TIMEOUT. -/
  | qplResponseTimeout (n : Fin 4) (tag : Fin 2048)
  /-- QPL_LINK_DOWN (R368): A Quipel link goes down and every outstanding request on the port fails. -/
  | qplLinkDown (n : Fin 4)
  /-- ETH_LINK_UP (R370): The Ethernet port negotiates, trains and carries frames. -/
  | ethLinkUp (failed : Fin 256) (only400 : Bool)
  /-- ETH_FALLBACK (R371): A failed lane makes the port retrain at 400 Gbit/s. -/
  | ethFallback (lane : Fin 8)
  /-- RETRY_800 (R371): ETH_PORT_CTRL RETRY_800 retrains the port at 800 Gbit/s. -/
  | retry800 (failed : Fin 256)
  /-- FRAME_RECEIVE (R372): The MAC accepts or discards a received frame by size, FCS, address, tags and admission. -/
  | frameReceive (f : EthFrame)
  /-- PFC_FRAME (R374): A received pause frame pauses or resumes transmission for a priority. -/
  | pfcFrame (pause resume : Fin 256) (sec : Option SecTag)
  /-- STAGING_COMPLETE (R470): A staging ends, sets DONE or FAILED and RESTART_NEEDED where due, and logs its outcome. -/
  | stagingComplete (body : StageBody) (sectorsBad : Nat)
  /-- HEAT_START (R412): A heat starts with its batch fixed, resetting grid state, hurdles, rings and recording channels. -/
  | heatStart (c : Fin 64)
  /-- HEAT_END_CHECKS (R418): After the last completion record the serving loop runs the end checks of the heat. -/
  | heatEndChecks (c : Fin 64) (outs : List SeqOut) (cut : Option (Fin 9))
  /-- GROUP_VOTE (R420): The leader receives a member's vote and decides COMMIT or ABANDON. -/
  | groupVote (c : Fin 64) (rcd : List Byte)
  /-- GROUP_DECISION (R421): A member receives the decision, records it in its decision word and acts on it. -/
  | groupDecision (c : Fin 64) (rcd : List Byte)
  /-- GROUP_VOTE_TIMEOUT (R421): GROUP_MS passes without a vote or read decision, so the leader abandons or resends. -/
  | groupVoteTimeout (c : Fin 64) (read : List (Fin 64))
  /-- LEADER_LOST (R422): A member VOTED for 16 × GROUP_MS with failing requests records FLT_GROUP_LOST and reads decision words. -/
  | leaderLost (c : Fin 64) (answers : List (Option (List Byte)))
  /-- DECISION_WORD_POLL (R422): A member that lost its leader reads the decision words again every GROUP_MS. -/
  | decisionWordPoll (c : Fin 64) (answers : List (Option (List Byte)))
  /-- HEAT_ABANDON (R423): Firmware stops the agents, discards shadow state and restores channels, then replays, re-dispatches or rejects. -/
  | heatAbandon (c : Fin 64)
  /-- HEAT_TIMEOUT (R426): A heat scheduled longer than HEAT_LIMIT_MS is abandoned with FLT_HEAT_TIMEOUT. -/
  | heatTimeout (c : Fin 64)
  /-- PREEMPT_WAIT_EXPIRY (R407): A ready context has waited PREEMPT_100US × 100 µs, forcing pre-emption of the running context with the greatest vt. -/
  | preemptWaitExpiry (p : Fin 72) (c : Fin 64)
  /-- BUSY_CHARGE (R408): A busy Field-step charges each active partition's engine-time counter. -/
  | busyCharge (p : Fin 72) (active : Fin 16)
  /-- BUCKET_REFILL (R410): Every 128 oscillator periods a bucket gains RATE bytes up to its depth. -/
  | bucketRefill (p : Fin 72) (b : Fin 8)
  /-- CONTEXT_LOAD (R403): Firmware loads a context onto its Fields after zeroing the ranges it grants. -/
  | contextLoad (c : Fin 64)
  /-- CTX_MAP_WRITE (R404): A write to FLD_CTX_MAP clearing VALID discards every queued entry of the slot. -/
  | ctxMapWrite (p : Fin 72) (k : Fin 4) (value : Word)
  /-- POWER_MANAGER_ACTION (R436): Every 100 µs the power manager lowers or raises a quadrant point or stack share to hold the budget. -/
  | powerManagerAction (r : PowerReading)
  /-- DOM_REQ_WRITE (R430): A write to PWR_DOM_REQ turns domains on or off, refusing offs whose condition fails. -/
  | domReqWrite (w : Fin 2) (value : Word)
  /-- DOMAIN_READY (R429): A switched domain completes power-on and reads ready. -/
  | domainReady (n : Fin 50)
  /-- DOMAIN_FAIL (R430): A domain not ready within ten times its typical time raises FLT_PWR_DOMAIN. -/
  | domainFail (n : Fin 50)
  /-- ENERGY_ATTRIBUTION (R440): Every 1 ms measured energy is attributed to contexts, partitions and the unattributed counter. -/
  | energyAttribution (total : Nat) (groups : List Nat)
  /-- OVER_TEMPERATURE_TRIP (R446): A comparator crossing its threshold stops the quadrant's grid and powers it down. -/
  | overTemperatureTrip (q : Fin 4)
  /-- TRIP_RECOVERY (R446): After Tj stays below 95 °C for 1 s the quadrant is restored and its heats replayed. -/
  | tripRecovery (q : Fin 4)
  /-- POR_RELEASE (R464): POR_N released with rails and clock ready samples BOOT_MODE and starts the start-up. -/
  | porRelease (strap : Fin 4) (b : BootInput)
  /-- FW_TRIAL_END (R473): After 60 s without fault a trial slot becomes active, or a fault returns every core to the previous slot. -/
  | fwTrialEnd (fault : Bool)
  /-- FIELD_MIGRATION (R502): Firmware begins migrating a logical Field to a spare, loading legs and holding contexts at boundaries. -/
  | fieldMigration (q : Fin 4)
  /-- MIGRATE (R502): DEV_MIGRATE_CTRL START requests a planned migration. -/
  | migrate (value : Word)
  /-- MIGRATE_WAIT_EXPIRY (R503): After MIGRATE_WAIT_MS contexts still within a heat are descheduled for the copy. -/
  | migrateWaitExpiry (q : Fin 4)
  /-- MIGRATION_COPY_DONE (R503): Field and leg state are copied, routes switch to the new Field and the old one retires. -/
  | migrationCopyDone (q : Fin 4) (error : Bool)
  /-- HEARTBEAT_MISS (R508): A control core missing three heartbeats has failed and a spare takes its quadrant. -/
  | heartbeatMiss (n : Fin 6)
  /-- LEG_PARITY_UPSET (R513): A leg parity error stops the leg with FLT_LEG_UPSET. -/
  | legParityUpset (p : Fin 72) (u : Fin 32) (x : Fin 8)
  /-- LEG_SCRUB (R514): A scrub engine reads one leg every PACE_US and checks its CRC. -/
  | legScrub (e : Fin 8) (flips : List (Fin 2048)) (copy peerBad : Bool)
  /-- SEAM_DIRECTION_FAIL (R518): A seam direction resending 16 times or losing lock fails and its routes are reopened the other way. -/
  | seamDirectionFail (d : Fin 8)
  /-- SEAM_RETRAIN (R518): Every 10 s a failed seam retrains, and routes are restored when it carries traffic. -/
  | seamRetrain (d : Fin 8) (ok : Bool)
  /-- COLLECTOR_WRITE (R524): A telemetry stage takes a record onward towards the buffer. -/
  | collectorWrite (at' : TelPoint)
  /-- GAP_RECORD (R527): A GAP record is emitted 1 ms after the first drop or 10 ms after the last. -/
  | gapRecord (at' : Option TelPoint) (level : Fin 4)
  /-- ALARM_PERIODIC_RECORD (R529): A slot whose count changes writes a cumulative ALARM record at most once per second. -/
  | alarmPeriodicRecord (n : Fin 256)
  /-- TEL_ALARM_ACK (R530): A write to TEL_ALARM_ACK acknowledges and frees one slot or every slot. -/
  | telAlarmAck (value : Word)
  /-- EPOCH_WRITE (R534): A write to TEL_EPOCH_HI applies both halves of the wall-time offset. -/
  | epochWrite (value : Word)
  /-- RAIL_FAULT (R554): A rail leaving its range stops the quadrant or resets the part. -/
  | railFault (r : Fin 10)
  /-- SET_ADDRESS (R559): SMBus SET_ADDRESS sets the DCS address for reads. -/
  | setAddress (addr : Word)
  /-- SMB_ALARM_ACK (R559): SMBus ALARM_ACK writes TEL_ALARM_ACK. -/
  | smbAlarmAck (slot : Byte) (all : Bool)
  /-- JTAG_INSTRUCTION (R562): A TAP instruction loads, with land-driving instructions taken as BYPASS unless permitted. -/
  | jtagInstruction (i : TapInstr)
  /-- LANE_LOSS_OF_LOCK (R343): A Quipel lane loses lock and its logical position is steered onto the spare, or the direction retrains narrower. -/
  | laneLossOfLock (n : Fin 4) (dir : Fin 2) (lane : Fin 5)
  /-- QPL_TAG_RELEASE (R368): A tag held out of use after a response timeout becomes free again once a further TIMEOUT_US has passed. -/
  | qplTagRelease (n : Fin 4) (tag : Fin 2048)
  /-- DCQCN_RATE_RECOVERY (R375): The 55 µs DCQCN recovery period of a queue pair expires and its READ response rate is raised. -/
  | dcqcnRateRecovery (qp : Fin 16777216)
  /-- SUSPENDED_WAIT_LIMIT (R276): A context suspended on hurdle, halo or pair waits for 1,024 windows with no arrival is abandoned with FLT_STALL_EXTERNAL. -/
  | suspendedWaitLimit (c : Fin 64)
  /-- VBR_IN_RANGE (R533): VBR comes within its range, so the Bedrock counters start and any brown-out reset hold is released. -/
  | vbrInRange (b : BootInput)
  /-- RAILS_AND_CLOCK_READY (R552): Every rail and REFCLK_SYS have been within range for 1 ms, so a deferred POR_N release or a reset caused by a rail or clock fault ends and start-up begins. -/
  | railsAndClockReady (b : BootInput)
  /-- GRID_RAIL_RECOVERY (R554): A VDD_GRID rail that stopped its quadrant has been back in range for 1 s, and the quadrant is restored. -/
  | gridRailRecovery (q : Fin 4)
  /-- CONTROL_CORE_RESTART_DONE (R472): A control core restarted from the new firmware slot comes up and becomes the spare, or resumes its paused quadrant. -/
  | controlCoreRestartDone (n : Fin 6)
  /-- CONTROL_CORE_UNCORR_REPORT (R508): An active control core reports an uncorrectable error in its own memories, so it has failed and a spare takes its quadrant. -/
  | controlCoreUncorrReport (n : Fin 6)
  /-- INVAL_ALL (R332): XLT_INVAL_CTRL scope 3 invalidates every context. -/
  | invalAll
  /-- INVAL_DONE (R332): Accesses through removed entries have finished and the invalidation sets DONE. -/
  | invalDone
  /-- ETH_LINK_DOWN (R371): The Ethernet link goes down and FLT_ETH_LINK_DOWN is recorded. -/
  | ethLinkDown
  /-- FRAME_SEND (R374): The port sends a frame at its priority, holding paused traffic. -/
  | frameSend
  /-- CNP_RECEIVE (R375): A received congestion notification cuts a queue pair's READ response rate. -/
  | cnpReceive
  /-- ARP_REQUEST (R373): The part answers an ARP request for its address. -/
  | arpRequest
  /-- NEIGHBOUR_SOLICITATION (R373): The part answers an IPv6 Neighbour Solicitation for its address. -/
  | neighbourSolicitation
  /-- ECHO_REQUEST (R373): The part answers an ICMP or ICMPv6 echo request. -/
  | echoRequest
  /-- RDMA_WRITE (R378): An RDMA WRITE into a registered window is performed and acknowledged once accepted. -/
  | rdmaWrite
  /-- RDMA_READ (R378): An RDMA READ from a registered window is answered after earlier writes are accepted. -/
  | rdmaRead
  /-- RDMA_SEND (R379): A SEND is delivered as a DATA record to its queue pair's receive channel, or RNR-NAKed. -/
  | rdmaSend
  /-- CSP_DATAGRAM (R384): A CSP datagram is checked and its fragment is reassembled into a message. -/
  | cspDatagram
  /-- REASSEMBLY_TIMEOUT (R384): A message whose fragments are not all present within 10 ms is discarded without answer. -/
  | reassemblyTimeout
  /-- SUBMIT (R387): A SUBMIT is checked in order and admitted to the partition's queue or refused with a status. -/
  | submit
  /-- CANCEL (R393): A CANCEL removes a queued request at once or ends it at the next heat boundary. -/
  | cancel
  /-- CSP_STATUS (R391): A STATUS query is answered and may resend kept RESULT datagrams. -/
  | cspStatus
  /-- REQUEST_STATE_EXPIRY (R391): An ended request's state is dropped after 60 s. -/
  | requestStateExpiry
  /-- NONCE (R395): A NONCE request is answered with a fresh 48-byte nonce. -/
  | nonce
  /-- NONCE_EXPIRY (R395): A nonce expires 60 s after issue. -/
  | nonceExpiry
  /-- DCS_READ (R397): A verified DCS_READ returns the values of up to 64 registers. -/
  | dcsRead
  /-- DCS_WRITE (R396): A verified DCS_WRITE performs up to 64 writes in order, stopping at the first refused. -/
  | dcsWrite
  /-- SERVE_START (R427): SERVE_START starts serving for the partitions of the mask. -/
  | serveStart
  /-- SERVE_STOP (R427): SERVE_STOP stops serving, draining or cancelling at the next boundary. -/
  | serveStop
  /-- SET_SHARES (R427): SET_SHARES sets partition weights, effective at the next scheduling point. -/
  | setShares
  /-- LOAD_WEIGHTS (R427): LOAD_WEIGHTS queues a load heat that copies a window into the named state pairs. -/
  | loadWeights
  /-- POWER_GRANT (R439): POWER_GRANT sets the rack budget, subject to range and sequence rules, and answers with the power state. -/
  | powerGrant
  /-- TELEMETRY_SUBSCRIBE (R398): TELEMETRY_SUBSCRIBE replaces the subscription and begins exporting the named classes. -/
  | telemetrySubscribe
  /-- MACSEC_SAK (R381): MACSEC_SAK installs a secure association key and may select it for transmission. -/
  | macsecSak
  /-- ROCE_WINDOW (R377): ROCE_WINDOW sets a registered window and answers its rkey. -/
  | roceWindow
  /-- ROCE_QP (R376): ROCE_QP creates or destroys a queue pair. -/
  | roceQp
  /-- STAGE_IMAGE (R470): STAGE_IMAGE starts staging an image from a registered window into a slot. -/
  | stageImage
  /-- DEPLOYMENT_RECORD (R457): DEPLOYMENT_RECORD starts staging a new deployment record. -/
  | deploymentRecord
  /-- ATTEST (R487): ATTEST answers a signed quote of measurements and the device certificate. -/
  | attest
  /-- AUDIT_READ (R496): AUDIT_READ returns audit records and checkpoints from a first SEQ. -/
  | auditRead
  /-- INSTALLER_CLAIM (R485): ENROL kind 1 enrols the first installer key and sets CLAIMED. -/
  | installerClaim
  /-- OPERATOR_ADD (R484): ENROL kind 2 enrols an operator key. -/
  | operatorAdd
  /-- KEY_REVOKE (R483): ENROL kind 3 removes a key from the key table. -/
  | keyRevoke
  /-- INSTALLER_RELEASE (R486): ENROL kind 4 removes installer and operator keys, clears CLAIMED and stores NEXT_HASH. -/
  | installerRelease
  /-- MAKER_KEY_ADD (R484): ENROL kind 5 enrols a maker signing key. -/
  | makerKeyAdd
  /-- INSTALLER_KEY_ADD (R484): ENROL kind 6 enrols a further installer key. -/
  | installerKeyAdd
  /-- GRANT_EXPIRY (R439): A grant not renewed within TTL_MS expires and L falls back to DEFAULT_GRANT_W. -/
  | grantExpiry
  /-- POWER_RECORD (R439): Every 10 ms the part makes a POWER record with the grant answer body. -/
  | powerRecord
  /-- REG_ALERT_ASSERT (R442): REG_ALERT_N asserted clamps every pacer, commands OP0 and throttles the stacks within 1 µs. -/
  | regAlertAssert
  /-- ALERT_ESCALATE (R442): An alert lasting beyond 10 ms raises its alarm to MAJ. -/
  | alertEscalate
  /-- REG_ALERT_DEASSERT (R443): 100 µs after REG_ALERT_N deasserts, the quadrants and stacks are restored step by step. -/
  | regAlertDeassert
  /-- BROWN_OUT (R448): VBR below threshold for 10 µs holds the whole part in reset. -/
  | brownOut
  /-- EXT_SENSE_CROSSING (R448): EXT_SENSE beyond its threshold raises an alarm, an alert or a trip by ACTION. -/
  | extSenseCrossing
  /-- POR_ASSERT (R553): POR_N asserted for 10 µs or longer resets the part. -/
  | porAssert
  /-- WAIT_LOCK (R467): Start-up step WAIT_LOCK waits for every PLL of every island that is on. -/
  | waitLock
  /-- RELEASE_OUTPUTS (R467): Start-up step RELEASE_OUTPUTS lets FAULT_N, SMB_ALERT_N and SerDes outputs leave reset. -/
  | releaseOutputs
  /-- RELEASE_GRID (R466): Start-up step RELEASE_GRID starts the handshakes of every Field group that is on. -/
  | releaseGrid
  /-- ENABLE_WRITES (R465): Start-up step ENABLE_WRITES opens the gate for stack and NV writes. -/
  | enableWrites
  /-- POWER_ON (R467): Start-up step POWER_ON requests a domain and waits until it is ready. -/
  | powerOn
  /-- STARTUP_WAIT (R467): Start-up step WAIT waits 16 × ARG µs. -/
  | startupWait
  /-- END (R467): Start-up step END completes the start-up order. -/
  | endStep
  /-- STARTUP_STEP_FAIL (R467): A WAIT_LOCK or POWER_ON that fails to complete stops the order with FLT_CFG_STEP. -/
  | startupStepFail
  /-- QUADRANT_TAKEOVER (R472): During firmware handover a core on the new slot takes over a quadrant at its heat boundary. -/
  | quadrantTakeover
  /-- HJELMAR_LOCKSTEP (R512): A Hjelmar lockstep mismatch resets Hjelmar alone. -/
  | hjelmarLockstep
  /-- WEAR_COUNT_COPY (R500): Every 10 minutes wear counts are copied into the spare map. -/
  | wearCountCopy
  /-- TELEMETRY_EXPORT (R532): A TELEMETRY datagram sends pending alarms first, then records in SEQ order. -/
  | telemetryExport
  /-- BEDROCK_TICK (R533): Each tick advances the Bedrock seconds and sub-second counters. -/
  | bedrockTick
  /-- XTAL32K_START (R533): The crystal first oscillates and Bedrock moves its counters onto it at a tick boundary. -/
  | xtal32kStart
  /-- XTAL32K_STOP (R556): A stopped crystal moves Bedrock to its internal oscillator and records FLT_BRK_XTAL. -/
  | xtal32kStop
  /-- REFCLK_SYS_LOSS (R556): REFCLK_SYS absent or off tolerance for 10 µs resets the part. -/
  | refclkSysLoss
  /-- REFCLK_SD_LOSS (R556): A lost REFCLK_SD takes every SerDes port down. -/
  | refclkSdLoss
  /-- SMB_READ (R559): SMBus READ returns the register at the set address and advances it by 4. -/
  | smbRead
  /-- SMB_STATUS (R559): SMBus STATUS returns DEV_OK, FAULT_N and SMB_ALERT_N. -/
  | smbStatus
  /-- SMB_SCL_TIMEOUT (R559): SMB_SCL held low by the host beyond 35 ms resets the SMBus interface. -/
  | smbSclTimeout
  /-- EXT_SENSE_RETURN (R448): EXT_SENSE comes back within its threshold past its hysteresis, which ends an action-1 alert and lets the R443 restore begin. -/
  | extSenseReturn
  /-- REFCLK_SD_RETURN (R556): REFCLK_SD returns and every SerDes port trains again. -/
  | refclkSdReturn
  /-- HJELMAR_RESTART_DONE (R512): Hjelmar completes its restart from the boot ROM and takes MGMT requests again in place of QUEUE_FULL answers. -/
  | hjelmarRestartDone
  deriving DecidableEq, Repr

end Sys2Proof
end

