-- ==== Sys2Proof/Config.lean ====
section
/-!
DEFINITION. What an implementation fixes and the spec does not state, and the free values: constants with no body, so
that no proof can lean on a number for them. Each is named in the assumption log.
-/

namespace Sys2Proof.Config

/-- SILICON_REV of `DEV_ID`: fixed by the silicon, no value given. Log entry 9 (DESIGN CHOICE, safe). -/
opaque siliconRev : Nat

/-- ROM_ID of `SEC_ROM_ID`: fixed by the silicon, no value given. Log entry 9 (DESIGN CHOICE, safe). -/
opaque romId : Nat

/-- Is SiLU of negative zero the negative zero? The spec evaluates the formula in real arithmetic, which gives no sign. Log entry 17 (DESIGN CHOICE, safe). -/
opaque siluNegZero : Bool

/-- Is GELU of negative zero the negative zero? As for SiLU. Log entry 17 (DESIGN CHOICE, safe). -/
opaque geluNegZero : Bool

/-- What a lane of a token that is not valid reads as in a dataflow unit: the spec says it is neither computed nor written. Log entry 15 (DESIGN CHOICE, safe). -/
opaque idleLane : Nat → BitVec 32

/-- What a word of a walk's work area reads as where the spec leaves it undefined: labels after a fault, and the walker's private state. Log entry 16 (DESIGN CHOICE, safe). -/
opaque walkLabel : Nat → BitVec 32

/-- Which physical Fields of a quadrant the part's test leaves as spares: R498 says that it is not fixed. Indices 0 to 3 the first, 4 to 7 the
second, each taken modulo the places left. Log entry 13 (DESIGN CHOICE, safe). -/
opaque spareField : Nat → Nat

/-- A byte from the TRNG (R395): its place in the stream of bytes drawn. Log entry 14 (DESIGN CHOICE, safe). -/
opaque trng : Nat → BitVec 8

/-- A byte of a signature by the device identity key (R482): the signature's number, and the byte. ECDSA takes a secret key and a random number. Log entry 14 (DESIGN CHOICE, safe). Log entry 131 (DESIGN CHOICE, safe). -/
opaque signature : Nat → Nat → BitVec 8

/-- The maker's root public key, held in the mask ROM (R479). Log entry 9 (DESIGN CHOICE, safe). -/
opaque rootKey : Nat × Nat

/-- SHA-384 of the public key of the device identity (R455, R484), as a number. Log entry 9 (DESIGN CHOICE, safe). -/
opaque identityHash : Nat

/-- The device certificate in DER (R482). Log entry 9 (DESIGN CHOICE, safe). -/
opaque certificate : List (BitVec 8)

/-- SHA-384 of the mask ROM (R487). Log entry 9 (DESIGN CHOICE, safe). -/
opaque romHash : Nat

/-- SHA-384 of the spare map as stored (R487), by the number of its updates: the spec does not give the map's bytes. Log entry 9 (DESIGN CHOICE, safe). -/
opaque spareMapHash : Nat → Nat

/-- The share of the receive buffer of a priority (R374), in bytes: the spec does not say how the 4 MiB are divided. Log entry 90 (DESIGN CHOICE, unsafe). -/
opaque rxShare : Nat → Nat

/-- The replay window of MACsec reception (R381): the spec does not give its size. Log entry 91 (DESIGN CHOICE, unsafe). -/
opaque replayWindow : Nat

/-- The additive rate step of DCQCN in Mbit/s, and the periods of fast recovery (R375): the spec names the rules and not these values. Log entry 89 (PRESUMED, unsafe). -/
opaque dcqcnStep : Nat
/-- Log entry 89 (PRESUMED, unsafe). -/
opaque dcqcnFast : Nat

/-- The lane, and times 5 its direction, that a STEER of the peer names by its body (R343, R346): the spec lays out no such field. Log entry 145
(DEDUCED, unsafe). -/
opaque steerNames : List (BitVec 8) → Nat

/-- Have 10 microseconds passed since a window was last halved (R367), where the Bedrock tick does not tell? Log entry 158 (DESIGN CHOICE, safe). -/
opaque tenMicros : Nat → Bool

/-- The Ethernet lanes that do not work when a write of RETRY_800 makes the port train (R371): a property of the cable and of its peer. Log entry 30
(DESIGN CHOICE, unsafe). -/
opaque lanesFailed : Nat → Fin 256

/-- DETAIL of FLT_PWR_BROWNOUT after a fault of VDD_IO (R554) and after a brown-out of VBR (R448): neither rail has a select in Table 24-5. Log entry 119 (DESIGN CHOICE, unsafe). -/
opaque ioDetail : Nat
/-- Log entry 119 (DESIGN CHOICE, unsafe). -/
opaque vbrDetail : Nat

end Sys2Proof.Config
end

