-- ==== Sys2Proof/Machine/Arith.lean ====
section
/-!
DEFINITION. Number formats, exact values, rounding and conversion (chapter 3). A floating-point value is an exact dyadic
number, an infinity or NaN; every operation computes exactly and rounds once.
-/

namespace Sys2Proof.Machine

/-! Format codes (Table 3-1). -/

/-- Format code of INT4. -/
def fmtINT4 : Nat := 0x00
/-- Format code of INT8. -/
def fmtINT8 : Nat := 0x01
/-- Format code of INT32. -/
def fmtINT32 : Nat := 0x02
/-- Format code of FP8 E4M3. -/
def fmtE4M3 : Nat := 0x04
/-- Format code of FP8 E5M2. -/
def fmtE5M2 : Nat := 0x05
/-- Format code of BF16. -/
def fmtBF16 : Nat := 0x08
/-- Format code of FP16. -/
def fmtFP16 : Nat := 0x09
/-- Format code of FP32. -/
def fmtFP32 : Nat := 0x0A
/-- Format code of MXINT8. -/
def fmtMXINT8 : Nat := 0x10

/-- Is the code one of Table 3-1? -/
def fmtKnown (c : Nat) : Bool :=
  [0x00, 0x01, 0x02, 0x04, 0x05, 0x08, 0x09, 0x0A, 0x10, 0x11, 0x12, 0x13, 0x14, 0x15].contains c

/-- Is the format a microscaling one? -/
def fmtIsMx (c : Nat) : Bool := decide (0x10 ≤ c ∧ c ≤ 0x15)

/-- Is the format a plain integer one? -/
def fmtIsInt (c : Nat) : Bool := decide (c ≤ 0x02)

/-- May the format be a matrix operand (Table 3-1)? -/
def fmtOperand (c : Nat) : Bool := fmtKnown c && c != fmtINT32 && c != fmtFP32

/-- Element width in bits (Table 3-1). -/
def fmtWidth (c : Nat) : Nat :=
  if c = 0x00 ∨ c = 0x15 then 4
  else if c = 0x13 ∨ c = 0x14 then 6
  else if c = 0x08 ∨ c = 0x09 then 16
  else if c = 0x02 ∨ c = 0x0A then 32
  else 8

/-- Bytes that `n` packed elements of a format take (Table 3-2). -/
def fmtBytes (c n : Nat) : Nat := (fmtWidth c * n + 7) / 8

/-- Element `i` of a packed byte list (Table 3-2). -/
def elemAt (c : Nat) (bs : List Byte) (i : Nat) : Nat :=
  let o := fmtWidth c * i
  (leNat ((bs.drop (o / 8)).take 5) / 2 ^ (o % 8)) % 2 ^ fmtWidth c

/-- The packed bytes with element `i` replaced and every other bit kept (R60). -/
def elemPut (c : Nat) (bs : List Byte) (i v : Nat) : List Byte :=
  let w := fmtWidth c
  let o := w * i
  let k := (o % 8 + w + 7) / 8
  let old := leNat ((bs.drop (o / 8)).take k)
  bs.take (o / 8) ++ leBytes k (setBits old (o % 8 + w - 1) (o % 8) v) ++ bs.drop (o / 8 + k)

/-! Exact values. -/

/-- A floating-point value: NaN, an infinity, or the exact number `± m · 2^e`; a zero keeps its sign. -/
inductive Fv where
  | nan
  | inf (neg : Bool)
  | fin (neg : Bool) (m : Nat) (e : Int)
  deriving DecidableEq, Repr

/-- The largest number not above: `2^k` for a non-negative integer exponent. -/
def pow2 (k : Int) : Nat := 2 ^ k.toNat

/-- A dyadic number as an integer multiple of `2^u`, exact for `u` at or below its exponent. -/
def dyInt (neg : Bool) (m : Nat) (e u : Int) : Int :=
  let x : Int := (m * pow2 (e - u) : Nat)
  if neg then -x else x

/-- The value of an integer times `2^e`; zero is positive. -/
def Fv.ofInt (i e : Int) : Fv := .fin (decide (i < 0)) i.natAbs e

/-- Exact sum of two finite values; an exact zero is `+0` unless both are `-0` (IEEE 754 addition, R71). -/
def Fv.add : Fv → Fv → Fv
  | .nan, _ => .nan
  | _, .nan => .nan
  | .inf a, .inf b => if a = b then .inf a else .nan
  | .inf a, .fin .. => .inf a
  | .fin .., .inf b => .inf b
  | .fin a m e, .fin b n f =>
    let u := min e f
    let t := dyInt a m e u + dyInt b n f u
    if t = 0 then .fin (decide (m = 0) && decide (n = 0) && a && b) 0 0 else Fv.ofInt t u

/-- Negation. -/
def Fv.neg : Fv → Fv
  | .nan => .nan
  | .inf a => .inf (!a)
  | .fin a m e => .fin (!a) m e

/-- Exact product (R71). A zero has the sign of its factors' signs; an element of MXINT8 that is 0 counts as positive in it. Log entry 155 (DESIGN CHOICE,
unsafe). -/
def Fv.mul : Fv → Fv → Fv
  | .nan, _ => .nan
  | _, .nan => .nan
  | .inf a, .inf b => .inf (a != b)
  | .inf a, .fin b n _ => if n = 0 then .nan else .inf (a != b)
  | .fin a m _, .inf b => if m = 0 then .nan else .inf (a != b)
  | .fin a m e, .fin b n f => .fin (a != b) (m * n) (e + f)

/-- Is the value negative zero? -/
def Fv.isNegZero : Fv → Bool
  | .fin true 0 _ => true
  | _ => false

/-- Is the value zero? -/
def Fv.isZero : Fv → Bool
  | .fin _ 0 _ => true
  | _ => false

/-- Is `a < b`? Comparisons with NaN are false. -/
def Fv.lt : Fv → Fv → Bool
  | .nan, _ => false
  | _, .nan => false
  | .inf a, .inf b => a && !b
  | .inf a, .fin .. => a
  | .fin .., .inf b => !b
  | .fin a m e, .fin b n f => let u := min e f; decide (dyInt a m e u < dyInt b n f u)

/-- Is the value NaN? -/
def Fv.isNan : Fv → Bool
  | .nan => true
  | _ => false

/-- The exponent of the leading bit of a non-zero magnitude: `floor(log2 |v|)`. -/
def topExp (m : Nat) (e : Int) : Int := (Nat.log2 m : Int) + e

/-! Floating-point formats (Table 3-3). -/

/-- How a format spends its top codes. -/
inductive Specials where
  | ieee | e4m3 | none
  deriving DecidableEq, Repr

/-- The parameters of a floating-point format. `maxCode` is the code of its largest finite magnitude. -/
structure FFmt where
  eb : Nat
  mb : Nat
  bias : Int
  sp : Specials
  maxCode : Nat
  nanCode : Nat
  deriving DecidableEq, Repr

/-- FP8 E4M3. -/
def ffE4M3 : FFmt := ⟨4, 3, 7, .e4m3, 0x7E, 0x7F⟩
/-- FP8 E5M2. -/
def ffE5M2 : FFmt := ⟨5, 2, 15, .ieee, 0x7B, 0x7F⟩
/-- E2M3 elements. -/
def ffE2M3 : FFmt := ⟨2, 3, 1, .none, 0x1F, 0⟩
/-- E3M2 elements. -/
def ffE3M2 : FFmt := ⟨3, 2, 3, .none, 0x1F, 0⟩
/-- E2M1 elements. -/
def ffE2M1 : FFmt := ⟨2, 1, 1, .none, 0x7, 0⟩
/-- BF16. -/
def ffBF16 : FFmt := ⟨8, 7, 127, .ieee, 0x7F7F, 0x7FC0⟩
/-- FP16. -/
def ffFP16 : FFmt := ⟨5, 10, 15, .ieee, 0x7BFF, 0x7E00⟩
/-- FP32. -/
def ffFP32 : FFmt := ⟨8, 23, 127, .ieee, 0x7F7FFFFF, 0x7FC00000⟩

/-- The element format of a format code; integers have none. -/
def floatFmt (c : Nat) : Option FFmt :=
  match c with
  | 0x04 | 0x11 => some ffE4M3
  | 0x05 | 0x12 => some ffE5M2
  | 0x08 => some ffBF16
  | 0x09 => some ffFP16
  | 0x0A => some ffFP32
  | 0x13 => some ffE2M3
  | 0x14 => some ffE3M2
  | 0x15 => some ffE2M1
  | _ => none

/-- The value a code of a floating-point format spells (R63, R64, R65). -/
def FFmt.decode (f : FFmt) (c : Nat) : Fv :=
  let neg := bit c (f.eb + f.mb)
  let ex := (c / 2 ^ f.mb) % 2 ^ f.eb
  let fr := c % 2 ^ f.mb
  if f.sp = .ieee ∧ ex = 2 ^ f.eb - 1 then (if fr = 0 then .inf neg else .nan)
  else if f.sp = .e4m3 ∧ ex = 15 ∧ fr = 7 then .nan
  else if ex = 0 then .fin neg fr (1 - f.bias - f.mb)
  else .fin neg (fr + 2 ^ f.mb) ((ex : Int) - f.bias - f.mb)

/-- Rounding: to nearest even, or stochastic with R random bits and the lane's random value (R77, R82). -/
inductive RMode where
  | rne
  | sr (rbits r : Nat)
  deriving DecidableEq, Repr

/-- The magnitude `m · 2^e` rounded to a whole multiple of `2^u` (R77, R82). -/
def roundAt (md : RMode) (m : Nat) (e u : Int) : Nat :=
  if u ≤ e then m * pow2 (e - u)
  else
    let d := pow2 (u - e)
    let q := m / d
    let rem := m % d
    match md with
    | .rne => if d < 2 * rem ∨ (d = 2 * rem ∧ q % 2 = 1) then q + 1 else q
    | .sr rb r => if 2 ^ rb ≤ rem * 2 ^ rb / d + r then q + 1 else q

/-- The magnitude code of `m · 2^e` rounded as if the exponent had no upper limit (R77). -/
def FFmt.magCode (f : FFmt) (md : RMode) (m : Nat) (e : Int) : Nat :=
  if m = 0 then 0
  else
    let u := max (topExp m e - f.mb) (1 - f.bias - f.mb)
    let q := roundAt md m e u
    if q < 2 ^ f.mb then q else (u + f.mb + f.bias).toNat * 2 ^ f.mb + (q - 2 ^ f.mb)

/-- The sign bit of a format over a magnitude code. -/
def FFmt.signed (f : FFmt) (neg : Bool) (mag : Nat) : Nat := b2n neg * 2 ^ (f.eb + f.mb) + mag

/-- The infinity of a format that has one. -/
def FFmt.infCode (f : FFmt) : Nat := (2 ^ f.eb - 1) * 2 ^ f.mb

/-- Convert a value to a floating-point format (R77, R78, Table 3-6). -/
def FFmt.convert (f : FFmt) (md : RMode) (sat : Bool) : Fv → Nat
  | .nan => f.nanCode
  | .inf neg =>
    match f.sp with
    | .ieee => f.signed neg f.infCode
    | .e4m3 => if sat then f.signed neg f.maxCode else f.nanCode
    | .none => f.signed neg f.maxCode
  | .fin neg m e =>
    let c := f.magCode md m e
    if c ≤ f.maxCode then f.signed neg c
    else if sat ∧ f.mb ≠ 23 then f.signed neg f.maxCode
    else match f.sp with
      | .ieee => f.signed neg f.infCode
      | .e4m3 => f.nanCode
      | .none => f.signed neg f.maxCode

/-- Convert a value to a two's complement integer of `w` bits, rounded and saturated (R78, R79). -/
def intConvert (w : Nat) (md : RMode) : Fv → Nat
  | .nan => 0
  | .inf neg => if neg then 2 ^ (w - 1) else 2 ^ (w - 1) - 1
  | .fin neg m e =>
    let q := roundAt md m e 0
    if neg then wrapInt w (-(min q (2 ^ (w - 1)) : Nat)) else min q (2 ^ (w - 1) - 1)

/-- The value of an element code of a matrix operand, an accumulator or a conversion source. -/
def elemVal (c v : Nat) : Fv :=
  match floatFmt c with
  | some f => f.decode v
  | none =>
    if c = fmtMXINT8 then Fv.ofInt (signed 8 v) (-6)
    else Fv.ofInt (signed (fmtWidth c) v) 0

/-- Convert a value to an element code of a format without shared scales (R77 to R79). -/
def elemConvert (c : Nat) (md : RMode) (sat : Bool) (v : Fv) : Nat :=
  match floatFmt c with
  | some f => f.convert md sat v
  | none => intConvert (fmtWidth c) md v

/-! FP32 arithmetic, round-to-nearest-even (R72). -/

/-- A value as FP32. -/
def toF32 (v : Fv) : Nat := ffFP32.convert .rne false v

/-- The value of an FP32 word. -/
def f32v (w : Nat) : Fv := ffFP32.decode w

/-- FP32 addition. -/
def f32Add (a b : Nat) : Nat := toF32 ((f32v a).add (f32v b))

/-- FP32 subtraction. -/
def f32Sub (a b : Nat) : Nat := toF32 ((f32v a).add (f32v b).neg)

/-- FP32 multiplication. -/
def f32Mul (a b : Nat) : Nat := toF32 ((f32v a).mul (f32v b))

/-- FP32 fused multiply-add, rounded once. -/
def f32Fma (a b c : Nat) : Nat := toF32 (((f32v a).mul (f32v b)).add (f32v c))

/-- BF16 addition, rounded once. -/
def bf16Add (a b : Nat) : Nat := ffBF16.convert .rne false ((ffBF16.decode a).add (ffBF16.decode b))

/-- Is `a < b` as FP32? -/
def f32Lt (a b : Nat) : Bool := (f32v a).lt (f32v b)

/-- An INT32 word as FP32 (R72). -/
def i32ToF32 (w : Nat) : Nat := toF32 (Fv.ofInt (signed 32 w) 0)

/-- The default NaN of FP32 (R64). -/
def f32Nan : Nat := 0x7FC00000

/-- An integer clamped to the symmetric INT32 range, with whether it clamped (R62). -/
def i32Clamp (i : Int) : Nat × Bool :=
  if 2147483647 < i then (2147483647, true)
  else if i < -2147483647 then (wrapInt 32 (-2147483647), true)
  else (wrapInt 32 i, false)

/-- Saturating INT32 addition with whether it clamped (R62). -/
def i32SatAdd (a b : Nat) : Nat × Bool := i32Clamp (signed 32 a + signed 32 b)

/-! Operand pairs and group sums (R69 to R71). -/

/-- What a macro accumulates in. -/
inductive AccKind where
  | int32 | fp32
  deriving DecidableEq, Repr

/-- Formats of the fifth row of Table 3-4. -/
def fmtByte (c : Nat) : Bool := c == fmtE4M3 || c == fmtE5M2 || fmtIsMx c

/-- The accumulator of an operand pair, or none where Table 3-4 does not allow it. -/
def pairAcc (a b : Nat) : Option AccKind :=
  if a ≤ 1 ∧ b ≤ 1 then some .int32
  else if fmtByte a && fmtByte b then some .fp32
  else if (a == fmtBF16 || a == fmtFP16) && (b == fmtBF16 || b == fmtFP16) then some .fp32
  else none

/-- Twice the multiply-accumulates per cell per step of a pair (Table 3-4). -/
def pairRate2 (a b : Nat) : Nat :=
  if (a = fmtINT4 ∧ b = fmtINT4) ∨ (a = 0x15 ∧ b = 0x15) then 4
  else if a = fmtBF16 ∨ a = fmtFP16 then 1 else 2

/-- The exact sum of a group's products (R71): an exact zero is `-0` only when every product is `-0`. -/
def sumProducts (ps : List Fv) : Fv :=
  let t := ps.foldl Fv.add (.fin true 0 0)
  if ps.isEmpty then .fin false 0 0 else t

/-- The power of two of a scale byte; `none` for NaN (R66, R68). -/
def e8m0 (b : Nat) : Option Int := if b = 0xFF then none else some ((b : Int) - 127)

/-- A group's result in FP32 (R69, R71): the exact sum of its products, scaled, rounded once. -/
def groupF32 (sa sb : Nat) (ps : List (Fv × Fv)) : Nat :=
  match e8m0 sa, e8m0 sb with
  | some x, some y =>
    toF32 ((sumProducts (ps.map fun p => p.1.mul p.2)).mul (.fin false 1 (x + y)))
  | _, _ => f32Nan

/-- A group's result in an INT32 accumulation: the exact sum of integer products (R61, R62). -/
def groupInt (ps : List (Int × Int)) : Int := ps.foldl (fun t p => t + p.1 * p.2) 0

/-! Activations (R74 to R76, Table 3-5). -/

/-- Limit `x` to `[lo, hi]`; NaN passes unchanged. The comparison is numeric: −0 is not below a bound of +0 and stays, and a bound that is a NaN
never takes the place of a value. Log entry 149 (DESIGN CHOICE, unsafe). -/
def f32Clip (lo hi x : Nat) : Nat :=
  if (f32v x).isNan then f32Nan else if f32Lt x lo then lo else if f32Lt hi x then hi else x

/-- ReLU. -/
def f32Relu (x : Nat) : Nat :=
  if (f32v x).isNan then f32Nan else if f32Lt 0 x then x else 0

/-- Fraction bits of the fixed-point evaluation of the exponential. Log entry 18 (DEDUCED, unsafe). -/
def fxP : Nat := 320

/-- `1/k` arctangent in fixed point, by its series, `n` terms. -/
def fxAtanInv (k : Nat) : Nat → Int
  | 0 => 0
  | n + 1 =>
    let t : Int := ((2 ^ fxP / k ^ (2 * n + 1) / (2 * n + 1) : Nat) : Int)
    fxAtanInv k n + (if n % 2 = 0 then t else -t)

/-- The number pi in fixed point (Machin). -/
def fxPi : Nat := (16 * fxAtanInv 5 90 - 4 * fxAtanInv 239 30).toNat

/-- Integer square root from above, by Newton steps. -/
def isqrtFrom (v : Nat) : Nat → Nat → Nat
  | 0, x => x
  | n + 1, x => isqrtFrom v n (min x ((x + v / max x 1) / 2))

/-- The square root of 2/pi in fixed point. -/
def fxSqrt2OverPi : Nat :=
  let v := 2 * 2 ^ (3 * fxP) / fxPi
  isqrtFrom v 400 (2 ^ fxP)

/-- The exponential series in fixed point: the sum of the first `n` terms from a term `t` of index `i`. -/
def fxExpSum (x : Nat) : Nat → Nat → Nat → Nat
  | 0, _, _ => 0
  | n + 1, i, t => t + fxExpSum x n (i + 1) (t * x / 2 ^ fxP / i)

/-- `e^x` in fixed point, for `x` in fixed point: the series at `x / 4096`, squared twelve times. Log entry 18 (DEDUCED, unsafe). -/
def fxExp (x : Nat) : Nat :=
  iterate (fun y => y * y / 2 ^ fxP) 12 (fxExpSum (x / 4096) 80 1 (2 ^ fxP))

/-- `x / (1 + e^(-w))` for a non-zero finite `x = ± m · 2^e` and `w` of the sign of `x` and magnitude `w` in fixed point, as a
value with far more bits than FP32 holds (R75). -/
def logisticOf (neg : Bool) (m : Nat) (e : Int) (w : Nat) : Fv :=
  let ex := fxExp w
  let den := 2 ^ fxP + ex
  let num := if neg then m * 2 ^ fxP else m * ex
  .fin neg (num * 2 ^ (2 * fxP) / den) (e - (2 * fxP : Nat))

/-- A non-negative dyadic number in fixed point. -/
def fxOf (m : Nat) (e : Int) : Nat :=
  if 0 ≤ e + fxP then m * pow2 (e + fxP) else m / pow2 (-(e + fxP))

/-- SiLU (R75, Table 3-5). Beyond magnitude 256 the formula rounds to `x` or to zero. Log entry 17 (DESIGN CHOICE, safe). Log entry 18 (DEDUCED, unsafe). -/
def f32Silu (x : Nat) : Nat :=
  match f32v x with
  | .nan => f32Nan
  | .inf neg => if neg then 0 else x
  | .fin neg m e =>
    if m = 0 then (if neg then b2n Config.siluNegZero * 2 ^ 31 else 0)
    else if decide (8 < topExp m e) then (if neg then 2 ^ 31 else x)
    else toF32 (logisticOf neg m e (fxOf m e))

/-- GELU in its tanh form (R75, Table 3-5): `x / (1 + e^(-2z))` with `z = sqrt(2/pi) (x + 0.044715 x^3)`. Beyond magnitude 32
the formula rounds to `x` or to zero. Log entry 17 (DESIGN CHOICE, safe). Log entry 18 (DEDUCED, unsafe). -/
def f32Gelu (x : Nat) : Nat :=
  match f32v x with
  | .nan => f32Nan
  | .inf neg => if neg then 0 else x
  | .fin neg m e =>
    if m = 0 then (if neg then b2n Config.geluNegZero * 2 ^ 31 else 0)
    else if decide (5 < topExp m e) then (if neg then 2 ^ 31 else x)
    else
      let a := fxOf m e
      let cube := a * a / 2 ^ fxP * a / 2 ^ fxP
      let z := fxSqrt2OverPi * (a + cube * 44715 / 1000000) / 2 ^ fxP
      toF32 (logisticOf neg m e (2 * z))

/-- The floor of a finite value as an integer. -/
def Fv.floor (neg : Bool) (m : Nat) (e : Int) : Int :=
  if 0 ≤ e then dyInt neg m e 0
  else
    let d := pow2 (-e)
    if neg then -(((m + d - 1) / d : Nat) : Int) else ((m / d : Nat) : Int)

/-- The table activation (R76). -/
def f32Pwl (x x0 invW : Nat) (slope icpt : List Nat) : Nat :=
  if (f32v x).isNan then f32Nan
  else
    let t := f32Mul (f32Sub x x0) invW
    match f32v t with
    | .nan => f32Nan
    | .inf neg => let i := if neg then 0 else 255; f32Fma (slope.getD i 0) x (icpt.getD i 0)
    | .fin neg m e =>
      let i := (max 0 (min 255 (Fv.floor neg m e))).toNat
      f32Fma (slope.getD i 0) x (icpt.getD i 0)

/-! Microscaling output (R80) and per-row scales (R81). -/

/-- `emax` of R80. -/
def mxEmax (c : Nat) : Int :=
  match c with
  | 0x11 => 8 | 0x12 => 15 | 0x13 => 2 | 0x14 => 4 | 0x15 => 2 | _ => 0

/-- The largest finite FP32 value of a sign. -/
def f32Max (neg : Bool) : Fv := .fin neg (2 ^ 24 - 1) 104

/-- The leading exponent of the largest finite magnitude of a list, or none where every finite element is zero. -/
def maxTop (vs : List Fv) : Option Int :=
  vs.foldl (fun t v =>
    match v with
    | .fin _ m e => if m = 0 then t else
        match t with
        | none => some (topExp m e)
        | some x => some (max x (topExp m e))
    | _ => t) none

/-- Convert one element of an MX block, already scaled (R80). -/
def mxElem (c : Nat) (md : RMode) (v : Fv) : Nat :=
  match floatFmt c, v with
  | some f, v => f.convert md true v
  | none, .fin neg m e => intConvert 8 md (.fin neg m (e + 6))
  | none, v => intConvert 8 md v

/-- The scale byte and the element codes of a block of at most 32 values, each with its rounding (R80). A block of E5M2 with no finite element
takes X = −127. Log entry 149 (DESIGN CHOICE, unsafe). -/
def mxBlock (c : Nat) (sat : Bool) (vs : List (Fv × RMode)) : Nat × List Nat :=
  let noInf := c != 0x12
  let isInf (v : Fv) : Bool := match v with | .inf _ => true | _ => false
  if vs.any (·.1.isNan) || (noInf && !sat && vs.any fun v => isInf v.1) then (0xFF, vs.map fun _ => 0)
  else
    let ws := vs.map fun v =>
      match v.1 with
      | .inf neg => if noInf then (f32Max neg, v.2) else v
      | _ => v
    let x : Int := match maxTop (ws.map (·.1)) with
      | none => -127
      | some t => max (-127) (min 127 (t - mxEmax c))
    ((x + 127).toNat, ws.map fun w =>
      match w.1 with
      | .fin neg m e => mxElem c w.2 (.fin neg m (e - x))
      | v => mxElem c w.2 v)

/-- The exponent of the per-row scale of R81 for a row of values and the destination's largest finite value `fm · 2^fe`. -/
def rowScaleExp (vs : List Fv) (fm : Nat) (fe : Int) : Int :=
  let best : Nat × Int := vs.foldl (fun b v =>
    match v with
    | .fin _ m e => if m ≠ 0 ∧ (Fv.fin false b.1 b.2).lt (.fin false m e) then (m, e) else b
    | _ => b) (0, 0)
  if best.1 = 0 then 0
  else
    let c := topExp best.1 best.2 - topExp fm fe
    let e := if (Fv.fin false fm (fe + c)).lt (.fin false best.1 best.2) then c + 1 else c
    max (-149) e

/-- The FP32 word of `2^e`. -/
def f32Pow2 (e : Int) : Nat := toF32 (.fin false 1 e)

/-- The value divided by `2^e`, exactly. -/
def Fv.unscale (e : Int) : Fv → Fv
  | .fin neg m x => .fin neg m (x - e)
  | v => v

/-! Stochastic rounding (R83). -/

/-- The seed of a lane's generator at the start of a tile. -/
def srSeed (seed tile lane : Nat) : Nat :=
  let w := 2 ^ 32
  let h := seed ^^^ (tile * 0x9E3779B9 % w) ^^^ (lane * 0x85EBCA6B % w)
  let h := h ^^^ (h / 2 ^ 16)
  let h := h * 0x7FEB352D % w
  let h := h ^^^ (h / 2 ^ 15)
  let h := h * 0x846CA68B % w
  let h := h ^^^ (h / 2 ^ 16)
  if h = 0 then 0x6D2B79F5 else h

/-- The next state of a lane's generator, which is also the word used. -/
def srNext (s : Nat) : Nat :=
  let s := s ^^^ (s * 2 ^ 13 % 2 ^ 32)
  let s := s ^^^ (s / 2 ^ 17)
  s ^^^ (s * 2 ^ 5 % 2 ^ 32)

/-- The random value of a row position of a tile and lane (R83, R84). -/
def srRandom (seed tile lane row rbits : Nat) : Nat :=
  iterate srNext (row + 1) (srSeed seed tile lane) / 2 ^ (32 - rbits)

end Sys2Proof.Machine
end

