-- ==== Sys2Proof/Machine/Faults.lean ====
section
/-!
DEFINITION. The fault codes of the spec (12 bits, prefix FLT_), each with the chapter that defines it.
-/

namespace Sys2Proof.Machine.Flt

/-- FLT_DESC_MALFORMED, chapter 05. -/
def DESC_MALFORMED : Nat := 0x101
/-- FLT_FMT_PAIR, chapter 03. -/
def FMT_PAIR : Nat := 0x102
/-- FLT_ACC_CAPACITY, chapter 05. -/
def ACC_CAPACITY : Nat := 0x110
/-- FLT_SHAPE_PLAN, chapter 05. -/
def SHAPE_PLAN : Nat := 0x111
/-- FLT_PIN_STATE, chapter 05. -/
def PIN_STATE : Nat := 0x112
/-- FLT_PAIR_MISMATCH, chapter 06. -/
def PAIR_MISMATCH : Nat := 0x113
/-- FLT_PAIR_PARTNER, chapter 06. -/
def PAIR_PARTNER : Nat := 0x114
/-- FLT_PIN_OPEN, chapter 06. -/
def PIN_OPEN : Nat := 0x115
/-- FLT_HALO_MISMATCH, chapter 05. -/
def HALO_MISMATCH : Nat := 0x120
/-- FLT_VE_MALFORMED, chapter 07. -/
def VE_MALFORMED : Nat := 0x130
/-- FLT_RE_MALFORMED, chapter 07. -/
def RE_MALFORMED : Nat := 0x131
/-- FLT_ROW_TOO_LONG, chapter 07. -/
def ROW_TOO_LONG : Nat := 0x132
/-- FLT_RE_SAVE_RANGE, chapter 07. -/
def RE_SAVE_RANGE : Nat := 0x133
/-- FLT_ENG_UNCORR, chapter 07. -/
def ENG_UNCORR : Nat := 0x134
/-- FLT_SPLIT_ALIGN, chapter 04. -/
def SPLIT_ALIGN : Nat := 0x140
/-- FLT_SPILL_MISMATCH, chapter 04. -/
def SPILL_MISMATCH : Nat := 0x141
/-- FLT_ARRAY_RESIDUE, chapter 04. -/
def ARRAY_RESIDUE : Nat := 0x142
/-- FLT_ACC_UNCORR, chapter 04. -/
def ACC_UNCORR : Nat := 0x143
/-- FLT_BATON_KIND, chapter 08. -/
def BATON_KIND : Nat := 0x201
/-- FLT_CNT_LIMIT, chapter 08. -/
def CNT_LIMIT : Nat := 0x202
/-- FLT_AG_RANGE, chapter 08. -/
def AG_RANGE : Nat := 0x203
/-- FLT_CSR_ORDER, chapter 08. -/
def CSR_ORDER : Nat := 0x204
/-- FLT_LEG_CONFIG, chapter 08. -/
def LEG_CONFIG : Nat := 0x205
/-- FLT_LEG_INVALID, chapter 08. -/
def LEG_INVALID : Nat := 0x206
/-- FLT_GRID_RESIDUE, chapter 08. -/
def GRID_RESIDUE : Nat := 0x207
/-- FLT_SILT_EXHAUSTED, chapter 09. -/
def SILT_EXHAUSTED : Nat := 0x208
/-- FLT_RECONF_MALFORMED, chapter 09. -/
def RECONF_MALFORMED : Nat := 0x209
/-- FLT_STALL_EXTERNAL, chapter 09. -/
def STALL_EXTERNAL : Nat := 0x20A
/-- FLT_HEAT_TIMEOUT, chapter 17. -/
def HEAT_TIMEOUT : Nat := 0x20B
/-- FLT_REPLAY_LIMIT, chapter 17. -/
def REPLAY_LIMIT : Nat := 0x20C
/-- FLT_SEAM_DOWN, chapter 21. -/
def SEAM_DOWN : Nat := 0x20D
/-- FLT_CTX_INVALID, chapter 17. -/
def CTX_INVALID : Nat := 0x20E
/-- FLT_GROUP_LOST, chapter 17. -/
def GROUP_LOST : Nat := 0x20F
/-- FLT_WALK_MALFORMED, chapter 09. -/
def WALK_MALFORMED : Nat := 0x210
/-- FLT_WALK_CAPACITY, chapter 09. -/
def WALK_CAPACITY : Nat := 0x211
/-- FLT_WALK_RANGE, chapter 09. -/
def WALK_RANGE : Nat := 0x212
/-- FLT_GRID_POST, chapter 08. -/
def GRID_POST : Nat := 0x213
/-- FLT_FM_PROTECT, chapter 05. -/
def FM_PROTECT : Nat := 0x301
/-- FLT_FM_UNCORR, chapter 10. -/
def FM_UNCORR : Nat := 0x302
/-- FLT_DMA_MALFORMED, chapter 12. -/
def DMA_MALFORMED : Nat := 0x310
/-- FLT_DMA_RING_FIT, chapter 12. -/
def DMA_RING_FIT : Nat := 0x311
/-- FLT_RING_STATE, chapter 12. -/
def RING_STATE : Nat := 0x312
/-- FLT_RELAY_MALFORMED, chapter 12. -/
def RELAY_MALFORMED : Nat := 0x313
/-- FLT_STK_UNCORR, chapter 13. -/
def STK_UNCORR : Nat := 0x320
/-- FLT_ATOMIC_ALIGN, chapter 13. -/
def ATOMIC_ALIGN : Nat := 0x321
/-- FLT_SA_TARGET, chapter 13. -/
def SA_TARGET : Nat := 0x322
/-- FLT_XLT_NOT_PRESENT, chapter 14. -/
def XLT_NOT_PRESENT : Nat := 0x401
/-- FLT_XLT_PERM, chapter 14. -/
def XLT_PERM : Nat := 0x402
/-- FLT_XLT_MALFORMED, chapter 14. -/
def XLT_MALFORMED : Nat := 0x403
/-- FLT_RGA_RANGE, chapter 14. -/
def RGA_RANGE : Nat := 0x404
/-- FLT_XLT_REMOTE, chapter 14. -/
def XLT_REMOTE : Nat := 0x405
/-- FLT_XLT_UNCORR, chapter 14. -/
def XLT_UNCORR : Nat := 0x406
/-- FLT_REMOTE_NOT_PRESENT, chapter 14. -/
def REMOTE_NOT_PRESENT : Nat := 0x407
/-- FLT_REMOTE_ACCESS, chapter 14. -/
def REMOTE_ACCESS : Nat := 0x408
/-- FLT_CH_MALFORMED, chapter 11. -/
def CH_MALFORMED : Nat := 0x501
/-- FLT_MSG_TOO_LARGE, chapter 11. -/
def MSG_TOO_LARGE : Nat := 0x502
/-- FLT_CH_CLOSED, chapter 11. -/
def CH_CLOSED : Nat := 0x503
/-- FLT_HURDLE_OVER, chapter 11. -/
def HURDLE_OVER : Nat := 0x510
/-- FLT_HURDLE_UNDER, chapter 11. -/
def HURDLE_UNDER : Nat := 0x511
/-- FLT_HURDLE_UNMAPPED, chapter 11. -/
def HURDLE_UNMAPPED : Nat := 0x512
/-- FLT_QPL_LINK_DOWN, chapter 15. -/
def QPL_LINK_DOWN : Nat := 0x601
/-- FLT_QPL_TIMEOUT, chapter 15. -/
def QPL_TIMEOUT : Nat := 0x602
/-- FLT_QPL_REMOTE_UNCORR, chapter 15. -/
def QPL_REMOTE_UNCORR : Nat := 0x603
/-- FLT_QPL_UNROUTABLE, chapter 15. -/
def QPL_UNROUTABLE : Nat := 0x604
/-- FLT_QPL_MALFORMED, chapter 15. -/
def QPL_MALFORMED : Nat := 0x605
/-- FLT_QPL_REDUCE, chapter 15. -/
def QPL_REDUCE : Nat := 0x606
/-- FLT_QPL_RSPILL, chapter 15. -/
def QPL_RSPILL : Nat := 0x607
/-- FLT_ETH_FALLBACK, chapter 16. -/
def ETH_FALLBACK : Nat := 0x701
/-- FLT_ETH_LINK_DOWN, chapter 16. -/
def ETH_LINK_DOWN : Nat := 0x702
/-- FLT_CSP_MALFORMED, chapter 16. -/
def CSP_MALFORMED : Nat := 0x703
/-- FLT_CSP_AUTH, chapter 16. -/
def CSP_AUTH : Nat := 0x704
/-- FLT_ROCE_ACCESS, chapter 16. -/
def ROCE_ACCESS : Nat := 0x705
/-- FLT_MACSEC_PN, chapter 16. -/
def MACSEC_PN : Nat := 0x706
/-- FLT_CFG_CRC, chapter 19. -/
def CFG_CRC : Nat := 0x801
/-- FLT_CFG_SIG, chapter 19. -/
def CFG_SIG : Nat := 0x802
/-- FLT_CFG_VERSION, chapter 19. -/
def CFG_VERSION : Nat := 0x803
/-- FLT_CFG_STEP, chapter 19. -/
def CFG_STEP : Nat := 0x804
/-- FLT_CFG_GOLDEN, chapter 19. -/
def CFG_GOLDEN : Nat := 0x805
/-- FLT_CFG_IMAGE, chapter 19. -/
def CFG_IMAGE : Nat := 0x806
/-- FLT_CFG_FW_TRIAL, chapter 19. -/
def CFG_FW_TRIAL : Nat := 0x807
/-- FLT_CFG_FLASH, chapter 19. -/
def CFG_FLASH : Nat := 0x808
/-- FLT_SEC_ENROL, chapter 20. -/
def SEC_ENROL : Nat := 0x809
/-- FLT_SEC_AUDIT, chapter 20. -/
def SEC_AUDIT : Nat := 0x80A
/-- FLT_LEG_UPSET, chapter 21. -/
def LEG_UPSET : Nat := 0x80B
/-- FLT_CTL_FAIL, chapter 21. -/
def CTL_FAIL : Nat := 0x80C
/-- FLT_SPARE_NONE, chapter 21. -/
def SPARE_NONE : Nat := 0x80D
/-- FLT_FIELD_LOST, chapter 21. -/
def FIELD_LOST : Nat := 0x80E
/-- FLT_SCRUB_RELOAD, chapter 21. -/
def SCRUB_RELOAD : Nat := 0x80F
/-- FLT_HJM_LOCKSTEP, chapter 21. -/
def HJM_LOCKSTEP : Nat := 0x810
/-- FLT_PWR_RATE_HELD, chapter 18. -/
def PWR_RATE_HELD : Nat := 0x901
/-- FLT_PWR_ALERT, chapter 18. -/
def PWR_ALERT : Nat := 0x902
/-- FLT_THERM_THROTTLE, chapter 18. -/
def THERM_THROTTLE : Nat := 0x903
/-- FLT_THERM_TRIP, chapter 18. -/
def THERM_TRIP : Nat := 0x904
/-- FLT_PWR_BROWNOUT, chapter 18. -/
def PWR_BROWNOUT : Nat := 0x905
/-- FLT_PWR_EXT, chapter 18. -/
def PWR_EXT : Nat := 0x906
/-- FLT_PWR_GRANT_EXPIRED, chapter 18. -/
def PWR_GRANT_EXPIRED : Nat := 0x907
/-- FLT_PWR_DOMAIN, chapter 18. -/
def PWR_DOMAIN : Nat := 0x908
/-- FLT_PWR_RAIL, chapter 24. -/
def PWR_RAIL : Nat := 0x909
/-- FLT_BRK_XTAL, chapter 24. -/
def BRK_XTAL : Nat := 0x90A

end Sys2Proof.Machine.Flt
end

