-- ==== Sys2Proof/Machine/Regs.lean ====
section
/-!
DEFINITION. The device control space: its blocks and windows (R538, R539, Table 23-1) and every register the spec
defines, with its fields, access codes and reset values (R11, R19, R543, Table 23-2). An address names one register,
and a register word that the state does not list reads as its reset word.
-/

namespace Sys2Proof.Machine

/-- Access codes of Table 0-4 (R11). -/
inductive Access where
  | ro | rw | w1c | w1s | wo | rwl
  deriving DecidableEq, Repr

/-- One field row of a register's table: bits `hi` down to `lo`, its access code and its reset value. -/
structure FieldRow where
  hi : Nat
  lo : Nat
  acc : Access
  reset : Nat
  deriving DecidableEq, Repr

/-- One register, or an indexed family of them, of one block or window. -/
structure RegRow where
  off : Nat
  stride : Nat
  count : Nat
  fields : List FieldRow
  deriving DecidableEq, Repr

/-- A field of the register at one address. -/
structure RF where
  addr : Nat
  hi : Nat
  lo : Nat
  deriving DecidableEq, Repr

/-- Blocks of Table 23-1. -/
inductive Block where
  | dev | sec | pwr | brk | eth | qpl | xlt | sch | tel | cfg | seam | stk | fld
  deriving DecidableEq, Repr

/-- Registers of block DEV: DEV_SPARE_STATUS, DEV_CORE_MAP, DEV_MIGRATE_CTRL, DEV_MIGRATE_STATUS, DEV_FIELD_MAP[m], DEV_ID, DEV_DCS_ERR. -/
def devRows : List RegRow := [
  ⟨0x100, 0x0, 1,
    [⟨1, 0, .ro, 0⟩, ⟨3, 2, .ro, 0⟩, ⟨5, 4, .ro, 0⟩, ⟨7, 6, .ro, 0⟩, ⟨9, 8, .ro, 0⟩, ⟨16, 10, .ro, 0⟩, ⟨31, 17, .ro, 0⟩]⟩,
  ⟨0x104, 0x0, 1,
    [⟨2, 0, .ro, 0⟩, ⟨5, 3, .ro, 0⟩, ⟨8, 6, .ro, 0⟩, ⟨11, 9, .ro, 0⟩, ⟨17, 12, .ro, 0⟩, ⟨31, 18, .ro, 0⟩]⟩,
  ⟨0x108, 0x0, 1,
    [⟨5, 0, .rw, 0⟩, ⟨6, 6, .wo, 0⟩, ⟨15, 7, .ro, 0⟩, ⟨23, 16, .rw, 20⟩, ⟨31, 24, .ro, 0⟩]⟩,
  ⟨0x10c, 0x0, 1,
    [⟨0, 0, .ro, 0⟩, ⟨3, 1, .ro, 0⟩, ⟨9, 4, .ro, 0⟩, ⟨16, 10, .ro, 0⟩, ⟨17, 17, .w1c, 0⟩, ⟨18, 18, .w1c, 0⟩, ⟨30, 19, .ro, 0⟩, ⟨31, 31, .ro, 0⟩]⟩,
  ⟨0x1000, 0x4, 64,
    [⟨6, 0, .ro, 0⟩, ⟨7, 7, .ro, 0⟩, ⟨8, 8, .ro, 0⟩, ⟨31, 9, .ro, 0⟩]⟩,
  ⟨0x0, 0x0, 1,
    [⟨15, 0, .ro, 3172⟩, ⟨23, 16, .ro, Config.siliconRev⟩, ⟨31, 24, .ro, 0⟩]⟩,
  ⟨0x4, 0x0, 1,
    [⟨26, 0, .ro, 0⟩, ⟨27, 27, .ro, 0⟩, ⟨28, 28, .ro, 0⟩, ⟨30, 29, .ro, 0⟩, ⟨31, 31, .w1c, 0⟩]⟩]

/-- Registers of block SEC: SEC_STATUS, SEC_ROM_ID, SEC_KEYS, SEC_BOOT_COUNT_LO, SEC_BOOT_COUNT_HI, SEC_AUDIT_SEQ_LO, SEC_AUDIT_SEQ_HI, SEC_AUDIT_USE. -/
def secRows : List RegRow := [
  ⟨0x0, 0x0, 1,
    [⟨0, 0, .ro, 0⟩, ⟨1, 1, .ro, 0⟩, ⟨2, 2, .ro, 0⟩, ⟨3, 3, .ro, 0⟩, ⟨4, 4, .ro, 0⟩, ⟨31, 5, .ro, 0⟩]⟩,
  ⟨0x4, 0x0, 1,
    [⟨31, 0, .ro, Config.romId⟩]⟩,
  ⟨0x8, 0x0, 1,
    [⟨3, 0, .ro, 0⟩, ⟨6, 4, .ro, 0⟩, ⟨7, 7, .ro, 0⟩, ⟨12, 8, .ro, 0⟩, ⟨31, 13, .ro, 0⟩]⟩,
  ⟨0x10, 0x0, 1,
    [⟨31, 0, .ro, 0⟩]⟩,
  ⟨0x14, 0x0, 1,
    [⟨31, 0, .ro, 0⟩]⟩,
  ⟨0x18, 0x0, 1,
    [⟨31, 0, .ro, 0⟩]⟩,
  ⟨0x1c, 0x0, 1,
    [⟨31, 0, .ro, 0⟩]⟩,
  ⟨0x20, 0x0, 1,
    [⟨17, 0, .ro, 0⟩, ⟨30, 18, .ro, 0⟩, ⟨31, 31, .ro, 0⟩]⟩]

/-- Registers of block PWR: PWR_CTRL, PWR_LIMIT, PWR_STATUS, PWR_AVG, PWR_Q_PREF[q], PWR_Q_STATUS[q], PWR_DOM_REQ[0], PWR_DOM_REQ[1], PWR_DOM_STATE[w], PWR_DOM_ERR, PWR_PART_SHARE[p], PWR_E_PART_LO[p], PWR_E_PART_HI[p], PWR_E_STREAM_LO[s], PWR_E_STREAM_HI[s], PWR_E_UNATTR_LO, PWR_E_UNATTR_HI. -/
def pwrRows : List RegRow := [
  ⟨0x0, 0x0, 1,
    [⟨0, 0, .rw, 1⟩, ⟨3, 1, .rw, 4⟩, ⟨31, 4, .ro, 0⟩]⟩,
  ⟨0x4, 0x0, 1,
    [⟨9, 0, .rwl, 700⟩, ⟨15, 10, .ro, 0⟩, ⟨25, 16, .rwl, 700⟩, ⟨31, 26, .ro, 0⟩]⟩,
  ⟨0x8, 0x0, 1,
    [⟨9, 0, .ro, 0⟩, ⟨10, 10, .ro, 0⟩, ⟨11, 11, .ro, 0⟩, ⟨12, 12, .w1c, 0⟩, ⟨31, 13, .ro, 0⟩]⟩,
  ⟨0xc, 0x0, 1,
    [⟨15, 0, .ro, 0⟩, ⟨31, 16, .ro, 0⟩]⟩,
  ⟨0x100, 0x10, 4,
    [⟨2, 0, .rw, 4⟩, ⟨31, 3, .ro, 0⟩]⟩,
  ⟨0x104, 0x10, 4,
    [⟨2, 0, .ro, 0⟩, ⟨5, 3, .ro, 0⟩, ⟨6, 6, .ro, 0⟩, ⟨9, 7, .ro, 7⟩, ⟨12, 10, .ro, 0⟩, ⟨13, 13, .w1c, 0⟩, ⟨23, 16, .ro, 0⟩, ⟨15, 14, .ro, 0⟩, ⟨31, 24, .ro, 0⟩]⟩,
  ⟨0x200, 0x0, 1,
    [⟨31, 0, .rw, 0⟩]⟩,
  ⟨0x204, 0x0, 1,
    [⟨16, 0, .rw, 0⟩, ⟨17, 17, .ro, 1⟩, ⟨31, 18, .ro, 0⟩]⟩,
  ⟨0x208, 0x4, 2,
    [⟨31, 0, .ro, 0⟩]⟩,
  ⟨0x210, 0x0, 1,
    [⟨5, 0, .ro, 0⟩, ⟨6, 6, .w1c, 0⟩, ⟨7, 7, .w1c, 0⟩, ⟨31, 8, .ro, 0⟩]⟩,
  ⟨0x300, 0x4, 16,
    [⟨7, 0, .rwl, 0⟩, ⟨31, 8, .ro, 0⟩]⟩,
  ⟨0x1000, 0x8, 16,
    [⟨31, 0, .ro, 0⟩]⟩,
  ⟨0x1004, 0x8, 16,
    [⟨31, 0, .ro, 0⟩]⟩,
  ⟨0x1100, 0x8, 64,
    [⟨31, 0, .ro, 0⟩]⟩,
  ⟨0x1104, 0x8, 64,
    [⟨31, 0, .ro, 0⟩]⟩,
  ⟨0x1300, 0x0, 1,
    [⟨31, 0, .ro, 0⟩]⟩,
  ⟨0x1304, 0x0, 1,
    [⟨31, 0, .ro, 0⟩]⟩]

/-- Registers of block BRK: BRK_CMP_CFG[0..3], BRK_CMP_CFG[4], BRK_CMP_CFG[5], BRK_CMP_STATUS, BRK_TIME_LO, BRK_TIME_HI. -/
def brkRows : List RegRow := [
  ⟨0x100, 0x4, 4,
    [⟨11, 0, .rwl, 115⟩, ⟨13, 12, .ro, 0⟩, ⟨14, 14, .ro, 1⟩, ⟨15, 15, .ro, 0⟩, ⟨31, 16, .ro, 0⟩]⟩,
  ⟨0x110, 0x4, 1,
    [⟨11, 0, .ro, 1620⟩, ⟨13, 12, .ro, 0⟩, ⟨14, 14, .ro, 1⟩, ⟨15, 15, .ro, 0⟩, ⟨31, 16, .ro, 0⟩]⟩,
  ⟨0x114, 0x4, 1,
    [⟨11, 0, .rwl, 0⟩, ⟨13, 12, .rwl, 0⟩, ⟨14, 14, .rwl, 0⟩, ⟨15, 15, .rwl, 0⟩, ⟨31, 16, .ro, 0⟩]⟩,
  ⟨0x120, 0x0, 1,
    [⟨5, 0, .ro, 0⟩, ⟨11, 6, .w1c, 0⟩, ⟨12, 12, .w1c, 0⟩, ⟨31, 13, .ro, 0⟩]⟩,
  ⟨0x0, 0x0, 1,
    [⟨31, 0, .ro, 0⟩]⟩,
  ⟨0x4, 0x0, 1,
    [⟨31, 0, .ro, 0⟩]⟩]

/-- Registers of block ETH: ETH_PORT_CTRL, ETH_PORT_STATUS, ETH_CSP_CTRL, ETH_PFC_CTRL, ETH_ADMIT[n], ETH_ROCE_WIN_CFG[n], ETH_ROCE_WIN_BASE[n], ETH_ROCE_WIN_LEN[n], ETH_ROCE_WIN_DEV[n], ETH_RX_DROP_LO, ETH_RX_DROP_HI. -/
def ethRows : List RegRow := [
  ⟨0x0, 0x0, 1,
    [⟨0, 0, .rw, 0⟩, ⟨1, 1, .wo, 0⟩, ⟨2, 2, .rw, 0⟩, ⟨3, 3, .rw, 0⟩, ⟨31, 4, .ro, 0⟩]⟩,
  ⟨0x4, 0x0, 1,
    [⟨0, 0, .ro, 0⟩, ⟨2, 1, .ro, 0⟩, ⟨10, 3, .ro, 0⟩, ⟨11, 11, .w1c, 0⟩, ⟨31, 12, .ro, 0⟩]⟩,
  ⟨0x10, 0x0, 1,
    [⟨15, 0, .rw, 48656⟩, ⟨27, 16, .rw, 1024⟩, ⟨31, 28, .ro, 0⟩]⟩,
  ⟨0x14, 0x0, 1,
    [⟨7, 0, .rw, 0⟩, ⟨10, 8, .rw, 0⟩, ⟨13, 11, .rw, 3⟩, ⟨31, 14, .ro, 0⟩]⟩,
  ⟨0x100, 0x8, 64,
    [⟨11, 0, .rwl, 0⟩, ⟨12, 12, .rwl, 0⟩, ⟨15, 13, .ro, 0⟩, ⟨31, 16, .rwl, 0⟩]⟩,
  ⟨0x400, 0x10, 64,
    [⟨0, 0, .rw, 0⟩, ⟨1, 1, .rw, 0⟩, ⟨2, 2, .rw, 0⟩, ⟨6, 3, .rw, 0⟩, ⟨31, 7, .rw, 0⟩]⟩,
  ⟨0x404, 0x10, 64,
    [⟨24, 0, .rw, 0⟩, ⟨31, 25, .ro, 0⟩]⟩,
  ⟨0x408, 0x10, 64,
    [⟨25, 0, .rw, 0⟩, ⟨31, 26, .ro, 0⟩]⟩,
  ⟨0x40c, 0x10, 64,
    [⟨9, 0, .rw, 0⟩, ⟨31, 10, .ro, 0⟩]⟩,
  ⟨0x20, 0x0, 1,
    [⟨31, 0, .ro, 0⟩]⟩,
  ⟨0x24, 0x0, 1,
    [⟨15, 0, .ro, 0⟩, ⟨30, 16, .ro, 0⟩, ⟨31, 31, .ro, 0⟩]⟩]

/-- Registers of block QPL: QPL_PORT_CTRL, QPL_PORT_STATUS, QPL_LANE_STATE[n], QPL_STEER, QPL_RETRY_LO, QPL_RETRY_HI, QPL_FEC_CORR_LO, QPL_FEC_CORR_HI, QPL_TIMEOUT, QPL_CONG_CTRL, QPL_RSPILL_BASE, QPL_RSPILL_SIZE, QPL_ROUTE[d], QPL_RNODE_CFG[k], QPL_RNODE_KEY[k], QPL_RNODE_DEST[k]. -/
def qplRows : List RegRow := [
  ⟨0x0, 0x0, 1,
    [⟨0, 0, .rw, 0⟩, ⟨2, 1, .rw, 0⟩, ⟨3, 3, .rw, 0⟩, ⟨31, 4, .ro, 0⟩]⟩,
  ⟨0x4, 0x0, 1,
    [⟨0, 0, .ro, 0⟩, ⟨1, 1, .ro, 0⟩, ⟨3, 2, .ro, 0⟩, ⟨5, 4, .ro, 0⟩, ⟨6, 6, .ro, 0⟩, ⟨7, 7, .ro, 0⟩, ⟨17, 8, .ro, 0⟩, ⟨19, 18, .ro, 0⟩, ⟨20, 20, .w1c, 0⟩, ⟨31, 21, .ro, 0⟩]⟩,
  ⟨0x10, 0x4, 10,
    [⟨2, 0, .ro, 0⟩, ⟨3, 3, .ro, 0⟩, ⟨7, 4, .ro, 0⟩, ⟨11, 8, .ro, 0⟩, ⟨31, 12, .ro, 0⟩]⟩,
  ⟨0x40, 0x0, 1,
    [⟨2, 0, .rw, 0⟩, ⟨3, 3, .rw, 0⟩, ⟨4, 4, .wo, 0⟩, ⟨5, 5, .ro, 0⟩, ⟨6, 6, .w1c, 0⟩, ⟨7, 7, .w1c, 0⟩, ⟨31, 8, .ro, 0⟩]⟩,
  ⟨0x50, 0x0, 1,
    [⟨31, 0, .ro, 0⟩]⟩,
  ⟨0x54, 0x0, 1,
    [⟨15, 0, .ro, 0⟩, ⟨30, 16, .ro, 0⟩, ⟨31, 31, .ro, 0⟩]⟩,
  ⟨0x58, 0x0, 1,
    [⟨31, 0, .ro, 0⟩]⟩,
  ⟨0x5c, 0x0, 1,
    [⟨15, 0, .ro, 0⟩, ⟨30, 16, .ro, 0⟩, ⟨31, 31, .ro, 0⟩]⟩,
  ⟨0x60, 0x0, 1,
    [⟨15, 0, .rw, 2000⟩, ⟨16, 16, .w1c, 0⟩, ⟨31, 17, .ro, 0⟩]⟩,
  ⟨0x64, 0x0, 1,
    [⟨7, 0, .rw, 32⟩, ⟨12, 8, .rw, 20⟩, ⟨17, 13, .rw, 14⟩, ⟨31, 18, .ro, 0⟩]⟩,
  ⟨0x70, 0x0, 1,
    [⟨24, 0, .rw, 0⟩, ⟨31, 25, .ro, 0⟩]⟩,
  ⟨0x74, 0x0, 1,
    [⟨15, 0, .rw, 64⟩, ⟨31, 16, .ro, 0⟩]⟩,
  ⟨0x1000, 0x4, 1024,
    [⟨1, 0, .rw, 0⟩, ⟨2, 2, .rw, 0⟩, ⟨31, 3, .ro, 0⟩]⟩,
  ⟨0x2000, 0x10, 64,
    [⟨0, 0, .rw, 0⟩, ⟨1, 1, .rw, 0⟩, ⟨2, 2, .rw, 0⟩, ⟨6, 3, .rw, 0⟩, ⟨11, 7, .rw, 0⟩, ⟨31, 12, .ro, 0⟩]⟩,
  ⟨0x2004, 0x10, 64,
    [⟨15, 0, .rw, 0⟩, ⟨21, 16, .rw, 0⟩, ⟨31, 22, .ro, 0⟩]⟩,
  ⟨0x2008, 0x10, 64,
    [⟨9, 0, .rw, 0⟩, ⟨10, 10, .rw, 0⟩, ⟨16, 11, .rw, 0⟩, ⟨31, 17, .ro, 0⟩]⟩]

/-- Registers of block XLT: XLT_DEVICE_ID, XLT_REMOTE_RETRY, XLT_INVAL_BASE_LO, XLT_INVAL_BASE_HI, XLT_INVAL_LEN, XLT_INVAL_CTRL, XLT_INVAL_STATUS, XLT_RESOLVE, XLT_CTX_ROOT[c], XLT_FQ_BASE[q], XLT_FQ_WPTR[q], XLT_FQ_RPTR[q], XLT_EXPORT_BASE[n], XLT_EXPORT_LEN[n], XLT_EXPORT_CFG[n]. -/
def xltRows : List RegRow := [
  ⟨0x0, 0x0, 1,
    [⟨9, 0, .ro, 0⟩, ⟨10, 10, .ro, 0⟩, ⟨31, 11, .ro, 0⟩]⟩,
  ⟨0x4, 0x0, 1,
    [⟨15, 0, .rw, 20⟩, ⟨23, 16, .rw, 50⟩, ⟨31, 24, .ro, 0⟩]⟩,
  ⟨0x10, 0x0, 1,
    [⟨15, 0, .ro, 0⟩, ⟨31, 16, .rw, 0⟩]⟩,
  ⟨0x14, 0x0, 1,
    [⟨15, 0, .rw, 0⟩, ⟨31, 16, .ro, 0⟩]⟩,
  ⟨0x18, 0x0, 1,
    [⟨31, 0, .rw, 0⟩]⟩,
  ⟨0x1c, 0x0, 1,
    [⟨1, 0, .wo, 0⟩, ⟨7, 2, .wo, 0⟩, ⟨31, 8, .wo, 0⟩]⟩,
  ⟨0x20, 0x0, 1,
    [⟨0, 0, .ro, 0⟩, ⟨1, 1, .w1c, 0⟩, ⟨2, 2, .w1c, 0⟩, ⟨31, 3, .ro, 0⟩]⟩,
  ⟨0x30, 0x0, 1,
    [⟨5, 0, .wo, 0⟩, ⟨7, 6, .wo, 0⟩, ⟨9, 8, .wo, 0⟩, ⟨31, 10, .wo, 0⟩]⟩,
  ⟨0x1000, 0x4, 64,
    [⟨19, 0, .rw, 0⟩, ⟨20, 20, .rw, 0⟩, ⟨31, 21, .ro, 0⟩]⟩,
  ⟨0x2000, 0x10, 4,
    [⟨25, 0, .rw, 0⟩, ⟨31, 26, .ro, 0⟩]⟩,
  ⟨0x2004, 0x10, 4,
    [⟨9, 0, .ro, 0⟩, ⟨31, 10, .ro, 0⟩]⟩,
  ⟨0x2008, 0x10, 4,
    [⟨9, 0, .rw, 0⟩, ⟨31, 10, .ro, 0⟩]⟩,
  ⟨0x3000, 0x10, 64,
    [⟨24, 0, .rw, 0⟩, ⟨31, 25, .ro, 0⟩]⟩,
  ⟨0x3004, 0x10, 64,
    [⟨25, 0, .rw, 0⟩, ⟨31, 26, .ro, 0⟩]⟩,
  ⟨0x3008, 0x10, 64,
    [⟨0, 0, .rw, 0⟩, ⟨1, 1, .rw, 0⟩, ⟨2, 2, .rw, 0⟩, ⟨3, 3, .rw, 0⟩, ⟨4, 4, .rw, 0⟩, ⟨14, 5, .rw, 0⟩, ⟨15, 15, .rw, 0⟩, ⟨31, 16, .ro, 0⟩]⟩]

/-- Registers of block SCH: SCH_CTRL, SCH_PART_CFG[p], SCH_PART_BW[p], SCH_BUSY_LO[p], SCH_BUSY_HI[p], SCH_CTX_STATE[c], SCH_CTX_HEAT_LO[c], SCH_CTX_HEAT_HI[c]. -/
def schRows : List RegRow := [
  ⟨0x0, 0x0, 1,
    [⟨2, 0, .rw, 1⟩, ⟨3, 3, .rw, 1⟩, ⟨15, 4, .rw, 50⟩, ⟨23, 16, .rw, 50⟩, ⟨31, 24, .rw, 100⟩]⟩,
  ⟨0x100, 0x10, 16,
    [⟨15, 0, .rw, 1⟩, ⟨16, 16, .ro, 0⟩, ⟨17, 17, .ro, 0⟩, ⟨31, 18, .ro, 0⟩]⟩,
  ⟨0x104, 0x10, 16,
    [⟨15, 0, .rwl, 0⟩, ⟨31, 16, .rwl, 0⟩]⟩,
  ⟨0x108, 0x10, 16,
    [⟨31, 0, .ro, 0⟩]⟩,
  ⟨0x10c, 0x10, 16,
    [⟨31, 0, .ro, 0⟩]⟩,
  ⟨0x1000, 0x10, 64,
    [⟨2, 0, .ro, 0⟩, ⟨6, 3, .ro, 0⟩, ⟨8, 7, .ro, 0⟩, ⟨10, 9, .ro, 0⟩, ⟨11, 11, .ro, 0⟩, ⟨12, 12, .ro, 0⟩, ⟨13, 13, .ro, 0⟩, ⟨14, 14, .w1c, 0⟩, ⟨26, 15, .ro, 0⟩, ⟨31, 27, .ro, 0⟩]⟩,
  ⟨0x1004, 0x10, 64,
    [⟨31, 0, .ro, 0⟩]⟩,
  ⟨0x1008, 0x10, 64,
    [⟨31, 0, .ro, 0⟩]⟩]

/-- Registers of block TEL: TEL_CTRL, TEL_BUF_BASE, TEL_SEQ_LO, TEL_SEQ_HI, TEL_OLDEST_LO, TEL_OLDEST_HI, TEL_EPOCH_LO, TEL_EPOCH_HI, TEL_DROP_LO[k], TEL_DROP_HI[k], TEL_ALARM_SUMMARY, TEL_ALARM_ACK, TEL_ALARM_SLOT[n], TEL_ALARM_COUNT[n]. -/
def telRows : List RegRow := [
  ⟨0x0, 0x0, 1,
    [⟨0, 0, .rw, 1⟩, ⟨1, 1, .rw, 0⟩, ⟨3, 2, .rw, 2⟩, ⟨5, 4, .rw, 1⟩, ⟨15, 6, .ro, 0⟩, ⟨31, 16, .rw, 100⟩]⟩,
  ⟨0x4, 0x0, 1,
    [⟨12, 0, .ro, 0⟩, ⟨31, 13, .ro, 0⟩]⟩,
  ⟨0x10, 0x0, 1,
    [⟨31, 0, .ro, 0⟩]⟩,
  ⟨0x14, 0x0, 1,
    [⟨31, 0, .ro, 0⟩]⟩,
  ⟨0x18, 0x0, 1,
    [⟨31, 0, .ro, 0⟩]⟩,
  ⟨0x1c, 0x0, 1,
    [⟨31, 0, .ro, 0⟩]⟩,
  ⟨0x30, 0x0, 1,
    [⟨31, 0, .rw, 0⟩]⟩,
  ⟨0x34, 0x0, 1,
    [⟨31, 0, .rw, 0⟩]⟩,
  ⟨0x40, 0x8, 4,
    [⟨31, 0, .ro, 0⟩]⟩,
  ⟨0x44, 0x8, 4,
    [⟨15, 0, .ro, 0⟩, ⟨30, 16, .ro, 0⟩, ⟨31, 31, .ro, 0⟩]⟩,
  ⟨0x80, 0x0, 1,
    [⟨8, 0, .ro, 0⟩, ⟨16, 9, .ro, 0⟩, ⟨24, 17, .ro, 0⟩, ⟨25, 25, .ro, 0⟩, ⟨26, 26, .w1c, 0⟩, ⟨31, 27, .ro, 0⟩]⟩,
  ⟨0x84, 0x0, 1,
    [⟨7, 0, .wo, 0⟩, ⟨8, 8, .wo, 0⟩, ⟨31, 9, .wo, 0⟩]⟩,
  ⟨0x1000, 0x8, 256,
    [⟨11, 0, .ro, 0⟩, ⟨13, 12, .ro, 0⟩, ⟨14, 14, .ro, 0⟩, ⟨15, 15, .ro, 0⟩, ⟨31, 16, .ro, 0⟩]⟩,
  ⟨0x1004, 0x8, 256,
    [⟨31, 0, .ro, 0⟩]⟩]

/-- Registers of block CFG: CFG_BOOT_STATUS, CFG_FW_SLOT, CFG_FW_VERSION, CFG_IMAGE_STATUS, CFG_IMAGE_VERSION, CFG_STAGE_STATUS, CFG_STEP[n], CFG_NV_STATUS, CFG_SCRUB_CTRL[e], CFG_SCRUB_STATUS[e]. -/
def cfgRows : List RegRow := [
  ⟨0x0, 0x0, 1,
    [⟨1, 0, .ro, 0⟩, ⟨5, 2, .ro, 0⟩, ⟨6, 6, .ro, 0⟩, ⟨7, 7, .ro, 0⟩, ⟨8, 8, .ro, 0⟩, ⟨9, 9, .ro, 0⟩, ⟨21, 10, .ro, 0⟩, ⟨31, 22, .ro, 0⟩]⟩,
  ⟨0x4, 0x0, 1,
    [⟨0, 0, .ro, 0⟩, ⟨1, 1, .ro, 0⟩, ⟨2, 2, .ro, 0⟩, ⟨3, 3, .ro, 0⟩, ⟨31, 4, .ro, 0⟩]⟩,
  ⟨0x8, 0x0, 1,
    [⟨31, 0, .ro, 0⟩]⟩,
  ⟨0xc, 0x0, 1,
    [⟨0, 0, .ro, 0⟩, ⟨3, 1, .ro, 0⟩, ⟨6, 4, .ro, 0⟩, ⟨12, 7, .ro, 0⟩, ⟨31, 13, .ro, 0⟩]⟩,
  ⟨0x10, 0x0, 1,
    [⟨31, 0, .ro, 0⟩]⟩,
  ⟨0x14, 0x0, 1,
    [⟨0, 0, .ro, 0⟩, ⟨2, 1, .ro, 0⟩, ⟨9, 3, .ro, 0⟩, ⟨10, 10, .w1c, 0⟩, ⟨11, 11, .w1c, 0⟩, ⟨12, 12, .w1c, 0⟩, ⟨31, 13, .ro, 0⟩]⟩,
  ⟨0x100, 0x4, 16,
    [⟨2, 0, .ro, 0⟩, ⟨3, 3, .ro, 0⟩, ⟨9, 4, .ro, 0⟩, ⟨31, 10, .ro, 0⟩]⟩,
  ⟨0x200, 0x0, 1,
    [⟨10, 0, .ro, 0⟩, ⟨11, 11, .w1c, 0⟩, ⟨12, 12, .w1c, 0⟩, ⟨31, 13, .ro, 0⟩]⟩,
  ⟨0x300, 0x10, 8,
    [⟨0, 0, .rw, 1⟩, ⟨15, 1, .rw, 1⟩, ⟨31, 16, .ro, 0⟩]⟩,
  ⟨0x304, 0x10, 8,
    [⟨15, 0, .ro, 0⟩, ⟨23, 16, .ro, 0⟩, ⟨24, 24, .w1c, 0⟩, ⟨25, 25, .w1c, 0⟩, ⟨31, 26, .ro, 0⟩]⟩]

/-- Registers of block SEAM: SEAM_DIR_STATUS[n]. -/
def seamRows : List RegRow := [
  ⟨0x0, 0x4, 8,
    [⟨0, 0, .ro, 0⟩, ⟨1, 1, .ro, 0⟩, ⟨2, 2, .w1c, 0⟩, ⟨31, 3, .ro, 0⟩]⟩]

/-- Registers of block STK: STK_STATUS, STK_PWR_CTRL, STK_ECC_STATUS, STK_ECC_CORR_LO, STK_ECC_CORR_HI, STK_SCRUB_CTRL, STK_SPARE_CTRL, STK_SPARE_STATUS, STK_ROW_REMAP, STK_THERMAL, STK_THROTTLE. -/
def stkRows : List RegRow := [
  ⟨0x0, 0x0, 1,
    [⟨1, 0, .ro, 3⟩, ⟨2, 2, .ro, 0⟩, ⟨3, 3, .w1c, 0⟩, ⟨4, 4, .ro, 0⟩, ⟨31, 5, .ro, 0⟩]⟩,
  ⟨0x4, 0x0, 1,
    [⟨2, 0, .rw, 4⟩, ⟨7, 3, .rw, 16⟩, ⟨31, 8, .ro, 0⟩]⟩,
  ⟨0x10, 0x0, 1,
    [⟨0, 0, .w1c, 0⟩, ⟨1, 1, .w1c, 0⟩, ⟨2, 2, .ro, 0⟩, ⟨7, 3, .ro, 0⟩, ⟨13, 8, .ro, 0⟩, ⟨27, 14, .ro, 0⟩, ⟨31, 28, .ro, 0⟩]⟩,
  ⟨0x14, 0x0, 1,
    [⟨31, 0, .ro, 0⟩]⟩,
  ⟨0x18, 0x0, 1,
    [⟨15, 0, .ro, 0⟩, ⟨30, 16, .ro, 0⟩, ⟨31, 31, .ro, 0⟩]⟩,
  ⟨0x20, 0x0, 1,
    [⟨0, 0, .rw, 1⟩, ⟨15, 1, .rw, 3430⟩, ⟨31, 16, .ro, 0⟩]⟩,
  ⟨0x30, 0x0, 1,
    [⟨3, 0, .rw, 0⟩, ⟨4, 4, .wo, 0⟩, ⟨7, 5, .ro, 0⟩, ⟨12, 8, .rw, 4⟩, ⟨31, 13, .ro, 0⟩]⟩,
  ⟨0x34, 0x0, 1,
    [⟨0, 0, .ro, 0⟩, ⟨1, 1, .w1c, 0⟩, ⟨6, 2, .ro, 0⟩, ⟨22, 7, .ro, 0⟩, ⟨29, 23, .ro, 0⟩, ⟨31, 30, .ro, 0⟩]⟩,
  ⟨0x38, 0x0, 1,
    [⟨4, 0, .rw, 0⟩, ⟨10, 5, .rw, 0⟩, ⟨24, 11, .rw, 0⟩, ⟨25, 25, .wo, 0⟩, ⟨26, 26, .ro, 0⟩, ⟨27, 27, .w1c, 0⟩, ⟨31, 28, .ro, 0⟩]⟩,
  ⟨0x40, 0x0, 1,
    [⟨7, 0, .ro, 0⟩, ⟨9, 8, .ro, 0⟩, ⟨10, 10, .w1c, 0⟩, ⟨31, 11, .ro, 0⟩]⟩,
  ⟨0x44, 0x0, 1,
    [⟨4, 0, .rw, 16⟩, ⟨9, 5, .rw, 4⟩, ⟨10, 10, .ro, 0⟩, ⟨31, 11, .ro, 0⟩]⟩]

/-- Rows of the FLD window from 0x0000 to 0x0FFF: FLD_PACER_CTRL, FLD_PACER_STATUS, FLD_RATE_MON. -/
def fldRows0 : List RegRow := [
  ⟨0x200, 0x0, 1,
    [⟨0, 0, .rw, 0⟩, ⟨1, 1, .rw, 0⟩, ⟨7, 2, .ro, 0⟩, ⟨14, 8, .rw, 75⟩, ⟨31, 15, .ro, 0⟩]⟩,
  ⟨0x204, 0x0, 1,
    [⟨0, 0, .ro, 0⟩, ⟨1, 1, .w1c, 0⟩, ⟨2, 2, .ro, 0⟩, ⟨7, 3, .ro, 0⟩, ⟨14, 8, .ro, 75⟩, ⟨31, 15, .ro, 0⟩]⟩,
  ⟨0x208, 0x0, 1,
    [⟨15, 0, .ro, 0⟩, ⟨31, 16, .ro, 0⟩]⟩]

/-- Rows of the FLD window from 0x1000 to 0x1FFF: FLD_MA_STATUS, FLD_MA_SLOTS, FLD_MA_COLMAP, FLD_MA_ECC_CORR_LO, FLD_MA_ECC_CORR_HI,
FLD_SEQ_ISSUE, FLD_SEQ_STATUS, FLD_SEQ_CTRL, FLD_CTX_SHAPE, FLD_PAIR_STATUS, FLD_PAIR_FETCH_LO, FLD_PAIR_FETCH_HI, FLD_ENG_ISSUE, FLD_ENG_STATUS,
FLD_ENG_CTRL, FLD_RE_SAVE_RANGE. -/
def fldRows1 : List RegRow := [
  ⟨0x1000, 0x40, 2,
    [⟨0, 0, .ro, 0⟩, ⟨2, 1, .ro, 0⟩, ⟨3, 3, .ro, 0⟩, ⟨4, 4, .w1c, 0⟩, ⟨5, 5, .w1c, 0⟩, ⟨7, 6, .ro, 0⟩, ⟨9, 8, .ro, 0⟩, ⟨31, 10, .ro, 0⟩]⟩,
  ⟨0x1004, 0x40, 2,
    [⟨2, 0, .ro, 0⟩, ⟨5, 3, .ro, 0⟩, ⟨8, 6, .ro, 0⟩, ⟨11, 9, .ro, 0⟩, ⟨14, 12, .ro, 0⟩, ⟨17, 15, .ro, 0⟩, ⟨20, 18, .ro, 0⟩, ⟨23, 21, .ro, 0⟩, ⟨31, 24, .ro, 0⟩]⟩,
  ⟨0x1008, 0x40, 2,
    [⟨7, 0, .ro, 0⟩, ⟨15, 8, .ro, 0⟩, ⟨16, 16, .ro, 0⟩, ⟨31, 17, .ro, 0⟩]⟩,
  ⟨0x100c, 0x40, 2,
    [⟨31, 0, .ro, 0⟩]⟩,
  ⟨0x1010, 0x40, 2,
    [⟨15, 0, .ro, 0⟩, ⟨30, 16, .ro, 0⟩, ⟨31, 31, .ro, 0⟩]⟩,
  ⟨0x1100, 0x4, 2,
    [⟨1, 0, .wo, 0⟩, ⟨6, 2, .wo, 0⟩, ⟨23, 7, .wo, 0⟩, ⟨31, 24, .wo, 0⟩]⟩,
  ⟨0x1108, 0x4, 2,
    [⟨4, 0, .ro, 0⟩, ⟨5, 5, .w1c, 0⟩, ⟨6, 6, .ro, 0⟩, ⟨7, 7, .ro, 0⟩, ⟨19, 8, .ro, 0⟩, ⟨31, 20, .ro, 0⟩]⟩,
  ⟨0x1110, 0x0, 1,
    [⟨0, 0, .rw, 0⟩, ⟨1, 1, .rw, 0⟩, ⟨2, 2, .rw, 0⟩, ⟨31, 3, .ro, 0⟩]⟩,
  ⟨0x1200, 0x4, 64,
    [⟨31, 0, .rw, 0⟩]⟩,
  ⟨0x1300, 0x0, 1,
    [⟨0, 0, .ro, 0⟩, ⟨1, 1, .ro, 0⟩, ⟨3, 2, .ro, 0⟩, ⟨5, 4, .ro, 0⟩, ⟨6, 6, .ro, 0⟩, ⟨7, 7, .ro, 0⟩, ⟨19, 8, .ro, 0⟩, ⟨31, 20, .ro, 0⟩]⟩,
  ⟨0x1304, 0x0, 1,
    [⟨31, 0, .ro, 0⟩]⟩,
  ⟨0x1308, 0x0, 1,
    [⟨15, 0, .ro, 0⟩, ⟨30, 16, .ro, 0⟩, ⟨31, 31, .ro, 0⟩]⟩,
  ⟨0x1400, 0x4, 2,
    [⟨1, 0, .wo, 0⟩, ⟨5, 2, .wo, 0⟩, ⟨23, 6, .wo, 0⟩, ⟨31, 24, .wo, 0⟩]⟩,
  ⟨0x1408, 0x4, 2,
    [⟨4, 0, .ro, 0⟩, ⟨5, 5, .w1c, 0⟩, ⟨6, 6, .ro, 0⟩, ⟨8, 7, .ro, 0⟩, ⟨9, 9, .ro, 0⟩, ⟨10, 10, .ro, 0⟩, ⟨11, 11, .ro, 0⟩, ⟨23, 12, .ro, 0⟩, ⟨31, 24, .ro, 0⟩]⟩,
  ⟨0x1410, 0x0, 1,
    [⟨0, 0, .rw, 0⟩, ⟨1, 1, .rw, 0⟩, ⟨2, 2, .rw, 0⟩, ⟨3, 3, .rw, 0⟩, ⟨31, 4, .ro, 0⟩]⟩,
  ⟨0x1420, 0x4, 4,
    [⟨13, 0, .rw, 0⟩, ⟨15, 14, .ro, 0⟩, ⟨30, 16, .rw, 0⟩, ⟨31, 31, .ro, 0⟩]⟩]

/-- Rows of the FLD window from 0x2000 to 0x2FFF: FLD_GRID_CTRL, FLD_GRID_CNT_CLEAR, FLD_UNIT_STATE, FLD_UNIT_STALL_LO, FLD_UNIT_STALL_HI,
FLD_Q_STALL_LO, FLD_Q_STALL_HI. -/
def fldRows2 : List RegRow := [
  ⟨0x2000, 0x0, 1,
    [⟨0, 0, .rw, 0⟩, ⟨31, 1, .ro, 0⟩]⟩,
  ⟨0x2004, 0x0, 1,
    [⟨0, 0, .wo, 0⟩, ⟨1, 1, .wo, 0⟩, ⟨31, 2, .wo, 0⟩]⟩,
  ⟨0x2100, 0x4, 32,
    [⟨2, 0, .ro, 0⟩, ⟨3, 3, .ro, 0⟩, ⟨11, 4, .ro, 0⟩, ⟨19, 12, .w1c, 0⟩, ⟨31, 20, .ro, 0⟩]⟩,
  ⟨0x2200, 0x8, 128,
    [⟨31, 0, .ro, 0⟩]⟩,
  ⟨0x2204, 0x8, 128,
    [⟨15, 0, .ro, 0⟩, ⟨30, 16, .ro, 0⟩, ⟨31, 31, .ro, 0⟩]⟩,
  ⟨0x2800, 0x8, 256,
    [⟨31, 0, .ro, 0⟩]⟩,
  ⟨0x2804, 0x8, 256,
    [⟨15, 0, .ro, 0⟩, ⟨30, 16, .ro, 0⟩, ⟨31, 31, .ro, 0⟩]⟩]

/-- Rows of the FLD window from 0x3000 to 0x3FFF: FLD_GP_BIND, FLD_GP_POST, FLD_DLD_CTRL, FLD_DLD_STATUS, FLD_SILT_CTRL, FLD_SILT_BASE_LO,
FLD_SILT_BASE_HI, FLD_RECONF_ISSUE, FLD_RECONF_STATUS, FLD_WALK_ISSUE, FLD_WALK_STATUS, FLD_RECONF_CTRL. -/
def fldRows3 : List RegRow := [
  ⟨0x3000, 0x4, 16,
    [⟨2, 0, .ro, 0⟩, ⟨4, 3, .ro, 0⟩, ⟨7, 5, .ro, 0⟩, ⟨31, 8, .ro, 0⟩]⟩,
  ⟨0x3080, 0x4, 16,
    [⟨3, 0, .rw, 0⟩, ⟨5, 4, .rw, 0⟩, ⟨31, 6, .ro, 0⟩]⟩,
  ⟨0x3400, 0x0, 1,
    [⟨0, 0, .rw, 1⟩, ⟨5, 1, .rw, 16⟩, ⟨31, 6, .ro, 0⟩]⟩,
  ⟨0x3404, 0x0, 1,
    [⟨0, 0, .ro, 0⟩, ⟨1, 1, .w1c, 0⟩, ⟨2, 2, .w1c, 0⟩, ⟨4, 3, .ro, 0⟩, ⟨12, 5, .ro, 0⟩, ⟨17, 13, .ro, 0⟩, ⟨19, 18, .ro, 0⟩, ⟨22, 20, .ro, 0⟩, ⟨23, 23, .ro, 0⟩, ⟨31, 24, .ro, 0⟩]⟩,
  ⟨0x3410, 0x10, 4,
    [⟨15, 0, .rw, 0⟩, ⟨16, 16, .rw, 0⟩, ⟨31, 17, .ro, 0⟩]⟩,
  ⟨0x3414, 0x10, 4,
    [⟨31, 0, .rw, 0⟩]⟩,
  ⟨0x3418, 0x10, 4,
    [⟨15, 0, .rw, 0⟩, ⟨31, 16, .ro, 0⟩]⟩,
  ⟨0x3500, 0x0, 1,
    [⟨1, 0, .wo, 0⟩, ⟨5, 2, .wo, 0⟩, ⟨23, 6, .wo, 0⟩, ⟨31, 24, .wo, 0⟩]⟩,
  ⟨0x3504, 0x0, 1,
    [⟨2, 0, .ro, 0⟩, ⟨3, 3, .w1c, 0⟩, ⟨6, 4, .ro, 0⟩, ⟨7, 7, .w1c, 0⟩, ⟨19, 8, .ro, 0⟩, ⟨31, 20, .ro, 0⟩]⟩,
  ⟨0x3600, 0x0, 1,
    [⟨1, 0, .wo, 0⟩, ⟨5, 2, .wo, 0⟩, ⟨23, 6, .wo, 0⟩, ⟨31, 24, .wo, 0⟩]⟩,
  ⟨0x3604, 0x0, 1,
    [⟨2, 0, .ro, 0⟩, ⟨3, 3, .w1c, 0⟩, ⟨4, 4, .ro, 0⟩, ⟨6, 5, .ro, 0⟩, ⟨7, 7, .ro, 0⟩, ⟨8, 8, .ro, 0⟩, ⟨20, 9, .ro, 0⟩, ⟨31, 21, .ro, 0⟩]⟩,
  ⟨0x3508, 0x0, 1,
    [⟨3, 0, .rw, 0⟩, ⟨31, 4, .ro, 0⟩]⟩]

/-- Rows of the FLD window from 0x4000 to 0x4FFF: FLD_FM_SLICE_MODE, FLD_FM_CACHE_CTRL, FLD_FM_WIN, FLD_FM_CMO_BASE_LO, FLD_FM_CMO_BASE_HI,
FLD_FM_CMO_LEN, FLD_FM_CMO_CTRL, FLD_FM_CMO_STATUS, FLD_FM_BANK_PWR, FLD_FM_BANK_STATE, FLD_FM_PWR_CTRL, FLD_FM_ECC_STATUS, FLD_FM_ECC_CORR_LO,
FLD_FM_ECC_CORR_HI, FLD_FM_SCRUB_CTRL. -/
def fldRows4 : List RegRow := [
  ⟨0x4000, 0x0, 1,
    [⟨7, 0, .rw, 0⟩, ⟨15, 8, .ro, 0⟩, ⟨16, 16, .ro, 0⟩, ⟨31, 17, .ro, 0⟩]⟩,
  ⟨0x4004, 0x0, 1,
    [⟨3, 0, .rw, 0⟩, ⟨31, 4, .ro, 0⟩]⟩,
  ⟨0x4010, 0x4, 8,
    [⟨7, 0, .rw, 0⟩, ⟨16, 8, .rw, 0⟩, ⟨31, 17, .ro, 0⟩]⟩,
  ⟨0x4040, 0x0, 1,
    [⟨31, 0, .rw, 0⟩]⟩,
  ⟨0x4044, 0x0, 1,
    [⟨15, 0, .rw, 0⟩, ⟨31, 16, .ro, 0⟩]⟩,
  ⟨0x4048, 0x0, 1,
    [⟨31, 0, .rw, 0⟩]⟩,
  ⟨0x404c, 0x0, 1,
    [⟨2, 0, .wo, 0⟩, ⟨3, 3, .wo, 0⟩, ⟨5, 4, .wo, 0⟩, ⟨31, 6, .wo, 0⟩]⟩,
  ⟨0x4050, 0x0, 1,
    [⟨0, 0, .ro, 0⟩, ⟨1, 1, .w1c, 0⟩, ⟨2, 2, .w1c, 0⟩, ⟨3, 3, .w1c, 0⟩, ⟨4, 4, .w1c, 0⟩, ⟨31, 5, .ro, 0⟩]⟩,
  ⟨0x4060, 0x4, 4,
    [⟨1, 0, .rw, 1⟩, ⟨3, 2, .rw, 1⟩, ⟨5, 4, .rw, 1⟩, ⟨7, 6, .rw, 1⟩, ⟨9, 8, .rw, 1⟩, ⟨11, 10, .rw, 1⟩, ⟨13, 12, .rw, 1⟩, ⟨15, 14, .rw, 1⟩, ⟨17, 16, .rw, 1⟩, ⟨19, 18, .rw, 1⟩, ⟨21, 20, .rw, 1⟩, ⟨23, 22, .rw, 1⟩, ⟨25, 24, .rw, 1⟩, ⟨27, 26, .rw, 1⟩, ⟨29, 28, .rw, 1⟩, ⟨31, 30, .rw, 1⟩]⟩,
  ⟨0x4070, 0x4, 4,
    [⟨1, 0, .ro, 3⟩, ⟨3, 2, .ro, 3⟩, ⟨5, 4, .ro, 3⟩, ⟨7, 6, .ro, 3⟩, ⟨9, 8, .ro, 3⟩, ⟨11, 10, .ro, 3⟩, ⟨13, 12, .ro, 3⟩, ⟨15, 14, .ro, 3⟩, ⟨17, 16, .ro, 3⟩, ⟨19, 18, .ro, 3⟩, ⟨21, 20, .ro, 3⟩, ⟨23, 22, .ro, 3⟩, ⟨25, 24, .ro, 3⟩, ⟨27, 26, .ro, 3⟩, ⟨29, 28, .ro, 3⟩, ⟨31, 30, .ro, 3⟩]⟩,
  ⟨0x4080, 0x0, 1,
    [⟨4, 0, .rw, 12⟩, ⟨15, 5, .ro, 0⟩, ⟨16, 16, .w1c, 0⟩, ⟨31, 17, .ro, 0⟩]⟩,
  ⟨0x4090, 0x0, 1,
    [⟨0, 0, .w1c, 0⟩, ⟨1, 1, .w1c, 0⟩, ⟨2, 2, .ro, 0⟩, ⟨3, 3, .ro, 0⟩, ⟨22, 4, .ro, 0⟩, ⟨31, 23, .ro, 0⟩]⟩,
  ⟨0x4098, 0x0, 1,
    [⟨31, 0, .ro, 0⟩]⟩,
  ⟨0x409c, 0x0, 1,
    [⟨15, 0, .ro, 0⟩, ⟨30, 16, .ro, 0⟩, ⟨31, 31, .ro, 0⟩]⟩,
  ⟨0x40a0, 0x0, 1,
    [⟨0, 0, .rw, 1⟩, ⟨5, 1, .rw, 14⟩, ⟨15, 6, .ro, 0⟩, ⟨31, 16, .ro, 0⟩]⟩]

/-- Rows of the FLD window from 0x5000 to 0x5FFF: FLD_CH_OPEN, FLD_CH_SEND, FLD_CH_STATUS, FLD_CH_RX_STATE, FLD_CH_WPTR, FLD_CH_RPTR,
FLD_CH_TX_STATE, FLD_CH_SEL_MASK, FLD_CH_SEL_CTRL, FLD_CH_PORT_BIND. -/
def fldRows5 : List RegRow := [
  ⟨0x5000, 0x0, 1,
    [⟨4, 0, .wo, 0⟩, ⟨23, 5, .wo, 0⟩, ⟨31, 24, .wo, 0⟩]⟩,
  ⟨0x5004, 0x0, 1,
    [⟨4, 0, .wo, 0⟩, ⟨23, 5, .wo, 0⟩, ⟨31, 24, .wo, 0⟩]⟩,
  ⟨0x5008, 0x0, 1,
    [⟨0, 0, .ro, 0⟩, ⟨1, 1, .w1c, 0⟩, ⟨13, 2, .ro, 0⟩, ⟨31, 14, .ro, 0⟩]⟩,
  ⟨0x5100, 0x4, 32,
    [⟨0, 0, .ro, 0⟩, ⟨1, 1, .ro, 0⟩, ⟨3, 2, .ro, 0⟩, ⟨6, 4, .ro, 0⟩, ⟨11, 7, .ro, 0⟩, ⟨22, 12, .ro, 0⟩, ⟨23, 23, .w1c, 0⟩, ⟨24, 24, .ro, 0⟩, ⟨25, 25, .w1c, 0⟩, ⟨31, 26, .ro, 0⟩]⟩,
  ⟨0x5180, 0x4, 32,
    [⟨19, 0, .ro, 0⟩, ⟨31, 20, .ro, 0⟩]⟩,
  ⟨0x5200, 0x4, 32,
    [⟨19, 0, .rw, 0⟩, ⟨31, 20, .ro, 0⟩]⟩,
  ⟨0x5280, 0x4, 32,
    [⟨0, 0, .ro, 0⟩, ⟨1, 1, .ro, 0⟩, ⟨3, 2, .ro, 0⟩, ⟨4, 4, .ro, 0⟩, ⟨24, 5, .ro, 0⟩, ⟨31, 25, .ro, 0⟩]⟩,
  ⟨0x5300, 0x8, 4,
    [⟨31, 0, .rw, 0⟩]⟩,
  ⟨0x5304, 0x8, 4,
    [⟨0, 0, .rw, 0⟩, ⟨1, 1, .rw, 0⟩, ⟨2, 2, .rw, 0⟩, ⟨6, 3, .rw, 0⟩, ⟨7, 7, .ro, 0⟩, ⟨8, 8, .ro, 0⟩, ⟨13, 9, .ro, 0⟩, ⟨31, 14, .ro, 0⟩]⟩,
  ⟨0x5340, 0x4, 16,
    [⟨1, 0, .rw, 0⟩, ⟨6, 2, .rw, 0⟩, ⟨8, 7, .rw, 0⟩, ⟨31, 9, .ro, 0⟩]⟩]

/-- Rows of the FLD window from 0x6000 to 0x6FFF: FLD_HRD_OP, FLD_HRD_MAP_BASE, FLD_HRD_CFG, FLD_HRD_STATE. -/
def fldRows6 : List RegRow := [
  ⟨0x6000, 0x0, 1,
    [⟨1, 0, .wo, 0⟩, ⟨3, 2, .wo, 0⟩, ⟨13, 4, .wo, 0⟩, ⟨29, 14, .wo, 0⟩, ⟨31, 30, .wo, 0⟩]⟩,
  ⟨0x6010, 0x4, 4,
    [⟨10, 0, .rw, 0⟩, ⟨11, 11, .rw, 0⟩, ⟨31, 12, .ro, 0⟩]⟩,
  ⟨0x6800, 0x8, 256,
    [⟨15, 0, .rw, 0⟩, ⟨31, 16, .rw, 0⟩]⟩,
  ⟨0x6804, 0x8, 256,
    [⟨15, 0, .ro, 0⟩, ⟨21, 16, .rw, 0⟩, ⟨22, 22, .rw, 0⟩, ⟨29, 23, .ro, 0⟩, ⟨30, 30, .w1c, 0⟩, ⟨31, 31, .w1c, 0⟩]⟩]

/-- Rows of the FLD window from 0x7000 to 0x7FFF: FLD_DMA_ISSUE, FLD_DMA_STATUS, FLD_RING_BASE, FLD_RING_CFG, FLD_RING_HRD, FLD_RING_STATE,
FLD_RING_LEN, FLD_RING_OP, FLD_RELAY_STATUS. -/
def fldRows7 : List RegRow := [
  ⟨0x7000, 0x4, 4,
    [⟨1, 0, .wo, 0⟩, ⟨5, 2, .wo, 0⟩, ⟨23, 6, .wo, 0⟩, ⟨31, 24, .wo, 0⟩]⟩,
  ⟨0x7010, 0x4, 4,
    [⟨0, 0, .ro, 0⟩, ⟨1, 1, .ro, 0⟩, ⟨3, 2, .ro, 0⟩, ⟨8, 4, .ro, 0⟩, ⟨9, 9, .w1c, 0⟩, ⟨10, 10, .ro, 0⟩, ⟨22, 11, .ro, 0⟩, ⟨31, 23, .ro, 0⟩]⟩,
  ⟨0x7400, 0x20, 16,
    [⟨15, 0, .rw, 0⟩, ⟨31, 16, .ro, 0⟩]⟩,
  ⟨0x7404, 0x20, 16,
    [⟨4, 0, .rw, 0⟩, ⟨6, 5, .rw, 0⟩, ⟨7, 7, .rw, 0⟩, ⟨23, 8, .rw, 0⟩, ⟨31, 24, .ro, 0⟩]⟩,
  ⟨0x7408, 0x20, 16,
    [⟨9, 0, .rw, 0⟩, ⟨10, 10, .rw, 0⟩, ⟨20, 11, .rw, 0⟩, ⟨21, 21, .rw, 0⟩, ⟨31, 22, .ro, 0⟩]⟩,
  ⟨0x740c, 0x20, 16,
    [⟨3, 0, .ro, 0⟩, ⟨7, 4, .ro, 0⟩, ⟨12, 8, .ro, 0⟩, ⟨13, 13, .ro, 0⟩, ⟨14, 14, .w1c, 0⟩, ⟨15, 15, .ro, 0⟩, ⟨31, 16, .ro, 0⟩]⟩,
  ⟨0x7410, 0x20, 16,
    [⟨23, 0, .ro, 0⟩, ⟨31, 24, .ro, 0⟩]⟩,
  ⟨0x7600, 0x0, 1,
    [⟨1, 0, .wo, 0⟩, ⟨5, 2, .wo, 0⟩, ⟨7, 6, .wo, 0⟩, ⟨31, 8, .wo, 0⟩]⟩,
  ⟨0x7800, 0x4, 8,
    [⟨0, 0, .ro, 0⟩, ⟨2, 1, .ro, 0⟩, ⟨8, 3, .ro, 0⟩, ⟨14, 9, .ro, 0⟩, ⟨15, 15, .ro, 0⟩, ⟨31, 16, .ro, 0⟩]⟩]

/-- Rows of the FLD window from 0x8000 to 0x8FFF: FLD_CTX_MAP, FLD_CTX_SAVE, FLD_BW_SET, FLD_BW_CFG. -/
def fldRows8 : List RegRow := [
  ⟨0x8000, 0x8, 4,
    [⟨5, 0, .rw, 0⟩, ⟨9, 6, .rw, 0⟩, ⟨10, 10, .rw, 0⟩, ⟨11, 11, .ro, 0⟩, ⟨12, 12, .ro, 0⟩, ⟨31, 13, .ro, 0⟩]⟩,
  ⟨0x8004, 0x8, 4,
    [⟨28, 0, .rw, 0⟩, ⟨31, 29, .ro, 0⟩]⟩,
  ⟨0x8100, 0x4, 4,
    [⟨3, 0, .rw, 0⟩, ⟨4, 4, .rw, 0⟩, ⟨31, 5, .ro, 0⟩]⟩,
  ⟨0x8110, 0x4, 8,
    [⟨15, 0, .rw, 0⟩, ⟨27, 16, .rw, 1⟩, ⟨28, 28, .rw, 1⟩, ⟨31, 29, .ro, 0⟩]⟩]

/-- Rows of the FLD window by 4 KiB. -/
def fldPages : List (List RegRow) := [fldRows0, fldRows1, fldRows2, fldRows3, fldRows4, fldRows5, fldRows6, fldRows7, fldRows8]

/-- The rows of a block that may hold an offset. -/
def blockRows (b : Block) (off : Nat) : List RegRow :=
  match b with
  | .dev => devRows | .sec => secRows | .pwr => pwrRows | .brk => brkRows | .eth => ethRows | .qpl => qplRows
  | .xlt => xltRows | .sch => schRows | .tel => telRows | .cfg => cfgRows | .seam => seamRows | .stk => stkRows
  | .fld => fldPages.getD (off / 0x1000) []

/-- The decode of a DCS address (R539): block, instance and offset; none for a reserved address (R540). -/
def decodeAddr (a : Nat) : Option (Block × Nat × Nat) :=
  if 0x2000000 ≤ a ∧ a < 0x6800000 then some (.fld, (a - 0x2000000) / 0x100000, a % 0x100000)
  else if 0x1000000 ≤ a ∧ a < 0x2000000 then some (.stk, (a - 0x1000000) / 0x80000, a % 0x80000)
  else if 0x500000 ≤ a ∧ a < 0x600000 then some (.qpl, (a - 0x500000) / 0x40000, a % 0x40000)
  else if a < 0xB00000 then
    let off := a % 0x100000
    match a / 0x100000 with
    | 0 => some (.dev, 0, off) | 1 => some (.sec, 0, off) | 2 => some (.pwr, 0, off) | 3 => some (.brk, 0, off)
    | 4 => some (.eth, 0, off) | 6 => some (.xlt, 0, off) | 7 => some (.sch, 0, off) | 8 => some (.tel, 0, off)
    | 9 => some (.cfg, 0, off) | _ => some (.seam, 0, off)
  else none

/-- Does the row hold the register at this offset of its window? -/
def RegRow.holds (r : RegRow) (off : Nat) : Bool :=
  if r.count = 1 then decide (off = r.off)
  else decide (r.off ≤ off ∧ (off - r.off) % r.stride = 0 ∧ (off - r.off) / r.stride < r.count)

/-- The register row at a DCS address; none where no register is assigned (R540, R543). `QPL_ROUTE` lies in port 0's
window alone (R539). Log entry 8 (DESIGN CHOICE, safe). Log entry 133 (DEDUCED, unsafe). -/
def regRow? (a : Nat) : Option RegRow :=
  match decodeAddr a with
  | none => none
  | some (b, i, off) =>
    if b = .qpl ∧ i ≠ 0 ∧ 0x1000 ≤ off ∧ off < 0x2000 then none
    else (blockRows b off).find? (·.holds off)

/-- The word of a list of fields, each at its reset value. -/
def resetOf : List FieldRow → Nat
  | [] => 0
  | f :: fs => (f.reset % 2 ^ (f.hi + 1 - f.lo)) * 2 ^ f.lo + resetOf fs

/-- What the register at an address holds after release of POR_N (R19, R568). Log entry 8 (DESIGN CHOICE, safe). Log entry 133 (DEDUCED, unsafe). -/
def resetWord (a : Nat) : Word :=
  match regRow? a with
  | some r => BitVec.ofNat 32 (resetOf r.fields)
  | none => 0

/-- The word of a list of fields that firmware places there: the fields that can be written from the given word, every other at its reset value. -/
def placedOf : List FieldRow → Nat → Nat
  | [], _ => 0
  | f :: fs, v =>
    let x := if f.acc == .rw || f.acc == .rwl then bits v f.hi f.lo else f.reset % 2 ^ (f.hi + 1 - f.lo)
    x * 2 ^ f.lo + placedOf fs v

/-- A word as the register at an address can hold it where firmware or a record places it whole: no reserved bit is set (R8, R543). -/
def definedBits (a : Nat) (w : Word) : Word :=
  match regRow? a with
  | some r => BitVec.ofNat 32 (placedOf r.fields w.toNat)
  | none => 0

/-- Lower registers of the counters and stamps wider than 32 bits, the upper one at the next word (R17): block, offset, stride,
count. In order: SEC_BOOT_COUNT_LO, SEC_AUDIT_SEQ_LO, PWR_E_PART_LO, PWR_E_STREAM_LO, PWR_E_UNATTR_LO, BRK_TIME_LO, ETH_RX_DROP_LO, QPL_RETRY_LO, QPL_FEC_CORR_LO, SCH_BUSY_LO, SCH_CTX_HEAT_LO, TEL_SEQ_LO, TEL_OLDEST_LO, TEL_DROP_LO, STK_ECC_CORR_LO, FLD_MA_ECC_CORR_LO, FLD_PAIR_FETCH_LO, FLD_UNIT_STALL_LO, FLD_Q_STALL_LO, FLD_FM_ECC_CORR_LO. -/
def wideRows : List (Block × Nat × Nat × Nat) := [
  (.sec, 0x10, 0x0, 1),
  (.sec, 0x18, 0x0, 1),
  (.pwr, 0x1000, 0x8, 16),
  (.pwr, 0x1100, 0x8, 64),
  (.pwr, 0x1300, 0x0, 1),
  (.brk, 0x0, 0x0, 1),
  (.eth, 0x20, 0x0, 1),
  (.qpl, 0x50, 0x0, 1),
  (.qpl, 0x58, 0x0, 1),
  (.sch, 0x108, 0x10, 16),
  (.sch, 0x1004, 0x10, 64),
  (.tel, 0x10, 0x0, 1),
  (.tel, 0x18, 0x0, 1),
  (.tel, 0x40, 0x8, 4),
  (.stk, 0x14, 0x0, 1),
  (.fld, 0x100c, 0x40, 2),
  (.fld, 0x1304, 0x0, 1),
  (.fld, 0x2200, 0x8, 128),
  (.fld, 0x2800, 0x8, 256),
  (.fld, 0x4098, 0x0, 1)]

/-- Is the address the lower register of a counter wider than 32 bits (R17)? -/
def wideLower (a : Nat) : Bool :=
  match decodeAddr a with
  | none => false
  | some (b, _, off) => wideRows.any fun r =>
      decide (r.1 = b) && (RegRow.mk r.2.1 r.2.2.1 r.2.2.2 []).holds off

/-! Addresses of the registers (R539), and their fields. The first parameter is the window, then the index. -/

namespace Reg

/-- `DEV_SPARE_STATUS`: spares remaining (21). -/
def aDEV_SPARE_STATUS : Nat := 0x100
def DEV_SPARE_STATUS_FIELDS_FREE (j : Nat) : RF := ⟨aDEV_SPARE_STATUS, 2 * j + 1, 2 * j⟩
def DEV_SPARE_STATUS_CORES_FREE : RF := ⟨aDEV_SPARE_STATUS, 9, 8⟩
def DEV_SPARE_STATUS_LOGICAL_LOST : RF := ⟨aDEV_SPARE_STATUS, 16, 10⟩
/-- `DEV_CORE_MAP`: control-core assignment (21). -/
def aDEV_CORE_MAP : Nat := 0x104
def DEV_CORE_MAP_CORE (j : Nat) : RF := ⟨aDEV_CORE_MAP, 3 * j + 2, 3 * j⟩
def DEV_CORE_MAP_FAILED : RF := ⟨aDEV_CORE_MAP, 17, 12⟩
/-- `DEV_MIGRATE_CTRL`: request a migration (21). -/
def aDEV_MIGRATE_CTRL : Nat := 0x108
def DEV_MIGRATE_CTRL_LFIELD : RF := ⟨aDEV_MIGRATE_CTRL, 5, 0⟩
def DEV_MIGRATE_CTRL_START : RF := ⟨aDEV_MIGRATE_CTRL, 6, 6⟩
def DEV_MIGRATE_CTRL_MIGRATE_WAIT_MS : RF := ⟨aDEV_MIGRATE_CTRL, 23, 16⟩
/-- `DEV_MIGRATE_STATUS`: migration state (21). -/
def aDEV_MIGRATE_STATUS : Nat := 0x10c
def DEV_MIGRATE_STATUS_BUSY : RF := ⟨aDEV_MIGRATE_STATUS, 0, 0⟩
def DEV_MIGRATE_STATUS_PHASE : RF := ⟨aDEV_MIGRATE_STATUS, 3, 1⟩
def DEV_MIGRATE_STATUS_LFIELD : RF := ⟨aDEV_MIGRATE_STATUS, 9, 4⟩
def DEV_MIGRATE_STATUS_TARGET : RF := ⟨aDEV_MIGRATE_STATUS, 16, 10⟩
def DEV_MIGRATE_STATUS_DONE : RF := ⟨aDEV_MIGRATE_STATUS, 17, 17⟩
def DEV_MIGRATE_STATUS_ABANDONED : RF := ⟨aDEV_MIGRATE_STATUS, 18, 18⟩
def DEV_MIGRATE_STATUS_LAST_FAULT : RF := ⟨aDEV_MIGRATE_STATUS, 30, 19⟩
/-- `DEV_FIELD_MAP[m]`: logical Field placement (21). -/
def aDEV_FIELD_MAP (i : Nat) : Nat := 0x1000 + 0x4 * i
def DEV_FIELD_MAP_PHYS (i : Nat) : RF := ⟨(aDEV_FIELD_MAP i), 6, 0⟩
def DEV_FIELD_MAP_LOST (i : Nat) : RF := ⟨(aDEV_FIELD_MAP i), 7, 7⟩
def DEV_FIELD_MAP_MIGRATING (i : Nat) : RF := ⟨(aDEV_FIELD_MAP i), 8, 8⟩
/-- `DEV_ID`: part identity (23). -/
def aDEV_ID : Nat := 0x0
def DEV_ID_PART_CODE : RF := ⟨aDEV_ID, 15, 0⟩
def DEV_ID_SILICON_REV : RF := ⟨aDEV_ID, 23, 16⟩
/-- `DEV_DCS_ERR`: last refused access (23). -/
def aDEV_DCS_ERR : Nat := 0x4
def DEV_DCS_ERR_ADDR : RF := ⟨aDEV_DCS_ERR, 26, 0⟩
def DEV_DCS_ERR_WRITE : RF := ⟨aDEV_DCS_ERR, 27, 27⟩
def DEV_DCS_ERR_FROM_MGMT : RF := ⟨aDEV_DCS_ERR, 28, 28⟩
def DEV_DCS_ERR_CAUSE : RF := ⟨aDEV_DCS_ERR, 30, 29⟩
def DEV_DCS_ERR_SEEN : RF := ⟨aDEV_DCS_ERR, 31, 31⟩
/-- `SEC_STATUS`: security state (20). -/
def aSEC_STATUS : Nat := 0x100000
def SEC_STATUS_CLAIMED : RF := ⟨aSEC_STATUS, 0, 0⟩
def SEC_STATUS_NEXT_SET : RF := ⟨aSEC_STATUS, 1, 1⟩
def SEC_STATUS_RECORD_LOCKED : RF := ⟨aSEC_STATUS, 2, 2⟩
def SEC_STATUS_IDENTITY_OK : RF := ⟨aSEC_STATUS, 3, 3⟩
def SEC_STATUS_AUDIT_FAIL : RF := ⟨aSEC_STATUS, 4, 4⟩
/-- `SEC_ROM_ID`: boot ROM identity (20). -/
def aSEC_ROM_ID : Nat := 0x100004
def SEC_ROM_ID_ROM_ID : RF := ⟨aSEC_ROM_ID, 31, 0⟩
/-- `SEC_KEYS`: enrolled keys (20). -/
def aSEC_KEYS : Nat := 0x100008
def SEC_KEYS_MAKER : RF := ⟨aSEC_KEYS, 3, 0⟩
def SEC_KEYS_INSTALLER : RF := ⟨aSEC_KEYS, 6, 4⟩
def SEC_KEYS_OPERATOR : RF := ⟨aSEC_KEYS, 12, 8⟩
/-- `SEC_BOOT_COUNT_LO`: boot count (20). -/
def aSEC_BOOT_COUNT_LO : Nat := 0x100010
def SEC_BOOT_COUNT_LO_COUNT_LO : RF := ⟨aSEC_BOOT_COUNT_LO, 31, 0⟩
/-- `SEC_BOOT_COUNT_HI`: boot count (20). -/
def aSEC_BOOT_COUNT_HI : Nat := 0x100014
def SEC_BOOT_COUNT_HI_COUNT_HI : RF := ⟨aSEC_BOOT_COUNT_HI, 31, 0⟩
/-- `SEC_AUDIT_SEQ_LO`: newest audit record (20). -/
def aSEC_AUDIT_SEQ_LO : Nat := 0x100018
def SEC_AUDIT_SEQ_LO_SEQ_LO : RF := ⟨aSEC_AUDIT_SEQ_LO, 31, 0⟩
/-- `SEC_AUDIT_SEQ_HI`: newest audit record (20). -/
def aSEC_AUDIT_SEQ_HI : Nat := 0x10001c
def SEC_AUDIT_SEQ_HI_SEQ_HI : RF := ⟨aSEC_AUDIT_SEQ_HI, 31, 0⟩
/-- `SEC_AUDIT_USE`: audit log use (20). -/
def aSEC_AUDIT_USE : Nat := 0x100020
def SEC_AUDIT_USE_RECORDS : RF := ⟨aSEC_AUDIT_USE, 17, 0⟩
def SEC_AUDIT_USE_CHECKPOINTS : RF := ⟨aSEC_AUDIT_USE, 30, 18⟩
/-- `PWR_CTRL`: manager settings (18). -/
def aPWR_CTRL : Nat := 0x200000
def PWR_CTRL_EN : RF := ⟨aPWR_CTRL, 0, 0⟩
def PWR_CTRL_DEFAULT_OP : RF := ⟨aPWR_CTRL, 3, 1⟩
/-- `PWR_LIMIT`: installer bounds (18). -/
def aPWR_LIMIT : Nat := 0x200004
def PWR_LIMIT_LIMIT_W : RF := ⟨aPWR_LIMIT, 9, 0⟩
def PWR_LIMIT_DEFAULT_GRANT_W : RF := ⟨aPWR_LIMIT, 25, 16⟩
/-- `PWR_STATUS`: budget state (18). -/
def aPWR_STATUS : Nat := 0x200008
def PWR_STATUS_L_W : RF := ⟨aPWR_STATUS, 9, 0⟩
def PWR_STATUS_RATE_HELD : RF := ⟨aPWR_STATUS, 10, 10⟩
def PWR_STATUS_ALERT_ACTIVE : RF := ⟨aPWR_STATUS, 11, 11⟩
def PWR_STATUS_GRANT_EXPIRED : RF := ⟨aPWR_STATUS, 12, 12⟩
/-- `PWR_AVG`: package power (18). -/
def aPWR_AVG : Nat := 0x20000c
def PWR_AVG_AVG_1MS : RF := ⟨aPWR_AVG, 15, 0⟩
def PWR_AVG_LAST_100US : RF := ⟨aPWR_AVG, 31, 16⟩
/-- `PWR_Q_PREF[q]`: quadrant preference (18). -/
def aPWR_Q_PREF (i : Nat) : Nat := 0x200100 + 0x10 * i
def PWR_Q_PREF_PREF (i : Nat) : RF := ⟨(aPWR_Q_PREF i), 2, 0⟩
/-- `PWR_Q_STATUS[q]`: quadrant state (18). -/
def aPWR_Q_STATUS (i : Nat) : Nat := 0x200104 + 0x10 * i
def PWR_Q_STATUS_OP (i : Nat) : RF := ⟨(aPWR_Q_STATUS i), 2, 0⟩
def PWR_Q_STATUS_FLOOR (i : Nat) : RF := ⟨(aPWR_Q_STATUS i), 5, 3⟩
def PWR_Q_STATUS_HAS_FLOOR (i : Nat) : RF := ⟨(aPWR_Q_STATUS i), 6, 6⟩
def PWR_Q_STATUS_CEILING (i : Nat) : RF := ⟨(aPWR_Q_STATUS i), 9, 7⟩
def PWR_Q_STATUS_LIMITER (i : Nat) : RF := ⟨(aPWR_Q_STATUS i), 12, 10⟩
def PWR_Q_STATUS_TRIPPED (i : Nat) : RF := ⟨(aPWR_Q_STATUS i), 13, 13⟩
def PWR_Q_STATUS_TJ_C (i : Nat) : RF := ⟨(aPWR_Q_STATUS i), 23, 16⟩
/-- `PWR_DOM_REQ[w]`: domain requests (18). -/
def aPWR_DOM_REQ (i : Nat) : Nat := 0x200200 + 0x4 * i
def PWR_DOM_REQ_ON (i : Nat) : RF := ⟨(aPWR_DOM_REQ i), 31, 0⟩
/-- `PWR_DOM_STATE[w]`: domain states (18). -/
def aPWR_DOM_STATE (i : Nat) : Nat := 0x200208 + 0x4 * i
def PWR_DOM_STATE_READY (i : Nat) : RF := ⟨(aPWR_DOM_STATE i), 31, 0⟩
/-- `PWR_DOM_ERR`: refused or failed domain (18). -/
def aPWR_DOM_ERR : Nat := 0x200210
def PWR_DOM_ERR_DOMAIN : RF := ⟨aPWR_DOM_ERR, 5, 0⟩
def PWR_DOM_ERR_REFUSED : RF := ⟨aPWR_DOM_ERR, 6, 6⟩
def PWR_DOM_ERR_FAILED : RF := ⟨aPWR_DOM_ERR, 7, 7⟩
/-- `PWR_PART_SHARE[p]`: partition power share (18). -/
def aPWR_PART_SHARE (i : Nat) : Nat := 0x200300 + 0x4 * i
def PWR_PART_SHARE_SHARE (i : Nat) : RF := ⟨(aPWR_PART_SHARE i), 7, 0⟩
/-- `PWR_E_PART_LO[p]`: partition energy (18). -/
def aPWR_E_PART_LO (i : Nat) : Nat := 0x201000 + 0x8 * i
def PWR_E_PART_LO_COUNT_LO (i : Nat) : RF := ⟨(aPWR_E_PART_LO i), 31, 0⟩
/-- `PWR_E_PART_HI[p]`: partition energy (18). -/
def aPWR_E_PART_HI (i : Nat) : Nat := 0x201004 + 0x8 * i
def PWR_E_PART_HI_COUNT_HI (i : Nat) : RF := ⟨(aPWR_E_PART_HI i), 31, 0⟩
/-- `PWR_E_STREAM_LO[s]`: stream energy (18). -/
def aPWR_E_STREAM_LO (i : Nat) : Nat := 0x201100 + 0x8 * i
def PWR_E_STREAM_LO_COUNT_LO (i : Nat) : RF := ⟨(aPWR_E_STREAM_LO i), 31, 0⟩
/-- `PWR_E_STREAM_HI[s]`: stream energy (18). -/
def aPWR_E_STREAM_HI (i : Nat) : Nat := 0x201104 + 0x8 * i
def PWR_E_STREAM_HI_COUNT_HI (i : Nat) : RF := ⟨(aPWR_E_STREAM_HI i), 31, 0⟩
/-- `PWR_E_UNATTR_LO`: unattributed energy (18). -/
def aPWR_E_UNATTR_LO : Nat := 0x201300
def PWR_E_UNATTR_LO_COUNT_LO : RF := ⟨aPWR_E_UNATTR_LO, 31, 0⟩
/-- `PWR_E_UNATTR_HI`: unattributed energy (18). -/
def aPWR_E_UNATTR_HI : Nat := 0x201304
def PWR_E_UNATTR_HI_COUNT_HI : RF := ⟨aPWR_E_UNATTR_HI, 31, 0⟩
/-- `BRK_CMP_CFG[n]`: comparator settings (18). -/
def aBRK_CMP_CFG (i : Nat) : Nat := 0x300100 + 0x4 * i
def BRK_CMP_CFG_THRESH (i : Nat) : RF := ⟨(aBRK_CMP_CFG i), 11, 0⟩
def BRK_CMP_CFG_ACTION (i : Nat) : RF := ⟨(aBRK_CMP_CFG i), 13, 12⟩
def BRK_CMP_CFG_EN (i : Nat) : RF := ⟨(aBRK_CMP_CFG i), 14, 14⟩
def BRK_CMP_CFG_POLARITY (i : Nat) : RF := ⟨(aBRK_CMP_CFG i), 15, 15⟩
/-- `BRK_CMP_STATUS`: comparator state (18). -/
def aBRK_CMP_STATUS : Nat := 0x300120
def BRK_CMP_STATUS_LIVE : RF := ⟨aBRK_CMP_STATUS, 5, 0⟩
def BRK_CMP_STATUS_LATCHED : RF := ⟨aBRK_CMP_STATUS, 11, 6⟩
def BRK_CMP_STATUS_BROWNOUT : RF := ⟨aBRK_CMP_STATUS, 12, 12⟩
/-- `BRK_TIME_LO`: Bedrock time (22). -/
def aBRK_TIME_LO : Nat := 0x300000
def BRK_TIME_LO_STAMP_LO : RF := ⟨aBRK_TIME_LO, 31, 0⟩
/-- `BRK_TIME_HI`: Bedrock time (22). -/
def aBRK_TIME_HI : Nat := 0x300004
def BRK_TIME_HI_STAMP_HI : RF := ⟨aBRK_TIME_HI, 31, 0⟩
/-- `ETH_PORT_CTRL`: port control (16). -/
def aETH_PORT_CTRL : Nat := 0x400000
def ETH_PORT_CTRL_EN : RF := ⟨aETH_PORT_CTRL, 0, 0⟩
def ETH_PORT_CTRL_RETRY_800 : RF := ⟨aETH_PORT_CTRL, 1, 1⟩
def ETH_PORT_CTRL_UNTAGGED_EN : RF := ⟨aETH_PORT_CTRL, 2, 2⟩
def ETH_PORT_CTRL_MACSEC_EN : RF := ⟨aETH_PORT_CTRL, 3, 3⟩
/-- `ETH_PORT_STATUS`: link state (16). -/
def aETH_PORT_STATUS : Nat := 0x400004
def ETH_PORT_STATUS_LINK_UP : RF := ⟨aETH_PORT_STATUS, 0, 0⟩
def ETH_PORT_STATUS_RATE : RF := ⟨aETH_PORT_STATUS, 2, 1⟩
def ETH_PORT_STATUS_LANE_FAILED : RF := ⟨aETH_PORT_STATUS, 10, 3⟩
def ETH_PORT_STATUS_DOWN_SEEN : RF := ⟨aETH_PORT_STATUS, 11, 11⟩
/-- `ETH_CSP_CTRL`: CSP settings (16). -/
def aETH_CSP_CTRL : Nat := 0x400010
def ETH_CSP_CTRL_UDP_PORT : RF := ⟨aETH_CSP_CTRL, 15, 0⟩
def ETH_CSP_CTRL_QUEUE_MAX : RF := ⟨aETH_CSP_CTRL, 27, 16⟩
/-- `ETH_PFC_CTRL`: priority settings (16). -/
def aETH_PFC_CTRL : Nat := 0x400014
def ETH_PFC_CTRL_PFC_EN : RF := ⟨aETH_PFC_CTRL, 7, 0⟩
def ETH_PFC_CTRL_CSP_PCP : RF := ⟨aETH_PFC_CTRL, 10, 8⟩
def ETH_PFC_CTRL_ROCE_PCP : RF := ⟨aETH_PFC_CTRL, 13, 11⟩
/-- `ETH_ADMIT[n]`: admission entry (16). -/
def aETH_ADMIT (i : Nat) : Nat := 0x400100 + 0x8 * i
def ETH_ADMIT_VLAN (i : Nat) : RF := ⟨(aETH_ADMIT i), 11, 0⟩
def ETH_ADMIT_EN (i : Nat) : RF := ⟨(aETH_ADMIT i), 12, 12⟩
def ETH_ADMIT_PART_MASK (i : Nat) : RF := ⟨(aETH_ADMIT i), 31, 16⟩
/-- `ETH_ROCE_WIN_CFG[n]`: registered window (16). -/
def aETH_ROCE_WIN_CFG (i : Nat) : Nat := 0x400400 + 0x10 * i
def ETH_ROCE_WIN_CFG_EN (i : Nat) : RF := ⟨(aETH_ROCE_WIN_CFG i), 0, 0⟩
def ETH_ROCE_WIN_CFG_R (i : Nat) : RF := ⟨(aETH_ROCE_WIN_CFG i), 1, 1⟩
def ETH_ROCE_WIN_CFG_W (i : Nat) : RF := ⟨(aETH_ROCE_WIN_CFG i), 2, 2⟩
def ETH_ROCE_WIN_CFG_PARTITION (i : Nat) : RF := ⟨(aETH_ROCE_WIN_CFG i), 6, 3⟩
def ETH_ROCE_WIN_CFG_KEY (i : Nat) : RF := ⟨(aETH_ROCE_WIN_CFG i), 31, 7⟩
/-- `ETH_ROCE_WIN_BASE[n]`: window base (16). -/
def aETH_ROCE_WIN_BASE (i : Nat) : Nat := 0x400404 + 0x10 * i
def ETH_ROCE_WIN_BASE_OFFSET (i : Nat) : RF := ⟨(aETH_ROCE_WIN_BASE i), 24, 0⟩
/-- `ETH_ROCE_WIN_LEN[n]`: window length (16). -/
def aETH_ROCE_WIN_LEN (i : Nat) : Nat := 0x400408 + 0x10 * i
def ETH_ROCE_WIN_LEN_LEN (i : Nat) : RF := ⟨(aETH_ROCE_WIN_LEN i), 25, 0⟩
/-- `ETH_ROCE_WIN_DEV[n]`: window device (16). -/
def aETH_ROCE_WIN_DEV (i : Nat) : Nat := 0x40040c + 0x10 * i
def ETH_ROCE_WIN_DEV_DEVICE (i : Nat) : RF := ⟨(aETH_ROCE_WIN_DEV i), 9, 0⟩
/-- `ETH_RX_DROP_LO`: frames discarded, low part (16). -/
def aETH_RX_DROP_LO : Nat := 0x400020
def ETH_RX_DROP_LO_COUNT_LO : RF := ⟨aETH_RX_DROP_LO, 31, 0⟩
/-- `ETH_RX_DROP_HI`: frames discarded, high part (16). -/
def aETH_RX_DROP_HI : Nat := 0x400024
def ETH_RX_DROP_HI_COUNT_HI : RF := ⟨aETH_RX_DROP_HI, 15, 0⟩
def ETH_RX_DROP_HI_OVF : RF := ⟨aETH_RX_DROP_HI, 31, 31⟩
/-- `QPL_PORT_CTRL`: port mode (15). -/
def aQPL_PORT_CTRL (n : Nat) : Nat := 0x500000 + 0x40000 * n
def QPL_PORT_CTRL_EN (n : Nat) : RF := ⟨(aQPL_PORT_CTRL n), 0, 0⟩
def QPL_PORT_CTRL_MODE (n : Nat) : RF := ⟨(aQPL_PORT_CTRL n), 2, 1⟩
def QPL_PORT_CTRL_DATELINE (n : Nat) : RF := ⟨(aQPL_PORT_CTRL n), 3, 3⟩
/-- `QPL_PORT_STATUS`: link state (15). -/
def aQPL_PORT_STATUS (n : Nat) : Nat := 0x500004 + 0x40000 * n
def QPL_PORT_STATUS_LINK_UP (n : Nat) : RF := ⟨(aQPL_PORT_STATUS n), 0, 0⟩
def QPL_PORT_STATUS_TRAINING (n : Nat) : RF := ⟨(aQPL_PORT_STATUS n), 1, 1⟩
def QPL_PORT_STATUS_TX_WIDTH (n : Nat) : RF := ⟨(aQPL_PORT_STATUS n), 3, 2⟩
def QPL_PORT_STATUS_RX_WIDTH (n : Nat) : RF := ⟨(aQPL_PORT_STATUS n), 5, 4⟩
def QPL_PORT_STATUS_PEER_SWITCH (n : Nat) : RF := ⟨(aQPL_PORT_STATUS n), 6, 6⟩
def QPL_PORT_STATUS_PEER_NODE_HOST (n : Nat) : RF := ⟨(aQPL_PORT_STATUS n), 7, 7⟩
def QPL_PORT_STATUS_PEER_DEVICE (n : Nat) : RF := ⟨(aQPL_PORT_STATUS n), 17, 8⟩
def QPL_PORT_STATUS_PEER_PORT (n : Nat) : RF := ⟨(aQPL_PORT_STATUS n), 19, 18⟩
def QPL_PORT_STATUS_DOWN_SEEN (n : Nat) : RF := ⟨(aQPL_PORT_STATUS n), 20, 20⟩
/-- `QPL_LANE_STATE[n]`: lane state (15). -/
def aQPL_LANE_STATE (n i : Nat) : Nat := 0x500010 + 0x40000 * n + 0x4 * i
def QPL_LANE_STATE_ROLE (n i : Nat) : RF := ⟨(aQPL_LANE_STATE n i), 2, 0⟩
def QPL_LANE_STATE_FAILED (n i : Nat) : RF := ⟨(aQPL_LANE_STATE n i), 3, 3⟩
def QPL_LANE_STATE_SER_LOG (n i : Nat) : RF := ⟨(aQPL_LANE_STATE n i), 11, 8⟩
/-- `QPL_STEER`: request a lane change (15). -/
def aQPL_STEER (n : Nat) : Nat := 0x500040 + 0x40000 * n
def QPL_STEER_LANE (n : Nat) : RF := ⟨(aQPL_STEER n), 2, 0⟩
def QPL_STEER_DIR (n : Nat) : RF := ⟨(aQPL_STEER n), 3, 3⟩
def QPL_STEER_START (n : Nat) : RF := ⟨(aQPL_STEER n), 4, 4⟩
def QPL_STEER_BUSY (n : Nat) : RF := ⟨(aQPL_STEER n), 5, 5⟩
def QPL_STEER_DONE (n : Nat) : RF := ⟨(aQPL_STEER n), 6, 6⟩
def QPL_STEER_FAIL (n : Nat) : RF := ⟨(aQPL_STEER n), 7, 7⟩
/-- `QPL_RETRY_LO`: flits resent, low part (15). -/
def aQPL_RETRY_LO (n : Nat) : Nat := 0x500050 + 0x40000 * n
def QPL_RETRY_LO_COUNT_LO (n : Nat) : RF := ⟨(aQPL_RETRY_LO n), 31, 0⟩
/-- `QPL_RETRY_HI`: flits resent, high part (15). -/
def aQPL_RETRY_HI (n : Nat) : Nat := 0x500054 + 0x40000 * n
def QPL_RETRY_HI_COUNT_HI (n : Nat) : RF := ⟨(aQPL_RETRY_HI n), 15, 0⟩
def QPL_RETRY_HI_OVF (n : Nat) : RF := ⟨(aQPL_RETRY_HI n), 31, 31⟩
/-- `QPL_FEC_CORR_LO`: corrected codewords, low part (15). -/
def aQPL_FEC_CORR_LO (n : Nat) : Nat := 0x500058 + 0x40000 * n
def QPL_FEC_CORR_LO_COUNT_LO (n : Nat) : RF := ⟨(aQPL_FEC_CORR_LO n), 31, 0⟩
/-- `QPL_FEC_CORR_HI`: corrected codewords, high part (15). -/
def aQPL_FEC_CORR_HI (n : Nat) : Nat := 0x50005c + 0x40000 * n
def QPL_FEC_CORR_HI_COUNT_HI (n : Nat) : RF := ⟨(aQPL_FEC_CORR_HI n), 15, 0⟩
def QPL_FEC_CORR_HI_OVF (n : Nat) : RF := ⟨(aQPL_FEC_CORR_HI n), 31, 31⟩
/-- `QPL_TIMEOUT`: response timeout (15). -/
def aQPL_TIMEOUT (n : Nat) : Nat := 0x500060 + 0x40000 * n
def QPL_TIMEOUT_TIMEOUT_US (n : Nat) : RF := ⟨(aQPL_TIMEOUT n), 15, 0⟩
def QPL_TIMEOUT_LATE (n : Nat) : RF := ⟨(aQPL_TIMEOUT n), 16, 16⟩
/-- `QPL_CONG_CTRL`: congestion settings (15). -/
def aQPL_CONG_CTRL (n : Nat) : Nat := 0x500064 + 0x40000 * n
def QPL_CONG_CTRL_MARK_THRESH (n : Nat) : RF := ⟨(aQPL_CONG_CTRL n), 7, 0⟩
def QPL_CONG_CTRL_WIN_MAX_LOG2 (n : Nat) : RF := ⟨(aQPL_CONG_CTRL n), 12, 8⟩
def QPL_CONG_CTRL_WIN_MIN_LOG2 (n : Nat) : RF := ⟨(aQPL_CONG_CTRL n), 17, 13⟩
/-- `QPL_RSPILL_BASE`: reduction spill base (15). -/
def aQPL_RSPILL_BASE (n : Nat) : Nat := 0x500070 + 0x40000 * n
def QPL_RSPILL_BASE_BASE (n : Nat) : RF := ⟨(aQPL_RSPILL_BASE n), 24, 0⟩
/-- `QPL_RSPILL_SIZE`: reduction spill size (15). -/
def aQPL_RSPILL_SIZE (n : Nat) : Nat := 0x500074 + 0x40000 * n
def QPL_RSPILL_SIZE_SIZE_MIB (n : Nat) : RF := ⟨(aQPL_RSPILL_SIZE n), 15, 0⟩
def QPL_RSPILL_SIZE_USED_MIB (n : Nat) : RF := ⟨(aQPL_RSPILL_SIZE n), 31, 16⟩
/-- `QPL_ROUTE[d]`: route to device d (15). -/
def aQPL_ROUTE (n i : Nat) : Nat := 0x501000 + 0x40000 * n + 0x4 * i
def QPL_ROUTE_PORT (n i : Nat) : RF := ⟨(aQPL_ROUTE n i), 1, 0⟩
def QPL_ROUTE_VALID (n i : Nat) : RF := ⟨(aQPL_ROUTE n i), 2, 2⟩
/-- `QPL_RNODE_CFG[k]`: reduction node settings (15). -/
def aQPL_RNODE_CFG (n i : Nat) : Nat := 0x502000 + 0x40000 * n + 0x10 * i
def QPL_RNODE_CFG_EN (n i : Nat) : RF := ⟨(aQPL_RNODE_CFG n i), 0, 0⟩
def QPL_RNODE_CFG_PASS (n i : Nat) : RF := ⟨(aQPL_RNODE_CFG n i), 1, 1⟩
def QPL_RNODE_CFG_OUT_SIDE (n i : Nat) : RF := ⟨(aQPL_RNODE_CFG n i), 2, 2⟩
def QPL_RNODE_CFG_GEN (n i : Nat) : RF := ⟨(aQPL_RNODE_CFG n i), 6, 3⟩
def QPL_RNODE_CFG_FMT (n i : Nat) : RF := ⟨(aQPL_RNODE_CFG n i), 11, 7⟩
/-- `QPL_RNODE_KEY[k]`: reduction node key (15). -/
def aQPL_RNODE_KEY (n i : Nat) : Nat := 0x502004 + 0x40000 * n + 0x10 * i
def QPL_RNODE_KEY_TREE (n i : Nat) : RF := ⟨(aQPL_RNODE_KEY n i), 15, 0⟩
def QPL_RNODE_KEY_NODE (n i : Nat) : RF := ⟨(aQPL_RNODE_KEY n i), 21, 16⟩
/-- `QPL_RNODE_DEST[k]`: reduction node destination (15). -/
def aQPL_RNODE_DEST (n i : Nat) : Nat := 0x502008 + 0x40000 * n + 0x10 * i
def QPL_RNODE_DEST_DEVICE (n i : Nat) : RF := ⟨(aQPL_RNODE_DEST n i), 9, 0⟩
def QPL_RNODE_DEST_ROOT (n i : Nat) : RF := ⟨(aQPL_RNODE_DEST n i), 10, 10⟩
def QPL_RNODE_DEST_TARGET (n i : Nat) : RF := ⟨(aQPL_RNODE_DEST n i), 16, 11⟩
/-- `XLT_DEVICE_ID`: this part's device id (14). -/
def aXLT_DEVICE_ID : Nat := 0x600000
def XLT_DEVICE_ID_DEVICE : RF := ⟨aXLT_DEVICE_ID, 9, 0⟩
def XLT_DEVICE_ID_VALID : RF := ⟨aXLT_DEVICE_ID, 10, 10⟩
/-- `XLT_REMOTE_RETRY`: remote not-present repeats (14). -/
def aXLT_REMOTE_RETRY : Nat := 0x600004
def XLT_REMOTE_RETRY_RETRY_US : RF := ⟨aXLT_REMOTE_RETRY, 15, 0⟩
def XLT_REMOTE_RETRY_RETRY_LIMIT : RF := ⟨aXLT_REMOTE_RETRY, 23, 16⟩
/-- `XLT_INVAL_BASE_LO`: invalidation base, low part (14). -/
def aXLT_INVAL_BASE_LO : Nat := 0x600010
def XLT_INVAL_BASE_LO_BASE_LO : RF := ⟨aXLT_INVAL_BASE_LO, 31, 16⟩
/-- `XLT_INVAL_BASE_HI`: invalidation base, high part (14). -/
def aXLT_INVAL_BASE_HI : Nat := 0x600014
def XLT_INVAL_BASE_HI_BASE_HI : RF := ⟨aXLT_INVAL_BASE_HI, 15, 0⟩
/-- `XLT_INVAL_LEN`: invalidation length (14). -/
def aXLT_INVAL_LEN : Nat := 0x600018
def XLT_INVAL_LEN_LEN : RF := ⟨aXLT_INVAL_LEN, 31, 0⟩
/-- `XLT_INVAL_CTRL`: start an invalidation (14). -/
def aXLT_INVAL_CTRL : Nat := 0x60001c
def XLT_INVAL_CTRL_SCOPE : RF := ⟨aXLT_INVAL_CTRL, 1, 0⟩
def XLT_INVAL_CTRL_CTX : RF := ⟨aXLT_INVAL_CTRL, 7, 2⟩
/-- `XLT_INVAL_STATUS`: invalidation status (14). -/
def aXLT_INVAL_STATUS : Nat := 0x600020
def XLT_INVAL_STATUS_BUSY : RF := ⟨aXLT_INVAL_STATUS, 0, 0⟩
def XLT_INVAL_STATUS_DONE : RF := ⟨aXLT_INVAL_STATUS, 1, 1⟩
def XLT_INVAL_STATUS_OVERRUN : RF := ⟨aXLT_INVAL_STATUS, 2, 2⟩
/-- `XLT_RESOLVE`: answer translation faults (14). -/
def aXLT_RESOLVE : Nat := 0x600030
def XLT_RESOLVE_CTX : RF := ⟨aXLT_RESOLVE, 5, 0⟩
def XLT_RESOLVE_ACTION : RF := ⟨aXLT_RESOLVE, 9, 8⟩
/-- `XLT_CTX_ROOT[c]`: translation root (14). -/
def aXLT_CTX_ROOT (i : Nat) : Nat := 0x601000 + 0x4 * i
def XLT_CTX_ROOT_ROOT (i : Nat) : RF := ⟨(aXLT_CTX_ROOT i), 19, 0⟩
def XLT_CTX_ROOT_EN (i : Nat) : RF := ⟨(aXLT_CTX_ROOT i), 20, 20⟩
/-- `XLT_FQ_BASE[q]`: fault queue base (14). -/
def aXLT_FQ_BASE (i : Nat) : Nat := 0x602000 + 0x10 * i
def XLT_FQ_BASE_BASE (i : Nat) : RF := ⟨(aXLT_FQ_BASE i), 25, 0⟩
/-- `XLT_FQ_WPTR[q]`: fault queue write index (14). -/
def aXLT_FQ_WPTR (i : Nat) : Nat := 0x602004 + 0x10 * i
def XLT_FQ_WPTR_WPTR (i : Nat) : RF := ⟨(aXLT_FQ_WPTR i), 9, 0⟩
/-- `XLT_FQ_RPTR[q]`: fault queue read index (14). -/
def aXLT_FQ_RPTR (i : Nat) : Nat := 0x602008 + 0x10 * i
def XLT_FQ_RPTR_RPTR (i : Nat) : RF := ⟨(aXLT_FQ_RPTR i), 9, 0⟩
/-- `XLT_EXPORT_BASE[n]`: export base (14). -/
def aXLT_EXPORT_BASE (i : Nat) : Nat := 0x603000 + 0x10 * i
def XLT_EXPORT_BASE_BASE (i : Nat) : RF := ⟨(aXLT_EXPORT_BASE i), 24, 0⟩
/-- `XLT_EXPORT_LEN[n]`: export length (14). -/
def aXLT_EXPORT_LEN (i : Nat) : Nat := 0x603004 + 0x10 * i
def XLT_EXPORT_LEN_LEN (i : Nat) : RF := ⟨(aXLT_EXPORT_LEN i), 25, 0⟩
/-- `XLT_EXPORT_CFG[n]`: export rights and presence (14). -/
def aXLT_EXPORT_CFG (i : Nat) : Nat := 0x603008 + 0x10 * i
def XLT_EXPORT_CFG_EN (i : Nat) : RF := ⟨(aXLT_EXPORT_CFG i), 0, 0⟩
def XLT_EXPORT_CFG_PRESENT (i : Nat) : RF := ⟨(aXLT_EXPORT_CFG i), 1, 1⟩
def XLT_EXPORT_CFG_R (i : Nat) : RF := ⟨(aXLT_EXPORT_CFG i), 2, 2⟩
def XLT_EXPORT_CFG_W (i : Nat) : RF := ⟨(aXLT_EXPORT_CFG i), 3, 3⟩
def XLT_EXPORT_CFG_A (i : Nat) : RF := ⟨(aXLT_EXPORT_CFG i), 4, 4⟩
def XLT_EXPORT_CFG_DEVICE (i : Nat) : RF := ⟨(aXLT_EXPORT_CFG i), 14, 5⟩
def XLT_EXPORT_CFG_ANY (i : Nat) : RF := ⟨(aXLT_EXPORT_CFG i), 15, 15⟩
/-- `SCH_CTRL`: scheduler settings (17). -/
def aSCH_CTRL : Nat := 0x700000
def SCH_CTRL_MAX_CONC : RF := ⟨aSCH_CTRL, 2, 0⟩
def SCH_CTRL_PREEMPT_EN : RF := ⟨aSCH_CTRL, 3, 3⟩
def SCH_CTRL_PREEMPT_100US : RF := ⟨aSCH_CTRL, 15, 4⟩
def SCH_CTRL_GROUP_MS : RF := ⟨aSCH_CTRL, 23, 16⟩
def SCH_CTRL_HEAT_LIMIT_MS : RF := ⟨aSCH_CTRL, 31, 24⟩
/-- `SCH_PART_CFG[p]`: partition settings (17). -/
def aSCH_PART_CFG (i : Nat) : Nat := 0x700100 + 0x10 * i
def SCH_PART_CFG_WEIGHT (i : Nat) : RF := ⟨(aSCH_PART_CFG i), 15, 0⟩
def SCH_PART_CFG_SERVING (i : Nat) : RF := ⟨(aSCH_PART_CFG i), 16, 16⟩
def SCH_PART_CFG_EXISTS (i : Nat) : RF := ⟨(aSCH_PART_CFG i), 17, 17⟩
/-- `SCH_PART_BW[p]`: partition rates (17). -/
def aSCH_PART_BW (i : Nat) : Nat := 0x700104 + 0x10 * i
def SCH_PART_BW_STK_RATE (i : Nat) : RF := ⟨(aSCH_PART_BW i), 15, 0⟩
def SCH_PART_BW_QPL_RATE (i : Nat) : RF := ⟨(aSCH_PART_BW i), 31, 16⟩
/-- `SCH_BUSY_LO[p]`: engine time, low part (17). -/
def aSCH_BUSY_LO (i : Nat) : Nat := 0x700108 + 0x10 * i
def SCH_BUSY_LO_COUNT_LO (i : Nat) : RF := ⟨(aSCH_BUSY_LO i), 31, 0⟩
/-- `SCH_BUSY_HI[p]`: engine time, high part (17). -/
def aSCH_BUSY_HI (i : Nat) : Nat := 0x70010c + 0x10 * i
def SCH_BUSY_HI_COUNT_HI (i : Nat) : RF := ⟨(aSCH_BUSY_HI i), 31, 0⟩
/-- `SCH_CTX_STATE[c]`: context state (17). -/
def aSCH_CTX_STATE (i : Nat) : Nat := 0x701000 + 0x10 * i
def SCH_CTX_STATE_STATE (i : Nat) : RF := ⟨(aSCH_CTX_STATE i), 2, 0⟩
def SCH_CTX_STATE_PART (i : Nat) : RF := ⟨(aSCH_CTX_STATE i), 6, 3⟩
def SCH_CTX_STATE_HOME_Q (i : Nat) : RF := ⟨(aSCH_CTX_STATE i), 8, 7⟩
def SCH_CTX_STATE_REPLAY (i : Nat) : RF := ⟨(aSCH_CTX_STATE i), 10, 9⟩
def SCH_CTX_STATE_UNCOMMITTABLE (i : Nat) : RF := ⟨(aSCH_CTX_STATE i), 11, 11⟩
def SCH_CTX_STATE_GROUPED (i : Nat) : RF := ⟨(aSCH_CTX_STATE i), 12, 12⟩
def SCH_CTX_STATE_LEADER (i : Nat) : RF := ⟨(aSCH_CTX_STATE i), 13, 13⟩
def SCH_CTX_STATE_LOAD_DONE (i : Nat) : RF := ⟨(aSCH_CTX_STATE i), 14, 14⟩
def SCH_CTX_STATE_LAST_FAULT (i : Nat) : RF := ⟨(aSCH_CTX_STATE i), 26, 15⟩
/-- `SCH_CTX_HEAT_LO[c]`: heat number, low part (17). -/
def aSCH_CTX_HEAT_LO (i : Nat) : Nat := 0x701004 + 0x10 * i
def SCH_CTX_HEAT_LO_HEAT_LO (i : Nat) : RF := ⟨(aSCH_CTX_HEAT_LO i), 31, 0⟩
/-- `SCH_CTX_HEAT_HI[c]`: heat number, high part (17). -/
def aSCH_CTX_HEAT_HI (i : Nat) : Nat := 0x701008 + 0x10 * i
def SCH_CTX_HEAT_HI_HEAT_HI (i : Nat) : RF := ⟨(aSCH_CTX_HEAT_HI i), 31, 0⟩
/-- `TEL_CTRL`: telemetry settings (22). -/
def aTEL_CTRL : Nat := 0x800000
def TEL_CTRL_MARK_EN : RF := ⟨aTEL_CTRL, 0, 0⟩
def TEL_CTRL_HEAT_TRACE : RF := ⟨aTEL_CTRL, 1, 1⟩
def TEL_CTRL_LOG_MIN : RF := ⟨aTEL_CTRL, 3, 2⟩
def TEL_CTRL_ALERT_LEVEL : RF := ⟨aTEL_CTRL, 5, 4⟩
def TEL_CTRL_EXPORT_MBPS : RF := ⟨aTEL_CTRL, 31, 16⟩
/-- `TEL_BUF_BASE`: buffer base (22). -/
def aTEL_BUF_BASE : Nat := 0x800004
def TEL_BUF_BASE_BASE : RF := ⟨aTEL_BUF_BASE, 12, 0⟩
/-- `TEL_SEQ_LO`: newest record (22). -/
def aTEL_SEQ_LO : Nat := 0x800010
def TEL_SEQ_LO_SEQ_LO : RF := ⟨aTEL_SEQ_LO, 31, 0⟩
/-- `TEL_SEQ_HI`: newest record (22). -/
def aTEL_SEQ_HI : Nat := 0x800014
def TEL_SEQ_HI_SEQ_HI : RF := ⟨aTEL_SEQ_HI, 31, 0⟩
/-- `TEL_OLDEST_LO`: oldest record held (22). -/
def aTEL_OLDEST_LO : Nat := 0x800018
def TEL_OLDEST_LO_SEQ_LO : RF := ⟨aTEL_OLDEST_LO, 31, 0⟩
/-- `TEL_OLDEST_HI`: oldest record held (22). -/
def aTEL_OLDEST_HI : Nat := 0x80001c
def TEL_OLDEST_HI_SEQ_HI : RF := ⟨aTEL_OLDEST_HI, 31, 0⟩
/-- `TEL_EPOCH_LO`: wall-time offset (22). -/
def aTEL_EPOCH_LO : Nat := 0x800030
def TEL_EPOCH_LO_OFFSET_LO : RF := ⟨aTEL_EPOCH_LO, 31, 0⟩
/-- `TEL_EPOCH_HI`: wall-time offset (22). -/
def aTEL_EPOCH_HI : Nat := 0x800034
def TEL_EPOCH_HI_OFFSET_HI : RF := ⟨aTEL_EPOCH_HI, 31, 0⟩
/-- `TEL_DROP_LO[k]`: records dropped (22). -/
def aTEL_DROP_LO (i : Nat) : Nat := 0x800040 + 0x8 * i
def TEL_DROP_LO_COUNT_LO (i : Nat) : RF := ⟨(aTEL_DROP_LO i), 31, 0⟩
/-- `TEL_DROP_HI[k]`: records dropped (22). -/
def aTEL_DROP_HI (i : Nat) : Nat := 0x800044 + 0x8 * i
def TEL_DROP_HI_COUNT_HI (i : Nat) : RF := ⟨(aTEL_DROP_HI i), 15, 0⟩
def TEL_DROP_HI_OVF (i : Nat) : RF := ⟨(aTEL_DROP_HI i), 31, 31⟩
/-- `TEL_ALARM_SUMMARY`: alarm slots in use (22). -/
def aTEL_ALARM_SUMMARY : Nat := 0x800080
def TEL_ALARM_SUMMARY_USED : RF := ⟨aTEL_ALARM_SUMMARY, 8, 0⟩
def TEL_ALARM_SUMMARY_CRIT_MAJ : RF := ⟨aTEL_ALARM_SUMMARY, 16, 9⟩
def TEL_ALARM_SUMMARY_MIN_INFO : RF := ⟨aTEL_ALARM_SUMMARY, 24, 17⟩
def TEL_ALARM_SUMMARY_ALERT : RF := ⟨aTEL_ALARM_SUMMARY, 25, 25⟩
def TEL_ALARM_SUMMARY_MERGED_SEEN : RF := ⟨aTEL_ALARM_SUMMARY, 26, 26⟩
/-- `TEL_ALARM_ACK`: acknowledge alarms (22). -/
def aTEL_ALARM_ACK : Nat := 0x800084
def TEL_ALARM_ACK_SLOT : RF := ⟨aTEL_ALARM_ACK, 7, 0⟩
def TEL_ALARM_ACK_ALL : RF := ⟨aTEL_ALARM_ACK, 8, 8⟩
/-- `TEL_ALARM_SLOT[n]`: alarm slot (22). -/
def aTEL_ALARM_SLOT (i : Nat) : Nat := 0x801000 + 0x8 * i
def TEL_ALARM_SLOT_CODE (i : Nat) : RF := ⟨(aTEL_ALARM_SLOT i), 11, 0⟩
def TEL_ALARM_SLOT_SEV (i : Nat) : RF := ⟨(aTEL_ALARM_SLOT i), 13, 12⟩
def TEL_ALARM_SLOT_IN_USE (i : Nat) : RF := ⟨(aTEL_ALARM_SLOT i), 14, 14⟩
def TEL_ALARM_SLOT_MERGED (i : Nat) : RF := ⟨(aTEL_ALARM_SLOT i), 15, 15⟩
def TEL_ALARM_SLOT_SOURCE (i : Nat) : RF := ⟨(aTEL_ALARM_SLOT i), 31, 16⟩
/-- `TEL_ALARM_COUNT[n]`: alarm slot count (22). -/
def aTEL_ALARM_COUNT (i : Nat) : Nat := 0x801004 + 0x8 * i
def TEL_ALARM_COUNT_COUNT (i : Nat) : RF := ⟨(aTEL_ALARM_COUNT i), 31, 0⟩
/-- `CFG_BOOT_STATUS`: start-up state (19). -/
def aCFG_BOOT_STATUS : Nat := 0x900000
def CFG_BOOT_STATUS_BOOT_MODE : RF := ⟨aCFG_BOOT_STATUS, 1, 0⟩
def CFG_BOOT_STATUS_PHASE : RF := ⟨aCFG_BOOT_STATUS, 5, 2⟩
def CFG_BOOT_STATUS_GOLDEN : RF := ⟨aCFG_BOOT_STATUS, 6, 6⟩
def CFG_BOOT_STATUS_FLASH_READ : RF := ⟨aCFG_BOOT_STATUS, 7, 7⟩
def CFG_BOOT_STATUS_STAGED : RF := ⟨aCFG_BOOT_STATUS, 8, 8⟩
def CFG_BOOT_STATUS_WRITES_EN : RF := ⟨aCFG_BOOT_STATUS, 9, 9⟩
def CFG_BOOT_STATUS_LAST_FAULT : RF := ⟨aCFG_BOOT_STATUS, 21, 10⟩
/-- `CFG_FW_SLOT`: firmware slots (19). -/
def aCFG_FW_SLOT : Nat := 0x900004
def CFG_FW_SLOT_ACTIVE : RF := ⟨aCFG_FW_SLOT, 0, 0⟩
def CFG_FW_SLOT_TRIAL : RF := ⟨aCFG_FW_SLOT, 1, 1⟩
def CFG_FW_SLOT_OTHER_VALID : RF := ⟨aCFG_FW_SLOT, 2, 2⟩
def CFG_FW_SLOT_HANDOVER : RF := ⟨aCFG_FW_SLOT, 3, 3⟩
/-- `CFG_FW_VERSION`: firmware version (19). -/
def aCFG_FW_VERSION : Nat := 0x900008
def CFG_FW_VERSION_VERSION : RF := ⟨aCFG_FW_VERSION, 31, 0⟩
/-- `CFG_IMAGE_STATUS`: grid image slots (19). -/
def aCFG_IMAGE_STATUS : Nat := 0x90000c
def CFG_IMAGE_STATUS_IN_FORCE : RF := ⟨aCFG_IMAGE_STATUS, 0, 0⟩
def CFG_IMAGE_STATUS_P0_STATE : RF := ⟨aCFG_IMAGE_STATUS, 3, 1⟩
def CFG_IMAGE_STATUS_P1_STATE : RF := ⟨aCFG_IMAGE_STATUS, 6, 4⟩
def CFG_IMAGE_STATUS_CTX_MOVED : RF := ⟨aCFG_IMAGE_STATUS, 12, 7⟩
/-- `CFG_IMAGE_VERSION`: grid image version (19). -/
def aCFG_IMAGE_VERSION : Nat := 0x900010
def CFG_IMAGE_VERSION_VERSION : RF := ⟨aCFG_IMAGE_VERSION, 31, 0⟩
/-- `CFG_STAGE_STATUS`: staging (19). -/
def aCFG_STAGE_STATUS : Nat := 0x900014
def CFG_STAGE_STATUS_BUSY : RF := ⟨aCFG_STAGE_STATUS, 0, 0⟩
def CFG_STAGE_STATUS_TARGET : RF := ⟨aCFG_STAGE_STATUS, 2, 1⟩
def CFG_STAGE_STATUS_PROGRESS : RF := ⟨aCFG_STAGE_STATUS, 9, 3⟩
def CFG_STAGE_STATUS_DONE : RF := ⟨aCFG_STAGE_STATUS, 10, 10⟩
def CFG_STAGE_STATUS_FAILED : RF := ⟨aCFG_STAGE_STATUS, 11, 11⟩
def CFG_STAGE_STATUS_RESTART_NEEDED : RF := ⟨aCFG_STAGE_STATUS, 12, 12⟩
/-- `CFG_STEP[n]`: start-up step (19). -/
def aCFG_STEP (i : Nat) : Nat := 0x900100 + 0x4 * i
def CFG_STEP_ACTION (i : Nat) : RF := ⟨(aCFG_STEP i), 2, 0⟩
def CFG_STEP_ARG (i : Nat) : RF := ⟨(aCFG_STEP i), 9, 4⟩
def CFG_STEP_DELAY_US (i : Nat) : RF := ⟨(aCFG_STEP i), 31, 10⟩
/-- `CFG_NV_STATUS`: NV store health (19). -/
def aCFG_NV_STATUS : Nat := 0x900200
def CFG_NV_STATUS_SPARES_FREE : RF := ⟨aCFG_NV_STATUS, 10, 0⟩
def CFG_NV_STATUS_UNCORR_SEEN : RF := ⟨aCFG_NV_STATUS, 11, 11⟩
def CFG_NV_STATUS_REBUILT : RF := ⟨aCFG_NV_STATUS, 12, 12⟩
/-- `CFG_SCRUB_CTRL[e]`: scrub engine settings (21). -/
def aCFG_SCRUB_CTRL (i : Nat) : Nat := 0x900300 + 0x10 * i
def CFG_SCRUB_CTRL_EN (i : Nat) : RF := ⟨(aCFG_SCRUB_CTRL i), 0, 0⟩
def CFG_SCRUB_CTRL_PACE_US (i : Nat) : RF := ⟨(aCFG_SCRUB_CTRL i), 15, 1⟩
/-- `CFG_SCRUB_STATUS[e]`: scrub engine state (21). -/
def aCFG_SCRUB_STATUS (i : Nat) : Nat := 0x900304 + 0x10 * i
def CFG_SCRUB_STATUS_PASSES (i : Nat) : RF := ⟨(aCFG_SCRUB_STATUS i), 15, 0⟩
def CFG_SCRUB_STATUS_RELOADS (i : Nat) : RF := ⟨(aCFG_SCRUB_STATUS i), 23, 16⟩
def CFG_SCRUB_STATUS_MISMATCH (i : Nat) : RF := ⟨(aCFG_SCRUB_STATUS i), 24, 24⟩
def CFG_SCRUB_STATUS_PEER_BAD (i : Nat) : RF := ⟨(aCFG_SCRUB_STATUS i), 25, 25⟩
/-- `SEAM_DIR_STATUS[n]`: seam direction status (02). -/
def aSEAM_DIR_STATUS (i : Nat) : Nat := 0xa00000 + 0x4 * i
def SEAM_DIR_STATUS_LINK_UP (i : Nat) : RF := ⟨(aSEAM_DIR_STATUS i), 0, 0⟩
def SEAM_DIR_STATUS_DOMAIN_ON (i : Nat) : RF := ⟨(aSEAM_DIR_STATUS i), 1, 1⟩
def SEAM_DIR_STATUS_RESENT (i : Nat) : RF := ⟨(aSEAM_DIR_STATUS i), 2, 2⟩
/-- `STK_STATUS`: stack state (13). -/
def aSTK_STATUS (s : Nat) : Nat := 0x1000000 + 0x80000 * s
def STK_STATUS_PWR_STATE (s : Nat) : RF := ⟨(aSTK_STATUS s), 1, 0⟩
def STK_STATUS_READY (s : Nat) : RF := ⟨(aSTK_STATUS s), 2, 2⟩
def STK_STATUS_WAKE_HELD (s : Nat) : RF := ⟨(aSTK_STATUS s), 3, 3⟩
def STK_STATUS_SPARE_DIE_FREE (s : Nat) : RF := ⟨(aSTK_STATUS s), 4, 4⟩
/-- `STK_PWR_CTRL`: power request (13). -/
def aSTK_PWR_CTRL (s : Nat) : Nat := 0x1000004 + 0x80000 * s
def STK_PWR_CTRL_REQ (s : Nat) : RF := ⟨(aSTK_PWR_CTRL s), 2, 0⟩
def STK_PWR_CTRL_IDLE_LOG2 (s : Nat) : RF := ⟨(aSTK_PWR_CTRL s), 7, 3⟩
/-- `STK_ECC_STATUS`: last ECC event (13). -/
def aSTK_ECC_STATUS (s : Nat) : Nat := 0x1000010 + 0x80000 * s
def STK_ECC_STATUS_CORR_SEEN (s : Nat) : RF := ⟨(aSTK_ECC_STATUS s), 0, 0⟩
def STK_ECC_STATUS_UNCORR_SEEN (s : Nat) : RF := ⟨(aSTK_ECC_STATUS s), 1, 1⟩
def STK_ECC_STATUS_BY_SCRUB (s : Nat) : RF := ⟨(aSTK_ECC_STATUS s), 2, 2⟩
def STK_ECC_STATUS_PC (s : Nat) : RF := ⟨(aSTK_ECC_STATUS s), 7, 3⟩
def STK_ECC_STATUS_BANK (s : Nat) : RF := ⟨(aSTK_ECC_STATUS s), 13, 8⟩
def STK_ECC_STATUS_ROW (s : Nat) : RF := ⟨(aSTK_ECC_STATUS s), 27, 14⟩
/-- `STK_ECC_CORR_LO`: corrected errors, low part (13). -/
def aSTK_ECC_CORR_LO (s : Nat) : Nat := 0x1000014 + 0x80000 * s
def STK_ECC_CORR_LO_COUNT_LO (s : Nat) : RF := ⟨(aSTK_ECC_CORR_LO s), 31, 0⟩
/-- `STK_ECC_CORR_HI`: corrected errors, high part (13). -/
def aSTK_ECC_CORR_HI (s : Nat) : Nat := 0x1000018 + 0x80000 * s
def STK_ECC_CORR_HI_COUNT_HI (s : Nat) : RF := ⟨(aSTK_ECC_CORR_HI s), 15, 0⟩
def STK_ECC_CORR_HI_OVF (s : Nat) : RF := ⟨(aSTK_ECC_CORR_HI s), 31, 31⟩
/-- `STK_SCRUB_CTRL`: patrol scrubber (13). -/
def aSTK_SCRUB_CTRL (s : Nat) : Nat := 0x1000020 + 0x80000 * s
def STK_SCRUB_CTRL_EN (s : Nat) : RF := ⟨(aSTK_SCRUB_CTRL s), 0, 0⟩
def STK_SCRUB_CTRL_PAGE_US (s : Nat) : RF := ⟨(aSTK_SCRUB_CTRL s), 15, 1⟩
def STK_SCRUB_CTRL_PASSES (s : Nat) : RF := ⟨(aSTK_SCRUB_CTRL s), 31, 16⟩
/-- `STK_SPARE_CTRL`: die copy (13). -/
def aSTK_SPARE_CTRL (s : Nat) : Nat := 0x1000030 + 0x80000 * s
def STK_SPARE_CTRL_DIE (s : Nat) : RF := ⟨(aSTK_SPARE_CTRL s), 3, 0⟩
def STK_SPARE_CTRL_START (s : Nat) : RF := ⟨(aSTK_SPARE_CTRL s), 4, 4⟩
def STK_SPARE_CTRL_COPY_SHARE (s : Nat) : RF := ⟨(aSTK_SPARE_CTRL s), 12, 8⟩
/-- `STK_SPARE_STATUS`: sparing status (13). -/
def aSTK_SPARE_STATUS (s : Nat) : Nat := 0x1000034 + 0x80000 * s
def STK_SPARE_STATUS_COPY_ACTIVE (s : Nat) : RF := ⟨(aSTK_SPARE_STATUS s), 0, 0⟩
def STK_SPARE_STATUS_COPY_DONE (s : Nat) : RF := ⟨(aSTK_SPARE_STATUS s), 1, 1⟩
def STK_SPARE_STATUS_RETIRED_DIE (s : Nat) : RF := ⟨(aSTK_SPARE_STATUS s), 6, 2⟩
def STK_SPARE_STATUS_ROWS_REMAPPED (s : Nat) : RF := ⟨(aSTK_SPARE_STATUS s), 22, 7⟩
def STK_SPARE_STATUS_COPY_PROGRESS (s : Nat) : RF := ⟨(aSTK_SPARE_STATUS s), 29, 23⟩
/-- `STK_ROW_REMAP`: row remap (13). -/
def aSTK_ROW_REMAP (s : Nat) : Nat := 0x1000038 + 0x80000 * s
def STK_ROW_REMAP_PC (s : Nat) : RF := ⟨(aSTK_ROW_REMAP s), 4, 0⟩
def STK_ROW_REMAP_BANK (s : Nat) : RF := ⟨(aSTK_ROW_REMAP s), 10, 5⟩
def STK_ROW_REMAP_ROW (s : Nat) : RF := ⟨(aSTK_ROW_REMAP s), 24, 11⟩
def STK_ROW_REMAP_START (s : Nat) : RF := ⟨(aSTK_ROW_REMAP s), 25, 25⟩
def STK_ROW_REMAP_BUSY (s : Nat) : RF := ⟨(aSTK_ROW_REMAP s), 26, 26⟩
def STK_ROW_REMAP_NO_SPARE (s : Nat) : RF := ⟨(aSTK_ROW_REMAP s), 27, 27⟩
/-- `STK_THERMAL`: stack temperature (13). -/
def aSTK_THERMAL (s : Nat) : Nat := 0x1000040 + 0x80000 * s
def STK_THERMAL_TEMP_C (s : Nat) : RF := ⟨(aSTK_THERMAL s), 7, 0⟩
def STK_THERMAL_REFRESH (s : Nat) : RF := ⟨(aSTK_THERMAL s), 9, 8⟩
def STK_THERMAL_HOT (s : Nat) : RF := ⟨(aSTK_THERMAL s), 10, 10⟩
/-- `STK_THROTTLE`: issue limits (13). -/
def aSTK_THROTTLE (s : Nat) : Nat := 0x1000044 + 0x80000 * s
def STK_THROTTLE_SHARE (s : Nat) : RF := ⟨(aSTK_THROTTLE s), 4, 0⟩
def STK_THROTTLE_ALERT_SHARE (s : Nat) : RF := ⟨(aSTK_THROTTLE s), 9, 5⟩
def STK_THROTTLE_ALERT_ACTIVE (s : Nat) : RF := ⟨(aSTK_THROTTLE s), 10, 10⟩
/-- `FLD_PACER_CTRL`: pacer mode and rate (02). -/
def aFLD_PACER_CTRL (p : Nat) : Nat := 0x2000200 + 0x100000 * p
def FLD_PACER_CTRL_FIXED_EN (p : Nat) : RF := ⟨(aFLD_PACER_CTRL p), 0, 0⟩
def FLD_PACER_CTRL_AT_BOUNDARY (p : Nat) : RF := ⟨(aFLD_PACER_CTRL p), 1, 1⟩
def FLD_PACER_CTRL_RATE_CODE (p : Nat) : RF := ⟨(aFLD_PACER_CTRL p), 14, 8⟩
/-- `FLD_PACER_STATUS`: pacer and trim status (02). -/
def aFLD_PACER_STATUS (p : Nat) : Nat := 0x2000204 + 0x100000 * p
def FLD_PACER_STATUS_FIXED_ACTIVE (p : Nat) : RF := ⟨(aFLD_PACER_STATUS p), 0, 0⟩
def FLD_PACER_STATUS_RATE_DISTURBED (p : Nat) : RF := ⟨(aFLD_PACER_STATUS p), 1, 1⟩
def FLD_PACER_STATUS_TRIM_LOCKED (p : Nat) : RF := ⟨(aFLD_PACER_STATUS p), 2, 2⟩
def FLD_PACER_STATUS_RATE_CODE_ACTIVE (p : Nat) : RF := ⟨(aFLD_PACER_STATUS p), 14, 8⟩
/-- `FLD_RATE_MON`: measured step rates (02). -/
def aFLD_RATE_MON (p : Nat) : Nat := 0x2000208 + 0x100000 * p
def FLD_RATE_MON_NATURAL_RATE (p : Nat) : RF := ⟨(aFLD_RATE_MON p), 15, 0⟩
def FLD_RATE_MON_ACTUAL_RATE (p : Nat) : RF := ⟨(aFLD_RATE_MON p), 31, 16⟩
/-- `FLD_MA_STATUS[a]`: array status (04). -/
def aFLD_MA_STATUS (p i : Nat) : Nat := 0x2001000 + 0x100000 * p + 0x40 * i
def FLD_MA_STATUS_BUSY (p i : Nat) : RF := ⟨(aFLD_MA_STATUS p i), 0, 0⟩
def FLD_MA_STATUS_CTX_SLOT (p i : Nat) : RF := ⟨(aFLD_MA_STATUS p i), 2, 1⟩
def FLD_MA_STATUS_SUSPENDED (p i : Nat) : RF := ⟨(aFLD_MA_STATUS p i), 3, 3⟩
def FLD_MA_STATUS_RESIDUE_ERR (p i : Nat) : RF := ⟨(aFLD_MA_STATUS p i), 4, 4⟩
def FLD_MA_STATUS_ACC_UNCORR (p i : Nat) : RF := ⟨(aFLD_MA_STATUS p i), 5, 5⟩
def FLD_MA_STATUS_SPARE_COLS_FREE (p i : Nat) : RF := ⟨(aFLD_MA_STATUS p i), 9, 8⟩
/-- `FLD_MA_SLOTS[a]`: accumulator slot states (04). -/
def aFLD_MA_SLOTS (p i : Nat) : Nat := 0x2001004 + 0x100000 * p + 0x40 * i
def FLD_MA_SLOTS_SLOT_STATE (p i j : Nat) : RF := ⟨(aFLD_MA_SLOTS p i), 3 * j + 2, 3 * j⟩
/-- `FLD_MA_COLMAP[a]`: retired columns (04). -/
def aFLD_MA_COLMAP (p i : Nat) : Nat := 0x2001008 + 0x100000 * p + 0x40 * i
def FLD_MA_COLMAP_RETIRED_A (p i : Nat) : RF := ⟨(aFLD_MA_COLMAP p i), 7, 0⟩
def FLD_MA_COLMAP_RETIRED_B (p i : Nat) : RF := ⟨(aFLD_MA_COLMAP p i), 15, 8⟩
def FLD_MA_COLMAP_PENDING (p i : Nat) : RF := ⟨(aFLD_MA_COLMAP p i), 16, 16⟩
/-- `FLD_MA_ECC_CORR_LO[a]`: corrected errors, low part (04). -/
def aFLD_MA_ECC_CORR_LO (p i : Nat) : Nat := 0x200100c + 0x100000 * p + 0x40 * i
def FLD_MA_ECC_CORR_LO_COUNT_LO (p i : Nat) : RF := ⟨(aFLD_MA_ECC_CORR_LO p i), 31, 0⟩
/-- `FLD_MA_ECC_CORR_HI[a]`: corrected errors, high part (04). -/
def aFLD_MA_ECC_CORR_HI (p i : Nat) : Nat := 0x2001010 + 0x100000 * p + 0x40 * i
def FLD_MA_ECC_CORR_HI_COUNT_HI (p i : Nat) : RF := ⟨(aFLD_MA_ECC_CORR_HI p i), 15, 0⟩
def FLD_MA_ECC_CORR_HI_OVF (p i : Nat) : RF := ⟨(aFLD_MA_ECC_CORR_HI p i), 31, 31⟩
/-- `FLD_SEQ_ISSUE[a]`: post a descriptor (05). -/
def aFLD_SEQ_ISSUE (p i : Nat) : Nat := 0x2001100 + 0x100000 * p + 0x4 * i
def FLD_SEQ_ISSUE_CTX_SLOT (p i : Nat) : RF := ⟨(aFLD_SEQ_ISSUE p i), 1, 0⟩
def FLD_SEQ_ISSUE_DESC_OFF (p i : Nat) : RF := ⟨(aFLD_SEQ_ISSUE p i), 23, 7⟩
/-- `FLD_SEQ_STATUS[a]`: sequencer status (05). -/
def aFLD_SEQ_STATUS (p i : Nat) : Nat := 0x2001108 + 0x100000 * p + 0x4 * i
def FLD_SEQ_STATUS_QUEUED (p i : Nat) : RF := ⟨(aFLD_SEQ_STATUS p i), 4, 0⟩
def FLD_SEQ_STATUS_ISSUE_OVERRUN (p i : Nat) : RF := ⟨(aFLD_SEQ_STATUS p i), 5, 5⟩
def FLD_SEQ_STATUS_SPILL_MODE (p i : Nat) : RF := ⟨(aFLD_SEQ_STATUS p i), 6, 6⟩
def FLD_SEQ_STATUS_HALO_WAIT (p i : Nat) : RF := ⟨(aFLD_SEQ_STATUS p i), 7, 7⟩
def FLD_SEQ_STATUS_LAST_FAULT (p i : Nat) : RF := ⟨(aFLD_SEQ_STATUS p i), 19, 8⟩
/-- `FLD_SEQ_CTRL`: sequencer enables (05). -/
def aFLD_SEQ_CTRL (p : Nat) : Nat := 0x2001110 + 0x100000 * p
def FLD_SEQ_CTRL_MA0_RUN (p : Nat) : RF := ⟨(aFLD_SEQ_CTRL p), 0, 0⟩
def FLD_SEQ_CTRL_MA1_RUN (p : Nat) : RF := ⟨(aFLD_SEQ_CTRL p), 1, 1⟩
def FLD_SEQ_CTRL_GRID_POST_EN (p : Nat) : RF := ⟨(aFLD_SEQ_CTRL p), 2, 2⟩
/-- `FLD_CTX_SHAPE[n]`: run-time shape register (05). -/
def aFLD_CTX_SHAPE (p i : Nat) : Nat := 0x2001200 + 0x100000 * p + 0x4 * i
def FLD_CTX_SHAPE_VALUE (p i : Nat) : RF := ⟨(aFLD_CTX_SHAPE p i), 31, 0⟩
/-- `FLD_PAIR_STATUS`: paired-product status (06). -/
def aFLD_PAIR_STATUS (p : Nat) : Nat := 0x2001300 + 0x100000 * p
def FLD_PAIR_STATUS_PAIR_ACTIVE (p : Nat) : RF := ⟨(aFLD_PAIR_STATUS p), 0, 0⟩
def FLD_PAIR_STATUS_PAIR_WAIT (p : Nat) : RF := ⟨(aFLD_PAIR_STATUS p), 1, 1⟩
def FLD_PAIR_STATUS_CTX_SLOT (p : Nat) : RF := ⟨(aFLD_PAIR_STATUS p), 3, 2⟩
def FLD_PAIR_STATUS_BUF_FULL (p : Nat) : RF := ⟨(aFLD_PAIR_STATUS p), 5, 4⟩
def FLD_PAIR_STATUS_LEAD (p : Nat) : RF := ⟨(aFLD_PAIR_STATUS p), 6, 6⟩
def FLD_PAIR_STATUS_LAST_FAULT (p : Nat) : RF := ⟨(aFLD_PAIR_STATUS p), 19, 8⟩
/-- `FLD_PAIR_FETCH_LO`: shared tile fetches, low part (06). -/
def aFLD_PAIR_FETCH_LO (p : Nat) : Nat := 0x2001304 + 0x100000 * p
def FLD_PAIR_FETCH_LO_COUNT_LO (p : Nat) : RF := ⟨(aFLD_PAIR_FETCH_LO p), 31, 0⟩
/-- `FLD_PAIR_FETCH_HI`: shared tile fetches, high part (06). -/
def aFLD_PAIR_FETCH_HI (p : Nat) : Nat := 0x2001308 + 0x100000 * p
def FLD_PAIR_FETCH_HI_COUNT_HI (p : Nat) : RF := ⟨(aFLD_PAIR_FETCH_HI p), 15, 0⟩
def FLD_PAIR_FETCH_HI_OVF (p : Nat) : RF := ⟨(aFLD_PAIR_FETCH_HI p), 31, 31⟩
/-- `FLD_ENG_ISSUE[e]`: post a descriptor (07). -/
def aFLD_ENG_ISSUE (p i : Nat) : Nat := 0x2001400 + 0x100000 * p + 0x4 * i
def FLD_ENG_ISSUE_CTX_SLOT (p i : Nat) : RF := ⟨(aFLD_ENG_ISSUE p i), 1, 0⟩
def FLD_ENG_ISSUE_DESC_OFF (p i : Nat) : RF := ⟨(aFLD_ENG_ISSUE p i), 23, 6⟩
/-- `FLD_ENG_STATUS[e]`: engine status (07). -/
def aFLD_ENG_STATUS (p i : Nat) : Nat := 0x2001408 + 0x100000 * p + 0x4 * i
def FLD_ENG_STATUS_QUEUED (p i : Nat) : RF := ⟨(aFLD_ENG_STATUS p i), 4, 0⟩
def FLD_ENG_STATUS_ISSUE_OVERRUN (p i : Nat) : RF := ⟨(aFLD_ENG_STATUS p i), 5, 5⟩
def FLD_ENG_STATUS_BUSY (p i : Nat) : RF := ⟨(aFLD_ENG_STATUS p i), 6, 6⟩
def FLD_ENG_STATUS_CTX_SLOT (p i : Nat) : RF := ⟨(aFLD_ENG_STATUS p i), 8, 7⟩
def FLD_ENG_STATUS_SUSPENDED (p i : Nat) : RF := ⟨(aFLD_ENG_STATUS p i), 9, 9⟩
def FLD_ENG_STATUS_WORK_SPILLED (p i : Nat) : RF := ⟨(aFLD_ENG_STATUS p i), 10, 10⟩
def FLD_ENG_STATUS_LAST_FAULT (p i : Nat) : RF := ⟨(aFLD_ENG_STATUS p i), 23, 12⟩
/-- `FLD_ENG_CTRL`: engine enables (07). -/
def aFLD_ENG_CTRL (p : Nat) : Nat := 0x2001410 + 0x100000 * p
def FLD_ENG_CTRL_VE_RUN (p : Nat) : RF := ⟨(aFLD_ENG_CTRL p), 0, 0⟩
def FLD_ENG_CTRL_RE_RUN (p : Nat) : RF := ⟨(aFLD_ENG_CTRL p), 1, 1⟩
def FLD_ENG_CTRL_VE_GRID_POST_EN (p : Nat) : RF := ⟨(aFLD_ENG_CTRL p), 2, 2⟩
def FLD_ENG_CTRL_RE_GRID_POST_EN (p : Nat) : RF := ⟨(aFLD_ENG_CTRL p), 3, 3⟩
/-- `FLD_RE_SAVE_RANGE[c]`: save-record range of a context (07). -/
def aFLD_RE_SAVE_RANGE (p i : Nat) : Nat := 0x2001420 + 0x100000 * p + 0x4 * i
def FLD_RE_SAVE_RANGE_BASE (p i : Nat) : RF := ⟨(aFLD_RE_SAVE_RANGE p i), 13, 0⟩
def FLD_RE_SAVE_RANGE_COUNT (p i : Nat) : RF := ⟨(aFLD_RE_SAVE_RANGE p i), 30, 16⟩
/-- `FLD_GRID_CTRL`: grid enable (08). -/
def aFLD_GRID_CTRL (p : Nat) : Nat := 0x2002000 + 0x100000 * p
def FLD_GRID_CTRL_RUN (p : Nat) : RF := ⟨(aFLD_GRID_CTRL p), 0, 0⟩
/-- `FLD_GRID_CNT_CLEAR`: clear stall counters (08). -/
def aFLD_GRID_CNT_CLEAR (p : Nat) : Nat := 0x2002004 + 0x100000 * p
def FLD_GRID_CNT_CLEAR_UNIT_ALL (p : Nat) : RF := ⟨(aFLD_GRID_CNT_CLEAR p), 0, 0⟩
def FLD_GRID_CNT_CLEAR_QUEUE_ALL (p : Nat) : RF := ⟨(aFLD_GRID_CNT_CLEAR p), 1, 1⟩
/-- `FLD_UNIT_STATE[u]`: unit state (08). -/
def aFLD_UNIT_STATE (p i : Nat) : Nat := 0x2002100 + 0x100000 * p + 0x4 * i
def FLD_UNIT_STATE_ACTIVE_LEG (p i : Nat) : RF := ⟨(aFLD_UNIT_STATE p i), 2, 0⟩
def FLD_UNIT_STATE_SWITCHING (p i : Nat) : RF := ⟨(aFLD_UNIT_STATE p i), 3, 3⟩
def FLD_UNIT_STATE_VALID_LEGS (p i : Nat) : RF := ⟨(aFLD_UNIT_STATE p i), 11, 4⟩
def FLD_UNIT_STATE_FAULTED_LEGS (p i : Nat) : RF := ⟨(aFLD_UNIT_STATE p i), 19, 12⟩
def FLD_UNIT_STATE_LAST_FAULT (p i : Nat) : RF := ⟨(aFLD_UNIT_STATE p i), 31, 20⟩
/-- `FLD_UNIT_STALL_LO[n]`: unit stall counter, low part (08). -/
def aFLD_UNIT_STALL_LO (p i : Nat) : Nat := 0x2002200 + 0x100000 * p + 0x8 * i
def FLD_UNIT_STALL_LO_COUNT_LO (p i : Nat) : RF := ⟨(aFLD_UNIT_STALL_LO p i), 31, 0⟩
/-- `FLD_UNIT_STALL_HI[n]`: unit stall counter, high part (08). -/
def aFLD_UNIT_STALL_HI (p i : Nat) : Nat := 0x2002204 + 0x100000 * p + 0x8 * i
def FLD_UNIT_STALL_HI_COUNT_HI (p i : Nat) : RF := ⟨(aFLD_UNIT_STALL_HI p i), 15, 0⟩
def FLD_UNIT_STALL_HI_OVF (p i : Nat) : RF := ⟨(aFLD_UNIT_STALL_HI p i), 31, 31⟩
/-- `FLD_Q_STALL_LO[n]`: queue stall counter, low part (08). -/
def aFLD_Q_STALL_LO (p i : Nat) : Nat := 0x2002800 + 0x100000 * p + 0x8 * i
def FLD_Q_STALL_LO_COUNT_LO (p i : Nat) : RF := ⟨(aFLD_Q_STALL_LO p i), 31, 0⟩
/-- `FLD_Q_STALL_HI[n]`: queue stall counter, high part (08). -/
def aFLD_Q_STALL_HI (p i : Nat) : Nat := 0x2002804 + 0x100000 * p + 0x8 * i
def FLD_Q_STALL_HI_COUNT_HI (p i : Nat) : RF := ⟨(aFLD_Q_STALL_HI p i), 15, 0⟩
def FLD_Q_STALL_HI_OVF (p i : Nat) : RF := ⟨(aFLD_Q_STALL_HI p i), 31, 31⟩
/-- `FLD_GP_BIND[p]`: grid port binding (08). -/
def aFLD_GP_BIND (p i : Nat) : Nat := 0x2003000 + 0x100000 * p + 0x4 * i
def FLD_GP_BIND_PEER (p i : Nat) : RF := ⟨(aFLD_GP_BIND p i), 2, 0⟩
def FLD_GP_BIND_CTX_SLOT (p i : Nat) : RF := ⟨(aFLD_GP_BIND p i), 4, 3⟩
def FLD_GP_BIND_INDEX (p i : Nat) : RF := ⟨(aFLD_GP_BIND p i), 7, 5⟩
/-- `FLD_GP_POST[p]`: grid post binding (08). -/
def aFLD_GP_POST (p i : Nat) : Nat := 0x2003080 + 0x100000 * p + 0x4 * i
def FLD_GP_POST_TARGET (p i : Nat) : RF := ⟨(aFLD_GP_POST p i), 3, 0⟩
def FLD_GP_POST_CTX (p i : Nat) : RF := ⟨(aFLD_GP_POST p i), 5, 4⟩
/-- `FLD_DLD_CTRL`: detector control (09). -/
def aFLD_DLD_CTRL (p : Nat) : Nat := 0x2003400 + 0x100000 * p
def FLD_DLD_CTRL_EN (p : Nat) : RF := ⟨(aFLD_DLD_CTRL p), 0, 0⟩
def FLD_DLD_CTRL_WINDOW_LOG2 (p : Nat) : RF := ⟨(aFLD_DLD_CTRL p), 5, 1⟩
/-- `FLD_DLD_STATUS`: detector status (09). -/
def aFLD_DLD_STATUS (p : Nat) : Nat := 0x2003404 + 0x100000 * p
def FLD_DLD_STATUS_WALKING (p : Nat) : RF := ⟨(aFLD_DLD_STATUS p), 0, 0⟩
def FLD_DLD_STATUS_EXTERNAL (p : Nat) : RF := ⟨(aFLD_DLD_STATUS p), 1, 1⟩
def FLD_DLD_STATUS_SILT_EXHAUSTED (p : Nat) : RF := ⟨(aFLD_DLD_STATUS p), 2, 2⟩
def FLD_DLD_STATUS_LAST_CTX (p : Nat) : RF := ⟨(aFLD_DLD_STATUS p), 4, 3⟩
def FLD_DLD_STATUS_EXTENSIONS (p : Nat) : RF := ⟨(aFLD_DLD_STATUS p), 12, 5⟩
def FLD_DLD_STATUS_VICTIM_UNIT (p : Nat) : RF := ⟨(aFLD_DLD_STATUS p), 17, 13⟩
def FLD_DLD_STATUS_VICTIM_Q (p : Nat) : RF := ⟨(aFLD_DLD_STATUS p), 19, 18⟩
def FLD_DLD_STATUS_VICTIM_LEG (p : Nat) : RF := ⟨(aFLD_DLD_STATUS p), 22, 20⟩
def FLD_DLD_STATUS_VICTIM_RING (p : Nat) : RF := ⟨(aFLD_DLD_STATUS p), 23, 23⟩
/-- `FLD_SILT_CTRL[c]`: Silt size (09). -/
def aFLD_SILT_CTRL (p i : Nat) : Nat := 0x2003410 + 0x100000 * p + 0x10 * i
def FLD_SILT_CTRL_CHUNKS (p i : Nat) : RF := ⟨(aFLD_SILT_CTRL p i), 15, 0⟩
def FLD_SILT_CTRL_TARGET (p i : Nat) : RF := ⟨(aFLD_SILT_CTRL p i), 16, 16⟩
/-- `FLD_SILT_BASE_LO[c]`: Silt base, low part (09). -/
def aFLD_SILT_BASE_LO (p i : Nat) : Nat := 0x2003414 + 0x100000 * p + 0x10 * i
def FLD_SILT_BASE_LO_BASE_LO (p i : Nat) : RF := ⟨(aFLD_SILT_BASE_LO p i), 31, 0⟩
/-- `FLD_SILT_BASE_HI[c]`: Silt base, high part and use (09). -/
def aFLD_SILT_BASE_HI (p i : Nat) : Nat := 0x2003418 + 0x100000 * p + 0x10 * i
def FLD_SILT_BASE_HI_BASE_HI (p i : Nat) : RF := ⟨(aFLD_SILT_BASE_HI p i), 15, 0⟩
def FLD_SILT_BASE_HI_USED (p i : Nat) : RF := ⟨(aFLD_SILT_BASE_HI p i), 31, 16⟩
/-- `FLD_RECONF_ISSUE`: post a region record (09). -/
def aFLD_RECONF_ISSUE (p : Nat) : Nat := 0x2003500 + 0x100000 * p
def FLD_RECONF_ISSUE_CTX_SLOT (p : Nat) : RF := ⟨(aFLD_RECONF_ISSUE p), 1, 0⟩
def FLD_RECONF_ISSUE_REC_OFF (p : Nat) : RF := ⟨(aFLD_RECONF_ISSUE p), 23, 6⟩
/-- `FLD_RECONF_STATUS`: reconfiguration status (09). -/
def aFLD_RECONF_STATUS (p : Nat) : Nat := 0x2003504 + 0x100000 * p
def FLD_RECONF_STATUS_QUEUED (p : Nat) : RF := ⟨(aFLD_RECONF_STATUS p), 2, 0⟩
def FLD_RECONF_STATUS_ISSUE_OVERRUN (p : Nat) : RF := ⟨(aFLD_RECONF_STATUS p), 3, 3⟩
def FLD_RECONF_STATUS_PHASE (p : Nat) : RF := ⟨(aFLD_RECONF_STATUS p), 6, 4⟩
def FLD_RECONF_STATUS_TIMED_OUT (p : Nat) : RF := ⟨(aFLD_RECONF_STATUS p), 7, 7⟩
def FLD_RECONF_STATUS_LAST_FAULT (p : Nat) : RF := ⟨(aFLD_RECONF_STATUS p), 19, 8⟩
/-- `FLD_WALK_ISSUE`: post a walk descriptor (09). -/
def aFLD_WALK_ISSUE (p : Nat) : Nat := 0x2003600 + 0x100000 * p
def FLD_WALK_ISSUE_CTX_SLOT (p : Nat) : RF := ⟨(aFLD_WALK_ISSUE p), 1, 0⟩
def FLD_WALK_ISSUE_DESC_OFF (p : Nat) : RF := ⟨(aFLD_WALK_ISSUE p), 23, 6⟩
/-- `FLD_WALK_STATUS`: walker status (09). -/
def aFLD_WALK_STATUS (p : Nat) : Nat := 0x2003604 + 0x100000 * p
def FLD_WALK_STATUS_QUEUED (p : Nat) : RF := ⟨(aFLD_WALK_STATUS p), 2, 0⟩
def FLD_WALK_STATUS_ISSUE_OVERRUN (p : Nat) : RF := ⟨(aFLD_WALK_STATUS p), 3, 3⟩
def FLD_WALK_STATUS_BUSY (p : Nat) : RF := ⟨(aFLD_WALK_STATUS p), 4, 4⟩
def FLD_WALK_STATUS_CTX_SLOT (p : Nat) : RF := ⟨(aFLD_WALK_STATUS p), 6, 5⟩
def FLD_WALK_STATUS_SUSPENDED (p : Nat) : RF := ⟨(aFLD_WALK_STATUS p), 7, 7⟩
def FLD_WALK_STATUS_PAUSED_DLD (p : Nat) : RF := ⟨(aFLD_WALK_STATUS p), 8, 8⟩
def FLD_WALK_STATUS_LAST_FAULT (p : Nat) : RF := ⟨(aFLD_WALK_STATUS p), 20, 9⟩
/-- `FLD_FM_SLICE_MODE`: slice modes (10). -/
def aFLD_FM_SLICE_MODE (p : Nat) : Nat := 0x2004000 + 0x100000 * p
def FLD_FM_SLICE_MODE_CACHE (p : Nat) : RF := ⟨(aFLD_FM_SLICE_MODE p), 7, 0⟩
def FLD_FM_SLICE_MODE_ACTIVE_MODE (p : Nat) : RF := ⟨(aFLD_FM_SLICE_MODE p), 15, 8⟩
def FLD_FM_SLICE_MODE_PENDING (p : Nat) : RF := ⟨(aFLD_FM_SLICE_MODE p), 16, 16⟩
/-- `FLD_FM_CACHE_CTRL`: cache use per context (10). -/
def aFLD_FM_CACHE_CTRL (p : Nat) : Nat := 0x2004004 + 0x100000 * p
def FLD_FM_CACHE_CTRL_CTX_EN (p : Nat) : RF := ⟨(aFLD_FM_CACHE_CTRL p), 3, 0⟩
/-- `FLD_FM_WIN[n]`: context window (10). -/
def aFLD_FM_WIN (p i : Nat) : Nat := 0x2004010 + 0x100000 * p + 0x4 * i
def FLD_FM_WIN_BASE (p i : Nat) : RF := ⟨(aFLD_FM_WIN p i), 7, 0⟩
def FLD_FM_WIN_COUNT (p i : Nat) : RF := ⟨(aFLD_FM_WIN p i), 16, 8⟩
/-- `FLD_FM_CMO_BASE_LO`: range base, low part (10). -/
def aFLD_FM_CMO_BASE_LO (p : Nat) : Nat := 0x2004040 + 0x100000 * p
def FLD_FM_CMO_BASE_LO_BASE_LO (p : Nat) : RF := ⟨(aFLD_FM_CMO_BASE_LO p), 31, 0⟩
/-- `FLD_FM_CMO_BASE_HI`: range base, high part (10). -/
def aFLD_FM_CMO_BASE_HI (p : Nat) : Nat := 0x2004044 + 0x100000 * p
def FLD_FM_CMO_BASE_HI_BASE_HI (p : Nat) : RF := ⟨(aFLD_FM_CMO_BASE_HI p), 15, 0⟩
/-- `FLD_FM_CMO_LEN`: range length (10). -/
def aFLD_FM_CMO_LEN (p : Nat) : Nat := 0x2004048 + 0x100000 * p
def FLD_FM_CMO_LEN_LEN (p : Nat) : RF := ⟨(aFLD_FM_CMO_LEN p), 31, 0⟩
/-- `FLD_FM_CMO_CTRL`: start a range operation (10). -/
def aFLD_FM_CMO_CTRL (p : Nat) : Nat := 0x200404c + 0x100000 * p
def FLD_FM_CMO_CTRL_OP (p : Nat) : RF := ⟨(aFLD_FM_CMO_CTRL p), 2, 0⟩
def FLD_FM_CMO_CTRL_CTX (p : Nat) : RF := ⟨(aFLD_FM_CMO_CTRL p), 5, 4⟩
/-- `FLD_FM_CMO_STATUS`: range operation status (10). -/
def aFLD_FM_CMO_STATUS (p : Nat) : Nat := 0x2004050 + 0x100000 * p
def FLD_FM_CMO_STATUS_BUSY (p : Nat) : RF := ⟨(aFLD_FM_CMO_STATUS p), 0, 0⟩
def FLD_FM_CMO_STATUS_DONE (p : Nat) : RF := ⟨(aFLD_FM_CMO_STATUS p), 1, 1⟩
def FLD_FM_CMO_STATUS_OVERRUN (p : Nat) : RF := ⟨(aFLD_FM_CMO_STATUS p), 2, 2⟩
def FLD_FM_CMO_STATUS_ERR (p : Nat) : RF := ⟨(aFLD_FM_CMO_STATUS p), 3, 3⟩
def FLD_FM_CMO_STATUS_RANGE_ERR (p : Nat) : RF := ⟨(aFLD_FM_CMO_STATUS p), 4, 4⟩
/-- `FLD_FM_BANK_PWR[n]`: bank power requests (10). -/
def aFLD_FM_BANK_PWR (p i : Nat) : Nat := 0x2004060 + 0x100000 * p + 0x4 * i
def FLD_FM_BANK_PWR_REQ (p i j : Nat) : RF := ⟨(aFLD_FM_BANK_PWR p i), 2 * j + 1, 2 * j⟩
/-- `FLD_FM_BANK_STATE[n]`: bank power states (10). -/
def aFLD_FM_BANK_STATE (p i : Nat) : Nat := 0x2004070 + 0x100000 * p + 0x4 * i
def FLD_FM_BANK_STATE_STATE (p i j : Nat) : RF := ⟨(aFLD_FM_BANK_STATE p i), 2 * j + 1, 2 * j⟩
/-- `FLD_FM_PWR_CTRL`: automatic retention (10). -/
def aFLD_FM_PWR_CTRL (p : Nat) : Nat := 0x2004080 + 0x100000 * p
def FLD_FM_PWR_CTRL_IDLE_LOG2 (p : Nat) : RF := ⟨(aFLD_FM_PWR_CTRL p), 4, 0⟩
def FLD_FM_PWR_CTRL_LATE_WAKE (p : Nat) : RF := ⟨(aFLD_FM_PWR_CTRL p), 16, 16⟩
/-- `FLD_FM_ECC_STATUS`: last ECC event (10). -/
def aFLD_FM_ECC_STATUS (p : Nat) : Nat := 0x2004090 + 0x100000 * p
def FLD_FM_ECC_STATUS_CORR_SEEN (p : Nat) : RF := ⟨(aFLD_FM_ECC_STATUS p), 0, 0⟩
def FLD_FM_ECC_STATUS_UNCORR_SEEN (p : Nat) : RF := ⟨(aFLD_FM_ECC_STATUS p), 1, 1⟩
def FLD_FM_ECC_STATUS_SRC (p : Nat) : RF := ⟨(aFLD_FM_ECC_STATUS p), 2, 2⟩
def FLD_FM_ECC_STATUS_BY_SCRUB (p : Nat) : RF := ⟨(aFLD_FM_ECC_STATUS p), 3, 3⟩
def FLD_FM_ECC_STATUS_WORD (p : Nat) : RF := ⟨(aFLD_FM_ECC_STATUS p), 22, 4⟩
/-- `FLD_FM_ECC_CORR_LO`: corrected errors, low part (10). -/
def aFLD_FM_ECC_CORR_LO (p : Nat) : Nat := 0x2004098 + 0x100000 * p
def FLD_FM_ECC_CORR_LO_COUNT_LO (p : Nat) : RF := ⟨(aFLD_FM_ECC_CORR_LO p), 31, 0⟩
/-- `FLD_FM_ECC_CORR_HI`: corrected errors, high part (10). -/
def aFLD_FM_ECC_CORR_HI (p : Nat) : Nat := 0x200409c + 0x100000 * p
def FLD_FM_ECC_CORR_HI_COUNT_HI (p : Nat) : RF := ⟨(aFLD_FM_ECC_CORR_HI p), 15, 0⟩
def FLD_FM_ECC_CORR_HI_OVF (p : Nat) : RF := ⟨(aFLD_FM_ECC_CORR_HI p), 31, 31⟩
/-- `FLD_FM_SCRUB_CTRL`: patrol scrubber (10). -/
def aFLD_FM_SCRUB_CTRL (p : Nat) : Nat := 0x20040a0 + 0x100000 * p
def FLD_FM_SCRUB_CTRL_EN (p : Nat) : RF := ⟨(aFLD_FM_SCRUB_CTRL p), 0, 0⟩
def FLD_FM_SCRUB_CTRL_STRIDE_LOG2 (p : Nat) : RF := ⟨(aFLD_FM_SCRUB_CTRL p), 5, 1⟩
def FLD_FM_SCRUB_CTRL_PASSES (p : Nat) : RF := ⟨(aFLD_FM_SCRUB_CTRL p), 31, 16⟩
/-- `FLD_CH_OPEN`: post a channel descriptor (11). -/
def aFLD_CH_OPEN (p : Nat) : Nat := 0x2005000 + 0x100000 * p
def FLD_CH_OPEN_DESC_OFF (p : Nat) : RF := ⟨(aFLD_CH_OPEN p), 23, 5⟩
/-- `FLD_CH_SEND`: send a prepared record (11). -/
def aFLD_CH_SEND (p : Nat) : Nat := 0x2005004 + 0x100000 * p
def FLD_CH_SEND_TX_IDX (p : Nat) : RF := ⟨(aFLD_CH_SEND p), 4, 0⟩
def FLD_CH_SEND_REC_OFF (p : Nat) : RF := ⟨(aFLD_CH_SEND p), 23, 5⟩
/-- `FLD_CH_STATUS`: channel unit status (11). -/
def aFLD_CH_STATUS (p : Nat) : Nat := 0x2005008 + 0x100000 * p
def FLD_CH_STATUS_BUSY (p : Nat) : RF := ⟨(aFLD_CH_STATUS p), 0, 0⟩
def FLD_CH_STATUS_OVERRUN (p : Nat) : RF := ⟨(aFLD_CH_STATUS p), 1, 1⟩
def FLD_CH_STATUS_LAST_FAULT (p : Nat) : RF := ⟨(aFLD_CH_STATUS p), 13, 2⟩
/-- `FLD_CH_RX_STATE[n]`: receive channel state (11). -/
def aFLD_CH_RX_STATE (p i : Nat) : Nat := 0x2005100 + 0x100000 * p + 0x4 * i
def FLD_CH_RX_STATE_OPEN (p i : Nat) : RF := ⟨(aFLD_CH_RX_STATE p i), 0, 0⟩
def FLD_CH_RX_STATE_CLOSING (p i : Nat) : RF := ⟨(aFLD_CH_RX_STATE p i), 1, 1⟩
def FLD_CH_RX_STATE_CTX (p i : Nat) : RF := ⟨(aFLD_CH_RX_STATE p i), 3, 2⟩
def FLD_CH_RX_STATE_PRIORITY (p i : Nat) : RF := ⟨(aFLD_CH_RX_STATE p i), 6, 4⟩
def FLD_CH_RX_STATE_SIZE_LOG2 (p i : Nat) : RF := ⟨(aFLD_CH_RX_STATE p i), 11, 7⟩
def FLD_CH_RX_STATE_GEN (p i : Nat) : RF := ⟨(aFLD_CH_RX_STATE p i), 22, 12⟩
def FLD_CH_RX_STATE_STALE (p i : Nat) : RF := ⟨(aFLD_CH_RX_STATE p i), 23, 23⟩
def FLD_CH_RX_STATE_EXTENDED (p i : Nat) : RF := ⟨(aFLD_CH_RX_STATE p i), 24, 24⟩
def FLD_CH_RX_STATE_RPTR_ERR (p i : Nat) : RF := ⟨(aFLD_CH_RX_STATE p i), 25, 25⟩
/-- `FLD_CH_WPTR[n]`: ring write offset (11). -/
def aFLD_CH_WPTR (p i : Nat) : Nat := 0x2005180 + 0x100000 * p + 0x4 * i
def FLD_CH_WPTR_WPTR (p i : Nat) : RF := ⟨(aFLD_CH_WPTR p i), 19, 0⟩
/-- `FLD_CH_RPTR[n]`: ring read offset (11). -/
def aFLD_CH_RPTR (p i : Nat) : Nat := 0x2005200 + 0x100000 * p + 0x4 * i
def FLD_CH_RPTR_RPTR (p i : Nat) : RF := ⟨(aFLD_CH_RPTR p i), 19, 0⟩
/-- `FLD_CH_TX_STATE[n]`: send endpoint state (11). -/
def aFLD_CH_TX_STATE (p i : Nat) : Nat := 0x2005280 + 0x100000 * p + 0x4 * i
def FLD_CH_TX_STATE_OPEN (p i : Nat) : RF := ⟨(aFLD_CH_TX_STATE p i), 0, 0⟩
def FLD_CH_TX_STATE_CLOSING (p i : Nat) : RF := ⟨(aFLD_CH_TX_STATE p i), 1, 1⟩
def FLD_CH_TX_STATE_CTX (p i : Nat) : RF := ⟨(aFLD_CH_TX_STATE p i), 3, 2⟩
def FLD_CH_TX_STATE_WAITING (p i : Nat) : RF := ⟨(aFLD_CH_TX_STATE p i), 4, 4⟩
def FLD_CH_TX_STATE_CREDIT (p i : Nat) : RF := ⟨(aFLD_CH_TX_STATE p i), 24, 5⟩
/-- `FLD_CH_SEL_MASK[g]`: select group members (11). -/
def aFLD_CH_SEL_MASK (p i : Nat) : Nat := 0x2005300 + 0x100000 * p + 0x8 * i
def FLD_CH_SEL_MASK_MASK (p i : Nat) : RF := ⟨(aFLD_CH_SEL_MASK p i), 31, 0⟩
/-- `FLD_CH_SEL_CTRL[g]`: select group mode and choice (11). -/
def aFLD_CH_SEL_CTRL (p i : Nat) : Nat := 0x2005304 + 0x100000 * p + 0x8 * i
def FLD_CH_SEL_CTRL_MODE (p i : Nat) : RF := ⟨(aFLD_CH_SEL_CTRL p i), 0, 0⟩
def FLD_CH_SEL_CTRL_DELIVER (p i : Nat) : RF := ⟨(aFLD_CH_SEL_CTRL p i), 1, 1⟩
def FLD_CH_SEL_CTRL_DONE_EN (p i : Nat) : RF := ⟨(aFLD_CH_SEL_CTRL p i), 2, 2⟩
def FLD_CH_SEL_CTRL_DONE_LEVEL (p i : Nat) : RF := ⟨(aFLD_CH_SEL_CTRL p i), 6, 3⟩
def FLD_CH_SEL_CTRL_NEXT_VALID (p i : Nat) : RF := ⟨(aFLD_CH_SEL_CTRL p i), 8, 8⟩
def FLD_CH_SEL_CTRL_NEXT_CH (p i : Nat) : RF := ⟨(aFLD_CH_SEL_CTRL p i), 13, 9⟩
/-- `FLD_CH_PORT_BIND[p]`: channel unit port binding (11). -/
def aFLD_CH_PORT_BIND (p i : Nat) : Nat := 0x2005340 + 0x100000 * p + 0x4 * i
def FLD_CH_PORT_BIND_ROLE (p i : Nat) : RF := ⟨(aFLD_CH_PORT_BIND p i), 1, 0⟩
def FLD_CH_PORT_BIND_INDEX (p i : Nat) : RF := ⟨(aFLD_CH_PORT_BIND p i), 6, 2⟩
def FLD_CH_PORT_BIND_CTX (p i : Nat) : RF := ⟨(aFLD_CH_PORT_BIND p i), 8, 7⟩
/-- `FLD_HRD_OP`: hurdle operation (11). -/
def aFLD_HRD_OP (p : Nat) : Nat := 0x2006000 + 0x100000 * p
def FLD_HRD_OP_OP (p : Nat) : RF := ⟨(aFLD_HRD_OP p), 1, 0⟩
def FLD_HRD_OP_CTX_SLOT (p : Nat) : RF := ⟨(aFLD_HRD_OP p), 3, 2⟩
def FLD_HRD_OP_VID (p : Nat) : RF := ⟨(aFLD_HRD_OP p), 13, 4⟩
def FLD_HRD_OP_COUNT (p : Nat) : RF := ⟨(aFLD_HRD_OP p), 29, 14⟩
/-- `FLD_HRD_MAP_BASE[c]`: hurdle map of a context (11). -/
def aFLD_HRD_MAP_BASE (p i : Nat) : Nat := 0x2006010 + 0x100000 * p + 0x4 * i
def FLD_HRD_MAP_BASE_BASE (p i : Nat) : RF := ⟨(aFLD_HRD_MAP_BASE p i), 10, 0⟩
def FLD_HRD_MAP_BASE_EN (p i : Nat) : RF := ⟨(aFLD_HRD_MAP_BASE p i), 11, 11⟩
/-- `FLD_HRD_CFG[h]`: hurdle configuration (11). -/
def aFLD_HRD_CFG (p i : Nat) : Nat := 0x2006800 + 0x100000 * p + 0x8 * i
def FLD_HRD_CFG_EXPECTED (p i : Nat) : RF := ⟨(aFLD_HRD_CFG p i), 15, 0⟩
def FLD_HRD_CFG_GEN (p i : Nat) : RF := ⟨(aFLD_HRD_CFG p i), 31, 16⟩
/-- `FLD_HRD_STATE[h]`: hurdle state (11). -/
def aFLD_HRD_STATE (p i : Nat) : Nat := 0x2006804 + 0x100000 * p + 0x8 * i
def FLD_HRD_STATE_COUNT (p i : Nat) : RF := ⟨(aFLD_HRD_STATE p i), 15, 0⟩
def FLD_HRD_STATE_OWNER (p i : Nat) : RF := ⟨(aFLD_HRD_STATE p i), 21, 16⟩
def FLD_HRD_STATE_EN (p i : Nat) : RF := ⟨(aFLD_HRD_STATE p i), 22, 22⟩
def FLD_HRD_STATE_WAITERS (p i : Nat) : RF := ⟨(aFLD_HRD_STATE p i), 29, 23⟩
def FLD_HRD_STATE_OVER (p i : Nat) : RF := ⟨(aFLD_HRD_STATE p i), 30, 30⟩
def FLD_HRD_STATE_UNDER (p i : Nat) : RF := ⟨(aFLD_HRD_STATE p i), 31, 31⟩
/-- `FLD_DMA_ISSUE[d]`: post a DMA descriptor (12). -/
def aFLD_DMA_ISSUE (p i : Nat) : Nat := 0x2007000 + 0x100000 * p + 0x4 * i
def FLD_DMA_ISSUE_CTX_SLOT (p i : Nat) : RF := ⟨(aFLD_DMA_ISSUE p i), 1, 0⟩
def FLD_DMA_ISSUE_DESC_OFF (p i : Nat) : RF := ⟨(aFLD_DMA_ISSUE p i), 23, 6⟩
/-- `FLD_DMA_STATUS[d]`: DMA engine status (12). -/
def aFLD_DMA_STATUS (p i : Nat) : Nat := 0x2007010 + 0x100000 * p + 0x4 * i
def FLD_DMA_STATUS_BUSY (p i : Nat) : RF := ⟨(aFLD_DMA_STATUS p i), 0, 0⟩
def FLD_DMA_STATUS_SUSPENDED (p i : Nat) : RF := ⟨(aFLD_DMA_STATUS p i), 1, 1⟩
def FLD_DMA_STATUS_CTX_SLOT (p i : Nat) : RF := ⟨(aFLD_DMA_STATUS p i), 3, 2⟩
def FLD_DMA_STATUS_QUEUED (p i : Nat) : RF := ⟨(aFLD_DMA_STATUS p i), 8, 4⟩
def FLD_DMA_STATUS_ISSUE_OVERRUN (p i : Nat) : RF := ⟨(aFLD_DMA_STATUS p i), 9, 9⟩
def FLD_DMA_STATUS_RELAY_WAIT (p i : Nat) : RF := ⟨(aFLD_DMA_STATUS p i), 10, 10⟩
def FLD_DMA_STATUS_LAST_FAULT (p i : Nat) : RF := ⟨(aFLD_DMA_STATUS p i), 22, 11⟩
/-- `FLD_RING_BASE[n]`: ring base (12). -/
def aFLD_RING_BASE (p i : Nat) : Nat := 0x2007400 + 0x100000 * p + 0x20 * i
def FLD_RING_BASE_BASE (p i : Nat) : RF := ⟨(aFLD_RING_BASE p i), 15, 0⟩
/-- `FLD_RING_CFG[n]`: ring shape and owner (12). -/
def aFLD_RING_CFG (p i : Nat) : Nat := 0x2007404 + 0x100000 * p + 0x20 * i
def FLD_RING_CFG_SLOTS (p i : Nat) : RF := ⟨(aFLD_RING_CFG p i), 4, 0⟩
def FLD_RING_CFG_CTX (p i : Nat) : RF := ⟨(aFLD_RING_CFG p i), 6, 5⟩
def FLD_RING_CFG_FWD (p i : Nat) : RF := ⟨(aFLD_RING_CFG p i), 7, 7⟩
def FLD_RING_CFG_SLOT_UNITS (p i : Nat) : RF := ⟨(aFLD_RING_CFG p i), 23, 8⟩
/-- `FLD_RING_HRD[n]`: ring hurdles (12). -/
def aFLD_RING_HRD (p i : Nat) : Nat := 0x2007408 + 0x100000 * p + 0x20 * i
def FLD_RING_HRD_PUB_VID (p i : Nat) : RF := ⟨(aFLD_RING_HRD p i), 9, 0⟩
def FLD_RING_HRD_PUB_EN (p i : Nat) : RF := ⟨(aFLD_RING_HRD p i), 10, 10⟩
def FLD_RING_HRD_REL_VID (p i : Nat) : RF := ⟨(aFLD_RING_HRD p i), 20, 11⟩
def FLD_RING_HRD_REL_EN (p i : Nat) : RF := ⟨(aFLD_RING_HRD p i), 21, 21⟩
/-- `FLD_RING_STATE[n]`: ring state (12). -/
def aFLD_RING_STATE (p i : Nat) : Nat := 0x200740c + 0x100000 * p + 0x20 * i
def FLD_RING_STATE_HEAD (p i : Nat) : RF := ⟨(aFLD_RING_STATE p i), 3, 0⟩
def FLD_RING_STATE_TAIL (p i : Nat) : RF := ⟨(aFLD_RING_STATE p i), 7, 4⟩
def FLD_RING_STATE_PUBLISHED (p i : Nat) : RF := ⟨(aFLD_RING_STATE p i), 12, 8⟩
def FLD_RING_STATE_FILLING (p i : Nat) : RF := ⟨(aFLD_RING_STATE p i), 13, 13⟩
def FLD_RING_STATE_OP_ERR (p i : Nat) : RF := ⟨(aFLD_RING_STATE p i), 14, 14⟩
def FLD_RING_STATE_PUB_SEQ (p i : Nat) : RF := ⟨(aFLD_RING_STATE p i), 31, 16⟩
/-- `FLD_RING_LEN[n]`: oldest slot length (12). -/
def aFLD_RING_LEN (p i : Nat) : Nat := 0x2007410 + 0x100000 * p + 0x20 * i
def FLD_RING_LEN_LEN (p i : Nat) : RF := ⟨(aFLD_RING_LEN p i), 23, 0⟩
/-- `FLD_RING_OP`: ring operation by a control core (12). -/
def aFLD_RING_OP (p : Nat) : Nat := 0x2007600 + 0x100000 * p
def FLD_RING_OP_OP (p : Nat) : RF := ⟨(aFLD_RING_OP p), 1, 0⟩
def FLD_RING_OP_RING (p : Nat) : RF := ⟨(aFLD_RING_OP p), 5, 2⟩
def FLD_RING_OP_CTX_SLOT (p : Nat) : RF := ⟨(aFLD_RING_OP p), 7, 6⟩
def FLD_RING_OP_LEN (p : Nat) : RF := ⟨(aFLD_RING_OP p), 31, 8⟩
/-- `FLD_RELAY_STATUS[s]`: relay entry (12). -/
def aFLD_RELAY_STATUS (p i : Nat) : Nat := 0x2007800 + 0x100000 * p + 0x4 * i
def FLD_RELAY_STATUS_ACTIVE (p i : Nat) : RF := ⟨(aFLD_RELAY_STATUS p i), 0, 0⟩
def FLD_RELAY_STATUS_CTX_SLOT (p i : Nat) : RF := ⟨(aFLD_RELAY_STATUS p i), 2, 1⟩
def FLD_RELAY_STATUS_STATION (p i : Nat) : RF := ⟨(aFLD_RELAY_STATUS p i), 8, 3⟩
def FLD_RELAY_STATUS_HEAD_LFIELD (p i : Nat) : RF := ⟨(aFLD_RELAY_STATUS p i), 14, 9⟩
def FLD_RELAY_STATUS_STALLED (p i : Nat) : RF := ⟨(aFLD_RELAY_STATUS p i), 15, 15⟩
/-- `FLD_CTX_MAP[c]`: resident slot (17). -/
def aFLD_CTX_MAP (p i : Nat) : Nat := 0x2008000 + 0x100000 * p + 0x8 * i
def FLD_CTX_MAP_CTX_ID (p i : Nat) : RF := ⟨(aFLD_CTX_MAP p i), 5, 0⟩
def FLD_CTX_MAP_PART (p i : Nat) : RF := ⟨(aFLD_CTX_MAP p i), 9, 6⟩
def FLD_CTX_MAP_VALID (p i : Nat) : RF := ⟨(aFLD_CTX_MAP p i), 10, 10⟩
def FLD_CTX_MAP_SCHED (p i : Nat) : RF := ⟨(aFLD_CTX_MAP p i), 11, 11⟩
def FLD_CTX_MAP_IN_HEAT (p i : Nat) : RF := ⟨(aFLD_CTX_MAP p i), 12, 12⟩
/-- `FLD_CTX_SAVE[c]`: save area (17). -/
def aFLD_CTX_SAVE (p i : Nat) : Nat := 0x2008004 + 0x100000 * p + 0x8 * i
def FLD_CTX_SAVE_BASE (p i : Nat) : RF := ⟨(aFLD_CTX_SAVE p i), 28, 0⟩
/-- `FLD_BW_SET[s]`: bucket set owner (17). -/
def aFLD_BW_SET (p i : Nat) : Nat := 0x2008100 + 0x100000 * p + 0x4 * i
def FLD_BW_SET_PART (p i : Nat) : RF := ⟨(aFLD_BW_SET p i), 3, 0⟩
def FLD_BW_SET_EN (p i : Nat) : RF := ⟨(aFLD_BW_SET p i), 4, 4⟩
/-- `FLD_BW_CFG[b]`: bucket (17). -/
def aFLD_BW_CFG (p i : Nat) : Nat := 0x2008110 + 0x100000 * p + 0x4 * i
def FLD_BW_CFG_RATE (p i : Nat) : RF := ⟨(aFLD_BW_CFG p i), 15, 0⟩
def FLD_BW_CFG_DEPTH (p i : Nat) : RF := ⟨(aFLD_BW_CFG p i), 27, 16⟩
def FLD_BW_CFG_UNLIM (p i : Nat) : RF := ⟨(aFLD_BW_CFG p i), 28, 28⟩
/-- `FLD_RECONF_CTRL`: grid posting enable (19). -/
def aFLD_RECONF_CTRL (p : Nat) : Nat := 0x2003508 + 0x100000 * p
def FLD_RECONF_CTRL_GRID_EN (p : Nat) : RF := ⟨(aFLD_RECONF_CTRL p), 3, 0⟩

end Reg

end Sys2Proof.Machine
end

