-- ==== Sys2Proof/Machine/Mem.lean ====
section
/-!
DEFINITION. The byte memory behind every address space of the part, as one sparse list in canonical form, and the place
of each space in it: stack offsets (R298, R322), Field memory (R234), memory-unit storage (R251) and the NV store (R450).
-/

namespace Sys2Proof.Machine

/-- Memory: (address, byte) pairs with strictly rising addresses, none of them zero bytes. -/
abbrev Memory := List Host.Cell

/-- What an unlisted address reads as: zero, the content that R250 and R318 give to memory woken from OFF. -/
def memDefault : Nat → Byte := fun _ => 0

/-- One byte. Log entry 6 (DESIGN CHOICE, unsafe). -/
def Memory.read (m : Memory) (a : Nat) : Byte := Tab.get memDefault m a

/-- Write one byte. -/
def Memory.write (m : Memory) (a : Nat) (b : Byte) : Memory := Tab.set memDefault m a b

/-- The canonical form. -/
def Memory.wf (m : Memory) : Bool := Tab.wf memDefault m

/-- `n` bytes from address `a` upwards. -/
def Memory.readBytes (m : Memory) (a : Nat) : Nat → List Byte
  | 0 => []
  | n + 1 => m.read a :: Memory.readBytes m (a + 1) n

/-- Write a list of bytes from address `a` upwards. -/
def Memory.writeBytes (m : Memory) (a : Nat) : List Byte → Memory
  | [] => m
  | b :: bs => Memory.writeBytes (m.write a b) (a + 1) bs

/-- Write the bytes of a list that a mask selects: bit `i` for byte `i`. -/
def Memory.writeMasked (m : Memory) (a : Nat) (mask : Nat) : List Byte → Memory
  | [] => m
  | b :: bs => Memory.writeMasked (if mask % 2 = 1 then m.write a b else m) (a + 1) (mask / 2) bs

/-- Zero `[lo, lo + n)`: drop every entry of the range. -/
def Memory.zeroRange (m : Memory) (lo n : Nat) : Memory := m.filter fun c => c.1 < lo || lo + n ≤ c.1

/-- Bytes of stack memory in a part: 1536 GiB (R298). -/
def stackBytes : Nat := 0x18000000000

/-- Bytes of one stack: 48 GiB. Log entry 7 (DESIGN CHOICE, safe). -/
def stackSize : Nat := 0xC00000000

/-- Where byte `off` of the Field memory of physical Field `p` lies. Log entry 7 (DESIGN CHOICE, safe). -/
def fmLoc (p off : Nat) : Nat := 2 ^ 44 + p * 2 ^ 24 + off

/-- Where byte `off` of the storage of memory unit `m` of physical Field `p` lies. Log entry 7 (DESIGN CHOICE, safe). -/
def muLoc (p m off : Nat) : Nat := 2 ^ 45 + (p * 16 + m) * 2 ^ 18 + off

/-- Where byte `off` of the NV store of quadrant `q` lies (128 MiB each). Log entry 7 (DESIGN CHOICE, safe). -/
def nvLoc (q off : Nat) : Nat := 2 ^ 46 + q * 2 ^ 27 + off

/-- The protected word an address lies in: 64-byte transfers in the stacks (R302), 32-byte words elsewhere (R243). -/
def eccWord (a : Nat) : Nat := if a < 2 ^ 44 then a / 64 * 64 else a / 32 * 32

/-- The size of the protected word at an address. -/
def eccSize (a : Nat) : Nat := if a < 2 ^ 44 then 64 else 32

/-- The protected words that `[a, a + n)` touches. -/
def eccWords (a n : Nat) : List Nat :=
  if n = 0 then [] else
    let k := eccSize a
    (List.range ((eccWord (a + n - 1) - eccWord a) / k + 1)).map fun i => eccWord a + i * k

end Sys2Proof.Machine
end

