-- ==== Sys2Proof/Machine/Types.lean ====
section
/-!
DEFINITION. The types of the state: records, descriptors in flight, queues and entries that no register shows, chapter by
chapter of the spec. All of it is plain data.
-/

namespace Sys2Proof.Machine

/-! Telemetry (chapter 22). -/

/-- A fault record, Table 22-3 (R523). -/
structure FaultRec where
  code : Nat
  agent : Nat
  index : Nat
  lfield : Option Nat
  ctx : Option Nat
  handling : Nat
  replay : Nat
  detail : Nat
  heat : Nat
  stamp : Nat
  deriving DecidableEq, Repr

/-- The body of a telemetry record, Table 22-4 (R522). -/
inductive TelBody where
  | none
  | fault (f : FaultRec)
  | power (body : List Byte)
  | counter (addr width value : Nat)
  | mark (baton unit leg lane0 : Nat)
  | heat (event replay seqs heatNo : Nat)
  | gap (level stage last dropped : Nat)
  deriving DecidableEq, Repr

/-- A telemetry record on its way to the buffer, with the header fields of Table 22-2 it has before it takes a SEQ. -/
structure TelRec where
  cls : Nat
  level : Nat
  source : Nat
  stamp : Nat
  code : Nat
  ctx : Option Nat
  part : Option Nat
  count : Nat
  body : TelBody
  deriving DecidableEq, Repr

/-- The running count of drops of one level at one stage (R527). -/
structure GapCount where
  level : Nat
  count : Nat
  first : Nat
  last : Nat
  deriving DecidableEq, Repr

/-- A source queue or a quadrant collector (Table 22-5): its waiting records, oldest first, and its drop counts. -/
structure TelStage where
  recs : List TelRec
  gaps : List GapCount
  deriving DecidableEq, Repr

/-- What an alarm slot holds beside its registers (R528, R529). -/
structure AlarmSlot where
  code : Nat
  sev : Nat
  source : Nat
  ctx : Option Nat
  merged : Bool
  count : Nat
  latest : TelBody
  latestStamp : Nat
  written : Nat
  writtenStamp : Nat
  deriving DecidableEq, Repr

/-- A record held in the telemetry buffer (R531). -/
structure BufRec where
  seq : Nat
  off : Nat
  len : Nat
  rank : Nat
  slot : Option Nat
  exported : Bool
  rcd : TelRec
  deriving DecidableEq, Repr

/-- The subscription of R398: its destination, REQUEST_ID, classes and next STREAM. -/
structure Subscription where
  mac : Nat
  vlan : Option Nat
  pcp : Nat
  v6 : Bool
  ip : Nat
  port : Nat
  id : Nat
  classes : Nat
  stream : Nat
  deriving DecidableEq, Repr

/-- Telemetry state that no register shows. `exportPos` is the SEQ up to which the ordinary stream has gone (R532), `sent` the first SEQ
of each datagram of the subscription by STREAM, `out` the datagrams that wait to leave with the SEQs of their records (R398), `epoch` the offset in force (R534). -/
structure TelState where
  stages : List (Nat × TelStage)
  held : List (Nat × TelRec)
  slots : List (Nat × AlarmSlot)
  buffer : List BufRec
  bufGaps : List GapCount
  subscription : Option Subscription
  exportPos : Nat
  sent : List (Nat × Nat)
  out : List (List Byte × List Nat)
  epoch : Nat
  deriving DecidableEq, Repr

/-! Translation (chapter 14). -/

/-- A fault-queue entry, Table 14-7 (R333). -/
structure FqEntry where
  va : Nat
  rga : Nat
  code : Nat
  agent : Nat
  index : Nat
  lfield : Nat
  ctx : Nat
  write : Bool
  retries : Nat
  stamp : Nat
  deriving DecidableEq, Repr

/-- How far a stopped agent is: waiting for RESOLVE, repeating a remote access (R337), or stopped with its code. -/
inductive StopKind where
  | suspended
  | remoteRetry
  | failed
  deriving DecidableEq, Repr

/-- An agent stopped at its restart point (R333, R337). -/
structure Stop where
  kind : StopKind
  code : Nat
  ctx : Nat
  va : Nat
  rga : Nat
  write : Bool
  retries : Nat
  deriving DecidableEq, Repr

/-- A TLB entry (R330): one page of one context. -/
structure TlbEntry where
  ctx : Nat
  vbase : Nat
  size : Nat
  frame : Nat
  rights : Nat
  deriving DecidableEq, Repr

/-- A pointer entry of the walk cache (R330): level 1 or 2, the VA prefix and the next table. -/
structure PtrEntry where
  level : Nat
  ctx : Nat
  prefixVa : Nat
  next : Nat
  deriving DecidableEq, Repr


/-! The Field network (chapters 1 and 2). -/

/-- A place on the Field network (R23, R25, R55, R57): quadrant, column and row. -/
structure NetNode where
  quad : Nat
  col : Nat
  row : Nat
  deriving DecidableEq, Repr

/-- A hop of a route (R27, R55): a link from one place to the next of its quadrant, or a seam direction. -/
inductive Hop where
  | link (a b : NetNode)
  | seam (d : Nat)
  deriving DecidableEq, Repr

/-- What a route was opened for (R27, R55): records or returned credit of a receive channel of a Field, or of its send endpoint n as 32 + n
where the receiver lies on another part, a DMA transfer by its sequence number, or
the operands of a reduction tree of a context by level and position. -/
inductive RouteUser where
  | chan (field rx : Nat) (credit : Bool)
  | dma (field eng seq : Nat)
  | tree (field ctx tree : Nat)
  deriving DecidableEq, Repr

/-- An open route: what for, its context, its ends and its hops, fixed when it was opened. -/
structure NetRoute where
  user : RouteUser
  ctx : Nat
  src : NetNode
  dst : NetNode
  hops : List Hop
  deriving DecidableEq, Repr

/-! Field memory, its cache and the stacks (chapters 10 and 13). -/

/-- A line of the Field-memory cache (R239): RGA and VA of its first byte, resident slot, the way of its set it lies in, 256 bytes and one dirty
bit a byte. -/
structure CacheLine where
  rga : Nat
  va : Nat
  slot : Nat
  way : Nat
  data : List Byte
  dirty : Nat
  bad : Bool
  deriving DecidableEq, Repr

/-- A range operation in progress (Table 10-2). `todo` names the lines it has still to act on, by slot and RGA, each with the mask of the bytes
that the operation discards without writing them back; `drop` tells whether the lines go. While `forming`, the pages of its range have still to be
translated, and `todo` names the lines that were present when it started. -/
structure CmoRun where
  op : Nat
  slot : Nat
  base : Nat
  len : Nat
  todo : List (Nat × Nat × Nat)
  forming : Bool
  drop : Bool
  err : Bool
  rangeErr : Bool
  deriving DecidableEq, Repr

/-- An access at a stack port (R299): a read, a write, or a near-memory operation, with who asks and what the symbol code finds. It is held
while its stack wakes or its row is remapped (R308, R317, R318). -/
inductive StkReq where
  | read (a n : Nat) (by' : Option Requester) (ecc : Ecc)
  | write (a : Nat) (bs : List Byte) (by' : Option Requester) (ecc : Ecc)
  | gather (as : List Nat) (by' : Option Requester) (ecc : Ecc)
  | scatterAdd (a fmt mask : Nat) (tok : List Byte) (by' : Requester)
  | atomic (a op x new : Nat) (by' : Requester)
  deriving DecidableEq, Repr

/-- Translation state that no register shows: entries waiting for a place in a fault queue (R334), by quadrant, and the
invalidation in progress (R332): its scope and context, and the accesses it waits for: requests to other parts by port, tag and stamp, and those
that stacks hold. -/
structure XltState where
  fqWait : List (Nat × FqEntry)
  inval : Option (Nat × Nat)
  invalTags : List (Nat × Nat × Nat)
  invalHeld : List (Nat × StkReq)
  deriving DecidableEq, Repr

/-- Field-memory state that no register shows. `held` are the accesses that wait for their bank (R249). `zeroing` holds the banks whose wake zeroes them (R250); `outst` the
outstanding transactions of a bank, `fences` the open gate fence of a bank as the mask of DMA acknowledgements and the state it
leads to (R248), `lastGrant` the agent a bank granted last (R236), `lastRead` the data of the last read. -/
structure FmState where
  outst : List (Nat × Nat)
  fences : List (Nat × Nat × Nat)
  zeroing : List Nat
  held : List BankReq
  lines : List CacheLine
  plru : List (Nat × Nat)
  cmo : Option CmoRun
  scrubPos : Nat
  lastGrant : List (Nat × Nat)
  lastRead : List Byte
  deriving DecidableEq, Repr

/-- Stack state that no register shows: the die map as logical die to physical die where it differs (R307), the die copy
and its progress in rows, remapped rows and the spare rows used of a bank (R308), held accesses (R317, R318), the die copy that an off stack has abandoned and the rows
that firmware has still to remap, by pseudo-channel, bank and row (R304, R309), and the positions of refresh and patrol scrub. -/
structure StackState where
  dieMap : List (Nat × Nat)
  copyDie : Option Nat
  remapped : List (Nat × Nat)
  remapHeld : List StkReq
  held : List StkReq
  waking : Bool
  copyAgain : Option Nat
  remapNext : List (Nat × Nat × Nat)
  spareUsed : List (Nat × Nat)
  scrubPos : Nat
  refreshPos : Nat
  lastRead : List Byte
  deriving DecidableEq, Repr
/-! Quipel (chapter 15). -/

/-- A Quipel message: the transaction header of Table 15-3 and its data. -/
structure QMsg where
  op : Nat
  status : Nat
  fence : Bool
  ce : Bool
  ceEcho : Bool
  tag : Nat
  srcDev : Nat
  srcLf : Nat
  dstDev : Nat
  dstLf : Nat
  rga : Nat
  len : Nat
  arg0 : Nat
  arg1 : Nat
  data : List Byte
  deriving DecidableEq, Repr

/-- A flit waiting in a virtual channel: KIND, VC, LAST and CLASS of Table 15-2 and its 240-byte body. -/
structure QFlit where
  kind : Nat
  vc : Nat
  last : Bool
  cls : Nat
  body : List Byte
  deriving DecidableEq, Repr

/-- Why a request was sent: which agent of which Field waits for its response, the VA it waits by, and how far behind that VA the access lies
for which it fetches a line. -/
structure QUser where
  field : Nat
  agent : Nat
  index : Nat
  ctx : Nat
  va : Nat
  off : Nat
  deriving DecidableEq, Repr

/-- A tag in use (R350, R368): its request, who waits, when it left or timed out, and whether it has timed out. On the wire a tag of port n is
2,048 n more. -/
structure QTag where
  tag : Nat
  req : QMsg
  user : QUser
  issued : Nat
  bytes : Nat
  timedOut : Bool
  deriving DecidableEq, Repr

/-- A REDUCE operand held at a node for its partner (R356, R360): its data, or the place of its bytes in the port's spill area. -/
structure QOperand where
  tree : Nat
  node : Nat
  side : Nat
  fmt : Nat
  off : Nat
  count : Nat
  data : List Byte
  spilled : Option Nat
  deriving DecidableEq, Repr

/-- The window of outstanding response bytes of one destination (R367). -/
structure QWindow where
  size : Nat
  halvedAt : Nat
  deriving DecidableEq, Repr

/-- Quipel port state that no register shows. `txq` holds the flits that wait to leave, by 2 × virtual channel + class, `retry` the
flits sent and not acknowledged, `resend` where a resend continues, `credit` the credits held and `owed` the credits to
return, by VC and class; `rx` the flits of messages received and not moved on, by VC and class, `passed` how many flits of the first of them have
left the receive buffer (R348), `waited` how many flits of higher VCs overtook a VC (R349), `sent` the flits that have left, `nodeIn` the REDUCE
messages from this part for nodes of the port (R356). `blockAt` counts the flits received since training, five to a codeword block, and `wordBad` tells
whether the last codeword failed (R345); `steerOwed` and `farSteer` are the lane changes to announce to the peer and those it announced (R343, R346);
`grow` tells that the spill area was full (R360). -/
structure PortState where
  txq : List (Nat × List QFlit)
  txSeq : Nat
  retry : List (Nat × QFlit)
  resend : Option Nat
  nakSeq : Nat
  nakCount : Nat
  credit : List (Nat × Nat)
  owed : List (Nat × Nat)
  rxSeq : Nat
  nakOwed : Bool
  rx : List (Nat × List QFlit)
  passed : List (Nat × Nat)
  waited : List (Nat × Nat)
  sent : List (List Byte)
  tags : List QTag
  windows : List (Nat × QWindow)
  operands : List QOperand
  nodeIn : List QMsg
  reduceRefused : Nat
  reduceStale : Nat
  badCodewords : Nat
  retraining : Bool
  retrainSince : Nat
  downSinceRoute : Bool
  rerouted : List Nat
  steer : Option (Nat × Nat)
  blockAt : Nat
  wordBad : Bool
  steerOwed : Bool
  farSteer : Option (Nat × Nat)
  grow : Bool
  deriving DecidableEq, Repr

/-- A response that has reached its agent and waits to be used (R350). -/
structure QResp where
  ctx : Nat
  agent : Nat
  index : Nat
  va : Nat
  status : Nat
  value : Nat
  data : List Byte
  deriving DecidableEq, Repr
/-! Channels and hurdles (chapter 11). -/

/-- A record on its way through a send endpoint (R255, R262): TYPE, payload length, TAG, the payload so far, whether its span
is claimed (R260) and whether a PAD goes in before it. -/
structure ChRecord where
  typ : Nat
  len : Nat
  tag : Nat
  payload : List Byte
  claimed : Bool
  padFirst : Bool
  fromCore : Bool
  deriving DecidableEq, Repr

/-- What a send endpoint holds beside its register (R254, R258, R260). -/
structure TxChan where
  rxLf : Nat
  rxDev : Nat
  remote : Bool
  rxIdx : Nat
  gen : Nat
  sizeLog2 : Nat
  limit : Nat
  woff : Nat
  seq : Nat
  queue : List ChRecord
  deriving DecidableEq, Repr

/-- What a receive channel holds beside its registers: its ring, its sender, the limit, bytes to return (R258), records that
wait in Silt (R217, R261), whether it waits for its acknowledgement (R254), and whether the part of a remote
sender has reported that it has no record in flight (R269). -/
structure RxChan where
  ringOff : Nat
  txLf : Nat
  txDev : Nat
  remote : Bool
  txIdx : Nat
  limit : Nat
  owed : Nat
  extended : Nat
  silt : List (List Byte)
  waitAck : Bool
  farIdle : Bool
  deriving DecidableEq, Repr

/-- What the channel unit records of a channel at heat start (R267): the slot, the channel and its generation, its WPTR, RPTR, SEQ16, the sender's
credit and the bytes owed to it. -/
structure ChSnap where
  slot : Nat
  rx : Nat
  gen : Nat
  wptr : Nat
  rptr : Nat
  seq : Nat
  credit : Nat
  owed : Nat
  deriving DecidableEq, Repr

/-- A waiter of a hurdle (R272, R274): the Field and port or ring that waits, its context, and n. Port 0 to 15 is a grid
port, 16 + r is ring r. -/
structure Waiter where
  hurdle : Nat
  field : Nat
  port : Nat
  ctx : Nat
  n : Nat
  deriving DecidableEq, Repr

/-- What the channel unit holds beside its registers. `hmap` is each slot's hurdle map as read at heat start (R271), keyed
1024 x slot + id; `done` the waits that have completed and whose source has not gone on; `stale` the stale records counted by receive channel (R266); `selLast` the round-robin
position of a select group and `selPos` the channel and tokens of the record in delivery, as 32 × tokens + channel (R265);
`legSkip` the payload tokens of a refused record that a port has still to discard (R259). -/
structure ChState where
  tx : List (Nat × TxChan)
  rx : List (Nat × RxChan)
  snaps : List ChSnap
  hmap : List (Nat × Nat)
  waiters : List Waiter
  done : List Waiter
  stale : List (Nat × Nat)
  selLast : List (Nat × Nat)
  selPos : List (Nat × Nat)
  legSkip : List (Nat × Nat)
  outbound : List (QUser × QMsg)
  deriving DecidableEq, Repr
/-! Self-timed operation (chapter 2). -/

/-- A self-timed stage (R39, R41): its request and acknowledge levels, the data on its bundle, and the data its receiver has
captured and not passed on. -/
structure Stage where
  req : Bool
  ack : Bool
  bundle : List Byte
  got : Option (List Byte)
  deriving DecidableEq, Repr

/-- A pacer and what holds it (R46, R48, R49, R442, R446): phase accumulator, permits issued, how many were issued when a unit last began a
step, by unit, the setting that waits for a heat boundary, whether the natural rate is below the set rate, the rate in M steps/s to which an
alert clamps it (0: none), and whether a trip stops it. -/
structure Pacer where
  acc : Nat
  issued : Nat
  taken : List (Nat × Nat)
  waiting : Option (Nat × Nat)
  disturbed : Bool
  clamp : Nat
  stopped : Bool
  deriving DecidableEq, Repr

/-- A crossing queue of one direction at an island (R52): entries on the sender's side and on the receiver's side, and the entry that
the receiver took last. -/
structure Crossing where
  near : List (List Byte)
  far : List (List Byte)
  last : Option (List Byte)
  deriving DecidableEq, Repr

/-! Matrix arrays and the tile sequencer (chapters 4 to 6). -/

/-- A posted descriptor in a queue: the resident slot it is for, its place in the order of its context's posts, which split of its
reduction tree it is a part of, counted by tree and part in that order, and its bytes (R111, R132, R159). -/
structure Posted where
  slot : Nat
  order : Nat
  split : Nat
  desc : List Byte
  deriving DecidableEq, Repr

/-- An output tile in an accumulator slot (R95): its owner context, macro sequence number, batch element and grid place, its
tile and live index, how many K-tiles it has received, the next group, its accumulator words (one default for elements not
listed), its clamp flags, the order in which it took its slot, the next row to drain, and the group size and K part of its macro. -/
structure Tile where
  ctx : Nat
  seq : Nat
  b : Nat
  i : Nat
  j : Nat
  tidx : Nat
  live : Nat
  kDone : Nat
  nextG : Nat
  f32 : Bool
  init : Nat
  elems : List (Nat × Nat)
  clamps : List (Nat × Bool)
  order : Nat
  row : Nat
  pinned : Bool
  g : Nat
  part : Nat
  deriving DecidableEq, Repr

/-- A block in a transpose buffer of 128 banks (R149): the operand (0 A, 1 B), which of its two buffers, and the banks; element (s, t) of
the block lies in bank (s + t) mod 128 at place s. -/
structure TransBuf where
  operand : Nat
  buffer : Nat
  banks : List (List Nat)
  deriving DecidableEq, Repr

/-- The stationary B operands of one K-tile (R86, R88): element codes by column then by k, and scale bytes by column. -/
structure BTile where
  b : Nat
  j : Nat
  kk : Nat
  cols : List (List Nat)
  scales : List (List Nat)
  deriving DecidableEq, Repr

/-- A completed frame of a tile in its macro's spill area (R99, R129, R130): its tile index, and the K-tiles in it. -/
structure FrameRef where
  tidx : Nat
  kDone : Nat
  deriving DecidableEq, Repr

/-- A macro that has been issued and has not completed (R113 to R139): its resident slot and context, sequence number, the
records copied at issue, the effective shape, the walk position, the tile in the cells and the one in their second registers (R88),
frames, counts and flags. `split` is that of its post, `mate` the sequence number of its partner in a pair (R141), `gang` the logical
Fields among which it is divided, the posting one first and none where it is not divided, and `rank` the place of its own (R29). -/
structure MacroRun where
  slot : Nat
  ctx : Nat
  seq : Nat
  post : Nat
  desc : List Byte
  chain : List Byte
  ptrs : List Byte
  halo : List Byte
  occ : List Byte
  mEff : Nat
  nEff : Nat
  kEff : Nat
  bEff : Nat
  b : Nat
  q : Nat
  walkDone : Bool
  bTile : Option BTile
  bNext : Option BTile
  frames : List FrameRef
  order : Nat
  tilesRun : Nat
  satCount : Nat
  spillWrites : Nat
  spilled : Bool
  rateDist : Bool
  haloSent : Nat
  haloRecv : Nat
  released : Bool
  suspended : Bool
  paired : Bool
  mate : Nat
  split : Nat
  gang : List Nat
  rank : Nat
  fault : Option Nat
  deriving DecidableEq, Repr

/-- What a matrix array and its sequencer hold: the queue, the macros issued, the tiles by slot, and the tiles whose frames are
in the save areas of their contexts, with the slots they held and no values (R130, R131, R428), and the transpose buffers, the one
filled last at the end (R149). -/
structure MaState where
  queue : List Posted
  runs : List MacroRun
  tiles : List (Nat × Tile)
  saved : List (Nat × Tile)
  tbufs : List TransBuf
  deriving DecidableEq, Repr

/-- A visit in the pair buffer (R145): the context and the sequence number of the dX member of its pair, the dY rows, and which array has
consumed it. -/
structure PairVisit where
  ctx : Nat
  seq : Nat
  rows : List (List Nat)
  done0 : Bool
  done1 : Bool
  deriving DecidableEq, Repr

/-- A value at a node of a reduction tree (R102): its context, tree and split of that tree, the logical Field it lies at, its tile, level and
position, the parts of the tree, the shape of the tree, the accumulator words and the clamp flags. -/
structure TreeVal where
  ctx : Nat
  tree : Nat
  split : Nat
  home : Nat
  tidx : Nat
  level : Nat
  pos : Nat
  chain : Bool
  parts : Nat
  f32 : Bool
  init : Nat
  elems : List (Nat × Nat)
  clamps : List (Nat × Bool)
  deriving DecidableEq, Repr

/-! Rails, pins and power (chapters 18 and 24). -/

/-- Why the part is held in reset (R448, R552, R554). -/
inductive ResetCause where
  | por
  | brownOut
  | supply (detail : Nat)
  deriving DecidableEq, Repr

/-- The board's side of the part: supplies and clocks in range, POR_N, the reset in force, the boot mode sampled, the crystal,
FAULT_N as the mask of what asserts it (bit 0 reset, bits 1 to 4 the trip of a quadrant, bit 5 a failed start-up, bit 6 a
golden failure), DEV_OK, SMB_ALERT_N, RELEASE_OUTPUTS done, the Field groups released from set-reset, whether RELEASE_GRID has
run, the start-up step to run next, REG_ALERT_N as asserted by its pin and by comparator 5, the SMBus target, and the TAP's
instruction: 0 IDCODE, 1 BYPASS, 2 SAMPLE/PRELOAD, 3 CLAMP, 4 HIGHZ, 5 to 7 EXTEST, EXTEST_PULSE and EXTEST_TRAIN, 8 a maker instruction. Log entry 130 (DESIGN CHOICE, safe). -/
structure Board where
  vbr : Bool
  rails : Bool
  porHigh : Bool
  held : Option ResetCause
  strap : Nat
  refclkSd : Bool
  xtal : Bool
  xtalSeen : Bool
  xtalLost : Bool
  faultHold : Nat
  devOk : Bool
  smbAlert : Bool
  outputs : Bool
  released : Nat
  gridStarted : Bool
  step : Option Nat
  alertPin : Bool
  alertExt : Bool
  extBeyond : Bool
  smbAddr : Nat
  smbReply : List Byte
  tapIr : Nat
  deriving DecidableEq, Repr

/-- What a quadrant's trip recovery waits for (R446, R447, R554): the cause (comparator or rail), and the stamps of its trips. -/
structure TripState where
  stopped : Bool
  byRail : Bool
  byExt : Bool
  final : Bool
  stamps : List Nat
  deriving DecidableEq, Repr

/-- The power manager (R436 to R444): the rack grant in mW, its lifetime in ms and its stamp, the last accepted sequence number,
whether a grant has expired, the last ten readings of package power in tenths of a watt, estimates in mW, the number of actions
in a row with power at or below the limit, the actions in a row below 100 °C of each quadrant, energy not yet a whole µJ (in pJ)
by counter, the budget in force in mW, the stacks whose share heat holds (R437), the AVSBus selects that fail, whether the alert is active and since when, and the trips. Log entry 105 (DEDUCED, unsafe). -/
structure PowerState where
  grant : Option Nat
  ttlMs : Nat
  grantAt : Nat
  grantSeq : Option Nat
  expired : Bool
  readings : List Nat
  wantMw : Nat
  floorMw : Nat
  waitFrac : Nat
  belowRuns : Nat
  coolRuns : List (Nat × Nat)
  remPj : List (Nat × Nat)
  avsFail : Nat
  alert : Bool
  alertSince : Nat
  trips : List (Nat × TripState)
  lMw : Nat
  hot : Nat
  deriving DecidableEq, Repr

/-! Engines (chapter 7). -/

/-- An engine operation that has been issued and has not completed (R160 to R179): its slot, context, sequence number and posting
order, its descriptor and stage block, its effective count or rows and row length, the next vector or row group, the pass and
segment, lane sums, the working region by lane and segment and whether it is in the save area, the counts of its record, bytes that
have come from a grid port and tokens that have still to leave by one, and its flags. -/
structure EngRun where
  slot : Nat
  ctx : Nat
  seq : Nat
  post : Nat
  desc : List Byte
  stages : List Byte
  count : Nat
  len : Nat
  pos : Nat
  pass2 : Bool
  seg : Nat
  sums : List (Nat × Nat)
  pairs : List (Nat × (Nat × Nat))
  items : Nat
  nan : Nat
  sat : Nat
  inA : List Byte
  inB : List Byte
  out : List (List Byte)
  outside : Bool
  spilled : Bool
  suspended : Bool
  rateDist : Bool
  fault : Option Nat
  deriving DecidableEq, Repr

/-- What an engine holds: its queue, its operations (one runs, others are suspended) and the sequence number of each context. -/
structure EngState where
  queue : List Posted
  runs : List EngRun
  seqs : List (Nat × Nat)
  deriving DecidableEq, Repr

/-! The dataflow grid (chapters 8 and 9). -/

/-- A queue entry (R184): a data token of 32 lanes with its lane-valid mask, or a baton in lane 0, and its destination leg. -/
structure QEntry where
  baton : Bool
  leg : Nat
  lanes : List Nat
  valid : Nat
  deriving DecidableEq, Repr

/-- An entry on a route (R181): its destination (unit 0 to 31, or 32 + a grid port) and queue, the links still ahead, its sender (a unit, or
32 + a grid port), and whether a grid port holds it as a WAIT that has not completed (R273). -/
structure Transit where
  entry : QEntry
  unit : Nat
  q : Nat
  path : List Nat
  src : Nat
  held : Bool
  deriving DecidableEq, Repr

/-- A SKIP in force on a queue (Table 8-2): tokens still to drop, or the loop level whose DONE ends it. -/
inductive Skip where
  | count (n : Nat)
  | until (level : Nat)
  deriving DecidableEq, Repr

/-- A carry register: its lanes and the lanes that tokens of its group have written; none before the group's first token. -/
structure CarryReg where
  lanes : List Nat
  mask : Nat
  deriving DecidableEq, Repr

/-- What a leg still has to send, in order: the carry of a stage, with the counter values its later stages see, or an entry for a set of
output ports. -/
inductive Due where
  | carry (stage : Nat) (values : List (Nat × Nat))
  | entry (ports : Nat) (baton : Bool) (lanes : List Nat) (valid : Nat)
  deriving DecidableEq, Repr

/-- The position of an address generator (R200, R201, R203): tokens done of its pattern or of the index in work, the indices of
its index token still to serve, the row in work, whether it holds a ring slot, and whether the step that slot serves has ended. -/
structure AgPos where
  pos : Nat
  idx : List Nat
  row : Option (Nat × Nat)
  ring : Bool
  ended : Bool
  deriving DecidableEq, Repr

/-- A leg of a unit: its 256-byte configuration and what it holds as it runs (R193 to R208, R223, R224). -/
structure Leg where
  cfg : List Byte
  values : List (Nat × Nat)
  limits : List (Nat × Option Nat)
  halted : List Nat
  carry : List (Nat × CarryReg)
  sel : Nat
  skip : List (Nat × Skip)
  due : List Due
  ags : List (Nat × AgPos)
  sent : Nat
  target : Option Nat
  lane0 : Nat
  seals : List Nat
  sealDone : Bool
  deriving DecidableEq, Repr

/-- A compute or memory unit: its input queues, its legs, and the leg it is switching away from. -/
structure UnitState where
  queues : List (Nat × List QEntry)
  legs : List (Nat × Leg)
  old : Option Nat
  deriving DecidableEq, Repr

/-- Silt in use (R215 to R217, R225): the resident slot, what for (0 a queue of a leg, 1 a channel ring, 2 leftovers of a drain)
and which, its chunks in order, and the places of the entries it holds, oldest first: 64 a chunk, of 256 bytes each. -/
structure SiltUse where
  slot : Nat
  kind : Nat
  key : Nat
  chunks : List Nat
  places : List Nat
  deriving DecidableEq, Repr

/-- A region under reconfiguration (R222 to R229): its slot and record, whether its border is shut, the queues of its legs that have still to
take their SEAL, by unit, queue and leg (R223), and the entries that flush mode has discarded (R226). -/
structure RegionRun where
  slot : Nat
  rcd : List Byte
  started : Bool
  seals : List (Nat × Nat × Nat)
  gone : Nat
  deriving DecidableEq, Repr

/-- A graph walk that has been issued (R230 to R233): its nodes, the next node and edge, the edges found, and its flags. -/
structure WalkRun where
  slot : Nat
  ctx : Nat
  seq : Nat
  post : Nat
  desc : List Byte
  nodes : Nat
  node : Nat
  edge : Nat
  last : Nat
  edges : List (Nat × Nat)
  paused : Bool
  suspended : Bool
  rateDist : Bool
  fault : Option Nat
  deriving DecidableEq, Repr

/-- The grid of a Field, its Silt, detector, reconfiguration port and walker. `windows` counts the windows that have expired in a
row without progress or extension (R219), by slot. A region record waits with the leg that posted it, if one did. -/
structure GridState where
  units : List (Nat × UnitState)
  links : List (Nat × List Transit)
  silt : List SiltUse
  windows : List (Nat × Nat)
  reconfQ : List (Posted × Option Nat)
  region : Option RegionRun
  walkQ : List Posted
  walks : List WalkRun
  walkSeqs : List (Nat × Nat)
  deriving DecidableEq, Repr

/-! Slot rings, DMA and relays (chapter 12). -/

/-- What a slot ring holds beside its registers (R287, R289, R290): slot lengths, the slots from TAIL on that the consumer and
the forward reader have freed, whether the consumer holds its next slot, the slot offset reached and the bytes landed in the slot being
filled, and whether the ring waits on its release hurdle. -/
structure RingX where
  lens : List (Nat × Nat)
  cons : Nat
  fwd : Nat
  consHeld : Bool
  top : Nat
  landed : Nat
  waiting : Bool
  deriving DecidableEq, Repr

/-- A station of a relay chain as its head sees it: the physical Field, the ring, and the relay entry (none: the head's own). -/
structure Station where
  field : Nat
  ring : Nat
  entry : Option Nat
  deriving DecidableEq, Repr

/-- A DMA transfer that has been issued (R280 to R295): its descriptor, effective rows, stations, the next granule by repeat, row
and offset, the bytes that have come from a grid port, those of the row that do not yet fill a token, whether the tokens of a granule are on
their way to a grid port and those of them that have still to leave, the bytes done, slots published, ring slots held, how many grants have passed
it by (R296), and its flags. -/
structure DmaRun where
  slot : Nat
  ctx : Nat
  seq : Nat
  post : Nat
  desc : List Byte
  rows : Nat
  stations : List Station
  rep : Nat
  row : Nat
  off : Nat
  got : Option (List Byte)
  inb : List Byte
  outb : List Byte
  sending : Bool
  toks : List (List Byte)
  bytesDone : Nat
  slotsPub : Nat
  srcHeld : Bool
  dstHeld : Bool
  suspended : Bool
  waits : Nat
  fault : Option Nat
  deriving DecidableEq, Repr

/-- A granule on its way down a relay chain: its place in the slot, its bytes, its source bytes, and whether it is the last of its
repeat. -/
structure RelayGran where
  off : Nat
  data : List Byte
  src : Nat
  last : Bool
  deriving DecidableEq, Repr

/-- A relay entry in use (R293, R294): its chain by head, engine and sequence number, its place in it, the slots it has still to take, and the
granules that have reached it. The head's own station, where it is not the first of the chain, is kept in the same form under 8 + 4 times its engine + the
slot of its context. -/
structure RelayEntry where
  slot : Nat
  headField : Nat
  headEng : Nat
  seq : Nat
  left : Nat
  ring : Nat
  next : Option (Nat × Nat)
  inbox : List RelayGran
  held : Bool
  deriving DecidableEq, Repr

/-- What a DMA engine holds. -/
structure DmaState where
  queue : List Posted
  runs : List DmaRun
  deriving DecidableEq, Repr
/-! The Ethernet port and CSP (chapter 16). -/

/-- Where an answer goes (R373, R383): MAC, VLAN, priority, IP and UDP port of the requester. -/
structure Peer where
  mac : Nat
  vlan : Option Nat
  pcp : Nat
  v6 : Bool
  ip : Nat
  port : Nat
  deriving DecidableEq, Repr

/-- RoCEv2 answers (R376 to R379). -/
inductive RoceAns where
  | ack
  | readResp (data : List Byte)
  | nakAccess
  | nakInvalid
  | nakSeq
  | rnrNak
  | cnp
  deriving DecidableEq, Repr

/-- What a frame the part sends carries. -/
inductive TxBody where
  | arpReply (ip : Nat)
  | neighbourAdv (ip : Nat)
  | echoReply (data : List Byte)
  | udp (sport : Nat) (data : List Byte)
  | roce (qp psn : Nat) (a : RoceAns)
  | pause (pause : Nat) (resume : Nat)
  deriving DecidableEq, Repr

/-- A frame that waits to be sent or has been sent: destination, priority, ECN, content, and its MACsec association and packet number. -/
structure TxFrame where
  dst : Peer
  pcp : Nat
  ect : Bool
  body : TxBody
  sec : Option (Nat × Nat)
  deriving DecidableEq, Repr

/-- A MACsec secure association (R381, Table 16-12): channel, association number, suite, SCI, next packet number to send or highest
received, SSCI, salt and SAK. -/
structure MacSa where
  chan : Nat
  an : Nat
  xpn : Bool
  sci : Nat
  pn : Nat
  ssci : Nat
  salt : Nat
  sak : Nat
  deriving DecidableEq, Repr

/-- A queue pair (R376, R379) and its DCQCN state (R375): rates in Mbit/s and alpha, the periods since the last notification, the
stamp of the last notification sent, and progress of a request that waits for memory of another part. -/
structure QueuePair where
  mtu : Nat
  remote : Nat
  sendPsn : Nat
  recvPsn : Nat
  peer : Peer
  part : Nat
  lfield : Nat
  rx : Nat
  gen : Nat
  seq16 : Nat
  cnpAt : Option Nat
  alpha : Rat
  rate : Rat
  target : Rat
  periods : Nat
  deriving DecidableEq, Repr

/-- A message in reassembly (R384): its source, the fields of its first fragment, the fragments held, and when the first came. -/
structure Reasm where
  src : Peer
  id : Nat
  typ : Nat
  flags : Nat
  status : Nat
  len : Nat
  count : Nat
  part : Nat
  frags : List (Nat × List Byte)
  at' : Nat
  deriving DecidableEq, Repr

/-- A CSP message that is whole and waits to be served. -/
structure CspMsg where
  src : Peer
  typ : Nat
  flags : Nat
  part : Nat
  id : Nat
  body : List Byte
  deriving DecidableEq, Repr

/-- A nonce that is outstanding (R395). -/
structure Nonce where
  bytes : List Byte
  at' : Nat
  deriving DecidableEq, Repr

/-- The Ethernet port and the CSP endpoint: whether it trains, the rate asked for, priorities whose transmission is paused and those paused at
the sender, frames received and not yet read, frames to send and sent, MACsec, queue pairs, reassembly, messages, nonces, and repeats
of each transaction of remote accesses (R377), by the number of its window and direction and its VA. `pnAlarm` has a bit for each transmit association whose
packet numbers have raised the alarm of R382. -/
structure EthState where
  pausedTx : Nat
  pausedRx : Nat
  rxq : List EthFrame
  txq : List TxFrame
  sent : List TxFrame
  sas : List MacSa
  txAn : Option Nat
  pnAlarm : Nat
  qps : List (Nat × QueuePair)
  reasm : List Reasm
  msgs : List CspMsg
  nonces : List Nonce
  hjmDown : Bool
  remoteTries : List (Nat × Nat)
  deriving DecidableEq, Repr

/-! Serving (chapter 17). -/

/-- A sequence of a request (R386, R413): its input as a length in bytes, the offset of its first byte in the request's inputs, and the bytes
once they are here, its tracked length, batch slot, and whether it has ended. -/
structure SeqRun where
  inLen : Nat
  inOff : Nat
  input : Option (List Byte)
  tracked : Nat
  slot : Option Nat
  ended : Bool
  deriving DecidableEq, Repr

/-- A RESULT datagram kept for resend (R391, R401): its STREAM, its length, and the place of its bytes in stack memory; its bytes where the result
buffer had no room for it. -/
structure KeptResult where
  stream : Nat
  len : Nat
  place : Option Nat
  bytes : List Byte
  deriving DecidableEq, Repr

/-- An admitted request (R387 to R393). `order` numbers admissions; `place` is the window and offset of inputs that are not inline, `outAt` the
window offset for outputs, `heats` the committed heats that ran a sequence of it, `stream` the next STREAM, `kept` the RESULT
datagrams kept, `ended` when it ended. -/
structure Request where
  order : Nat
  src : Peer
  id : Nat
  part : Nat
  ctx : Nat
  prio : Nat
  maxHeats : Nat
  place : Option (Nat × Nat)
  outAt : Option Nat
  seqs : List SeqRun
  heats : Nat
  stream : Nat
  kept : List KeptResult
  cancelled : Bool
  admitted : Nat
  ended : Option Nat
  deriving DecidableEq, Repr

/-- A pending load heat (R427, Table 17-5): window, offset, length. -/
structure LoadHeat where
  window : Nat
  off : Nat
  len : Nat
  deriving DecidableEq, Repr

/-- The vote of a member as the leader holds it (R420). -/
structure Vote where
  member : Nat
  ready : Bool
  deriving DecidableEq, Repr

/-- What a sequence of the heat has produced, kept in the result buffer until the heat commits (R390, R572): its request's order and its
index, its output as inline bytes or a window offset and a length, whether its model ends it, and the growth of its tracked length. -/
structure PendRes where
  order : Nat
  seq : Nat
  len : Nat
  window : Option Nat
  data : List Byte
  ended : Bool
  grow : Nat
  deriving DecidableEq, Repr

/-- What the serving loop keeps of a context: its declaration and group, the plan variant in force and the least it may take, the batch of the
heat as request order and sequence index, the load heat in progress and those that wait, the results that wait for the commit, whether the
heat is run again with its batch, its group's votes, decision and members that have not read it, whether the group is lost, since when it has been VOTED,
how long its heat has been scheduled, the pointers swapped in a commit, what holds it at its boundary and what its replay waits for (Fields
whose migration is due, 128 + quadrant for a trip), and whether a trip has abandoned the heat. -/
structure CtxServe where
  load : Option CtxLoad
  slot : Nat
  variant : Nat
  minVariant : Nat
  batch : List (Nat × Nat)
  loading : Option LoadHeat
  loads : List LoadHeat
  results : List PendRes
  rerun : Bool
  votes : List Vote
  decision : Option Bool
  awaitDecision : Bool
  undelivered : List Nat
  groupLost : Bool
  votedAt : Nat
  ranFrom : Nat
  ran : Nat
  swapped : Nat
  held : List Nat
  replayHold : List Nat
  tripped : Bool
  deriving DecidableEq, Repr

/-- The serving runtime. `bufSize` and `bufAt` are the sizes of the partitions' result buffers and their places in stack memory (R400, R401). `vt` and `charge` are keyed 16 × quadrant + partition (R406), `rem` 16 × Field + partition (R408), `busy`
64 × Field group + context (R440); `grpSent` are the vote and decision records sent, with member and bytes, `stackBytes` the bytes of
stack memory charged to a context since the last attribution of energy (R440). -/
structure ServeState where
  reqs : List Request
  orders : Nat
  ctxs : List (Nat × CtxServe)
  bufSize : List (Nat × Nat)
  bufAt : List (Nat × Nat)
  prefixes : List (Nat × (Bool × Nat × Nat))
  vt : List (Nat × Nat)
  charge : List (Nat × Nat)
  rem : List (Nat × Nat)
  busy : List (Nat × Nat)
  weights : List (Nat × Nat)
  lastRun : List (Nat × Nat)
  offQuads : List Nat
  grpSent : List (Nat × Nat × List Byte)
  stackBytes : List (Nat × Nat)
  deriving DecidableEq, Repr

/-! The NV store and what Hjelmar keeps in it (chapters 19 to 21). -/

/-- A slot of the NV store (R452, R463, R471): state (0 EMPTY, 1 WRITING, 2 VALID, 3 IN FORCE, 4 ACTIVATING), version, length and hash of
what it holds, whether it still passes R463, and the contexts its image declares. -/
structure NvSlot where
  state : Nat
  version : Nat
  len : Nat
  hash : Nat
  ok : Bool
  ctxs : List (Nat × CtxLoad)
  deriving DecidableEq, Repr

/-- An enrolled key (R481): KEY_ID and public point. -/
structure KeyEnt where
  id : Nat
  x : Nat
  y : Nat
  deriving DecidableEq, Repr

/-- An audit record, Table 20-7, with its chain value. `src` is the source address of a coalesced refusal (R493). -/
structure AuditRec where
  seq : Nat
  stamp : Nat
  event : Nat
  role : Nat
  outcome : Nat
  key : Nat
  detail : Nat
  count : Nat
  subject : List Byte
  chain : List Byte
  src : Option (Bool × Nat)
  deriving DecidableEq, Repr

/-- An audit checkpoint, Table 20-8. -/
structure AuditCp where
  first : Nat
  last : Nat
  chainStart : List Byte
  chainEnd : List Byte
  refused : Nat
  sign : List Byte
  deriving DecidableEq, Repr

/-- A staging in progress (R470): target or deployment record, source window, offset, length, ACTIVATE. -/
structure Staging where
  record : Bool
  target : Nat
  window : Nat
  off : Nat
  len : Nat
  activate : Nat
  deriving DecidableEq, Repr

/-- The spare map (R498): logical Fields as physical Field and LOST, column maps and lane roles as register values, die maps and remapped
rows of stacks, cores and wear counts. -/
structure SpareMap where
  fields : List (Nat × Nat)
  lost : List Nat
  retired : List Nat
  cores : List (Nat × Nat)
  failed : List Nat
  dies : List (Nat × List (Nat × Nat))
  rows : List (Nat × List (Nat × Nat))
  regs : List (Nat × Word)
  wear : List (Nat × Nat)
  deriving DecidableEq, Repr

/-- The NV store as Hjelmar keeps it. Slots: 0 firmware A, 1 firmware B, 2 golden firmware, 3 grid P0, 4 grid P1, 5 golden grid set.
`minVer` is by directory kind (1 record, 2 firmware, 3 grid set), `onStart` the slots staged to come into force at the next start-up. -/
structure NvState where
  gen : Nat
  slots : List (Nat × NvSlot)
  active : Nat
  trial : Bool
  trialFailed : List Nat
  gridForce : Nat
  minVer : List (Nat × Nat)
  record : DeployRec
  recordHash : Nat
  next : Option (DeployRec × Nat)
  onStart : List Nat
  map : SpareMap
  keys : List KeyEnt
  claimed : Bool
  nextHash : Nat
  boots : Nat
  audit : List AuditRec
  cps : List AuditCp
  auditNext : Nat
  mapGen : Nat
  spareSectors : Nat
  deriving DecidableEq, Repr

/-- A firmware handover (R472): the quadrant next (4 once every quadrant is handed over), the slot handed to, whether it is the way back
of a failed trial, since when every core and Hjelmar have run the new slot, the cores that have started from it, those that restart, and the
quadrant that is paused for the restart of its own core. -/
structure HandOver where
  quad : Nat
  slot : Nat
  back : Bool
  since : Option Nat
  ready : List Nat
  restarting : List Nat
  paused : Option Nat
  deriving DecidableEq, Repr

/-- A migration (R502, R503): logical Field, source, target, the fault that caused it, and Order reached. -/
structure Migration where
  lfield : Nat
  src : Nat
  dst : Nat
  fault : Nat
  phase : Nat
  since : Nat
  deriving DecidableEq, Repr

/-- Firmware and Hjelmar at work: a staging in progress, the firmware handover, contexts still to move in an image activation, contexts that
have still to reach a boundary before a new deployment record's early entries apply (R457), whether the golden sets run (R468), the
migration of each quadrant and those asked for, stamps of lockstep mismatches and whether Hjelmar stays in reset (R512), the position of each
scrub engine (R516), the CRC of each leg as its port wrote it and the heat of its context at its last clean check (R514, R515), legs to reload on abandon, wear
events (R499), failed seam directions whose routes run the other way round, those that carry traffic again (R518), the columns whose
retirement waits for a heat boundary, by 2 × Field + array (R110), and the gangs that contexts are to have once the contexts concerned are at a boundary
(R30). -/
structure PlaneState where
  staging : Option Staging
  handover : Option HandOver
  activating : List Nat
  applying : Option (List Nat)
  goldenGrid : Bool
  goldenFw : Bool
  migrations : List (Nat × Migration)
  queued : List Migration
  mismatches : List Nat
  hjmStopped : Bool
  scrubs : List (Nat × Nat)
  crcs : List (Nat × Nat)
  clean : List (Nat × Nat)
  badLegs : List Nat
  wearLog : List (Nat × List Nat)
  routesAway : List Nat
  routesBack : List Nat
  colsWait : List (Nat × Nat)
  gangDue : List (Nat × List Nat)
  deriving DecidableEq, Repr

end Sys2Proof.Machine
end

