-- ==== Sys2Proof/Machine/State.lean ====
section
/-!
DEFINITION. The state of the part, the reasons a command can stop, and the state at power-on.
-/

namespace Sys2Proof.Machine

/-- What a physical Field holds beside its registers and memory. -/
structure FieldState where
  stages : List (Nat × Stage)
  pacer : Pacer
  stops : List (Nat × Stop)
  tlb : List TlbEntry
  walkCache : List PtrEntry
  buckets : List (Nat × Nat)
  resps : List QResp
  retryCount : List (Nat × Nat)
  fm : FmState
  ch : ChState
  ma0 : MaState
  ma1 : MaState
  pairBuf : List PairVisit
  ve : EngState
  re : EngState
  vregs : List (Nat × Nat)
  reSave : List (Nat × Nat)
  grid : GridState
  rings : List (Nat × RingX)
  dmas : List (Nat × DmaState)
  dmaSeqs : List (Nat × Nat)
  dmaGrant : Option Nat
  relays : List (Nat × RelayEntry)
  deriving DecidableEq, Repr

/-- A Field as it leaves power-on. Log entry 10 (DESIGN CHOICE, unsafe). -/
def FieldState.reset : FieldState :=
  { stages := [],
    pacer := { acc := 0, issued := 0, taken := [], waiting := none, disturbed := false, clamp := 0, stopped := false },
    stops := [], tlb := [], walkCache := [], buckets := [], resps := [], retryCount := [],
    fm := { outst := [], fences := [], zeroing := [], held := [], lines := [], plru := [], cmo := none, scrubPos := 0,
            lastGrant := [], lastRead := [] },
    ch := { tx := [], rx := [], snaps := [], hmap := [], waiters := [], done := [], stale := [], selLast := [], selPos := [], legSkip := [], outbound := [] },
    ma0 := { queue := [], runs := [], tiles := [], saved := [], tbufs := [] }, ma1 := { queue := [], runs := [], tiles := [], saved := [], tbufs := [] }, pairBuf := [],
    ve := { queue := [], runs := [], seqs := [] }, re := { queue := [], runs := [], seqs := [] }, vregs := [], reSave := [],
    grid := { units := [], links := [], silt := [], windows := [], reconfQ := [], region := none, walkQ := [], walks := [],
              walkSeqs := [] },
    rings := [], dmas := [], dmaSeqs := [], dmaGrant := none, relays := [] }

/-- A stack as it leaves power-on. Log entry 10 (DESIGN CHOICE, unsafe). -/
def StackState.reset : StackState :=
  { dieMap := [], copyDie := none, remapped := [], remapHeld := [], held := [], waking := false, copyAgain := none, remapNext := [], spareUsed := [],
    scrubPos := 0, refreshPos := 0, lastRead := [] }

/-- A Quipel port as it leaves power-on. Log entry 10 (DESIGN CHOICE, unsafe). -/
def PortState.reset : PortState :=
  { txq := [], txSeq := 0, retry := [], resend := none, nakSeq := 0, nakCount := 0, credit := [], owed := [], rxSeq := 0,
    nakOwed := false, rx := [], passed := [], waited := [], sent := [], tags := [], windows := [], operands := [], nodeIn := [], reduceRefused := 0,
    reduceStale := 0, badCodewords := 0, retraining := false, retrainSince := 0, downSinceRoute := false, rerouted := [], steer := none,
    blockAt := 0, wordBad := false, steerOwed := false, farSteer := none, grow := false }

/-- What a context holds beside its registers. `trees` are the ends of trees that go on to other parts (R356), `splits` counts the parts it has posted in its heat by 32 × tree + part (R132); `away` are the failed seam directions its routes go round since its last boundary (R518), `siltOut` the Fields on which its heat has run out of Silt (R218), and `stopDue` tells that a stop waits for the release of a region (R229). Log entry 47 (DESIGN CHOICE, unsafe). -/
structure CtxState where
  pendRank : Nat
  pendCode : Nat
  trees : List TreeEnd
  macroSeq : Nat
  posts : Nat
  splits : List (Nat × Nat)
  desched : Bool
  waitSusp : Bool
  away : List Nat
  siltOut : List Nat
  stopDue : Bool
  deriving DecidableEq, Repr

/-- A context as it leaves power-on. Log entry 10 (DESIGN CHOICE, unsafe). -/
def CtxState.reset : CtxState := { pendRank := 0, pendCode := 0, trees := [], macroSeq := 0, posts := 0, splits := [], desched := false, waitSusp := false, away := [], siltOut := [], stopDue := false }

/-- Everything off and POR_N asserted: the lands before power-up. Log entry 11 (DESIGN CHOICE, unsafe). Log entry 41 (DESIGN CHOICE, unsafe). Log entry 120 (DESIGN CHOICE, safe). -/
def Board.reset : Board :=
  { vbr := false, rails := false, porHigh := false, held := some .por, strap := 0, refclkSd := false, xtal := false,
    xtalSeen := false, xtalLost := false, faultHold := 1, devOk := false, smbAlert := false, outputs := false, released := 0, gridStarted := false,
    step := none, alertPin := false, alertExt := false, extBeyond := false, smbAddr := 0, smbReply := [], tapIr := 0 }

/-- The power manager before its first action. Log entry 10 (DESIGN CHOICE, unsafe). -/
def PowerState.reset : PowerState :=
  { grant := none, ttlMs := 0, grantAt := 0, grantSeq := none, expired := false, readings := [], wantMw := 0, floorMw := 0,
    waitFrac := 0, belowRuns := 0, coolRuns := [], remPj := [], avsFail := 0, alert := false, alertSince := 0,
    trips := [], lMw := 700000, hot := 0 }

/-- The Ethernet port and the CSP endpoint as they leave reset. Log entry 10 (DESIGN CHOICE, unsafe). -/
def EthState.reset : EthState :=
  { pausedTx := 0, pausedRx := 0, rxq := [], txq := [], sent := [], sas := [], txAn := none, pnAlarm := 0, qps := [], reasm := [],
    msgs := [], nonces := [], hjmDown := false, remoteTries := [] }

/-- A context that no image has loaded. -/
def CtxServe.reset : CtxServe :=
  { load := none, slot := 0, variant := 0, minVariant := 0, batch := [], loading := none, loads := [], results := [], rerun := false,
    votes := [], decision := none, awaitDecision := false, undelivered := [], groupLost := false, votedAt := 0, ranFrom := 0, ran := 0,
    swapped := 0, held := [], replayHold := [], tripped := false }

/-- The serving runtime before anything is served. Log entry 10 (DESIGN CHOICE, unsafe). -/
def ServeState.reset : ServeState :=
  { reqs := [], orders := 0, ctxs := [], bufSize := [], bufAt := [], prefixes := [], vt := [], charge := [], rem := [], busy := [], weights := [],
    lastRun := [], offQuads := [], grpSent := [], stackBytes := [] }

/-- A slot of the NV store that holds nothing. Log entry 12 (DESIGN CHOICE, unsafe). -/
def NvSlot.empty : NvSlot := { state := 0, version := 0, len := 0, hash := 0, ok := false, ctxs := [] }

/-- The deployment record of a part that has none. -/
def DeployRec.none : DeployRec :=
  { version := 0, locked := false, device := Option.none, mac := 0, ipv4 := 0, ipv6 := 0, linkLocal := 0, parts := [], admits := [],
    ctxs := [], power := Option.none, cmps := [], steps := Option.none, untagged := false, pfc := Option.none, csp := Option.none,
    routes := [], rspill := 0, results := [] }

/-- The physical Fields of quadrant `q` that leave manufacture as its spares (R498). Log entry 13 (DESIGN CHOICE, safe). -/
def factorySpares (q : Nat) : Nat × Nat :=
  let a := Config.spareField q % 18
  (18 * q + a, 18 * q + (a + 1 + Config.spareField (4 + q) % 17) % 18)

/-- The spare map as the maker sets it at test (R498): the lanes 0 to 3 of each direction of a Quipel port are active and lane 4 is its spare (R341). Log entry 12 (DESIGN CHOICE, unsafe). Log entry 13 (DESIGN CHOICE, safe). -/
def SpareMap.factory : SpareMap :=
  { fields := (List.range 64).map fun m =>
      let q := m / 16
      let x := factorySpares q
      (m, (((List.range 18).map (18 * q + ·)).filter fun p => p != x.1 && p != x.2).getD (m % 16) 0),
    lost := [], retired := [], cores := [(0, 0), (1, 1), (2, 2), (3, 3)], failed := [], dies := [], rows := [],
    regs := (List.range 4).flatMap fun n => (List.range 10).map fun i => (Reg.aQPL_LANE_STATE n i, BitVec.ofNat 32 (i % 5)), wear := [] }

/-- The NV store as the part leaves manufacture: golden sets, no claim, no deployment record (R485, R498). Log entry 12 (DESIGN CHOICE, unsafe). -/
def NvState.factory : NvState :=
  { gen := 0, slots := [(0, { NvSlot.empty with state := 3, ok := true }), (2, { NvSlot.empty with state := 2, ok := true }),
      (5, { NvSlot.empty with state := 2, ok := true })],
    active := 0, trial := false, trialFailed := [], gridForce := 0, minVer := [], record := DeployRec.none, recordHash := 0,
    next := none, onStart := [], map := SpareMap.factory, keys := [], claimed := false, nextHash := 0, boots := 0, audit := [], cps := [],
    auditNext := 0, mapGen := 0, spareSectors := 1024 }

/-- The control plane before its start. Log entry 10 (DESIGN CHOICE, unsafe). -/
def PlaneState.reset : PlaneState :=
  { staging := none, handover := none, activating := [], applying := none, goldenGrid := false, goldenFw := false,
    migrations := [], queued := [], mismatches := [], hjmStopped := false,
    scrubs := [], crcs := [], clean := [], badLegs := [], wearLog := [], routesAway := [], routesBack := [], colsWait := [], gangDue := [] }

/-- The state of the part. -/
structure State where
  pending : List Instr
  regs : List (Nat × Word)
  holds : List (Nat × Word)
  mem : Memory
  bad : List (Nat × Bool)
  fields : List (Nat × FieldState)
  stks : List (Nat × StackState)
  ports : List (Nat × PortState)
  ctxs : List (Nat × CtxState)
  tel : TelState
  xlt : XltState
  crossings : List (Nat × Crossing)
  routes : List NetRoute
  gangs : List (Nat × List Nat)
  trees : List TreeVal
  board : Board
  power : PowerState
  eth : EthState
  srv : ServeState
  nv : NvState
  plane : PlaneState
  fresh : Nat
  deriving DecidableEq, Repr

/-- Reasons a command stops the machine. -/
inductive Fault where
  /-- An access names a byte outside the address space the spec lays out. Safe: the machine stops. -/
  | noSuchAddress
  deriving DecidableEq, Repr

/-- Reasons a command is refused. -/
inductive Refusal where
  /-- The command has no meaning in this model yet. Safe: nothing can be proved of it. -/
  | notModelled (mnemonic : String)
  deriving DecidableEq, Repr

/-- The part before its first start-up. Log entry 6 (DESIGN CHOICE, unsafe). Log entry 8 (DESIGN CHOICE, safe). Log entry 11 (DESIGN CHOICE, unsafe). -/
def State.reset : State :=
  { pending := [], regs := [], holds := [], mem := [], bad := [], fields := [], stks := [], ports := [], ctxs := [],
    tel := { stages := [], held := [], slots := [], buffer := [], bufGaps := [], subscription := none,
             exportPos := 0, sent := [], out := [], epoch := 0 },
    xlt := { fqWait := [], inval := none, invalTags := [], invalHeld := [] }, crossings := [], routes := [], gangs := [], trees := [], board := Board.reset, power := PowerState.reset,
    eth := EthState.reset, srv := ServeState.reset, nv := NvState.factory, plane := PlaneState.reset, fresh := 0 }

end Sys2Proof.Machine
end

