-- ==== Sys2Proof/Machine/Ops.lean ====
section
/-!
DEFINITION. The named operations every command is built from: registers, memory, records of the telemetry path, faults
and what they do to the heat of their context.
-/

namespace Sys2Proof.Machine

/-! Registers (R11, R17, R18). -/

/-- The register word at a DCS address. -/
def State.rd (s : State) (a : Nat) : Word := Tab.get resetWord s.regs a

/-- The register word at a DCS address, as a number. -/
def State.rdN (s : State) (a : Nat) : Nat := (s.rd a).toNat

/-- Make the register at an address hold a word. -/
def State.setReg (s : State) (a : Nat) (w : Word) : State :=
  { s with regs := Tab.set resetWord s.regs a w }

/-- Read one field of a register. -/
def State.get (s : State) (f : RF) : Nat := bits (s.rdN f.addr) f.hi f.lo

/-- Is a one-bit field set? -/
def State.on (s : State) (f : RF) : Bool := s.get f != 0

/-- Hardware's own write of one field of a register. -/
def State.put (s : State) (f : RF) (v : Nat) : State :=
  s.setReg f.addr (BitVec.ofNat 32 (setBits (s.rdN f.addr) f.hi f.lo v))

/-- Write several fields, in order. -/
def State.puts (s : State) : List (RF × Nat) → State
  | [] => s
  | (f, v) :: fs => State.puts (s.put f v) fs

/-- A value held in a pair of registers, low word first (R17). -/
def State.pair (s : State) (lo : Nat) : Nat := s.rdN lo + 2 ^ 32 * s.rdN (lo + 4)

/-- Set a value held in a pair of registers. -/
def State.setPair (s : State) (lo v : Nat) : State :=
  (s.setReg lo (BitVec.ofNat 32 v)).setReg (lo + 4) (BitVec.ofNat 32 (v / 2 ^ 32))

/-! Sub-states. -/

/-- What physical Field `p` holds. -/
def State.field (s : State) (p : Nat) : FieldState := Tab.get (fun _ => FieldState.reset) s.fields p

/-- Replace what physical Field `p` holds. -/
def State.setField (s : State) (p : Nat) (f : FieldState) : State :=
  { s with fields := Tab.set (fun _ => FieldState.reset) s.fields p f }

/-- Change what physical Field `p` holds. -/
def State.modField (s : State) (p : Nat) (g : FieldState → FieldState) : State := s.setField p (g (s.field p))

/-- Change the Field-memory state of physical Field `p`. -/
def State.modFm (s : State) (p : Nat) (g : FmState → FmState) : State :=
  s.modField p fun f => { f with fm := g f.fm }

/-- What stack `k` holds. -/
def State.stk (s : State) (k : Nat) : StackState := Tab.get (fun _ => StackState.reset) s.stks k

/-- Change what stack `k` holds. -/
def State.modStk (s : State) (k : Nat) (g : StackState → StackState) : State :=
  { s with stks := Tab.set (fun _ => StackState.reset) s.stks k (g (s.stk k)) }

/-- What context `c` holds. -/
def State.ctx (s : State) (c : Nat) : CtxState := Tab.get (fun _ => CtxState.reset) s.ctxs c

/-- Change what context `c` holds. -/
def State.modCtx (s : State) (c : Nat) (g : CtxState → CtxState) : State :=
  { s with ctxs := Tab.set (fun _ => CtxState.reset) s.ctxs c (g (s.ctx c)) }

/-- Change the telemetry state. -/
def State.modTel (s : State) (g : TelState → TelState) : State := { s with tel := g s.tel }

/-- A fresh index for a free value. Log entry 14 (DESIGN CHOICE, safe). -/
def State.bumpFresh (s : State) : State := { s with fresh := s.fresh + 1 }

/-! Memory and its bad words (R243, R302). -/

/-- `n` bytes of memory. Log entry 6 (DESIGN CHOICE, unsafe). -/
def State.mread (s : State) (a n : Nat) : List Byte := s.mem.readBytes a n

/-- Is the protected word at an address uncorrectable? -/
def State.isBad (s : State) (w : Nat) : Bool := Tab.get (fun _ => false) s.bad w

/-- Mark a protected word uncorrectable, or good. Log entry 75 (DESIGN CHOICE, unsafe). -/
def State.markBad (s : State) (w : Nat) (b : Bool) : State := { s with bad := Tab.set (fun _ => false) s.bad w b }

/-- The first uncorrectable word `[a, a + n)` touches. Log entry 75 (DESIGN CHOICE, unsafe). -/
def State.badWord? (s : State) (a n : Nat) : Option Nat := (eccWords a n).find? s.isBad

/-- Does `[a, a + n)` cover the whole word at `w`? Log entry 75 (DESIGN CHOICE, unsafe). -/
def coversWord (a n w : Nat) : Bool := decide (a ≤ w ∧ w + eccSize w ≤ a + n)

/-- The first uncorrectable word that a write of `[a, a + n)` covers only in part, and so must read (R244, R303). Log entry 75 (DESIGN CHOICE, unsafe). -/
def State.badPartial? (s : State) (a n : Nat) : Option Nat :=
  (eccWords a n).find? fun w => s.isBad w && !coversWord a n w

/-- Words wholly covered by a write hold good data again (R244, R303). Log entry 75 (DESIGN CHOICE, unsafe). -/
def State.clearCovered (s : State) (a n : Nat) : State :=
  ((eccWords a n).filter fun w => s.isBad w && coversWord a n w).foldl (fun t w => t.markBad w false) s

/-- Write bytes to memory, replacing bad words that are wholly covered. -/
def State.mwrite (s : State) (a : Nat) (bs : List Byte) : State :=
  let t := s.clearCovered a bs.length
  { t with mem := t.mem.writeBytes a bs }

/-- Zero a range of memory and make its words good. -/
def State.mzero (s : State) (a n : Nat) : State :=
  { s with mem := s.mem.zeroRange a n, bad := s.bad.filter fun c => c.1 < a || a + n ≤ c.1 }

/-! Time (R533). -/

/-- The Bedrock stamp: seconds in bits 62 to 15 and sub-seconds in bits 14 to 0. Log entry 97 (DESIGN CHOICE, unsafe). Log entry 129 (DESIGN CHOICE, safe). -/
def State.stamp (s : State) : Nat := s.pair Reg.aBRK_TIME_LO

/-- Bedrock ticks in a number of milliseconds, rounded up: 32,768 ticks a second. Log entry 97 (DESIGN CHOICE, unsafe). -/
def ticksOfMs (ms : Nat) : Nat := (ms * 32768 + 999) / 1000

/-- Bedrock ticks of a time in microseconds, rounded up. -/
def ticksOfUs (us : Nat) : Nat := (us * 32768 + 999999) / 1000000

/-! Placement (R23, R24, R25). -/

/-- The quadrant of a physical Field (R23). -/
def quadOfField (p : Nat) : Nat := p / 18

/-- Is a Field about to be copied to a spare, with what its contexts hold in slots and working region going to their save areas (Table 21-3, Order 4)? -/
def State.movesAway (s : State) (p : Nat) : Bool := s.plane.migrations.any fun e => e.2.src == p && e.2.phase == 4

/-- The quadrant of a stack (R25). -/
def quadOfStack (k : Nat) : Nat := k / 8

/-- The physical Field of logical Field `m`, where one is in service (R539). -/
def State.physOf (s : State) (m : Nat) : Option Nat :=
  if s.on (Reg.DEV_FIELD_MAP_LOST m) then none else some (s.get (Reg.DEV_FIELD_MAP_PHYS m))

/-- The logical Field that physical Field `p` serves. -/
def State.lfieldOf (s : State) (p : Nat) : Option Nat :=
  (List.range 64).find? fun m => s.physOf m == some p

/-- The part-level context of resident slot `c` of Field `p`, where the slot is valid (R403). -/
def State.ctxOf (s : State) (p c : Nat) : Option Nat :=
  if s.on (Reg.FLD_CTX_MAP_VALID p c) then some (s.get (Reg.FLD_CTX_MAP_CTX_ID p c)) else none

/-- The resident slot of a context on Field `p`. -/
def State.slotOf (s : State) (p c : Nat) : Option Nat :=
  (List.range 4).find? fun k => s.ctxOf p k == some c

/-- The partition of a context (R402). -/
def State.partOf (s : State) (c : Nat) : Nat := s.get (Reg.SCH_CTX_STATE_PART c)

/-- The heat number of a context (R412). -/
def State.heatOf (s : State) (c : Nat) : Nat := s.pair (Reg.aSCH_CTX_HEAT_LO c)

/-- Is the context within a heat: RUNNING, SUSPENDED, COMMITTING or VOTED (Table 17-1)? -/
def State.inHeat (s : State) (c : Nat) : Bool :=
  let st := s.get (Reg.SCH_CTX_STATE_STATE c)
  decide (st = 2 ∨ st = 3 ∨ st = 4 ∨ st = 5)

/-- Change the board's side of the part. -/
def State.modBoard (s : State) (g : Board → Board) : State := { s with board := g s.board }

/-- Change the power manager. -/
def State.modPower (s : State) (g : PowerState → PowerState) : State := { s with power := g s.power }

/-- Is switched domain `n` on and ready (R429)? -/
def State.domReady (s : State) (n : Nat) : Bool := bit (s.rdN (Reg.aPWR_DOM_STATE (n / 32))) (n % 32)

/-- The Field group of a physical Field (Table 18-1). -/
def groupOfField (p : Nat) : Nat := 2 * (p / 18) + p % 18 / 9

/-- Can SerDes port `n` (0 to 3 Quipel, 4 Ethernet) train: its domain on and REFCLK_SD present (R342, R556)? -/
def State.serdesReady (s : State) (n : Nat) : Bool := s.domReady (40 + n) && s.board.refclkSd

/-- Do the handshakes of a Field's units run: its group is out of set-reset and no trip stops its pacer (R446, R466)? Log entry 110 (DESIGN CHOICE, unsafe). -/
def State.gridRuns (s : State) (p : Nat) : Bool :=
  bit s.board.released (groupOfField p) && !(s.field p).pacer.stopped

/-- Do the parts of a Field that work in set-reset run: its group is on and no trip stops its pacer (R446, R466)? -/
def State.fieldPowered (s : State) (p : Nat) : Bool := s.domReady (32 + groupOfField p) && !(s.field p).pacer.stopped

/-! Permits (R46, R442). -/

/-- Change the pacer of a Field. -/
def State.modPacer (s : State) (p : Nat) (g : Pacer → Pacer) : State := s.modField p fun f => { f with pacer := g f.pacer }

/-- A set rate in M steps/s. -/
def rateOf (code : Nat) : Nat := 500 + 10 * code

/-- The rate at which a Field's pacer issues permits, in M steps/s: none outside fixed-rate mode unless an alert clamps it. Log entry 46 (DEDUCED, unsafe). -/
def State.permitRate (s : State) (p : Nat) : Option Nat :=
  let clamp := (s.field p).pacer.clamp
  if s.on (Reg.FLD_PACER_STATUS_FIXED_ACTIVE p) then
    let r := rateOf (s.get (Reg.FLD_PACER_STATUS_RATE_CODE_ACTIVE p))
    some (if clamp = 0 then r else min clamp r)
  else if clamp = 0 then none else some clamp

/-- The units that begin steps: units 0 to 31 of the grid, the vector and the row engine, the arrays, their output chains and the load of their B
registers, the DMA engines, the relay entries and the stations of the heads' own Fields, the channel unit, the walker, the reconfiguration
port, the switch boxes, and the stages of a handshake. Log entry 136 (DEDUCED, unsafe). -/
def unitVe : Nat := 32
def unitRe : Nat := 33
def unitMa (a : Nat) : Nat := 34 + a
def unitDrain (a : Nat) : Nat := 36 + a
def unitLoad (a : Nat) : Nat := 38 + a
def unitDma (e : Nat) : Nat := 40 + e
def unitCh : Nat := 44
def unitWalk : Nat := 45
def unitReconf : Nat := 46
def unitRelay (k : Nat) : Nat := 1024 + k
def unitLink (k : Nat) : Nat := 2048 + k
def unitStage (k : Nat) : Nat := 4096 + k

/-- Has a unit a permit: the pacer issues none, or one has come since the unit's last step (R46)? -/
def State.permitted (s : State) (p u : Nat) : Bool :=
  (s.permitRate p).isNone || decide (Tab.get (fun _ => 0) (s.field p).pacer.taken u < (s.field p).pacer.issued)

/-- May a unit begin a step: the handshakes run, and where the pacer issues permits one has come since the unit's last step (R46)? Log entry
136 (DEDUCED, unsafe). -/
def State.mayStep (s : State) (p u : Nat) : Bool := s.gridRuns p && s.permitted p u

/-- A unit begins a step: it takes its permit, and those issued before it serve it no more (R46). -/
def State.stepTaken (s : State) (p u : Nat) : State :=
  if (s.permitRate p).isNone then s
  else s.modPacer p fun x => { x with taken := Tab.set (fun _ => 0) x.taken u x.issued }

/-- Is a context scheduled, not descheduled (R339, R405)? Log entry 51 (DESIGN CHOICE, unsafe). -/
def State.ctxActive (s : State) (c : Nat) : Bool := !(s.ctx c).desched

/-- The rank of physical Field `p` in the gang of a context, 0 outside a gang (R129). -/
def State.gangRank (s : State) (p c : Nat) : Nat :=
  match s.gangs.find? fun g => g.1 == c, s.lfieldOf p with
  | some (_, ms), some m => (ms.findIdx? (· == m)).getD 0
  | _, _ => 0

/-! What every command ends with (R530, R557). -/

/-- An empty alarm slot. -/
def AlarmSlot.free : AlarmSlot :=
  { code := 0, sev := 0, source := 0, ctx := none, merged := false, count := 0, latest := .none, latestStamp := 0, written := 0,
    writtenStamp := 0 }

/-- Is an alarm at or above ALERT_LEVEL held in a slot, with the output released (R530, R557)? Log entry 43 (DESIGN CHOICE, safe). -/
def State.alertDue (s : State) : Bool := s.board.outputs && s.tel.slots.any fun e => decide (e.2.sev ≤ s.get Reg.TEL_CTRL_ALERT_LEVEL)

/-- The word of TEL_ALARM_SUMMARY: slots in use, those at CRIT or MAJ, those at MIN or INFO, and whether SMB_ALERT_N is asserted. MERGED_SEEN
stays. Log entry 43 (DESIGN CHOICE, safe). -/
def State.summaryWord (s : State) : Nat :=
  let urgent := (s.tel.slots.filter fun e => decide (e.2.sev ≤ 1)).length
  s.tel.slots.length % 512 + 2 ^ 9 * min 255 urgent + 2 ^ 17 * min 255 (s.tel.slots.length - urgent) + 2 ^ 25 * b2n s.alertDue +
    2 ^ 26 * s.get Reg.TEL_ALARM_SUMMARY_MERGED_SEEN

/-- SMB_ALERT_N and TEL_ALARM_SUMMARY follow the alarm slots (R530). Log entry 43 (DESIGN CHOICE, safe). -/
def State.alerts (s : State) : State :=
  (s.setReg Reg.aTEL_ALARM_SUMMARY (BitVec.ofNat 32 s.summaryWord)).modBoard fun b => { b with smbAlert := s.alertDue }

/-- The answer of a command: its next state, with the pins that follow from the state. Log entry 3 (DESIGN CHOICE, safe). Log entry 43 (DESIGN CHOICE, safe). -/
def answer (s : State) : Host.Outcome State Fault Refusal := .next s.alerts

/-! Telemetry stages (R520 to R527). -/

/-- SOURCE of Table 22-2: class and index. Log entry 19 (DEDUCED, unsafe). -/
def srcOf (cls idx : Nat) : Nat := cls + 16 * idx

/-- The urgency of a record in the drop order of R526: TRACE 0, LOG INFO 1, LOG NOTE 2, LOG WARN and GAP 3, ALARM 4. -/
def TelRec.rank (r : TelRec) : Nat :=
  match r.cls with
  | 1 => 4
  | 2 => 3 - r.level
  | 4 => 3
  | _ => 0

/-- Is the record a fault record or an alarm, which uses the reserve (R525)? -/
def TelRec.reserved (r : TelRec) : Bool :=
  r.cls == 1 || (match r.body with | .fault _ => true | _ => false)

/-- KIND of Table 22-4. -/
def TelBody.kind : TelBody → Nat
  | .none => 0 | .fault _ => 1 | .power _ => 2 | .counter .. => 3 | .mark .. => 4 | .heat .. => 5 | .gap .. => 6

/-- Identical logs: same KIND, code, SOURCE, context and LEVEL (R526). -/
def TelRec.sameLog (a b : TelRec) : Bool :=
  a.cls == 2 && b.cls == 2 && a.body.kind == b.body.kind && a.code == b.code && a.source == b.source &&
    a.ctx == b.ctx && a.level == b.level

/-- Key of a stage: a source queue by its SOURCE, or the collector of quadrant `q`. -/
def collectorKey (q : Nat) : Nat := 65536 + q

/-- Entries of a stage and its reserve (Table 22-5). -/
def stageCap (k : Nat) : Nat × Nat := if k < 65536 then (64, 8) else (4096, 256)

/-- A stage of the telemetry path. -/
def State.stage (s : State) (k : Nat) : TelStage := Tab.get (fun _ => ⟨[], []⟩) s.tel.stages k

/-- Replace a stage. -/
def State.setStage (s : State) (k : Nat) (g : TelStage) : State :=
  s.modTel fun t => { t with stages := Tab.set (fun _ => ⟨[], []⟩) t.stages k g }

/-- Count one drop of a level at a stage (R527). -/
def gapAdd (gs : List GapCount) (level now n : Nat) : List GapCount :=
  if gs.any (·.level == level) then
    gs.map fun g => if g.level == level then { g with count := g.count + n, last := now } else g
  else gs ++ [{ level := level, count := n, first := now, last := now }]

/-- Hardware's count of an event in a 48-bit counter: held at its largest value with OVF set (R535). The flag tells
whether the count has just saturated. -/
def State.bump48 (s : State) (lo n : Nat) : State × Bool :=
  let hi : RF := ⟨lo + 4, 15, 0⟩
  let ovf : RF := ⟨lo + 4, 31, 31⟩
  let v := s.rdN lo + 2 ^ 32 * s.get hi
  let sat := 2 ^ 48 - 1
  if s.on ovf then (s, false)
  else if v + n < sat then (((s.setReg lo (BitVec.ofNat 32 (v + n))).put hi ((v + n) / 2 ^ 32)), false)
  else ((((s.setReg lo (BitVec.ofNat 32 sat)).put hi (sat / 2 ^ 32)).put ovf 1), true)

/-- The drop order of R526 over a full stage: the least urgent level below or at the rank of `x` that the stage holds. -/
def dropLevel (recs : List TelRec) (x : TelRec) : Option Nat :=
  (List.range 4).find? fun l => decide (l ≤ x.rank) && recs.any fun r => !r.reserved && r.rank == l

/-- A record reaches a stage (R525, R526): it takes a reserve entry, coalesces with an identical waiting log, takes a free
entry, or displaces the oldest record of the least urgent level, or is dropped. Drops are counted (R527). -/
def State.telPush (s : State) (k : Nat) (x : TelRec) : State :=
  let g := s.stage k
  let (cap, res) := stageCap k
  let inRes := (g.recs.filter TelRec.reserved).length
  let plain := g.recs.length - inRes
  if x.reserved then
    if inRes < res then s.setStage k { g with recs := g.recs ++ [x] }
    else s.modTel fun t => { t with held := t.held ++ [(k, x)] }
  else if g.recs.any (·.sameLog x) then
    s.setStage k { g with recs := g.recs.map fun r => if r.sameLog x then { r with count := satAdd 32 r.count x.count } else r }
  else if plain < cap - res then s.setStage k { g with recs := g.recs ++ [x] }
  else
    let now := s.stamp
    match dropLevel g.recs x with
    | some l =>
      ((s.setStage k { recs := dropFirst (fun r => !r.reserved && r.rank == l) g.recs ++ [x],
                       gaps := gapAdd g.gaps l now 1 }).bump48 (Reg.aTEL_DROP_LO l) 1).1
    | none =>
      ((s.setStage k { g with gaps := gapAdd g.gaps x.rank now 1 }).bump48 (Reg.aTEL_DROP_LO x.rank) 1).1

/-- The stage a record of a source enters first: its source queue, or its quadrant's collector where the source has none
(Table 22-5 gives queues to logical Fields, stacks, ports and scrub engines). -/
def stageOfSource (src : Nat) : Nat :=
  match src % 16 with
  | 1 | 2 | 3 | 4 | 8 => src % 2048
  | 9 => collectorKey (src / 32 % 4)
  | 5 => collectorKey (src / 16 % 4)
  | _ => collectorKey 0

/-- The quadrant whose collector takes a source's records. -/
def quadOfSource (src : Nat) : Nat :=
  let i := src / 16 % 128
  match src % 16 with
  | 1 => i / 16 % 4
  | 2 => i / 8 % 4
  | 3 => i % 4
  | 4 => 1
  | 8 => i / 2 % 4
  | _ => 0

/-- A log without a fault (R520), made only when its level is at or above LOG_MIN (R521). -/
def State.logRec (s : State) (level src : Nat) (ctx : Option Nat) (body : TelBody) : State :=
  if level ≠ 0 ∧ s.get Reg.TEL_CTRL_LOG_MIN < level then s
  else s.telPush (stageOfSource src)
    { cls := 2, level := level, source := src, stamp := s.stamp, code := 0, ctx := ctx,
      part := ctx.map s.partOf, count := 1, body := body }

/-- The COUNTER log of a counter that has just saturated (R212, R535), by the block that holds it. -/
def sourceOfCounter (s : State) (a : Nat) : Nat :=
  match decodeAddr a with
  | some (.fld, p, _) => match s.lfieldOf p with | some m => srcOf 1 m | none => 0
  | some (.stk, k, _) => srcOf 2 k
  | some (.qpl, n, _) => srcOf 3 n
  | some (.eth, _, _) => srcOf 4 0
  | _ => 0

/-- Count events in a 48-bit counter and make its COUNTER log when it saturates (R535). -/
def State.count48 (s : State) (lo n : Nat) : State :=
  match s.bump48 lo n with
  | (t, true) => t.logRec 1 (sourceOfCounter s lo) none (.counter lo 48 (2 ^ 48 - 1))
  | (t, false) => t

/-- A trace record (R520). -/
def State.traceRec (s : State) (src : Nat) (ctx : Option Nat) (body : TelBody) : State :=
  s.telPush (stageOfSource src)
    { cls := 3, level := 0, source := src, stamp := s.stamp, code := 0, ctx := ctx, part := ctx.map s.partOf,
      count := 1, body := body }

/-- An alarm that firmware raises from an event rather than from a fault record (R520). -/
def State.alarm (s : State) (sev code src : Nat) (ctx : Option Nat) : State :=
  s.telPush (collectorKey (quadOfSource src))
    { cls := 1, level := sev, source := src, stamp := s.stamp, code := code, ctx := ctx, part := ctx.map s.partOf,
      count := 1, body := .none }

/-! Faults (R521, R523, R569, R570). -/

/-- How a fault of a heat is handled (R570): recorded only, suspended until firmware answers, replayed, run again on a
larger plan variant, or rejected without replay. -/
inductive FaultClass where
  | recorded | suspended | replayed | redispatched | rejected
  deriving DecidableEq, Repr

/-- The rank in which faults of one heat combine (R570). Log entry 19 (DEDUCED, unsafe). -/
def FaultClass.rank : FaultClass → Nat
  | .recorded => 0 | .suspended => 0 | .replayed => 1 | .redispatched => 2 | .rejected => 3

/-- Handling of Table 22-3. -/
def FaultClass.handling : FaultClass → Nat
  | .recorded => 0 | .suspended => 3 | .replayed => 1 | .redispatched => 5 | .rejected => 2

/-- Faults whose chapters lead to replay. -/
def replayCodes : List Nat :=
  [Flt.SPILL_MISMATCH, Flt.ARRAY_RESIDUE, Flt.HALO_MISMATCH, Flt.PAIR_PARTNER, Flt.ACC_UNCORR, Flt.ENG_UNCORR, Flt.SILT_EXHAUSTED, Flt.STALL_EXTERNAL,
   Flt.HEAT_TIMEOUT, Flt.BATON_KIND, Flt.CNT_LIMIT, Flt.AG_RANGE, Flt.LEG_INVALID, Flt.FM_UNCORR, Flt.STK_UNCORR, Flt.XLT_UNCORR, Flt.REMOTE_NOT_PRESENT, Flt.QPL_LINK_DOWN,
   Flt.QPL_TIMEOUT, Flt.QPL_REMOTE_UNCORR, Flt.QPL_RSPILL, Flt.LEG_UPSET, Flt.THERM_TRIP, Flt.PWR_RAIL, Flt.PWR_EXT]

/-- Faults that are recorded and leave every heat alone. -/
def recordedCodes : List Nat :=
  [Flt.CTX_INVALID, Flt.REPLAY_LIMIT, Flt.SEAM_DOWN, Flt.GROUP_LOST, Flt.ETH_FALLBACK, Flt.ETH_LINK_DOWN,
   Flt.CSP_MALFORMED, Flt.CSP_AUTH, Flt.ROCE_ACCESS, Flt.MACSEC_PN, Flt.CFG_CRC, Flt.CFG_SIG, Flt.CFG_VERSION,
   Flt.CFG_STEP, Flt.CFG_GOLDEN, Flt.CFG_IMAGE, Flt.CFG_FW_TRIAL, Flt.CFG_FLASH, Flt.SEC_ENROL, Flt.SEC_AUDIT,
   Flt.CTL_FAIL, Flt.SPARE_NONE, Flt.FIELD_LOST, Flt.SCRUB_RELOAD, Flt.HJM_LOCKSTEP, Flt.PWR_RATE_HELD, Flt.PWR_ALERT,
   Flt.THERM_THROTTLE, Flt.PWR_BROWNOUT, Flt.PWR_GRANT_EXPIRED, Flt.PWR_DOMAIN, Flt.BRK_XTAL]

/-- The class of a fault code. Log entry 19 (DEDUCED, unsafe). -/
def faultClass (code : Nat) : FaultClass :=
  if code = Flt.XLT_NOT_PRESENT then .suspended
  else if code = Flt.SHAPE_PLAN then .redispatched
  else if replayCodes.contains code then .replayed
  else if recordedCodes.contains code then .recorded
  else .rejected

/-- The class of a fault of an agent: decreasing row pointers lead to replay in a generator (R209) and to a rejection in the
walker (R232). -/
def faultClassAt (agent code : Nat) : FaultClass := if code = Flt.CSR_ORDER ∧ agent ≠ 6 then .replayed else faultClass code

/-- The severity a chapter states for a fault: 0 CRIT, 1 MAJ, 2 MIN, 3 INFO; none makes a WARN log (R521). -/
def faultSev (code : Nat) : Option Nat :=
  if [Flt.REPLAY_LIMIT, Flt.GROUP_LOST, Flt.THERM_TRIP, Flt.PWR_BROWNOUT, Flt.CFG_STEP, Flt.CFG_GOLDEN, Flt.SEC_AUDIT,
      Flt.PWR_RAIL, Flt.ETH_LINK_DOWN, Flt.FIELD_LOST].contains code then some 0
  else if [Flt.PIN_OPEN, Flt.GRID_RESIDUE, Flt.SILT_EXHAUSTED, Flt.STALL_EXTERNAL, Flt.XLT_MALFORMED, Flt.QPL_REDUCE,
      Flt.QPL_RSPILL, Flt.CTX_INVALID, Flt.PWR_RATE_HELD, Flt.PWR_DOMAIN, Flt.PWR_EXT, Flt.CFG_SIG, Flt.CFG_VERSION,
      Flt.CFG_FW_TRIAL, Flt.CTL_FAIL, Flt.HJM_LOCKSTEP, Flt.BRK_XTAL, Flt.CFG_CRC, Flt.CFG_IMAGE, Flt.ETH_FALLBACK, Flt.SPARE_NONE, Flt.SEAM_DOWN].contains code then some 1
  else if [Flt.PWR_ALERT, Flt.THERM_THROTTLE, Flt.PWR_GRANT_EXPIRED, Flt.CFG_FLASH, Flt.SEC_ENROL, Flt.CSP_AUTH, Flt.ROCE_ACCESS].contains code then some 2
  else if code = Flt.CSP_MALFORMED then some 3
  else none

/-- SOURCE of a fault record's telemetry record, from its agent (Tables 22-2 and 22-3). Log entry 19 (DEDUCED, unsafe). -/
def sourceOfAgent (agent index : Nat) (lfield : Option Nat) : Nat :=
  if agent ≤ 10 then (match lfield with | some m => srcOf 1 m | none => 0)
  else match agent with
    | 11 => srcOf 2 index
    | 12 => srcOf 3 index
    | 13 => srcOf 4 0
    | 14 => srcOf 5 index
    | _ => srcOf 7 0

/-- An error of a heat before its commit point (R418, R569, R570): the heat can no longer commit, and the error takes its rank
among the heat's faults. A context outside a heat, past its commit or being abandoned is left alone. Log entry 19 (DEDUCED, unsafe). -/
def State.uncommitAs (s : State) (c rank code : Nat) : State :=
  if s.inHeat c then
    let t := s.put (Reg.SCH_CTX_STATE_UNCOMMITTABLE c) 1
    t.modCtx c fun x => if x.pendRank < rank then { x with pendRank := rank, pendCode := code } else x
  else s

/-- The effect of a fault on the heat of its context (R570). -/
def State.uncommit (s : State) (c code : Nat) : State :=
  if (faultClass code).rank = 0 then s else s.uncommitAs c (faultClass code).rank code

/-- The effect of an agent's fault on the heat of its context. -/
def State.uncommitAt (s : State) (c agent code : Nat) : State :=
  if (faultClassAt agent code).rank = 0 then s else s.uncommitAs c (faultClassAt agent code).rank code

/-- Record a fault with a given severity and SOURCE (R521, R523). -/
def State.faultFrom (s : State) (src : Nat) (sev : Option Nat) (code agent index : Nat) (lfield ctx : Option Nat) (detail : Nat) : State :=
  let rec' : FaultRec :=
    { code := code, agent := agent, index := index, lfield := lfield, ctx := ctx,
      handling := (faultClassAt agent code).handling, replay := (ctx.map fun c => s.get (Reg.SCH_CTX_STATE_REPLAY c)).getD 0,
      detail := detail, heat := (ctx.map s.heatOf).getD 0, stamp := s.stamp }
  s.telPush (stageOfSource src)
    { cls := if sev.isSome then 1 else 2, level := sev.getD (if code = Flt.SCRUB_RELOAD then 2 else 0), source := src, stamp := s.stamp, code := code, ctx := ctx,
      part := ctx.map s.partOf, count := 1, body := .fault rec' }

/-- Record a fault whose SOURCE follows from its agent. Log entry 19 (DEDUCED, unsafe). -/
def State.faultWith (s : State) (sev : Option Nat) (code agent index : Nat) (lfield ctx : Option Nat) (detail : Nat) : State :=
  s.faultFrom (sourceOfAgent agent index lfield) sev code agent index lfield ctx detail

/-- A day in Bedrock periods (R499). -/
def ticks24h : Nat := 86400 * 32768

/-- The resources of Table 21-2 as keys: a kind and a number. -/
def wearKey (kind n : Nat) : Nat := kind * 2 ^ 48 + n

/-- Kinds: physical column of an array, Field-memory bank, MU storage, array, corrected errors of a Field, leg upsets of a Field, corrected
symbols of a stack row, uncorrectable transfers of a stack row, corrected symbols of a logical die. -/
def wearColumn (p a col : Nat) : Nat := wearKey 1 ((2 * p + a) * 256 + col)
def wearBank (p b : Nat) : Nat := wearKey 2 (64 * p + b)
def wearMu (p m : Nat) : Nat := wearKey 3 (16 * p + m)
def wearArray (p a : Nat) : Nat := wearKey 4 (2 * p + a)
def wearField (p : Nat) : Nat := wearKey 5 p
def wearLegs (p : Nat) : Nat := wearKey 6 p
def wearRow (k row : Nat) : Nat := wearKey 7 (k * 2 ^ 25 + row)
def wearRowBad (k row : Nat) : Nat := wearKey 8 (k * 2 ^ 25 + row)
def wearDie (k d : Nat) : Nat := wearKey 9 (16 * k + d)

/-- Firmware counts an event of a resource over a sliding window of 24 h (R499). Log entry 124 (DESIGN CHOICE, unsafe). -/
def State.wearNote (s : State) (key : Nat) : State :=
  let old := (Tab.get (fun _ => []) s.plane.wearLog key).filter fun t => decide (s.stamp < t + ticks24h)
  { s with plane := { s.plane with wearLog := Tab.set (fun _ => []) s.plane.wearLog key (s.stamp :: old) } }

/-- The wear events that faults of arrays are (Table 21-2). -/
def State.wearOfFault (s : State) (p agent code detail : Nat) : State :=
  if code = Flt.ARRAY_RESIDUE then s.wearNote (wearColumn p agent detail)
  else if code = Flt.ACC_UNCORR then s.wearNote (wearArray p agent)
  else s

/-- Record a fault of an agent of physical Field `p`, and make the heat of its context uncommittable (R521, R523, R569). -/
def State.fieldFault (s : State) (p agent index : Nat) (ctx : Option Nat) (code detail : Nat) : State :=
  let t := (s.faultWith (faultSev code) code agent index (s.lfieldOf p) ctx detail).wearOfFault p agent code detail
  match ctx with
  | some c => t.uncommitAt c agent code
  | none => t

/-- Record a fault of a part-level unit. -/
def State.partFault (s : State) (agent index : Nat) (code detail : Nat) : State :=
  s.faultWith (faultSev code) code agent index none none detail

/-- Record a fault of a part-level unit that bears on one context's heat. -/
def State.ctxFault (s : State) (agent index c code detail : Nat) : State :=
  (s.faultWith (faultSev code) code agent index none (some c) detail).uncommit c code

end Sys2Proof.Machine
end

