-- ==== Sys2Proof/Machine/Routes.lean ====
section
/-!
DEFINITION. The Field network (R23, R25 to R27, R55, R57, R518): where the units of the part join it, the routes over its links and
seams, and the routes that are open.
-/

namespace Sys2Proof.Machine

/-! Places. -/

/-- Physical Field Fn: column i mod 3 and row i div 3 of its quadrant (R23). -/
def nodeOfField (p : Nat) : NetNode := { quad := quadOfField p, col := p % 18 % 3, row := p % 18 / 3 }

/-- The port of a stack: the west or east edge, at rows 0, 2, 3 and 5 (R25). -/
def nodeOfStack (k : Nat) : NetNode :=
  { quad := quadOfStack k, col := if k % 8 < 4 then 0 else 2,
    row := match k % 4 with | 0 => 0 | 1 => 2 | 2 => 3 | _ => 5 }

/-- Quipel port QPn at the corner of its quadrant nearest the centre; 4 is the Ethernet port, at the corner of Q1 (R57). -/
def nodeOfPort (n : Nat) : NetNode :=
  match n with
  | 0 => { quad := 0, col := 2, row := 5 }
  | 2 => { quad := 2, col := 2, row := 0 }
  | 3 => { quad := 3, col := 0, row := 0 }
  | _ => { quad := 1, col := 0, row := 5 }

/-! Seams (R26, R27). -/

/-- Where a quadrant stands in the ring of seams Q0, Q1, Q3, Q2. -/
def ringPos : Nat → Nat | 0 => 0 | 1 => 1 | 3 => 2 | _ => 3

/-- Seam directions of a route one way and the other round the ring: direction 2s runs from the first-named quadrant of seam s on. -/
def seamsOnward (a b : Nat) : List Nat := (List.range ((ringPos b + 4 - ringPos a) % 4)).map fun i => 2 * ((ringPos a + i) % 4)
def seamsBack (a b : Nat) : List Nat := (List.range ((ringPos a + 4 - ringPos b) % 4)).map fun i => 2 * ((ringPos a + 3 - i) % 4) + 1

/-- The route of R27: the nearer way, and between diagonal quadrants the horizontal seam first. -/
def seamsDirect (a b : Nat) : List Nat :=
  let d := (ringPos b + 4 - ringPos a) % 4
  if d = 0 then [] else if d = 1 then seamsOnward a b else if d = 3 then seamsBack a b
  else if a = 0 ∨ a = 3 then seamsOnward a b else seamsBack a b

/-- A route: the direct one, or the other way round the ring where that meets a failed direction (R518). -/
def seamRoute (away : List Nat) (a b : Nat) : List Nat :=
  let d := seamsDirect a b
  if d.any away.contains then (if d = seamsOnward a b then seamsBack a b else seamsOnward a b) else d

/-- The place on the far side of a seam direction crossed from a place at the border. Seams 0 and 2 are horizontal. -/
def seamLands (d : Nat) (a : NetNode) : NetNode :=
  match d with
  | 0 => { a with quad := 1, col := 0 }
  | 1 => { a with quad := 0, col := 2 }
  | 2 => { a with quad := 3, row := 0 }
  | 3 => { a with quad := 1, row := 5 }
  | 4 => { a with quad := 2, col := 2 }
  | 5 => { a with quad := 3, col := 0 }
  | 6 => { a with quad := 0, row := 5 }
  | _ => { a with quad := 2, row := 0 }

/-- The column at which a horizontal seam direction is entered, or the row at which a vertical one is. -/
def seamBorder : Nat → Nat | 0 => 2 | 1 => 0 | 2 => 5 | 3 => 0 | 4 => 0 | 5 => 2 | 6 => 0 | _ => 5

/-! Links (R55). -/

/-- The values a coordinate takes on its way from `a` to `b`, without `a`. -/
def stepsTo (a b : Nat) : List Nat :=
  if a ≤ b then (List.range (b - a)).map (a + 1 + ·) else (List.range (a - b)).map (a - 1 - ·)

/-- A place and the links that led to it. -/
def alongRow (a : NetNode) (col : Nat) : NetNode × List Hop :=
  (stepsTo a.col col).foldl (fun x c => ({ x.1 with col := c }, x.2 ++ [.link x.1 { x.1 with col := c }])) (a, [])
def alongCol (a : NetNode) (row : Nat) : NetNode × List Hop :=
  (stepsTo a.row row).foldl (fun x r => ({ x.1 with row := r }, x.2 ++ [.link x.1 { x.1 with row := r }])) (a, [])

/-- The hops of a route over given seam directions: in each quadrant along the row first and then along the column (R55). Towards a horizontal
seam it keeps its row, towards a vertical one it takes the target's column first, as in the worked example of R56. Log entry 137 (DEDUCED, unsafe). -/
def hopsVia (b : NetNode) : List Nat → NetNode → List Hop
  | [], a =>
    let x := alongRow a b.col
    x.2 ++ (alongCol x.1 b.row).2
  | d :: ds, a =>
    if d / 2 % 2 = 0 then
      let x := alongRow a (seamBorder d)
      x.2 ++ .seam d :: hopsVia b ds (seamLands d x.1)
    else
      let x := alongRow a b.col
      let y := alongCol x.1 (seamBorder d)
      x.2 ++ y.2 ++ .seam d :: hopsVia b ds (seamLands d y.1)

/-- The hops from one place to another, away from failed seam directions (R27, R55, R518). -/
def routeHops (away : List Nat) (a b : NetNode) : List Hop := hopsVia b (seamRoute away a.quad b.quad) a

/-- The seam directions of a route. -/
def seamsOf (hs : List Hop) : List Nat := hs.filterMap fun h => match h with | .seam d => some d | .link .. => none

/-! Traffic. -/

/-- Do seam directions carry traffic: their domain on, their PLL locked and their link up (R54, R518)? -/
def State.seamsOpen (s : State) (ds : List Nat) : Bool :=
  ds.all fun d => s.on (Reg.SEAM_DIR_STATUS_DOMAIN_ON d) && s.on (Reg.SEAM_DIR_STATUS_LINK_UP d)

/-- Does traffic of a context pass from quadrant `a` to quadrant `b` and back (R54)? Log entry 137 (DEDUCED, unsafe). -/
def State.wayOpen (s : State) (c a b : Nat) : Bool :=
  s.seamsOpen (seamRoute (s.ctx c).away a b) && s.seamsOpen (seamRoute (s.ctx c).away b a)

/-- Does traffic that serves no context of this part, such as that of another part, pass from quadrant `a` to `b` and back? -/
def State.portWayOpen (s : State) (a b : Nat) : Bool :=
  s.seamsOpen (seamRoute s.plane.routesAway a b) && s.seamsOpen (seamRoute s.plane.routesAway b a)

/-! Open routes (R27, R55). -/

/-- Open a route of a context; it stays as it is fixed here. -/
def State.routeOpen (s : State) (u : RouteUser) (c : Nat) (a b : NetNode) : State :=
  { s with routes := s.routes.filter (fun r => !(r.user == u && r.src == a && r.dst == b)) ++
      [{ user := u, ctx := c, src := a, dst := b, hops := routeHops (s.ctx c).away a b }] }

/-- Close the routes of a user. -/
def State.routeClose (s : State) (u : RouteUser) : State := { s with routes := s.routes.filter (·.user != u) }

/-- Close the routes that a test selects. -/
def State.routesDrop (s : State) (f : NetRoute → Bool) : State := { s with routes := s.routes.filter fun r => !f r }

/-- The routes that are open, as contexts and seam directions. -/
def State.openRoutes (s : State) : List (Nat × List Nat) := s.routes.map fun r => (r.ctx, seamsOf r.hops)

/-- May a user's traffic leave: every seam direction of its routes carries traffic (R54)? -/
def State.routeUp (s : State) (u : RouteUser) : Bool := (s.routes.filter (·.user == u)).all fun r => s.seamsOpen (seamsOf r.hops)

/-- May a user's traffic leave from one place to another (R54)? -/
def State.legUp (s : State) (u : RouteUser) (a b : NetNode) : Bool :=
  (s.routes.filter fun r => r.user == u && r.src == a && r.dst == b).all fun r => s.seamsOpen (seamsOf r.hops)

/-- Open a route that its user has not opened yet. -/
def State.routeNeed (s : State) (u : RouteUser) (c : Nat) (a b : NetNode) : State :=
  if s.routes.any fun r => r.user == u && r.src == a && r.dst == b then s else s.routeOpen u c a b

/-- Where traffic to or from another part joins the network: the port that leads to it (R57). -/
def State.nodeOfDev (s : State) (dev : Nat) : NetNode := nodeOfPort (s.get (Reg.QPL_ROUTE_PORT 0 dev))

/-- At a heat boundary of a context firmware opens its routes again, the other way round where a direction has failed, and restores those of
R27 where it carries traffic again (R518). Log entry 126 (DESIGN CHOICE, unsafe). -/
def State.routesAgain (s : State) (c : Nat) : State :=
  let away := s.plane.routesAway.filter fun d => !s.plane.routesBack.contains d
  let t := s.modCtx c fun x => { x with away := away }
  { t with routes := t.routes.map fun r => if r.ctx = c then { r with hops := routeHops away r.src r.dst } else r }

end Sys2Proof.Machine
end

