-- ==== Sys2Proof/Machine/Access.lean ====
section
/-!
DEFINITION. How an agent reaches memory: Field-memory windows (R237), bank and stack power states (R249, R317, R318),
translation of context virtual addresses (R320 to R331), bandwidth buckets (R338, R409, R410) and the Field-memory cache
(R239, R240). An access answers a new state and its bytes, or the reason it does not take place.
-/

namespace Sys2Proof.Machine

/-- Why an access does not take place now. -/
inductive AccErr where
  /-- Outside the windows of the slot (R237). -/
  | protect (off : Nat)
  /-- An uncorrectable word of Field memory or MU storage (R244). -/
  | fmUncorr (addr : Nat)
  /-- A bad dirty line of the cache of Field `p` (R245). -/
  | lineUncorr (p slot rga : Nat)
  /-- An uncorrectable transfer of a stack (R304). -/
  | stkUncorr (addr : Nat)
  /-- An uncorrectable transfer in a table read of a walk (R331). -/
  | tableUncorr (addr va : Nat) (write : Bool)
  /-- A translation fault (Table 14-6). -/
  | xlt (code va rga : Nat) (write : Bool)
  /-- The bank is not ACTIVE: the access is held (R249). -/
  | bankAsleep (p bank : Nat) (write : Bool)
  /-- The stack cannot serve: the access is held (R317, R318). -/
  | stackAsleep (k : Nat)
  /-- The bucket does not hold the charge (R410). -/
  | bucketEmpty
  /-- A seam on the way is shut, or the row is under remap: the access waits (R54, R308). -/
  | blocked
  /-- A scatter-add or atomic whose target is not stack memory (R314). -/
  | saTarget (va : Nat)
  /-- The page is of another part. -/
  | remote (rga len va : Nat) (write : Bool)
  deriving DecidableEq, Repr

/-- Is an access only held, so that it takes place later (R54, R249, R308, R317, R410)? -/
def AccErr.waits : AccErr → Bool
  | .bankAsleep .. => true
  | .stackAsleep _ => true
  | .bucketEmpty => true
  | .blocked => true
  | _ => false

/-- An answer of an access. -/
abbrev Acc (α : Type) := Except AccErr α

/-! Field memory. -/

/-- The bank of a Field-memory offset (Table 10-1). -/
def bankOf (off : Nat) : Nat := 8 * bits off 23 21 + bits off 10 8

/-- Does a bank hold one of the granules `lo` to `hi` of Field memory: 8,192 a slice, in its eight banks in turn (R234)? -/
def bankHolds (lo hi b : Nat) : Bool :=
  let a := max lo (b / 8 * 8192)
  let z := min hi (b / 8 * 8192 + 8191)
  decide (a ≤ z ∧ (b % 8 + 8 - a % 8) % 8 ≤ z - a)

/-- The banks that `[off, off + n)` touches: a granule's own, or all those that hold one of its granules. -/
def banksOf (off n : Nat) : List Nat :=
  if n = 0 then []
  else
    let lo := off / 256
    let hi := (off + n - 1) / 256
    if hi < lo + 8 then (List.range (hi - lo + 1)).map fun i => bankOf (256 * (lo + i)) else (List.range 64).filter (bankHolds lo hi)

/-- State code of a bank: 0 ACTIVE, 1 WAKING, 2 RETENTION, 3 OFF (Table 10-3). -/
def State.bankState (s : State) (p b : Nat) : Nat := s.get (Reg.FLD_FM_BANK_STATE_STATE p (b / 16) (b % 16))

/-- Set a bank's state code. -/
def State.setBank (s : State) (p b v : Nat) : State := s.put (Reg.FLD_FM_BANK_STATE_STATE p (b / 16) (b % 16)) v

/-- The first bank of a range that is not ACTIVE. -/
def State.sleepingBank? (s : State) (p off n : Nat) : Option Nat :=
  (banksOf off n).find? fun b => s.bankState p b != 0

/-- Does one of the two windows of a resident slot hold a 64 KiB unit (R237)? -/
def State.inWindow (s : State) (p c unit : Nat) : Bool :=
  [2 * c, 2 * c + 1].any fun w =>
    let b := s.get (Reg.FLD_FM_WIN_BASE p w)
    decide (b ≤ unit ∧ unit < b + s.get (Reg.FLD_FM_WIN_COUNT p w))

/-- Does `[off, off + n)` lie within the windows of a resident slot (R237)? -/
def State.windowOk (s : State) (p c off n : Nat) : Bool :=
  decide (off + n ≤ 2 ^ 24) &&
    (n == 0 || (List.range ((off + n - 1) / 65536 - off / 65536 + 1)).all fun i => s.inWindow p c (off / 65536 + i))

/-- The check of windows; `none` is an access made on firmware's behalf, which the windows do not bound (R237). -/
def State.windowCheck (s : State) (p : Nat) (c : Option Nat) (off n : Nat) : Acc Unit :=
  match c with
  | some c => if s.windowOk p c off n then .ok () else .error (.protect off)
  | none => if off + n ≤ 2 ^ 24 then .ok () else .error (.protect off)

/-- A request that arrives while a bank's gate fence is open cancels the gate (R248). -/
def State.cancelFence (s : State) (p b : Nat) : State :=
  s.modFm p fun f => { f with fences := f.fences.filter (·.1 != b) }

/-- A request reaches every bank of a range (R248). -/
def State.touchBanks (s : State) (p off n : Nat) : State :=
  if (s.field p).fm.fences.isEmpty then s else (banksOf off n).foldl (fun t b => t.cancelFence p b) s

/-- Read Field memory (R235, R237, R244, R248, R249). -/
def State.fmRead (s : State) (p : Nat) (c : Option Nat) (off n : Nat) : Acc (State × List Byte) := do
  s.windowCheck p c off n
  match s.sleepingBank? p off n with
  | some b => .error (.bankAsleep p b false)
  | none =>
    match s.badWord? (fmLoc p off) n with
    | some w => .error (.fmUncorr w)
    | none => .ok (s.touchBanks p off n, s.mread (fmLoc p off) n)

/-- Write Field memory (R235, R237, R243, R244, R248, R249). -/
def State.fmWrite (s : State) (p : Nat) (c : Option Nat) (off : Nat) (bs : List Byte) : Acc State := do
  s.windowCheck p c off bs.length
  match s.sleepingBank? p off bs.length with
  | some b => .error (.bankAsleep p b true)
  | none =>
    match s.badPartial? (fmLoc p off) bs.length with
    | some w => .error (.fmUncorr w)
    | none => .ok ((s.touchBanks p off bs.length).mwrite (fmLoc p off) bs)

/-- Read the storage of a memory unit (R251). -/
def State.muRead (s : State) (p m off n : Nat) : Acc (State × List Byte) :=
  match s.badWord? (muLoc p m off) n with
  | some w => .error (.fmUncorr w)
  | none => .ok (s, s.mread (muLoc p m off) n)

/-- Write the storage of a memory unit (R251). -/
def State.muWrite (s : State) (p m off : Nat) (bs : List Byte) : Acc State :=
  match s.badPartial? (muLoc p m off) bs.length with
  | some w => .error (.fmUncorr w)
  | none => .ok (s.mwrite (muLoc p m off) bs)

/-! Stacks. -/

/-- May the stack serve an access: ACTIVE and READY (R316, R318)? -/
def State.stackReady (s : State) (k : Nat) : Bool :=
  s.get (Reg.STK_STATUS_PWR_STATE k) == 0 && s.on (Reg.STK_STATUS_READY k)

/-- The first stack of a range of part offsets that cannot serve. -/
def State.sleepingStack? (s : State) (o n : Nat) : Option Nat :=
  if n = 0 then none
  else [o / stackSize, (o + n - 1) / stackSize].find? fun k => !s.stackReady k

/-- Is the row of a local address under remap, so that its accesses are held (R308)? Log entry 80 (DESIGN CHOICE, safe). -/
def State.rowHeld (s : State) (k a : Nat) : Bool :=
  s.on (Reg.STK_ROW_REMAP_BUSY k) && decide (s.get (Reg.STK_ROW_REMAP_PC k) = bits a 12 8 ∧
    s.get (Reg.STK_ROW_REMAP_BANK k) = bits a 21 16 ∧ s.get (Reg.STK_ROW_REMAP_ROW k) = bits a 35 22)

/-- The local addresses and lengths that an access touches. -/
def stkSpans : StkReq → List (Nat × Nat)
  | .read a n _ _ => [(a, n)]
  | .write a bs _ _ => [(a, bs.length)]
  | .gather as _ _ => as.map fun a => (a, 128)
  | .scatterAdd a _ _ _ _ => [(a, 128)]
  | .atomic a _ _ _ _ => [(a, 8)]

/-- Does a range of local addresses of a stack touch a 64-byte block of an access that is held for a row under remap (R299)? -/
def State.behindHeld (s : State) (k a n : Nat) : Bool :=
  n != 0 && (s.stk k).remapHeld.any fun x => (stkSpans x).any fun z => decide (z.1 / 64 ≤ (a + n - 1) / 64 ∧ a / 64 ≤ (z.1 + z.2 - 1) / 64)

/-- Does a range of part offsets touch a row under remap, or a block of an access that came before and is held for one (R299, R308)? -/
def State.rowBusy (s : State) (o n : Nat) : Bool :=
  (eccWords o n).any (fun w => s.rowHeld (w / stackSize) (w % stackSize)) || s.behindHeld (o / stackSize) (o % stackSize) n

/-- Why a range of stack memory cannot be reached now: its stack sleeps, or its row is under remap (R308, R317, R318). -/
def State.stackWait? (s : State) (o n : Nat) : Option AccErr :=
  match s.sleepingStack? o n with
  | some k => some (.stackAsleep k)
  | none => if s.rowBusy o n then some .blocked else none

/-- Read stack memory by part offset (R299, R304). -/
def State.stackRead (s : State) (o n : Nat) : Acc (List Byte) :=
  if stackBytes < o + n then .error (.xlt Flt.RGA_RANGE o 0 false)
  else match s.stackWait? o n with
  | some e => .error e
  | none =>
    match s.badWord? o n with
    | some w => .error (.stkUncorr w)
    | none => .ok (s.mread o n)

/-- May stack and NV memory be written yet: the gate of R465. -/
def State.writesEnabled (s : State) : Bool := s.on Reg.CFG_BOOT_STATUS_WRITES_EN

/-- Write stack memory by part offset (R299, R301, R303). -/
def State.stackWrite (s : State) (o : Nat) (bs : List Byte) : Acc State :=
  if stackBytes < o + bs.length then .error (.xlt Flt.RGA_RANGE o 0 true)
  else match s.stackWait? o bs.length with
  | some e => .error e
  | none =>
    match s.badPartial? o bs.length with
    | some w => .error (.stkUncorr w)
    | none => .ok (s.mwrite o bs)

/-! Translation (R320 to R331). -/

/-- A leaf found by a walk or held in the TLB. -/
structure Leaf where
  vbase : Nat
  size : Nat
  frame : Nat
  rights : Nat
  deriving DecidableEq, Repr

/-- This part's device id (R321). -/
def State.deviceId (s : State) : Nat := if s.on Reg.XLT_DEVICE_ID_VALID then s.get Reg.XLT_DEVICE_ID_DEVICE else 0

/-- The page size a leaf maps at each level (Table 14-3). -/
def pageSize : Nat → Nat
  | 1 => 2 ^ 30
  | 2 => 2 ^ 21
  | _ => 2 ^ 16

/-- The bytes of a table at each level (Table 14-3). -/
def tableSize : Nat → Nat
  | 1 => 2 ^ 21
  | 2 => 2 ^ 12
  | _ => 2 ^ 8

/-- The index of a VA in a table of a level. -/
def tableIndex (level va : Nat) : Nat :=
  match level with
  | 1 => bits va 47 30
  | 2 => bits va 29 21
  | _ => bits va 20 16

/-- A present entry's layout faults (R326). -/
def entryMalformed (level e : Nat) : Bool :=
  let leaf := bit e 1
  decide (bits e 63 51 ≠ 0) ||
  (if leaf then
    decide (bits e 15 6 ≠ 0) ||
    (level == 1 && decide (bits e 29 16 ≠ 0)) || (level == 2 && decide (bits e 20 16 ≠ 0)) ||
    (bit e 3 && !bit e 2) || (bit e 4 && !bit e 3)
  else
    level == 3 || decide (bits e 7 2 ≠ 0) || decide (bits e 50 41 ≠ 0) ||
    (let t := bits e 40 8 * 256
     decide (stackBytes < t + tableSize (level + 1)) || decide (t % tableSize (level + 1) ≠ 0)))

/-- What an access needs of a leaf (R327). -/
inductive Need where
  | read | write | scatterAdd | atomic
  deriving DecidableEq, Repr

/-- Does a leaf's rights field (R, W, A, NC from bit 0) grant an access (R327)? -/
def Need.granted (n : Need) (rights : Nat) : Bool :=
  match n with
  | .read => bit rights 0
  | .write => bit rights 1
  | .scatterAdd => bit rights 1 && bit rights 2
  | .atomic => bit rights 0 && bit rights 1 && bit rights 2

/-- Does the access write memory (WRITE of Table 14-7)? -/
def Need.writes : Need → Bool
  | .read => false
  | _ => true

/-- The stack memory of a part offset, seen from a Field's agent: why it cannot be reached now (R54, R308, R317, R318). -/
def State.stackWay? (s : State) (p c o n : Nat) : Option AccErr :=
  if !s.wayOpen c (quadOfField p) (quadOfStack (o / stackSize)) then some .blocked else s.stackWait? o n

/-- Walk from the table of a level at part offset `t` for an access of context `c` on Field `p` (R325, R326, R331); a table on a stack that
sleeps or cannot be reached makes the access wait. The fuel is the levels left. -/
def State.walkFrom (s : State) (p c va : Nat) (write : Bool) : Nat → Nat → Nat → Acc Leaf
  | 0, _, _ => .error (.xlt Flt.XLT_MALFORMED va 0 write)
  | fuel + 1, level, t =>
    let a := t + 8 * tableIndex level va
    match s.stackWay? p c a 8 with
    | some e => .error e
    | none =>
      if (s.badWord? a 8).isSome then .error (.tableUncorr (eccWord a) va write)
      else
        let e := leNat (s.mread a 8)
        if !bit e 0 then .error (.xlt Flt.XLT_NOT_PRESENT va 0 write)
        else if entryMalformed level e then .error (.xlt Flt.XLT_MALFORMED va 0 write)
        else if bit e 1 then
          .ok { vbase := va / pageSize level * pageSize level, size := pageSize level,
                frame := bits e 50 16 * 65536, rights := bits e 5 2 }
        else State.walkFrom s p c va write fuel (level + 1) (bits e 40 8 * 256)

/-- Does a root table at so many 2 MiB lie within the stacks (R324)? -/
def rootFits (root : Nat) : Bool := decide (root ≤ (stackBytes - tableSize 1) / 2 ^ 21)

/-- The walk of a context's tree from its root (R324, R326), by the walk cache of Field `p` where it holds a pointer. Log entry 79 (DESIGN CHOICE, unsafe). -/
def State.walk (s : State) (p c va : Nat) (write : Bool) : Acc Leaf :=
  let root := s.get (Reg.XLT_CTX_ROOT_ROOT c)
  if !rootFits root then .error (.xlt Flt.XLT_MALFORMED va 0 write)
  else
    let wc := (s.field p).walkCache
    match wc.find? fun e => e.level == 2 && e.ctx == c && e.prefixVa == va / 2 ^ 21 with
    | some e => s.walkFrom p c va write 1 3 e.next
    | none =>
      match wc.find? fun e => e.level == 1 && e.ctx == c && e.prefixVa == va / 2 ^ 30 with
      | some e => s.walkFrom p c va write 2 2 e.next
      | none => s.walkFrom p c va write 3 1 (root * 2 ^ 21)

/-- The entry of a TLB that holds a VA of a context (R330). -/
def State.tlbHit (s : State) (p c va : Nat) : Option TlbEntry :=
  (s.field p).tlb.find? fun e => e.ctx == c && e.vbase == va / e.size * e.size

/-- The leaf of a VA: nothing is present while translation is not enabled; a TLB hit, or a walk (R324, R330, R331). Log entry 79 (DESIGN CHOICE, unsafe). -/
def State.leafOf (s : State) (p c va : Nat) (write : Bool) : Acc Leaf :=
  if !s.on (Reg.XLT_CTX_ROOT_EN c) then .error (.xlt Flt.XLT_NOT_PRESENT va 0 write)
  else match s.tlbHit p c va with
  | some e => .ok { vbase := e.vbase, size := e.size, frame := e.frame, rights := e.rights }
  | none => s.walk p c va write

/-- Where a VA leads. -/
inductive Target where
  | stack (o : Nat)
  | fm (m off : Nat)
  | remote (rga : Nat)
  deriving DecidableEq, Repr

/-- Where an RGA of this part leads, or none for a reserved offset (R322, Table 14-2). -/
def offsetTarget (o : Nat) : Option Target :=
  if o < stackBytes then some (.stack o)
  else if o < stackBytes + 2 ^ 30 then some (.fm ((o - stackBytes) / 2 ^ 24) ((o - stackBytes) % 2 ^ 24))
  else none

/-- Where a leaf leads a VA of a context: the target, and whether the page may be cached (R320 to R329). -/
def State.leafTarget (s : State) (l : Leaf) (localOnly : Bool) (need : Need) (va : Nat) : Acc (Target × Bool) :=
  if !need.granted l.rights then .error (.xlt Flt.XLT_PERM va 0 need.writes)
  else
    let rga := l.frame + (va - l.vbase)
    if decide (2 ^ 51 ≤ rga) then .error (.xlt Flt.RGA_RANGE va 0 need.writes)
    else if bits rga 50 41 = s.deviceId then
      match offsetTarget (bits rga 40 0) with
      | some t => .ok (t, !bit l.rights 3)
      | none => .error (.xlt Flt.RGA_RANGE va 0 need.writes)
    else if localOnly then .error (.xlt Flt.XLT_REMOTE va rga need.writes)
    else if !s.on Reg.XLT_DEVICE_ID_VALID then .error (.xlt Flt.REMOTE_ACCESS va rga need.writes)
    else .ok (.remote rga, !bit l.rights 3)

/-- Translate one address of a context on Field `p` (R320 to R331). -/
def State.translate (s : State) (p c : Nat) (localOnly : Bool) (need : Need) (va : Nat) : Acc (Target × Bool) := do
  let l ← s.leafOf p c va need.writes
  s.leafTarget l localOnly need va

/-! Bandwidth buckets (R338, R409, R410). -/

/-- The bucket of a context's partition on Field `p`: its stack bucket, or its Quipel bucket. None: not regulated. -/
def State.bucketOf (s : State) (p c : Nat) (quipel : Bool) : Option Nat :=
  let part := s.partOf c
  ((List.range 4).find? fun k => s.on (Reg.FLD_BW_SET_EN p k) && s.get (Reg.FLD_BW_SET_PART p k) == part).map
    fun k => 2 * k + b2n quipel

/-- The charge of an access: its bytes rounded up to 64 (R338). Log entry 85 (DESIGN CHOICE, unsafe). -/
def chargeOf (n : Nat) : Nat := (n + 63) / 64 * 64

/-- Bytes a bucket holds. -/
def State.bucket (s : State) (p b : Nat) : Nat := Tab.get (fun _ => 0) (s.field p).buckets b

/-- May the access issue now (R410)? A charge above the bucket's depth issues from a full bucket. Log entry 85 (DESIGN CHOICE, unsafe). -/
def State.bucketReady (s : State) (p c : Nat) (quipel : Bool) (n : Nat) : Bool :=
  match s.bucketOf p c quipel with
  | none => true
  | some b =>
    s.on (Reg.FLD_BW_CFG_UNLIM p b) ||
      decide (min (chargeOf n) (s.get (Reg.FLD_BW_CFG_DEPTH p b) * 4096) ≤ s.bucket p b)

/-- Take the charge of an access (R338, R409), and note the bytes of stack memory for the context's energy (R440). Log entry 85 (DESIGN CHOICE, unsafe). -/
def State.charge (s : State) (p c : Nat) (quipel : Bool) (n : Nat) : State :=
  let s := if quipel then s
    else { s with srv := { s.srv with stackBytes := Tab.set (fun _ => 0) s.srv.stackBytes c (Tab.get (fun _ => 0) s.srv.stackBytes c + chargeOf n) } }
  match s.bucketOf p c quipel with
  | none => s
  | some b => s.modField p fun f => { f with buckets := Tab.set (fun _ => 0) f.buckets b (Tab.get (fun _ => 0) f.buckets b - chargeOf n) }

/-- A step whose accesses together charge more than the bucket's depth issues from a full bucket: a full bucket lends for the step, and what it
lent is taken back at its end. Log entry 85 (DESIGN CHOICE, unsafe). -/
def State.bucketLend (s : State) (p c : Nat) : State :=
  match s.bucketOf p c false with
  | some b =>
    if s.get (Reg.FLD_BW_CFG_DEPTH p b) * 4096 ≤ s.bucket p b then
      s.modField p fun f => { f with buckets := Tab.set (fun _ => 0) f.buckets b (s.bucket p b + 2 ^ 48) }
    else s
  | none => s

def State.bucketRepay (s : State) (p c : Nat) : State :=
  match s.bucketOf p c false with
  | some b =>
    if 2 ^ 47 ≤ s.bucket p b then s.modField p fun f => { f with buckets := Tab.set (fun _ => 0) f.buckets b (s.bucket p b - 2 ^ 48) } else s
  | none => s

/-! Reaching a target. -/

/-- The pieces of a VA range that lie in one 64 KiB page each. -/
def vaPieces (va n : Nat) : List (Nat × Nat) :=
  if n = 0 then []
  else (List.range ((va + n - 1) / 65536 - va / 65536 + 1)).map fun i =>
    let lo := max va ((va / 65536 + i) * 65536)
    (lo, min (va + n) ((va / 65536 + i + 1) * 65536) - lo)

/-- The physical Field and resident slot through which a context reaches another Field's memory (R323). -/
def State.fmOwner (s : State) (c m off : Nat) : Acc (Nat × Nat) :=
  match s.physOf m with
  | none => .error (.protect off)
  | some q =>
    match s.slotOf q c with
    | none => .error (.protect off)
    | some k => .ok (q, k)

/-- The owner's side of an access to Field memory by VA: the physical Field and slot, once traffic passes there (R54, R323). -/
def State.fmWay (s : State) (p c m off : Nat) : Acc (Nat × Nat) := do
  let (q, k) ← s.fmOwner c m off
  if s.wayOpen c (quadOfField p) (quadOfField q) then .ok (q, k) else .error .blocked

/-- Read stack memory for a context of Field `p`, charged to its bucket (R54, R338, R410). -/
def State.wayRead (s : State) (p c o n : Nat) : Acc (State × List Byte) :=
  match s.stackWay? p c o n with
  | some e => .error e
  | none =>
    if s.bucketReady p c false n then do
      let bs ← s.stackRead o n
      .ok (s.charge p c false n, bs)
    else .error .bucketEmpty

/-- Write stack memory for a context of Field `p`, charged to its bucket. -/
def State.wayWrite (s : State) (p c o : Nat) (bs : List Byte) : Acc State :=
  match s.stackWay? p c o bs.length with
  | some e => .error e
  | none =>
    if s.bucketReady p c false bs.length then do
      let u ← s.stackWrite o bs
      .ok (u.charge p c false bs.length)
    else .error .bucketEmpty

/-- Read and write the save area of a slot, which no leaf translates, so that no bucket is charged (R54, R338, R428). -/
def State.areaRead (s : State) (p c o n : Nat) : Acc (List Byte) :=
  match s.stackWay? p c o n with
  | some e => .error e
  | none => s.stackRead o n

def State.areaWrite (s : State) (p c o : Nat) (bs : List Byte) : Acc State :=
  match s.stackWay? p c o bs.length with
  | some e => .error e
  | none => s.stackWrite o bs

/-- Read one piece. -/
def State.pieceRead (s : State) (p c : Nat) (localOnly : Bool) (va n : Nat) : Acc (State × List Byte) := do
  let (t, _) ← s.translate p c localOnly .read va
  match t with
  | .stack o => s.wayRead p c o n
  | .fm m off =>
    let (q, k) ← s.fmWay p c m off
    s.fmRead q (some k) off n
  | .remote rga =>
    if s.bucketReady p c true n then .error (.remote rga n va false) else .error .bucketEmpty

/-- Write one piece. -/
def State.pieceWrite (s : State) (p c : Nat) (localOnly : Bool) (va : Nat) (bs : List Byte) : Acc State := do
  let (t, _) ← s.translate p c localOnly .write va
  match t with
  | .stack o => s.wayWrite p c o bs
  | .fm m off =>
    let (q, k) ← s.fmWay p c m off
    s.fmWrite q (some k) off bs
  | .remote rga =>
    if s.bucketReady p c true bs.length then .error (.remote rga bs.length va true) else .error .bucketEmpty

/-- Read pieces in order. -/
def State.piecesRead (s : State) (p c : Nat) (localOnly : Bool) : List (Nat × Nat) → Acc (State × List Byte)
  | [] => .ok (s, [])
  | (va, n) :: ps => do
    let (t, a) ← s.pieceRead p c localOnly va n
    let (u, b) ← State.piecesRead t p c localOnly ps
    .ok (u, a ++ b)

/-- Write pieces in order. -/
def State.piecesWrite (s : State) (p c : Nat) (localOnly : Bool) : List (Nat × Nat) → List Byte → Acc State
  | [], _ => .ok s
  | (va, n) :: ps, bs => do
    let t ← s.pieceWrite p c localOnly va (bs.take n)
    State.piecesWrite t p c localOnly ps (bs.drop n)

/-! What a failed access does to its agent (R237, R244, R249, R304, R333). -/

/-- Key of an agent of a Field working for a context: the context, and the agent's number and index of Table 22-3. -/
def agentKey (agent index ctx : Nat) : Nat := ctx * 1024 + agent * 64 + index

/-- Note why an agent is stopped. -/
def State.setStop (s : State) (p key : Nat) (x : Stop) : State :=
  s.modField p fun f => { f with stops := (f.stops.filter fun e => e.1 != key) ++ [(key, x)] }

/-- Let an agent go on. -/
def State.clearStop (s : State) (p key : Nat) : State :=
  s.modField p fun f => { f with stops := f.stops.filter fun e => e.1 != key }

/-- Why an agent is stopped. -/
def State.stopOf (s : State) (p key : Nat) : Option Stop :=
  ((s.field p).stops.find? fun e => e.1 == key).map (·.2)

/-- The stop with a code: the agent writes its completion record with it (R333). -/
def failStop (ctx code detail : Nat) : Stop :=
  { kind := .failed, code := code, ctx := ctx, va := detail, rga := 0, write := false, retries := 0 }

/-- A fault of an agent that has begun its work: it is recorded, the heat does not commit, and the agent stops with the
code, unless it has already stopped. -/
def State.agentFault (s : State) (p agent index ctx code detail : Nat) : State :=
  let t := s.fieldFault p agent index (some ctx) code detail
  match s.stopOf p (agentKey agent index ctx) with
  | some _ => t
  | none => t.setStop p (agentKey agent index ctx) (failStop ctx code detail)

/-- Begin to wake a bank; a bank that was OFF is zeroed on the way, a write after the gate sets LATE_WAKE, and a fence that is open is given up
(R248 to R250). -/
def State.wakeBank (s0 : State) (p b : Nat) (write : Bool) : State :=
  let s := if (s0.field p).fm.fences.isEmpty then s0 else s0.cancelFence p b
  let t :=
    match s.bankState p b with
    | 2 => s.setBank p b 1
    | 3 => (s.setBank p b 1).modFm p fun f => { f with zeroing := b :: f.zeroing }
    | _ => s
  if write && (s.bankState p b == 2 || s.bankState p b == 3) then t.put (Reg.FLD_FM_PWR_CTRL_LATE_WAKE p) 1 else t

/-- The row of a bank as one number: pseudo-channel, bank and row of Table 13-2. -/
def rowKey (pc bank row : Nat) : Nat := (pc * 64 + bank) * 16384 + row

/-- The physical Field whose Field memory or MU storage holds a word; a word elsewhere is taken as Field `p`'s. -/
def fieldOfWord (p addr : Nat) : Nat :=
  if addr < 2 ^ 44 then p else if addr < 2 ^ 45 then (addr - 2 ^ 44) / 2 ^ 24 else if addr < 2 ^ 46 then (addr - 2 ^ 45) / 2 ^ 22 else p

/-- Location of an uncorrectable word in `FLD_FM_ECC_STATUS` (R244). -/
def State.fmUncorrSeen (s : State) (p addr : Nat) (byScrub : Bool) : State :=
  let mu := decide (2 ^ 45 ≤ addr)
  (s.wearNote (if mu then wearMu p (bits (addr - 2 ^ 45) 21 18) else wearBank p (bankOf (bits addr 23 0)))).puts
   [(Reg.FLD_FM_ECC_STATUS_UNCORR_SEEN p, 1), (Reg.FLD_FM_ECC_STATUS_SRC p, b2n mu),
    (Reg.FLD_FM_ECC_STATUS_BY_SCRUB p, b2n byScrub),
    (Reg.FLD_FM_ECC_STATUS_WORD p,
      if mu then bits (addr - 2 ^ 45) 21 18 * 2 ^ 15 + bits addr 17 5 else bits addr 23 5)]

/-- Does a resident slot's window hold a Field-memory offset? -/
def State.windowHolds (s : State) (p c off : Nat) : Bool := s.inWindow p c (off / 65536)

/-- The contexts whose windows hold a word of Field memory, or whose legs share the memory unit of a word of MU storage (R237, R251). -/
def State.wordOwners (s : State) (p addr : Nat) : List Nat :=
  (List.range 4).filterMap fun c =>
    if (s.ctxOf p c).isSome && (decide (2 ^ 45 ≤ addr) || s.windowHolds p c (bits addr 23 0)) then s.ctxOf p c else none

/-- An uncorrectable word that belongs to no context's windows: firmware zeroes it and raises a MIN alarm (R244). -/
def State.fmOrphan (s : State) (p addr : Nat) : State :=
  if (s.wordOwners p addr).isEmpty then
    (s.mzero (eccWord addr) 32).alarm 2 Flt.FM_UNCORR (srcOf 1 ((s.lfieldOf p).getD 0)) none
  else s

/-- Location of an uncorrectable transfer in `STK_ECC_STATUS` (R303, R304), and whether the scrubber found it. -/
def State.stkUncorrSeen (s : State) (o : Nat) (byScrub : Bool) : State :=
  let k := o / stackSize
  let a := o % stackSize
  (s.wearNote (wearRowBad k (rowKey (bits a 12 8) (bits a 21 16) (bits a 35 22)))).puts
   [(Reg.STK_ECC_STATUS_UNCORR_SEEN k, 1), (Reg.STK_ECC_STATUS_BY_SCRUB k, b2n byScrub),
    (Reg.STK_ECC_STATUS_PC k, bits a 12 8), (Reg.STK_ECC_STATUS_BANK k, bits a 21 16),
    (Reg.STK_ECC_STATUS_ROW k, bits a 35 22)]

/-- An access that reaches a sleeping stack is held: in SELF_REFRESH or DEEP the stack wakes (R317); in OFF, WAKE_HELD is set
and firmware raises a MIN alarm (R318). -/
def State.wakeStack (s : State) (k : Nat) : State :=
  if s.get (Reg.STK_STATUS_PWR_STATE k) = 3 then
    if s.on (Reg.STK_STATUS_WAKE_HELD k) then s
    else (s.put (Reg.STK_STATUS_WAKE_HELD k) 1).alarm 2 0 (srcOf 2 k) none
  else s.modStk k fun x => { x with waking := true }

/-- An entry for the fault queue of a Field's quadrant waits until it is written (R333, R334). -/
def State.fqEnter (s : State) (p agent index ctx code va rga : Nat) (write : Bool) (retries : Nat) : State :=
  { s with xlt := { s.xlt with fqWait := s.xlt.fqWait ++ [(quadOfField p,
      { va := va, rga := rga, code := code, agent := agent, index := index, lfield := (s.lfieldOf p).getD 0,
        ctx := ctx, write := write, retries := min retries 255, stamp := s.stamp })] } }

/-- A translation fault of an agent (R333): it stops at its restart point and its entry waits for its quadrant's queue. A
fault to which firmware may answer suspends it; any other stops it with its code, and the heat does not commit. -/
def State.xltFault (s : State) (p agent index ctx code va rga : Nat) (write : Bool) (retries : Nat) : State :=
  let key := agentKey agent index ctx
  match s.stopOf p key with
  | some _ => s
  | none =>
    let t := s.fieldFault p agent index (some ctx) code va
    let kind := if faultClass code = .suspended then StopKind.suspended else StopKind.failed
    (t.setStop p key { kind := kind, code := code, ctx := ctx, va := va, rga := rga, write := write, retries := retries }).fqEnter p agent index
      ctx code va rga write retries

/-! The Field-memory cache (R239, R240, R245). -/

/-- The cache slices in force, lowest first (ACTIVE_MODE). -/
def State.cacheList (s : State) (p : Nat) : List Nat :=
  let m := s.get (Reg.FLD_FM_SLICE_MODE_ACTIVE_MODE p)
  (List.range 8).filter fun i => bit m i

/-- The number of cache slices. -/
def State.cacheSlices (s : State) (p : Nat) : Nat := (s.cacheList p).length

/-- The set of a line: RGA bits from 8 upwards, 1024 sets a cache slice (R239). -/
def cacheSet (slices rga : Nat) : Nat := (rga / 256) % (1024 * slices)

/-- Does the resident slot use the cache (R240)? -/
def State.cacheOn (s : State) (p slot : Nat) : Bool :=
  bit (s.get (Reg.FLD_FM_CACHE_CTRL_CTX_EN p)) slot && s.cacheSlices p != 0

/-- The Field-memory offset at which a way of a line's set is kept: 1,024 sets a slice, neighbouring sets in neighbouring banks. Log entry 74 (DESIGN CHOICE, unsafe). -/
def State.lineOff (s : State) (p rga way : Nat) : Nat :=
  let set := cacheSet (s.cacheSlices p) rga
  (s.cacheList p).getD (set / 1024) 0 * 2 ^ 21 + (set % 1024 / 8 * 8 + way) * 2 ^ 11 + set % 8 * 2 ^ 8

/-- The bank that keeps a line's set. Log entry 74 (DESIGN CHOICE, unsafe). -/
def State.lineBank (s : State) (p rga : Nat) : Nat := bankOf (s.lineOff p rga 0)

/-- The line of a slot that holds an RGA. -/
def State.lineOf (s : State) (p slot rga : Nat) : Option CacheLine :=
  (s.field p).fm.lines.find? fun l => l.rga == rga && l.slot == slot

/-- Discard the lines of a slot that hold an RGA. -/
def State.dropLine (s : State) (p slot line : Nat) : State :=
  s.modFm p fun f => { f with lines := f.lines.filter fun l => !(l.rga == line && l.slot == slot) }

/-- Bits of the tree pseudo-LRU of an 8-way set after a use of way `w`: each node on the way's path points away from it. Log entry 74 (DESIGN CHOICE, unsafe). -/
def plruTouch (t w : Nat) : Nat :=
  let n0 := 0
  let n1 := 1 + bits w 2 2
  let n2 := 3 + bits w 2 1
  setBits (setBits (setBits t n0 n0 (1 - bits w 2 2)) n1 n1 (1 - bits w 1 1)) n2 n2 (1 - bits w 0 0)

/-- The way the tree names for replacement. Log entry 74 (DESIGN CHOICE, unsafe). -/
def plruVictim (t : Nat) : Nat :=
  let b2 := bits t 0 0
  let b1 := bits t (1 + b2) (1 + b2)
  let b0 := bits t (3 + 2 * b2 + b1) (3 + 2 * b2 + b1)
  4 * b2 + 2 * b1 + b0

/-- The RGA of a target of this part. -/
def State.rgaOf (s : State) : Target → Nat
  | .stack o => s.deviceId * 2 ^ 41 + o
  | .fm m off => s.deviceId * 2 ^ 41 + stackBytes + m * 2 ^ 24 + off
  | .remote r => r

/-- Where the RGA of a line leads. -/
def State.lineTarget (s : State) (rga : Nat) : Option Target :=
  if bits rga 50 41 = s.deviceId then offsetTarget (bits rga 40 0) else some (.remote rga)

/-- Write the bytes of a line that a mask selects over protected words from `a` on: a word that is uncorrectable and only partly covered keeps
its content (R244, R303). The answer names the first such word. -/
def State.maskedWrite (s : State) (a mask : Nat) (data : List Byte) : State × Option Nat :=
  let k := eccSize a
  (List.range (256 / k)).foldl (fun x i =>
    let m := mask / 2 ^ (k * i) % 2 ^ k
    if m = 0 then x
    else if x.1.isBad (a + k * i) && m != 2 ^ k - 1 then (x.1, x.2.or (some (a + k * i)))
    else
      let t := if x.1.isBad (a + k * i) then x.1.markBad (a + k * i) false else x.1
      ({ t with mem := t.mem.writeMasked (a + k * i) m ((data.drop (k * i)).take k) }, x.2)) (s, none)

/-- The charge of the bytes of a line that a mask selects: 64 for each block they touch (R338). Log entry 85 (DESIGN CHOICE, unsafe). -/
def maskCharge (mask : Nat) : Nat := 64 * ((List.range 4).filter fun i => mask / 2 ^ (64 * i) % 2 ^ 64 != 0).length

/-- The runs of bytes that a mask of 256 bits selects, as first byte and length. -/
def maskRuns (mask : Nat) : List (Nat × Nat) :=
  ((List.range 256).filter fun i => bit mask i && (i == 0 || !bit mask (i - 1))).map fun i =>
    (i, ((List.range (256 - i)).takeWhile fun j => bit mask (i + j)).length)

/-- The agent of a write that the cache of a Field sends to another part: no operation waits for its answer. -/
def cacheAgent : Nat := 17

/-- The writes of a line of another part, for the Field's Quipel requests (R239, R353). -/
def State.lineSend (s : State) (p c rga va mask : Nat) (data : List Byte) : State :=
  let ms : List (QUser × QMsg) := (maskRuns mask).map fun r =>
    ({ field := p, agent := cacheAgent, index := 0, ctx := c, va := va + r.1, off := 0 },
     { op := 0x02, status := 0, fence := false, ce := false, ceEcho := false, tag := 0, srcDev := 0, srcLf := 0, dstDev := bits rga 50 41,
       dstLf := 0, rga := rga + r.1, len := r.2, arg0 := 0, arg1 := 0, data := (data.drop r.1).take r.2 })
  s.modField p fun f => { f with ch := { f.ch with outbound := f.ch.outbound ++ ms } }

/-- A fault of the cache of a Field for the context of a line. -/
def State.cacheFault (s : State) (p slot code detail : Nat) : State := s.fieldFault p 4 0 (s.ctxOf p slot) code detail

/-- Write back the bytes of a line that a mask selects (R239, R241), charged as accesses of its context (R338). A word that is uncorrectable and
only partly covered keeps its content, with the fault of a narrow write (R244, R303); a place outside the owner's windows is not written (R237,
R323). The error says why the write has to wait. -/
def State.writeBack (s : State) (p : Nat) (l : CacheLine) (mask : Nat) : Acc State :=
  let n := maskCharge mask
  match s.ctxOf p l.slot, s.lineTarget l.rga with
  | some c, some (.stack o) =>
    match s.stackWay? p c o 256 with
    | some e => .error e
    | none =>
      if !s.bucketReady p c false n then .error .bucketEmpty
      else
        let x := (s.charge p c false n).maskedWrite o mask l.data
        match x.2 with
        | some w => .ok ((x.1.stkUncorrSeen w false).cacheFault p l.slot Flt.STK_UNCORR (w % stackSize))
        | none => .ok x.1
  | some c, some (.fm m off) =>
    match s.fmWay p c m off with
    | .error .blocked => .error .blocked
    | .error _ => .ok (s.cacheFault p l.slot Flt.FM_PROTECT off)
    | .ok (q, k) =>
      if !s.windowOk q k off 256 then .ok (s.cacheFault p l.slot Flt.FM_PROTECT off)
      else match s.sleepingBank? q off 256 with
      | some b => .error (.bankAsleep q b true)
      | none =>
        let x := (s.touchBanks q off 256).maskedWrite (fmLoc q off) mask l.data
        match x.2 with
        | some w => .ok ((x.1.fmUncorrSeen q w false).cacheFault p l.slot Flt.FM_UNCORR (bits w 23 0))
        | none => .ok x.1
  | some c, some (.remote rga) =>
    if s.bucketReady p c true n then .ok ((s.charge p c true n).lineSend p c rga l.va mask l.data) else .error .bucketEmpty
  | _, _ => .ok s

/-- A line is about to go or to become clean: its dirty bytes outside `keep` are written back; a bad line with such bytes is discarded with
FLT_FM_UNCORR (R241, R245). The answer tells whether it was discarded. -/
def State.lineOut (s : State) (p keep : Nat) (l : CacheLine) : Acc (State × Bool) :=
  let dirty := l.dirty &&& (2 ^ 256 - 1 - keep)
  if dirty = 0 then .ok (s, false)
  else if l.bad then
    let off := s.lineOff p l.rga l.way
    .ok (((s.dropLine p l.slot l.rga).fmUncorrSeen p (fmLoc p off) false).cacheFault p l.slot Flt.FM_UNCORR off, true)
  else do
    let t ← s.writeBack p l dirty
    .ok (t, false)

/-- The 256 bytes of a line from where its RGA leads (R237, R244, R304, R323, R338). `got` are those that have come from another part. -/
def State.lineBytes (s : State) (p c rga va : Nat) (got : Option (List Byte)) : Acc (State × List Byte) :=
  match s.lineTarget rga with
  | some (.stack o) => s.wayRead p c o 256
  | some (.fm m off) => do
    let (q, k) ← s.fmWay p c m off
    s.fmRead q (some k) off 256
  | some (.remote r) =>
    match got with
    | some bs => .ok (s, bs)
    | none => if s.bucketReady p c true 256 then .error (.remote r 256 va false) else .error .bucketEmpty
  | none => .error (.xlt Flt.RGA_RANGE va 0 false)

/-- The lines of the set of an RGA. -/
def State.setLines (s : State) (p rga : Nat) : List CacheLine :=
  (s.field p).fm.lines.filter fun l => cacheSet (s.cacheSlices p) l.rga == cacheSet (s.cacheSlices p) rga

/-- The tree of the set of an RGA. -/
def State.setTree (s : State) (p rga : Nat) : Nat := Tab.get (fun _ => 0) (s.field p).fm.plru (cacheSet (s.cacheSlices p) rga)

/-- The way that a new line of an RGA takes: one without a line, lowest first, or the tree's (R239). Log entry 74 (DESIGN CHOICE, unsafe). -/
def State.fillWay (s : State) (p rga : Nat) : Nat :=
  ((List.range 8).find? fun w => !(s.setLines p rga).any (·.way == w)).getD (plruVictim (s.setTree p rga))

/-- Make a line present for a slot (R239): a hit, or a fill of a free way or the tree's way, whose line goes out first. -/
def State.cacheFill (s : State) (p c slot rga va : Nat) (got : Option (List Byte)) : Acc State := do
  match s.lineOf p slot rga with
  | some _ => .ok s
  | none =>
    let (t, bs) ← s.lineBytes p c rga va got
    let w := t.fillWay p rga
    let u ← (match (t.setLines p rga).find? (·.way == w) with
      | some v => do
        let x ← t.lineOut p 0 v
        .ok (x.1.dropLine p v.slot v.rga)
      | none => .ok t : Acc State)
    .ok (u.modFm p fun f => { f with lines := f.lines ++ [{ rga := rga, va := va, slot := slot, way := w, data := bs, dirty := 0, bad := false }] })

/-- Note a use of a way in its set's tree (R239). -/
def State.cacheTouch (s : State) (p rga way : Nat) : State :=
  s.modFm p fun f => { f with plru := Tab.set (fun _ => 0) f.plru (cacheSet (s.cacheSlices p) rga) (plruTouch (s.setTree p rga) way) }

/-- A bad clean line is invalidated and fetched again; a bad dirty line stops the access (R245). -/
def State.cacheLineCheck (s : State) (p slot rga : Nat) : Acc State :=
  match s.lineOf p slot rga with
  | some l =>
    if l.bad then
      if l.dirty = 0 then .ok (s.dropLine p slot rga) else .error (.lineUncorr p slot rga)
    else .ok s
  | none => .ok s

/-- The pieces of a range that lie in one 256-byte granule each. -/
def granules (a n : Nat) : List (Nat × Nat) :=
  if n = 0 then []
  else (List.range ((a + n - 1) / 256 - a / 256 + 1)).map fun i =>
    let lo := max a ((a / 256 + i) * 256)
    (lo, min (a + n) ((a / 256 + i + 1) * 256) - lo)

/-- Bytes `[o, o + n)` of a line. -/
def CacheLine.slice (l : CacheLine) (o n : Nat) : List Byte := (l.data.drop o).take n

/-- The line with bytes from `o` replaced and marked dirty. -/
def CacheLine.patch (l : CacheLine) (o : Nat) (bs : List Byte) : CacheLine :=
  { l with data := l.data.take o ++ bs ++ l.data.drop (o + bs.length), dirty := l.dirty ||| ((2 ^ bs.length - 1) * 2 ^ o) }

/-- Do the owner's windows hold the line of a target in Field memory (R237, R323)? -/
def State.lineAllowed (s : State) (c : Nat) : Target → Acc Unit
  | .fm m off => do
    let (q, k) ← s.fmOwner c m off
    s.windowCheck q (some k) (off / 256 * 256) 256
  | _ => .ok ()

/-- The line of a target for an access of a slot, present and good (R239, R245); the bank that keeps it is awake (R249) and its fence is
cancelled (R248). -/
def State.lineFor (s : State) (p c slot va : Nat) (t : Target) (write : Bool) (got : Nat → Option (List Byte)) : Acc State := do
  s.lineAllowed c t
  let line := s.rgaOf t / 256 * 256
  let b := s.lineBank p line
  if s.bankState p b != 0 then .error (.bankAsleep p b write)
  else
    let s1 ← (s.cancelFence p b).cacheLineCheck p slot line
    s1.cacheFill p c slot line (va / 256 * 256) (got (va / 256 * 256))

/-- A cached read within one granule (R239, R240). `got` gives the lines that have come from other parts, by the VA of their first byte. -/
def State.cachedRead (s : State) (p c slot : Nat) (localOnly : Bool) (got : Nat → Option (List Byte)) (va n : Nat) : Acc (State × List Byte) := do
  let (t, cacheable) ← s.translate p c localOnly .read va
  if !cacheable then s.pieceRead p c localOnly va n
  else
    let rga := s.rgaOf t
    let s2 ← s.lineFor p c slot va t false got
    match s2.lineOf p slot (rga / 256 * 256) with
    | some l => .ok (s2.cacheTouch p rga l.way, l.slice (rga % 256) n)
    | none => s.pieceRead p c localOnly va n

/-- A cached write within one granule: write-back, write-allocate (R239). -/
def State.cachedWrite (s : State) (p c slot : Nat) (localOnly : Bool) (got : Nat → Option (List Byte)) (va : Nat) (bs : List Byte) :
    Acc State := do
  let (t, cacheable) ← s.translate p c localOnly .write va
  if !cacheable then s.pieceWrite p c localOnly va bs
  else
    let rga := s.rgaOf t
    let line := rga / 256 * 256
    let s2 ← s.lineFor p c slot va t true got
    .ok ((s2.modFm p fun f =>
      { f with lines := f.lines.map fun l => if l.rga == line && l.slot == slot then l.patch (rga % 256) bs else l }).cacheTouch p rga
        (((s2.lineOf p slot line).map (·.way)).getD 0))

/-- Cached reads of granules in order. -/
def State.cachedReads (s : State) (p c slot : Nat) : List (Nat × Nat) → Acc (State × List Byte)
  | [] => .ok (s, [])
  | (va, n) :: ps => do
    let (t, a) ← s.cachedRead p c slot true (fun _ => none) va n
    let (u, b) ← State.cachedReads t p c slot ps
    .ok (u, a ++ b)

/-- Cached writes of granules in order. -/
def State.cachedWrites (s : State) (p c slot : Nat) : List (Nat × Nat) → List Byte → Acc State
  | [], _ => .ok s
  | (va, n) :: ps, bs => do
    let t ← s.cachedWrite p c slot true (fun _ => none) va (bs.take n)
    State.cachedWrites t p c slot ps (bs.drop n)

/-- Read `n` bytes at a VA of resident slot `slot` of Field `p`. A cached agent goes through the cache where its context
uses one (R240). -/
def State.vaRead (s : State) (p slot : Nat) (localOnly cached : Bool) (va n : Nat) : Acc (State × List Byte) :=
  match s.ctxOf p slot with
  | none => .error (.xlt Flt.XLT_NOT_PRESENT va 0 false)
  | some c =>
    if cached && s.cacheOn p slot then s.cachedReads p c slot (granules va n)
    else s.piecesRead p c localOnly (vaPieces va n)

/-- Write bytes at a VA of resident slot `slot` of Field `p`. -/
def State.vaWrite (s : State) (p slot : Nat) (localOnly cached : Bool) (va : Nat) (bs : List Byte) : Acc State :=
  match s.ctxOf p slot with
  | none => .error (.xlt Flt.XLT_NOT_PRESENT va 0 true)
  | some c =>
    if cached && s.cacheOn p slot then s.cachedWrites p c slot (granules va bs.length) bs
    else s.piecesWrite p c localOnly (vaPieces va bs.length) bs

/-! An operand is named by a base kind: a Field-memory offset or a VA. -/

/-- Read through a base kind. -/
def State.opRead (s : State) (p slot : Nat) (isVa : Bool) (a n : Nat) : Acc (State × List Byte) :=
  if isVa then s.vaRead p slot true true a n
  else s.fmRead p (some slot) a n

/-- Write through a base kind. -/
def State.opWrite (s : State) (p slot : Nat) (isVa : Bool) (a : Nat) (bs : List Byte) : Acc State :=
  if isVa then s.vaWrite p slot true true a bs else s.fmWrite p (some slot) a bs

/-- What a failed access does to its agent (Table 14-6, R237, R244, R249, R304, R314). A held access leaves the agent
waiting; a remote access is issued by the agents that may make one and stops the others with FLT_XLT_REMOTE. -/
def State.accFail (s : State) (p agent index slot : Nat) (e : AccErr) : State :=
  let ctx := s.get (Reg.FLD_CTX_MAP_CTX_ID p slot)
  match e with
  | .protect off => s.agentFault p agent index ctx Flt.FM_PROTECT off
  | .lineUncorr q k line =>
    let off := s.lineOff q line (((s.lineOf q k line).map (·.way)).getD 0)
    ((s.dropLine q k line).fmUncorrSeen q (fmLoc q off) false).agentFault p agent index ctx Flt.FM_UNCORR off
  | .fmUncorr a => ((s.fmUncorrSeen (fieldOfWord p a) a false).agentFault p agent index ctx Flt.FM_UNCORR (bits a 23 0)).fmOrphan (fieldOfWord p a) a
  | .stkUncorr o => (s.stkUncorrSeen o false).agentFault p agent index ctx Flt.STK_UNCORR (o % stackSize)
  | .tableUncorr o va w => (s.stkUncorrSeen o false).xltFault p agent index ctx Flt.XLT_UNCORR va 0 w 0
  | .xlt code va rga w => s.xltFault p agent index ctx code va rga w 0
  | .bankAsleep q b w => s.wakeBank q b w
  | .stackAsleep k => s.wakeStack k
  | .bucketEmpty => s
  | .blocked => s
  | .saTarget va => s.agentFault p agent index ctx Flt.SA_TARGET va
  | .remote rga _ va w => s.xltFault p agent index ctx Flt.XLT_REMOTE va rga w 0

/-- What an access that is held or has to wait sets going: its bank or its stack wakes. Log entry 82 (DESIGN CHOICE, safe). -/
def State.wakeFor (s : State) : AccErr → State
  | .bankAsleep p b w => s.wakeBank p b w
  | .stackAsleep k => s.wakeStack k
  | _ => s

end Sys2Proof.Machine
end

