-- ==== Sys2Proof/Machine/Fabric.lean ====
section
/-!
DEFINITION. Quipel messages and flits as bytes (Tables 15-2 and 15-3), CRC-32C, routes, tags and windows, and how a request
or a response joins its virtual channel (R346 to R352, R366 to R368).
-/

namespace Sys2Proof.Machine

/-! CRC-32C, bit by bit over the reflected polynomial 0x82F63B78. -/

/-- One bit of a CRC-32C. -/
def crcBit (c : Nat) : Nat := if c % 2 = 1 then (c / 2) ^^^ 0x82F63B78 else c / 2

/-- One byte of a CRC-32C. -/
def crcByte (c : Nat) (b : Byte) : Nat := iterate crcBit 8 (c ^^^ b.toNat)

/-- The CRC-32C of a byte list. -/
def crc32c (bs : List Byte) : Nat := (bs.foldl crcByte 0xFFFFFFFF) ^^^ 0xFFFFFFFF

/-! Messages. -/

/-- The 32-byte header of Table 15-3. -/
def QMsg.header (m : QMsg) : List Byte :=
  leBytes 1 m.op ++ leBytes 1 (m.status % 16 + 16 * b2n m.fence + 32 * b2n m.ce + 64 * b2n m.ceEcho) ++ leBytes 2 m.tag ++
  leBytes 2 (m.srcDev % 1024 + 1024 * m.srcLf) ++ leBytes 2 (m.dstDev % 1024 + 1024 * m.dstLf) ++ leBytes 8 m.rga ++
  leBytes 4 m.len ++ leBytes 4 m.arg0 ++ leBytes 8 m.arg1

/-- A message from its header bytes and data. -/
def QMsg.parse (h data : List Byte) : QMsg :=
  let at' (o n : Nat) : Nat := leNat ((h.drop o).take n)
  let b1 := at' 1 1
  { op := at' 0 1, status := b1 % 16, fence := bit b1 4, ce := bit b1 5, ceEcho := bit b1 6, tag := at' 2 2,
    srcDev := at' 4 2 % 1024, srcLf := at' 4 2 / 1024, dstDev := at' 6 2 % 1024, dstLf := at' 6 2 / 1024,
    rga := at' 8 8, len := at' 16 4, arg0 := at' 20 4, arg1 := at' 24 8, data := data }

/-- A byte list padded with zeros to a length. -/
def padTo (n : Nat) (bs : List Byte) : List Byte := bs ++ List.replicate (n - bs.length) 0

/-- The DATA flits of a message's remaining data, 240 bytes each; the fuel bounds their number. -/
def dataFlits (vc cls : Nat) : Nat → List Byte → List QFlit
  | 0, _ => []
  | fuel + 1, bs =>
    if bs.isEmpty then []
    else { kind := 2, vc := vc, last := decide (bs.length ≤ 240), cls := cls, body := padTo 240 (bs.take 240) } ::
      dataFlits vc cls fuel (bs.drop 240)

/-- The flits of a message (Table 15-2): a HEAD flit with up to 208 bytes, then DATA flits. -/
def QMsg.flits (m : QMsg) (vc cls : Nat) : List QFlit :=
  { kind := 1, vc := vc, last := decide (m.data.length ≤ 208), cls := cls, body := padTo 240 (m.header ++ m.data.take 208) } ::
    dataFlits vc cls (m.data.length / 240 + 1) (m.data.drop 208)

/-- The virtual channel of a message (R348): 0 request, 1 response, 2 reduction, 3 management. -/
def QMsg.vc (m : QMsg) : Nat :=
  if m.op = 0x07 then 2 else if m.op = 0x40 ∨ m.op = 0xC0 then 3 else if 0x80 ≤ m.op then 1 else 0

/-- The 256 bytes of a flit on the wire (Table 15-2). -/
def QFlit.bytes (f : QFlit) (seq ack crVc crCls crCount : Nat) : List Byte :=
  let head := leBytes 1 (f.kind + 16 * f.vc + 64 * b2n f.last + 128 * f.cls) ++ leBytes 1 (crVc + 4 * crCls) ++
    leBytes 2 (if f.kind = 1 ∨ f.kind = 2 then seq else 0) ++ leBytes 2 ack ++ leBytes 1 crCount ++ leBytes 1 0
  let b := padTo 252 (head ++ padTo 240 f.body)
  b ++ leBytes 4 (crc32c b)

/-! Ports. -/

/-- Receive buffer of a VC, in flits (R348). -/
def vcDepth : Nat → Nat
  | 0 => 128 | 1 => 128 | 2 => 64 | _ => 16

/-- What Quipel port `n` holds. -/
def State.port (s : State) (n : Nat) : PortState := Tab.get (fun _ => PortState.reset) s.ports n

/-- Change what Quipel port `n` holds. -/
def State.modPort (s : State) (n : Nat) (g : PortState → PortState) : State :=
  { s with ports := Tab.set (fun _ => PortState.reset) s.ports n (g (s.port n)) }

/-- Put a message at the end of its virtual channel and class of port `n`, CLASS 0 unless it is forwarded (R348, R363). -/
def State.qplEnqueue (s : State) (n cls : Nat) (m : QMsg) : State :=
  s.modPort n fun t =>
    { t with txq := Tab.set (fun _ => []) t.txq (2 * m.vc + cls) (Tab.get (fun _ => []) t.txq (2 * m.vc + cls) ++ m.flits m.vc cls) }

/-- The class in which a forwarded flit leaves (R363): 1 through a dateline port, or when it arrived in class 1 in this dimension. -/
def State.exitClass (s : State) (n : Nat) (arrived : Bool) : Nat :=
  if s.get (Reg.QPL_PORT_CTRL_MODE n) = 2 ∧ (arrived ∨ s.on (Reg.QPL_PORT_CTRL_DATELINE n)) then 1 else 0

/-- The window of a destination (R367). -/
def State.qplWindow (s : State) (n dev : Nat) : QWindow :=
  Tab.get (fun _ => { size := 2 ^ s.get (Reg.QPL_CONG_CTRL_WIN_MAX_LOG2 n), halvedAt := 0 }) (s.port n).windows dev

/-- Outstanding response bytes to a destination on a port. -/
def State.qplOutstanding (s : State) (n dev : Nat) : Nat :=
  ((s.port n).tags.filter fun t => t.req.dstDev == dev && !t.timedOut).foldl (fun a t => a + t.bytes) 0

/-- Response bytes a request stands for: the data it asks for and the response's own flit. -/
def respBytes (m : QMsg) : Nat := 64 + (if m.op = 0x01 then m.arg0 % 8192 else 0)

/-- The lowest tag of a port that is not in use (R350), as it stands on the wire. Log entry 157 (DESIGN CHOICE, safe). -/
def State.freeTag (s : State) (n : Nat) : Option Nat :=
  ((List.range 2048).find? fun k => !(s.port n).tags.any (·.tag == 2048 * n + k)).map (2048 * n + ·)

/-- Is a request well formed (Table 15-4, R353)? -/
def QMsg.aligned (m : QMsg) : Bool :=
  let last := m.rga + (if m.op = 0x01 then m.arg0 % 8192 else if m.op = 0x02 then m.len else if m.op = 0x04 then 128 else 8) - 1
  let one := m.rga / 4096 == last / 4096
  match m.op with
  | 0x01 => m.len == 0 && m.rga % 64 == 0 && decide (64 ≤ m.arg0 % 8192 ∧ m.arg0 % 8192 ≤ 4096 ∧ m.arg0 % 64 = 0) && one
  | 0x02 => decide (1 ≤ m.len ∧ m.len ≤ 4096) && one
  | 0x03 => m.rga % 8 == 0 && m.len == (if m.arg0 % 16 = 2 then 8 else 0) && decide (m.arg0 % 16 ≤ 9)
  | 0x04 => m.rga % 4 == 0 && one && m.len == 128
  | 0x05 => decide (32 ≤ m.len ∧ m.len ≤ 65536 ∧ m.len % 32 = 0)
  | 0x06 => m.len == 0
  | 0x40 => m.len == 0
  | _ => true

/-- What becomes of a request: a fault code, a wait by backpressure, or the state with it on its way. -/
inductive QSend where
  | fault (code : Nat)
  | wait
  | sent (s : State)

/-- Send a request of an agent (R350, R353, R367, R368): the route, its link, the alignment checks, a tag and the window. -/
def State.qplRequest (s : State) (u : QUser) (m : QMsg) : QSend :=
  let n := s.get (Reg.QPL_ROUTE_PORT 0 m.dstDev)
  if !s.on (Reg.QPL_ROUTE_VALID 0 m.dstDev) then .fault Flt.QPL_UNROUTABLE
  else if !m.aligned then .fault (if m.op = 0x03 then Flt.ATOMIC_ALIGN else Flt.QPL_MALFORMED)
  else if (s.port n).downSinceRoute && !(s.port n).rerouted.contains m.dstDev then .fault Flt.QPL_LINK_DOWN
  else if !s.on (Reg.QPL_PORT_STATUS_LINK_UP n) then .wait
  else if decide ((s.qplWindow n m.dstDev).size < s.qplOutstanding n m.dstDev + respBytes m) then .wait
  else match s.freeTag n with
    | none => .wait
    | some k =>
      let req := { m with tag := k, srcDev := s.deviceId, srcLf := (s.lfieldOf u.field).getD 0 }
      let t := s.modPort n fun t => { t with tags := t.tags ++ [{ tag := k, req := req, user := u, issued := s.stamp,
                                                                  bytes := respBytes m, timedOut := false }] }
      .sent (t.qplEnqueue n 0 req)

/-- Send a posted message or a response to a device, by its route (R352). A message without a route is lost with its sender's
fault recorded by the caller; responses go back through the port the request came from. -/
def State.qplPost (s : State) (m : QMsg) : State :=
  if s.on (Reg.QPL_ROUTE_VALID 0 m.dstDev) then
    let n := s.get (Reg.QPL_ROUTE_PORT 0 m.dstDev)
    s.qplEnqueue n 0 m
  else s

/-- Answer a request through the route to its sender, or the port it came in by. -/
def State.respond (s : State) (n : Nat) (m : QMsg) : State :=
  if s.on (Reg.QPL_ROUTE_VALID 0 m.dstDev) then s.qplPost m else s.qplEnqueue n 0 m

/-- The port by which an answer to a device leaves, where its request came in by port `n`. -/
def State.backPort (s : State) (n dev : Nat) : Nat := if s.on (Reg.QPL_ROUTE_VALID 0 dev) then s.get (Reg.QPL_ROUTE_PORT 0 dev) else n

/-- The response to a request: its opcode, the requester's SRC fields as DST, the tag, and CE echoed (R352, R366). -/
def QMsg.response (m : QMsg) (op status arg1 : Nat) (data : List Byte) : QMsg :=
  { op := op, status := status, fence := false, ce := false, ceEcho := m.ce, tag := m.tag, srcDev := m.dstDev, srcLf := m.dstLf,
    dstDev := m.srcDev, dstLf := m.srcLf, rga := 0, len := data.length, arg0 := 0, arg1 := arg1, data := data }

/-- A request as an agent builds it; its tag and source are filled in when it is sent. -/
def QMsg.request (op dstDev dstLf rga len arg0 arg1 : Nat) (data : List Byte) : QMsg :=
  { op := op, status := 0, fence := false, ce := false, ceEcho := false, tag := 0, srcDev := 0, srcLf := 0, dstDev := dstDev,
    dstLf := dstLf, rga := rga, len := len, arg0 := arg0, arg1 := arg1, data := data }

/-- The response an agent waits for, if it has come. -/
def State.respFor (s : State) (p agent index va : Nat) : Option QResp :=
  (s.field p).resps.find? fun r => r.agent == agent && r.index == index && r.va == va

/-- Use up a response. -/
def State.takeResp (s : State) (p agent index va : Nat) : State :=
  s.modField p fun f => { f with resps := dropFirst (fun r => r.agent == agent && r.index == index && r.va == va) f.resps }

/-- Has an agent a request outstanding for this address? -/
def State.requestOut (s : State) (p agent index va : Nat) : Bool :=
  (List.range 4).any fun n => (s.port n).tags.any fun t =>
    t.user.field == p && t.user.agent == agent && t.user.index == index && t.user.va == va && !t.timedOut

/-- A request of an agent, over the Field network to the port of its route (R54, R57), for the access `off` bytes behind a VA, with the fault that R369 gives where it cannot be sent. -/
def State.agentRequest (s : State) (p agent index ctx va off : Nat) (m : QMsg) : State :=
  if s.requestOut p agent index va || !s.wayOpen ctx (quadOfField p) (s.get (Reg.QPL_ROUTE_PORT 0 m.dstDev)) then s
  else match s.qplRequest { field := p, agent := agent, index := index, ctx := ctx, va := va, off := off } m with
    | .sent t => t.charge p ctx true (if m.op = 0x01 then m.arg0 % 8192 else if m.op = 0x03 then 8 else m.len)
    | .wait => s
    | .fault code => s.agentFault p agent index ctx code m.rga

/-- The agent of a request whose agent has stopped or has been discarded with its heat (R340): its response has no effect. -/
def deadAgent : Nat := 16

/-- An agent that stopped with its code is at an end: what it has asked for is of no use any more, so that no late answer stops it or writes a
second entry (R333, R340). -/
def State.agentEnd (s : State) (p agent index ctx : Nat) : State :=
  let mine (u : QUser) : Bool := u.field == p && u.agent == agent && u.index == index && u.ctx == ctx
  let t := (List.range 4).foldl (fun t n => if (t.port n).tags.any fun g => mine g.user then t.modPort n fun x =>
    { x with tags := x.tags.map fun g => if mine g.user then { g with user := { g.user with agent := deadAgent } } else g } else t) s
  (t.clearStop p (agentKey agent index ctx)).modField p fun f =>
    { f with resps := f.resps.filter fun r => !(r.agent == agent && r.index == index && r.ctx == ctx) }

/-! Accesses that may reach another part (R329, R350): DMA engines and memory-unit generators. -/

/-- What an access that may be remote comes to: its result, a wait for responses, or a failure. -/
inductive FarEnd (α : Type) where
  | ok (s : State) (a : α)
  | wait (s : State)
  | err (e : AccErr)

/-- The pieces of a VA range that one request each can carry (R353). -/
def farPieces (va n : Nat) : List (Nat × Nat) :=
  if n = 0 then []
  else (List.range ((va + n - 1) / 4096 - va / 4096 + 1)).map fun i =>
    let lo := max va ((va / 4096 + i) * 4096)
    (lo, min (va + n) ((va / 4096 + i + 1) * 4096) - lo)

/-- An agent that reaches other parts: its Field, resident slot, numbers of Table 22-3 and context, and whether its accesses go through the
cache (R240). -/
structure FarAgent where
  p : Nat
  slot : Nat
  agent : Nat
  index : Nat
  c : Nat
  cached : Bool

/-- The pieces of an access of an agent: granules where it goes through the cache. -/
def FarAgent.pieces (x : FarAgent) (va n : Nat) : List (Nat × Nat) := if x.cached then granules va n else farPieces va n

/-- The response of an agent for an address. -/
def State.farGot (s : State) (x : FarAgent) (va : Nat) : Option (List Byte) := (s.respFor x.p x.agent x.index va).map (·.data)

/-- A read of another part for an agent, once its bucket holds the charge. -/
def State.farFetch (s : State) (x : FarAgent) (va off lo n : Nat) : State :=
  if s.bucketReady x.p x.c true n then s.agentRequest x.p x.agent x.index x.c va off (QMsg.request 0x01 (bits lo 50 41) 0 lo 0 n 0 []) else s

/-- Ask for the remote pieces of a range that have no response. The answer tells whether every piece can be had now. -/
def State.farAsk (s : State) (x : FarAgent) (need : Need) : List (Nat × Nat) → List Byte → Acc (State × Bool)
  | [], _ => .ok (s, true)
  | (va, n) :: ps, bs => do
    let (t, cacheable) ← s.translate x.p x.c false need va
    match t with
    | .remote rga =>
      let cached := x.cached && cacheable
      let key := if cached then va / 256 * 256 else va
      if (s.respFor x.p x.agent x.index key).isSome || (cached && (s.lineOf x.p x.slot (rga / 256 * 256)).isSome) then
        State.farAsk s x need ps (bs.drop n)
      else
        let u :=
          if cached then s.farFetch x key (va % 256) (rga / 256 * 256) 256
          else if need.writes then
            (if s.bucketReady x.p x.c true n then
              s.agentRequest x.p x.agent x.index x.c va 0 (QMsg.request 0x02 (bits rga 50 41) 0 rga n 0 0 (bs.take n)) else s)
          else s.farFetch x va 0 (rga / 64 * 64) ((rga + n - 1) / 64 * 64 + 64 - rga / 64 * 64)
        let (v, _) ← State.farAsk u x need ps (bs.drop n)
        .ok (v, false)
    | _ => State.farAsk s x need ps (bs.drop n)

/-- Read pieces whose responses have come, in order. -/
def State.farTake (s : State) (x : FarAgent) : List (Nat × Nat) → Acc (State × List Byte)
  | [] => .ok (s, [])
  | (va, n) :: ps => do
    let (t, cacheable) ← s.translate x.p x.c false .read va
    let (u, a) ← (if x.cached && cacheable then do
        let (u, a) ← s.cachedRead x.p x.c x.slot false (s.farGot x) va n
        .ok (u.takeResp x.p x.agent x.index (va / 256 * 256), a)
      else match t, s.respFor x.p x.agent x.index va with
        | .remote rga, some r => .ok (s.takeResp x.p x.agent x.index va, (r.data.drop (rga % 64)).take n)
        | _, _ => s.pieceRead x.p x.c false va n : Acc (State × List Byte))
    let (v, b) ← State.farTake u x ps
    .ok (v, a ++ b)

/-- Write pieces whose responses have come, in order. -/
def State.farPut (s : State) (x : FarAgent) : List (Nat × Nat) → List Byte → Acc State
  | [], _ => .ok s
  | (va, n) :: ps, bs => do
    let (t, cacheable) ← s.translate x.p x.c false .write va
    let u ← (if x.cached && cacheable then do
        let u ← s.cachedWrite x.p x.c x.slot false (s.farGot x) va (bs.take n)
        .ok (u.takeResp x.p x.agent x.index (va / 256 * 256))
      else match t, s.respFor x.p x.agent x.index va with
        | .remote _, some _ => .ok (s.takeResp x.p x.agent x.index va)
        | _, _ => s.pieceWrite x.p x.c false va (bs.take n) : Acc State)
    State.farPut u x ps (bs.drop n)

/-- An agent of a resident slot, through the cache where it may use it (R240). -/
def State.farAgent (s : State) (p agent index slot : Nat) (cached : Bool) : Option FarAgent :=
  (s.ctxOf p slot).map fun c => { p := p, slot := slot, agent := agent, index := index, c := c, cached := cached && s.cacheOn p slot }

/-- Read a VA range of an agent that may reach other parts. -/
def State.farRead (s : State) (p agent index slot : Nat) (cached : Bool) (va n : Nat) : FarEnd (List Byte) :=
  match s.farAgent p agent index slot cached with
  | none => .err (.xlt Flt.XLT_NOT_PRESENT va 0 false)
  | some x =>
    match s.farAsk x .read (x.pieces va n) [] with
    | .error e => .err e
    | .ok (t, false) => .wait t
    | .ok (t, true) => match t.farTake x (x.pieces va n) with
      | .error e => .err e
      | .ok (u, bs) => .ok u bs

/-- Write a VA range of an agent that may reach other parts. -/
def State.farWrite (s : State) (p agent index slot : Nat) (cached : Bool) (va : Nat) (bs : List Byte) : FarEnd Unit :=
  match s.farAgent p agent index slot cached with
  | none => .err (.xlt Flt.XLT_NOT_PRESENT va 0 true)
  | some x =>
    match s.farAsk x .write (x.pieces va bs.length) bs with
    | .error e => .err e
    | .ok (t, false) => .wait t
    | .ok (t, true) => match t.farPut x (x.pieces va bs.length) bs with
      | .error e => .err e
      | .ok u => .ok u ()

/-- A local access as one that may be remote. -/
def FarEnd.ofRead : Acc (State × List Byte) → FarEnd (List Byte)
  | .ok (t, bs) => .ok t bs
  | .error e => .err e

/-- A local write as one that may be remote. -/
def FarEnd.ofWrite : Acc State → FarEnd Unit
  | .ok t => .ok t ()
  | .error e => .err e

/-! Reduction trees between parts (R356, R357). -/

/-- The port of this part that has a node of a tree enabled, port `n` where none has (R356). -/
def State.portOfNode (s : State) (n tree node : Nat) : Nat :=
  ((List.range 4).find? fun q => (List.range 64).any fun k => s.on (Reg.QPL_RNODE_CFG_EN q k) &&
    s.get (Reg.QPL_RNODE_KEY_TREE q k) == tree && s.get (Reg.QPL_RNODE_KEY_NODE q k) == node).getD n

/-- The bytes of an element of a format. -/
def redWidth (fmt : Nat) : Nat := if fmt = fmtBF16 then 2 else 4

/-- Element `i` of operand data. -/
def redGet (fmt : Nat) (bs : List Byte) (i : Nat) : Nat := leNat ((bs.drop (redWidth fmt * i)).take (redWidth fmt))

/-- Clamp bit of element `i` of INT32 operand data of `count` elements (R357). -/
def redClamp (bs : List Byte) (count i : Nat) : Bool := bit (leNat ((bs.drop (4 * count + i / 8)).take 1)) (i % 8)

/-- Bytes of the clamp map of `count` elements, padded to 16. -/
def clampMapBytes (bits' : List Bool) : List Byte :=
  let n := (bits'.length + 127) / 128 * 16
  leBytes n (bits'.foldr (fun b acc => b2n b + 2 * acc) 0)

/-- The bytes of operand data of `count` elements of a format (R357). -/
def redLen (fmt count : Nat) : Nat := redWidth fmt * count + (if fmt = fmtINT32 then (count + 127) / 128 * 16 else 0)

/-- A REDUCE message (Table 15-4); the root's has node index 63 and names the Field. Log entry 84 (DESIGN CHOICE, unsafe). -/
def QMsg.reduce (src dev dstLf tree node side gen fmt off count : Nat) (bs : List Byte) : QMsg :=
  { QMsg.request 0x07 dev dstLf 0 bs.length (tree + 2 ^ 16 * node + 2 ^ 22 * side + 2 ^ 23 * gen + 2 ^ 27 * fmt) (off + 2 ^ 32 * count) bs with
    tag := 0xFFFF, srcDev := src }

/-- The node index of a result for a root Field. -/
def redRoot : Nat := 63

end Sys2Proof.Machine
end

