-- ==== Sys2Proof/Machine/ChannelOps.lean ====
section
/-!
DEFINITION. The operations of the channel unit that several commands share: hurdles (R270 to R277) and channel rings
(R252 to R264, R269).
-/

namespace Sys2Proof.Machine

/-- Change the channel-unit state of a Field. -/
def State.modCh (s : State) (p : Nat) (g : ChState → ChState) : State := s.modField p fun f => { f with ch := g f.ch }

/-- Record a fault of the channel unit of Field `p`, with LAST_FAULT of `FLD_CH_STATUS` (R278). -/
def State.chFault (s : State) (p : Nat) (ctx : Option Nat) (code detail : Nat) : State :=
  (s.put (Reg.FLD_CH_STATUS_LAST_FAULT p) code).fieldFault p 9 0 ctx code detail

/-! Hurdles. -/

/-- The hurdle map entry of a virtual id, as read at heat start; zero, so not VALID, outside a heat (R271). -/
def State.hurdleEntry (s : State) (p slot vid : Nat) : Nat :=
  Tab.get (fun _ => 0) (s.field p).ch.hmap (1024 * slot + vid)

/-- The outcome of naming a hurdle (R271). -/
inductive HurdleRef where
  | unmapped
  | here (p h : Nat)
  | remote (dev lf idx gen : Nat)
  deriving DecidableEq, Repr

/-- The hurdle a virtual id of a resident slot names (R271, Table 11-3). -/
def State.hurdleRef (s : State) (p slot vid : Nat) : HurdleRef :=
  let e := s.hurdleEntry p slot vid
  if !bit e 0 then .unmapped
  else if bit e 1 then .remote (bits e 25 16) (bits e 7 2) (bits e 15 8) (bits e 47 32)
  else match s.physOf (bits e 7 2), s.ctxOf p slot with
    | some q, some c =>
      let h := bits e 15 8
      if s.on (Reg.FLD_HRD_STATE_EN q h) && s.get (Reg.FLD_HRD_STATE_OWNER q h) == c then .here q h else .unmapped
    | _, _ => .unmapped

/-- Waiters of hurdle `h` held by Field `q`. -/
def State.waitersOf (s : State) (q h : Nat) : List Waiter := (s.field q).ch.waiters.filter (·.hurdle == h)

/-- Show the number of waiters (WAITERS). -/
def State.showWaiters (s : State) (q h : Nat) : State :=
  s.put (Reg.FLD_HRD_STATE_WAITERS q h) (s.waitersOf q h).length

/-- ARRIVE(a) at hurdle `h` of Field `q` (R272), for a context whose agent's fault is recorded at Field `p`. -/
def State.hurdleArrive (s : State) (q h a p : Nat) (ctx : Option Nat) : State :=
  let n := s.get (Reg.FLD_HRD_STATE_COUNT q h)
  if s.get (Reg.FLD_HRD_CFG_EXPECTED q h) < n + a then
    (s.put (Reg.FLD_HRD_STATE_OVER q h) 1).chFault p ctx Flt.HURDLE_OVER h
  else s.put (Reg.FLD_HRD_STATE_COUNT q h) (n + a)

/-- CLAIM(n): it subtracts at once, or faults where COUNT is below n or a waiter is queued (R272). -/
def State.hurdleClaim (s : State) (q h n p : Nat) (ctx : Option Nat) : State :=
  let c := s.get (Reg.FLD_HRD_STATE_COUNT q h)
  if c < n ∨ s.waitersOf q h ≠ [] then
    (s.put (Reg.FLD_HRD_STATE_UNDER q h) 1).chFault p ctx Flt.HURDLE_UNDER h
  else s.put (Reg.FLD_HRD_STATE_COUNT q h) (c - n)

/-- A message of the channel unit of Field `p` for a context waits behind those that wait already. -/
def State.outPut (s : State) (p index c : Nat) (m : QMsg) : State :=
  (s.bumpFresh).modCh p fun x =>
    { x with outbound := x.outbound ++ [({ field := p, agent := 9, index := index, ctx := c, va := 2 ^ 50 + s.fresh, off := 0 }, m)] }

/-- A message of the channel unit, or a write of the cache, that cannot be sent (R369). -/
def State.outFault (s : State) (p : Nat) (u : QUser) (code detail : Nat) : State :=
  if u.agent = cacheAgent then s.fieldFault p 4 0 (some u.ctx) code detail else s.chFault p (some u.ctx) code detail

/-- Codes of hurdle operations that wait for a way to another Field of the part, beside the messages that wait for a way to another part. -/
def heldArrive : Nat := 0x106
def heldClaim : Nat := 0x107

/-- A hurdle operation of a context at Field `p` on hurdle `h` of Field `q`. -/
def State.hurdleOp (s : State) (op q h a p : Nat) (ctx : Option Nat) : State :=
  if op = heldClaim then s.hurdleClaim q h a p ctx else s.hurdleArrive q h a p ctx

/-- Requests of a Field that waited for a way, a tag or a window leave in order (R54, R350, R367), and hurdle operations for another Field of the
part with them. -/
def State.flushOutbound (s : State) (p : Nat) : State :=
  match (s.field p).ch.outbound with
  | [] => s
  | (u, m) :: rest =>
    let t := s.modCh p fun x => { x with outbound := rest }
    if m.op = heldArrive ∨ m.op = heldClaim then
      (if s.wayOpen u.ctx (quadOfField p) (quadOfField m.dstLf) then t.hurdleOp m.op m.dstLf m.arg0 m.arg1 p (some u.ctx) else s)
    else if !s.wayOpen u.ctx (quadOfField p) (s.get (Reg.QPL_ROUTE_PORT 0 m.dstDev)) then s
    else match s.qplRequest u m with
    | .sent v => v.modCh p fun x => { x with outbound := rest }
    | .wait => s
    | .fault code => t.outFault p u code m.rga

/-- Send a message, behind those that wait. -/
def State.outSend (s : State) (p index c : Nat) (m : QMsg) : State :=
  if (s.field p).ch.outbound.isEmpty then (s.outPut p index c m).flushOutbound p else s.outPut p index c m

/-- Send an arrival to another part (R277), or hold it until a way, a tag and the window allow it. -/
def State.arriveRemote (s : State) (p dev lf idx gen a c : Nat) : State :=
  s.outSend p 0 c (QMsg.request 0x06 dev lf 0 0 (gen % 65536 + 65536 * idx) a [])

/-- A hurdle operation crosses to the Field that holds the hurdle, in issue order, once traffic passes there (R54, R274). -/
def State.hurdleSend (s : State) (op q h a p : Nat) (ctx : Option Nat) : State :=
  if quadOfField p = quadOfField q then s.hurdleOp op q h a p ctx
  else s.outSend p 0 (ctx.getD 0) (QMsg.request op 0 q 0 0 h a [])

/-- ARRIVE(a) through a virtual id of a resident slot (R271, R272, R273, R277). -/
def State.arriveVid (s : State) (p slot vid a : Nat) : State :=
  match s.hurdleRef p slot vid with
  | .unmapped => s.chFault p (s.ctxOf p slot) Flt.HURDLE_UNMAPPED vid
  | .here q h => s.hurdleSend heldArrive q h a p (s.ctxOf p slot)
  | .remote dev lf idx gen => s.arriveRemote p dev lf idx gen a ((s.ctxOf p slot).getD 0)

/-- CLAIM(n) through a virtual id (R271, R272). -/
def State.claimVid (s : State) (p slot vid n : Nat) : State :=
  match s.hurdleRef p slot vid with
  | .here q h => s.hurdleSend heldClaim q h n p (s.ctxOf p slot)
  | _ => s.chFault p (s.ctxOf p slot) Flt.HURDLE_UNMAPPED vid

/-- What a WAIT finds at issue. -/
inductive WaitStart where
  | refused (s : State)
  | done (s : State)
  | queued (s : State)
  | held
  deriving Repr

/-- Does an operation of Field `p` at hurdle `h` of Field `q` still wait for its way (R54, R274)? -/
def State.opHeld (s : State) (p q h : Nat) : Bool :=
  (s.field p).ch.outbound.any fun e => (e.2.op == heldArrive || e.2.op == heldClaim) && e.2.dstLf == q && e.2.arg0 == h

/-- WAIT(n) of a port of Field `p` (R54, R272, R274): refused above EXPECTED, complete at once for 0, held while the holding Field
has no free waiter entry or cannot be reached, or an operation at the hurdle issued before it still waits for its way, otherwise queued. -/
def State.waitVid (s : State) (p slot port vid n : Nat) : WaitStart :=
  match s.hurdleRef p slot vid with
  | .here q h =>
    if s.get (Reg.FLD_HRD_CFG_EXPECTED q h) < n then
      .refused ((s.put (Reg.FLD_HRD_STATE_UNDER q h) 1).chFault p (s.ctxOf p slot) Flt.HURDLE_UNDER h)
    else if n = 0 then .done s
    else if 64 ≤ (s.field q).ch.waiters.length || !s.wayOpen ((s.ctxOf p slot).getD 0) (quadOfField p) (quadOfField q) || s.opHeld p q h then .held
    else
      let w : Waiter := { hurdle := h, field := p, port := port, ctx := (s.ctxOf p slot).getD 0, n := n }
      .queued ((s.modCh q fun x => { x with waiters := x.waiters ++ [w] }).showWaiters q h)
  | _ => .refused (s.chFault p (s.ctxOf p slot) Flt.HURDLE_UNMAPPED vid)

/-- The waiter at the head of hurdle `h` finds COUNT large enough, subtracts n and completes (R272). Its source sees the
completion in `done`. -/
def State.waitComplete (s : State) (q h : Nat) : State :=
  match s.waitersOf q h with
  | [] => s
  | w :: _ =>
    let n := s.get (Reg.FLD_HRD_STATE_COUNT q h)
    if n < w.n then s
    else
      let t := s.put (Reg.FLD_HRD_STATE_COUNT q h) (n - w.n)
      let u := (t.modCh q fun x => { x with waiters := dropFirst (· == w) x.waiters }).showWaiters q h
      u.modCh w.field fun x => { x with done := x.done ++ [w] }

/-! Rings of receive channels. -/

/-- Span of a record with a payload of `len` bytes (R255). -/
def recSpan (len : Nat) : Nat := (16 + len + 31) / 32 * 32

/-- Ring size of receive channel `n`. -/
def State.ringSize (s : State) (p n : Nat) : Nat := 2 ^ s.get (Reg.FLD_CH_RX_STATE_SIZE_LOG2 p n)

/-- Bytes of the ring that RPTR has not passed. -/
def State.ringUsed (s : State) (p n : Nat) : Nat :=
  let r := s.ringSize p n
  (s.get (Reg.FLD_CH_WPTR_WPTR p n) + r - s.get (Reg.FLD_CH_RPTR_RPTR p n)) % r

/-- What receive channel `n` holds beside its registers. -/
def State.rxChan (s : State) (p n : Nat) : Option RxChan :=
  ((s.field p).ch.rx.find? fun e => e.1 == n).map (·.2)

/-- What send endpoint `n` holds beside its register. -/
def State.txChan (s : State) (p n : Nat) : Option TxChan :=
  ((s.field p).ch.tx.find? fun e => e.1 == n).map (·.2)

/-- Replace what a send endpoint holds. -/
def State.setTx (s : State) (p n : Nat) (t : TxChan) : State :=
  s.modCh p fun x => { x with tx := x.tx.filter (·.1 != n) ++ [(n, t)] }

/-- Replace what a receive channel holds. -/
def State.setRx (s : State) (p n : Nat) (t : RxChan) : State :=
  s.modCh p fun x => { x with rx := x.rx.filter (·.1 != n) ++ [(n, t)] }

/-- The 16-byte record header of Table 11-2. -/
def recHeader (typ seq len chId sender tag : Nat) (remote : Bool) : List Byte :=
  leBytes 1 typ ++ leBytes 1 (b2n remote) ++ leBytes 2 seq ++ leBytes 4 len ++ leBytes 2 chId ++ leBytes 2 sender ++ leBytes 4 tag

/-- The bytes of a whole record: header, payload, zeros to the end of its span (R255). -/
def recBytes (typ seq len chId sender tag : Nat) (remote : Bool) (payload : List Byte) : List Byte :=
  padTo (recSpan len) (recHeader typ seq len chId sender tag remote ++ payload)

/-- Is a channel a member's ready channel: its RPTR differs from its WPTR (R264)? -/
def State.chReady (s : State) (p n : Nat) : Bool :=
  s.on (Reg.FLD_CH_RX_STATE_OPEN p n) && s.get (Reg.FLD_CH_RPTR_RPTR p n) != s.get (Reg.FLD_CH_WPTR_WPTR p n)

/-- The channel a select group chooses (R264): strict priority, or round robin after the one last chosen. Log entry 72 (DESIGN CHOICE, unsafe). -/
def State.selChoice (s : State) (p g : Nat) : Option Nat :=
  let mask := s.get (Reg.FLD_CH_SEL_MASK_MASK p g)
  let ready := (List.range 32).filter fun n => bit mask n && s.chReady p n
  if s.on (Reg.FLD_CH_SEL_CTRL_MODE p g) then
    let last := Tab.get (fun _ => 31) (s.field p).ch.selLast g
    match ready.find? fun n => decide (last < n) with
    | some n => some n
    | none => ready.head?
  else
    (List.range 8).reverse.findSome? fun pr => ready.find? fun n => s.get (Reg.FLD_CH_RX_STATE_PRIORITY p n) == pr

/-- Show every group's choice (NEXT_VALID, NEXT_CH). -/
def State.selShow (s : State) (p : Nat) : State :=
  (List.range 4).foldl (fun t g =>
    match s.selChoice p g with
    | some n => (t.put (Reg.FLD_CH_SEL_CTRL_NEXT_VALID p g) 1).put (Reg.FLD_CH_SEL_CTRL_NEXT_CH p g) n
    | none => t.put (Reg.FLD_CH_SEL_CTRL_NEXT_VALID p g) 0) s

/-- Write bytes into the ring of a receive channel at a ring offset. The windows of its context bound it (R237); an access
that does not take place leaves the state. -/
def State.ringPut (s : State) (p n woff : Nat) (bs : List Byte) : Acc State :=
  match s.rxChan p n with
  | none => .ok s
  | some r => s.fmWrite p (some (s.get (Reg.FLD_CH_RX_STATE_CTX p n))) (r.ringOff + woff) bs

/-- A PAD of a whole span (R255, R260), of a channel whose sender is on another part or on this one. -/
def padRecord (span chId sender : Nat) (remote : Bool) : List Byte :=
  padTo (min span 32) (recHeader 2 0 span chId sender 0 remote)

/-- Change what a receive channel holds. -/
def State.modRx (s : State) (p n : Nat) (g : RxChan → RxChan) : State :=
  s.modCh p fun x => { x with rx := x.rx.map fun e => if e.1 == n then (n, g e.2) else e }

/-- RPTR at a PAD moves to 0 at once, and the PAD's bytes are returned with the rest (R263). -/
def State.padSkip (s : State) (p n : Nat) : State :=
  match s.rxChan p n with
  | none => s
  | some r =>
    let rp := s.get (Reg.FLD_CH_RPTR_RPTR p n)
    if decide (rp ≠ s.get (Reg.FLD_CH_WPTR_WPTR p n)) && s.mem.read (fmLoc p (r.ringOff + rp)) == (2 : Byte) then
      (s.put (Reg.FLD_CH_RPTR_RPTR p n) 0).modRx p n fun x => { x with owed := x.owed + (s.ringSize p n - rp) }
    else s

/-- WPTR advances over what memory has accepted (R256). -/
def State.ringWritten (s : State) (p n w : Nat) : State := ((s.put (Reg.FLD_CH_WPTR_WPTR p n) w).padSkip p n).selShow p

/-- What a record finds at its ring: no space; a PAD has gone in before it and WPTR is 0; or it has entered. -/
inductive RingStep where
  | full
  | padded (s : State)
  | entered (s : State)

/-- Is a record the PAD of the rest of a ring (R255, R260)? -/
def isPadOf (contig : Nat) (bs : List Byte) : Bool :=
  decide (bs.length = 32) && leNat (bs.take 1) == 2 && leNat ((bs.drop 4).take 4) == contig

/-- A record enters the ring at WPTR (R256, R260): after a PAD where it would run past the end. Where PAD and record can never be free at once
the PAD goes in alone. -/
def State.ringEnter (s : State) (p n : Nat) (bs : List Byte) : Acc RingStep := do
  let ring := s.ringSize p n
  let w := s.get (Reg.FLD_CH_WPTR_WPTR p n)
  let free := ring - 32 - s.ringUsed p n
  let contig := ring - w
  let pad := padRecord contig (leNat ((bs.drop 8).take 2)) (leNat ((bs.drop 10).take 2)) (leNat ((bs.drop 1).take 1) % 2 == 1)
  if isPadOf contig bs then
    if contig ≤ free then
      let t ← s.ringPut p n w pad
      .ok (.entered (t.ringWritten p n 0))
    else .ok .full
  else if bs.length ≤ contig then
    if bs.length ≤ free then
      let t ← s.ringPut p n w bs
      .ok (.entered (t.ringWritten p n ((w + bs.length) % ring)))
    else .ok .full
  else if contig + bs.length ≤ free then
    let t ← s.ringPut p n w pad
    let u ← t.ringPut p n 0 bs
    .ok (.entered (u.ringWritten p n bs.length))
  else if ring - 32 < contig + bs.length ∧ contig ≤ free then
    let t ← s.ringPut p n w pad
    .ok (.padded (t.ringWritten p n 0))
  else .ok .full

/-- A record lands in a receive channel: in the ring, or behind the records that wait in Silt (R217, R261). -/
def State.landRecord (s : State) (p n : Nat) (bs : List Byte) : Acc State := do
  let held (t : State) : State := t.modRx p n fun r => { r with silt := r.silt ++ [bs] }
  match s.rxChan p n with
  | none => .ok s
  | some r =>
    if r.silt ≠ [] then .ok (held s)
    else
      match ← s.ringEnter p n bs with
      | .entered t => .ok t
      | .full => .ok (held s)
      | .padded t =>
        match ← t.ringEnter p n bs with
        | .entered u => .ok u
        | .padded u => .ok (held u)
        | .full => .ok (held t)

/-- Records that wait in Silt enter the ring in order while it has space (R217); one whose bank sleeps waits on while it wakes. -/
def State.siltToRing (s : State) (p n : Nat) : Nat → State
  | 0 => s
  | fuel + 1 =>
    match (s.rxChan p n).bind (·.silt.head?) with
    | none => s
    | some bs =>
      let pop (t : State) : State := t.modRx p n fun r => { r with silt := r.silt.drop 1 }
      match s.ringEnter p n bs with
      | .ok (.entered t) => State.siltToRing (pop t) p n fuel
      | .ok (.padded t) => State.siltToRing t p n fuel
      | .ok .full => s
      | .error e =>
        if e.waits then s.wakeFor e
        else (pop s).chFault p (s.ctxOf p (s.get (Reg.FLD_CH_RX_STATE_CTX p n))) Flt.FM_PROTECT (((s.rxChan p n).map (·.ringOff)).getD 0)

/-- A channel of this part: the physical Field of its other end. -/
def State.rxSender (s : State) (r : RxChan) : Option Nat := if r.remote then none else s.physOf r.txLf

/-- Free the send endpoint of a channel. -/
def State.txFree (s : State) (p n : Nat) : State :=
  ((s.puts [(Reg.FLD_CH_TX_STATE_OPEN p n, 0), (Reg.FLD_CH_TX_STATE_CLOSING p n, 0), (Reg.FLD_CH_TX_STATE_WAITING p n, 0)]).modCh p
    fun x => { x with tx := x.tx.filter (·.1 != n) }).routesDrop fun r => r.user == .chan p (32 + n) false || r.user == .chan p (32 + n) true

/-- A channel that is CLOSING frees both its ends once RPTR equals WPTR with no record in flight (R269). -/
def State.chTryFree (s : State) (p n : Nat) : State :=
  match s.rxChan p n with
  | none => s
  | some r =>
    let idle :=
      if r.remote then r.farIdle
      else match (s.rxSender r).bind fun q => s.txChan q r.txIdx with
      | some t => t.queue.isEmpty
      | none => true
    if s.on (Reg.FLD_CH_RX_STATE_CLOSING p n) && decide (s.ringUsed p n = 0) && r.silt.isEmpty && idle then
      let t := (((s.puts [(Reg.FLD_CH_RX_STATE_OPEN p n, 0), (Reg.FLD_CH_RX_STATE_CLOSING p n, 0), (Reg.FLD_CH_RX_STATE_EXTENDED p n, 0)]).modCh p
        fun x => { x with rx := x.rx.filter (·.1 != n) }).selShow p).routesDrop fun x => x.user == .chan p n false || x.user == .chan p n true
      match s.rxSender r with
      | some q => t.txFree q r.txIdx
      | none => t
    else s

/-- The receiver releases records up to a ring offset (R258, R263): the bytes passed over are owed to the sender. -/
def State.rptrAdvance (s : State) (p n v : Nat) : State :=
  match s.rxChan p n with
  | none => s
  | some r =>
    let ring := s.ringSize p n
    let rp := s.get (Reg.FLD_CH_RPTR_RPTR p n)
    let t := (s.put (Reg.FLD_CH_RPTR_RPTR p n) v).setRx p n { r with owed := r.owed + (v + ring - rp) % ring }
    (((t.padSkip p n).siltToRing p n 4096).chTryFree p n).selShow p

/-! Sending. -/

/-- The check of a record at a send endpoint (R259, R262, R269): the fault, or none. -/
def State.sendCheck (s : State) (p n typ len : Nat) : Option Nat :=
  match s.txChan p n with
  | none => some Flt.CH_CLOSED
  | some t =>
    if !s.on (Reg.FLD_CH_TX_STATE_OPEN p n) || s.on (Reg.FLD_CH_TX_STATE_CLOSING p n) then some Flt.CH_CLOSED
    else if typ ≠ 1 ∧ typ ≠ 2 then some Flt.CH_MALFORMED
    else if 65520 < len ∨ 2 ^ t.sizeLog2 - 32 < recSpan len ∨ 65536 < recSpan len then some Flt.MSG_TOO_LARGE
    else none

/-- CHANNEL_ID of a channel: RX_IDX and generation (Table 11-2). -/
def TxChan.chId (t : TxChan) : Nat := t.rxIdx + 32 * t.gen

/-- SENDER of a record that leaves Field `p` (Table 11-2). -/
def State.senderOf (s : State) (p : Nat) : Nat := (s.lfieldOf p).getD 0 + 64 * s.deviceId

/-- Credit of an endpoint in bytes. -/
def State.txCredit (s : State) (p n : Nat) : Nat := 32 * s.get (Reg.FLD_CH_TX_STATE_CREDIT p n)

/-- Set the credit of an endpoint in bytes. -/
def State.setTxCredit (s : State) (p n v : Nat) : State := s.put (Reg.FLD_CH_TX_STATE_CREDIT p n) (v / 32)

/-- A record, or a PAD that goes in alone, leaves for the receiver of a remote channel as a MSG (R266). Log entry 144 (DEDUCED, unsafe). -/
def State.msgOut (s : State) (p n : Nat) (t : TxChan) (tag : Nat) (bs : List Byte) : State :=
  s.outPut p n (s.get (Reg.FLD_CTX_MAP_CTX_ID p (s.get (Reg.FLD_CH_TX_STATE_CTX p n)))) (QMsg.request 0x05 t.rxDev t.rxLf 0 bs.length t.chId tag bs)

/-- Claim the span of the record at the head of an endpoint's queue by the rule of R260, as far as the credit goes. -/
def State.txClaim (s : State) (p n : Nat) (t : TxChan) (r : ChRecord) : Acc State := do
  let ring := 2 ^ t.sizeLog2
  let span := recSpan r.len
  let contig := ring - t.woff
  let credit := s.txCredit p n
  let rest := t.queue.drop 1
  if span ≤ contig then
    if span ≤ credit then
      .ok (((s.setTxCredit p n (credit - span)).put (Reg.FLD_CH_TX_STATE_WAITING p n) 0).setTx p n
        { t with woff := (t.woff + span) % ring, queue := { r with claimed := true } :: rest })
    else .ok (s.put (Reg.FLD_CH_TX_STATE_WAITING p n) 1)
  else if contig + span ≤ t.limit then
    if contig + span ≤ credit then
      .ok (((s.setTxCredit p n (credit - contig - span)).put (Reg.FLD_CH_TX_STATE_WAITING p n) 0).setTx p n
        { t with woff := span, queue := { r with claimed := true, padFirst := true } :: rest })
    else .ok (s.put (Reg.FLD_CH_TX_STATE_WAITING p n) 1)
  else if contig ≤ credit then
    let pad := padRecord contig t.chId (s.senderOf p) t.remote
    let u ← (if t.remote then .ok (s.msgOut p n t 0 (padTo contig pad))
      else match s.physOf t.rxLf with
        | some q => s.landRecord q t.rxIdx pad
        | none => .ok s)
    .ok ((u.setTxCredit p n (credit - contig)).setTx p n { t with woff := 0 })
  else .ok (s.put (Reg.FLD_CH_TX_STATE_WAITING p n) 1)

/-- A claimed record whose payload is complete is written into its ring, or sent to another part as a MSG (R256, R262,
R266). Its SEQ16 is the channel's next (R257). -/
def State.txLand (s : State) (p n : Nat) (t : TxChan) (r : ChRecord) : Acc State := do
  let bs := recBytes r.typ (if r.typ = 2 then 0 else t.seq) r.len t.chId (s.senderOf p) r.tag t.remote r.payload
  let t' := { t with seq := if r.typ = 2 then t.seq else (t.seq + 1) % 65536, queue := t.queue.drop 1 }
  let s1 ← (if t.remote then .ok (s.msgOut p n t r.tag bs)
    else match s.physOf t.rxLf with
      | some q => s.landRecord q t.rxIdx bs
      | none => .ok s)
  .ok ((s1.setTx p n t').put (Reg.FLD_CH_STATUS_BUSY p) (if r.fromCore then 0 else s1.get (Reg.FLD_CH_STATUS_BUSY p)))

/-- Records that wait in Silt before those of an endpoint of this part go on first (R217). -/
def State.txSilt (s : State) (t : TxChan) : State :=
  match (if t.remote then none else s.physOf t.rxLf) with
  | some q => s.siltToRing q t.rxIdx 4096
  | none => s

/-- Does the route of an endpoint carry traffic (R54, R55)? -/
def State.txWay (s : State) (p n : Nat) (t : TxChan) : Bool :=
  if t.remote then s.routeUp (.chan p (32 + n) false)
  else match s.physOf t.rxLf with
  | some q => s.routeUp (.chan q t.rxIdx false)
  | none => true

/-- Move the record at the head of an endpoint's queue on (R54, R256, R260, R261): claim its span, and write it once complete. -/
def State.txAdvance (s : State) (p n : Nat) : Acc State := do
  match s.txChan p n with
  | none => .ok s
  | some t =>
    if !s.txWay p n t then .ok s
    else
    let s := s.txSilt t
    match t.queue.head? with
    | none => .ok s
    | some r =>
      let s1 ← (if r.claimed then .ok s else s.txClaim p n t r)
      match s1.txChan p n with
      | none => .ok s1
      | some t1 =>
        match t1.queue.head? with
        | none => .ok s1
        | some r1 => if r1.claimed && decide (r1.len ≤ r1.payload.length) then s1.txLand p n t1 r1 else .ok s1

end Sys2Proof.Machine
end

