-- ==== Sys2Proof/Machine/FieldMem.lean ====
section
/-!
DEFINITION. Field memory and memory-unit storage (chapter 10): bank accesses, bank power states, slice modes, the cache and
its range operations, and the patrol scrubber.
-/

namespace Sys2Proof.Machine

/-! ECC events (R243, R244). -/

/-- Location and counts of a corrected word of Field memory or MU storage (R243). -/
def State.fmCorrected (s : State) (p addr : Nat) (byScrub : Bool) : State :=
  let mu := decide (2 ^ 45 ≤ addr)
  ((s.wearNote (wearField p)).puts [(Reg.FLD_FM_ECC_STATUS_CORR_SEEN p, 1), (Reg.FLD_FM_ECC_STATUS_SRC p, b2n mu),
    (Reg.FLD_FM_ECC_STATUS_BY_SCRUB p, b2n byScrub),
    (Reg.FLD_FM_ECC_STATUS_WORD p,
      if mu then bits (addr - 2 ^ 45) 21 18 * 2 ^ 15 + bits addr 17 5 else bits addr 23 5)]).count48
    (Reg.aFLD_FM_ECC_CORR_LO p) 1

/-- What firmware does about an uncorrectable word that the scrubber found (R244, R246): the current heat of every context
whose windows hold it becomes uncommittable; a word in no context's windows is zeroed with a MIN alarm. -/
def State.fmBadFound (s : State) (p addr : Nat) : State :=
  (s.wordOwners p addr).foldl (fun t c => t.uncommit c Flt.FM_UNCORR) (s.fmOrphan p addr)

/-! Banks (R235, R236, R247 to R250). -/

/-- The contender a bank grants: the next after the one it granted last in rotation; the scrubber ranks last (R236). Log entry 72 (DESIGN CHOICE, unsafe). -/
def bankGrant (last : Nat) (rs : List BankReq) : Option BankReq :=
  match (List.range 8).findSome? fun i => rs.find? fun r => r.rank.val == (last + 1 + i) % 8 with
  | some r => some r
  | none => rs.head?

/-- Data of the last access of a bank, for its consumer. -/
def State.fmDeliver (s : State) (p : Nat) (bs : List Byte) : State := s.modFm p fun f => { f with lastRead := bs }

/-- Bytes of an access of a bank. -/
def bankReqLen (r : BankReq) : Nat := if r.write then r.data.length else r.len

/-- Count an outstanding transaction of the banks of an access up or down; those of DMA engines are not counted (R248). -/
def State.outstanding (s : State) (p : Nat) (r : BankReq) (up : Bool) : State :=
  if r.agent.val = 5 then s
  else (banksOf r.off (bankReqLen r)).foldl (fun t b => t.modFm p fun f =>
    let n := Tab.get (fun _ => 0) f.outst b
    { f with outst := Tab.set (fun _ => 0) f.outst b (if up then n + 1 else n - 1) }) s

/-- A fault of an access of a bank: of the operation of its context, or of one that serves none. -/
def State.bankFault (s : State) (p : Nat) (r : BankReq) (code detail : Nat) : State :=
  match r.slot with
  | some c => s.agentFault p r.agent r.index (s.get (Reg.FLD_CTX_MAP_CTX_ID p c)) code detail
  | none => s.fieldFault p r.agent r.index none code detail

/-- What the code finds in the word at an address: a corrected word is counted and located, an uncorrectable one is marked (R243, R244). -/
def State.fmEcc (s : State) (p addr : Nat) : Ecc → State
  | .good => s
  | .corrected => s.fmCorrected p (eccWord addr) false
  | .uncorrectable => s.markBad (eccWord addr) true

/-- What the code finds in the words of an access that reads `[a, a + n)`, each verdict by the place of its word among them; words without one
are good (R243, R244). -/
def State.fmEccs (s : State) (p a n : Nat) (es : List (Fin 8 × Ecc)) : State :=
  es.foldl (fun t e => match (eccWords a n)[e.1.val]? with
    | some w => t.fmEcc p w e.2
    | none => t) s

/-- What the code finds in the words that a write of `[a, a + n)` covers only in part and so reads. -/
def State.fmEccsPart (s : State) (p a n : Nat) (es : List (Fin 8 × Ecc)) : State :=
  s.fmEccs p a n (es.filter fun e => match (eccWords a n)[e.1.val]? with
    | some w => !coversWord a n w
    | none => false)

/-- Serve the access a bank has granted (R235, R237, R243, R244, R248, R249). -/
def State.bankServe (s : State) (p : Nat) (r : BankReq) : State :=
  let a := fmLoc p r.off
  match s.windowCheck p (r.slot.map (·.val)) r.off (bankReqLen r) with
  | .error _ => s.bankFault p r Flt.FM_PROTECT r.off
  | .ok _ =>
    match s.sleepingBank? p r.off (bankReqLen r) with
    | some b => ((s.wakeBank p b r.write).outstanding p r true).modFm p fun f => { f with held := f.held ++ [r] }
    | none =>
      let u := s.touchBanks p r.off (bankReqLen r)
      let t := if r.write then u.fmEccsPart p a (bankReqLen r) r.eccs else u.fmEccs p a (bankReqLen r) r.eccs
      match (if r.write then t.badPartial? a (bankReqLen r) else t.badWord? a (bankReqLen r)) with
      | some w => ((t.fmUncorrSeen p w false).bankFault p r Flt.FM_UNCORR (bits w 23 0)).fmOrphan p w
      | none => if r.write then t.mwrite a r.data else t.fmDeliver p (t.mread a (bankReqLen r))

/-- BANK_ACCESS: a bank grants one of the accesses that want it in a step and serves it (R235, R236). Log entry 73 (DESIGN CHOICE, safe). -/
def State.bankAccess (s : State) (p b : Nat) (rs : List BankReq) : State :=
  let here := rs.filter fun r => bankOf r.off == b
  match bankGrant (Tab.get (fun _ => 7) (s.field p).fm.lastGrant b) here with
  | none => s
  | some r =>
    let t := if r.rank.val < 8 then
        s.modFm p fun f => { f with lastGrant := Tab.set (fun _ => 7) f.lastGrant b r.rank.val }
      else s
    t.bankServe p r

def execBankAccess (p : Fin 72) (b : Fin 64) (rs : List BankReq) (s : State) : Host.Outcome State Fault Refusal :=
  answer (s.bankAccess p b rs)

/-- Zero every row of a bank (R250). -/
def State.zeroBank (s : State) (p b : Nat) : State :=
  let here (a : Nat) : Bool := decide (fmLoc p 0 ≤ a ∧ a < fmLoc (p + 1) 0) && bankOf (a - fmLoc p 0) == b
  { s with mem := s.mem.filter fun c => !here c.1, bad := s.bad.filter fun c => !here c.1 }

/-- Perform the accesses held for a bank whose banks are all awake, in order; the others wake the next of theirs (R249). -/
def State.bankRelease (s : State) (p b : Nat) : State :=
  let here (r : BankReq) : Bool := (banksOf r.off (bankReqLen r)).contains b
  let goes (r : BankReq) : Bool := here r && (s.sleepingBank? p r.off (bankReqLen r)).isNone
  let hs := (s.field p).fm.held
  let t := s.modFm p fun f => { f with held := hs.filter fun r => !goes r }
  let u := (hs.filter goes).foldl (fun u r => (u.outstanding p r false).bankServe p r) t
  (hs.filter fun r => here r && !goes r).foldl (fun u r => match u.sleepingBank? p r.off (bankReqLen r) with
    | some x => u.wakeBank p x r.write
    | none => u) u

/-- The state a bank is asked for: cache banks take RETENTION and OFF as AUTO (R247). Codes of REQ: 0 ACTIVE, 1 AUTO,
2 RETENTION, 3 OFF. -/
def State.bankRequest (s : State) (p b : Nat) : Nat :=
  let r := s.get (Reg.FLD_FM_BANK_PWR_REQ p (b / 16) (b % 16))
  if bit (s.get (Reg.FLD_FM_SLICE_MODE_ACTIVE_MODE p)) (b / 8) && (r == 2 || r == 3) then 1 else r

/-- Open a bank's gate fence towards a low-power state, when nothing is outstanding at the bank and it is ACTIVE, or in retention and asked to
go OFF (R248). -/
def State.openFence (s : State) (p b target : Nat) : State :=
  if (s.bankState p b = 0 ∨ (s.bankState p b = 2 ∧ target = 3)) ∧ Tab.get (fun _ => 0) (s.field p).fm.outst b = 0 then
    s.modFm p fun f => { f with fences := f.fences.filter (·.1 != b) ++ [(b, 0, target)] }
  else s

/-- A bank asked to be in RETENTION or OFF goes there, once nothing is outstanding (R247, R248). Log entry 140 (DESIGN CHOICE, unsafe). -/
def State.bankFollow (s : State) (p b : Nat) : State :=
  match s.bankRequest p b with
  | 2 => s.openFence p b 2
  | 3 => s.openFence p b 3
  | _ => s

/-- BANK_WAKE_DONE: a WAKING bank becomes ACTIVE, zeroed if it came from OFF, and its held accesses proceed (R249, R250). A bank asked for a
low-power state then goes on towards it (R247). -/
def State.bankWakeDone (s : State) (p b : Nat) : State :=
  if s.bankState p b = 1 then
    let t := if (s.field p).fm.zeroing.contains b then s.zeroBank p b else s
    let u := (t.setBank p b 0).modFm p fun f => { f with zeroing := f.zeroing.filter (· != b) }
    let held := ((s.field p).fm.held.flatMap fun r => banksOf r.off (bankReqLen r)).filter (· != b)
    (b :: held).foldl (fun t x => if t.bankState p x = 0 then t.bankFollow p x else t) (u.bankRelease p b)
  else s

def execBankWakeDone (p : Fin 72) (b : Fin 64) (s : State) : Host.Outcome State Fault Refusal :=
  answer (s.bankWakeDone p b)

/-- An access of firmware that reaches a sleeping bank waits for it: the wake and what was held are part of the access (R249, R250). Log entry 139 (DESIGN CHOICE, unsafe). -/
def State.bankNow (s : State) (p b : Nat) (write : Bool) : State :=
  if s.bankState p b = 0 then s else (s.wakeBank p b write).bankWakeDone p b

/-- Every bank of a range is awake for an access of firmware. Log entry 139 (DESIGN CHOICE, unsafe). -/
def State.awake (s : State) (p off n : Nat) (write : Bool) : State :=
  ((banksOf off n).foldl (fun t b => t.bankNow p b write) s).touchBanks p off n

/-- BANK_IDLE_EXPIRY: an AUTO bank that has been idle sends its gate fence towards retention, and one that an access has woken towards the
state it is asked for (R247, R248). Log entry 73 (DESIGN CHOICE, safe). -/
def State.bankIdleExpiry (s : State) (p b : Nat) : State :=
  if s.bankRequest p b = 1 then s.openFence p b 2 else s.bankFollow p b

def execBankIdleExpiry (p : Fin 72) (b : Fin 64) (s : State) : Host.Outcome State Fault Refusal :=
  answer (s.bankIdleExpiry p b)

/-- GATE_FENCE_ACK: DMA engine `d` acknowledges a bank's fence, and the bank enters its low-power state once all four have
(R248). A bank that goes OFF loses its data. -/
def State.gateFenceAck (s : State) (p b d : Nat) : State :=
  match (s.field p).fm.fences.find? fun e => e.1 == b with
  | none => s
  | some (_, mask, target) =>
    let m := mask ||| 2 ^ d
    if m = 15 then
      let t := (s.cancelFence p b).setBank p b target
      if target = 3 then t.zeroBank p b else t
    else s.modFm p fun f => { f with fences := f.fences.map fun e => if e.1 == b then (b, m, target) else e }

def execGateFenceAck (p : Fin 72) (b : Fin 64) (d : Fin 4) (s : State) : Host.Outcome State Fault Refusal :=
  answer (s.gateFenceAck p b d)

/-- A write of a bank power request (R247, R248): ACTIVE wakes the bank and AUTO leaves it, and an open fence towards a state that is no
longer asked for is given up; RETENTION and OFF open its gate fence, at once or as soon as the bank is awake and quiet. A bank that is OFF wakes
on its way to RETENTION. Log entry 140 (DESIGN CHOICE, unsafe). -/
def State.bankReqWritten (s : State) (p n : Nat) : State :=
  (List.range 16).foldl (fun t j =>
    let b := 16 * n + j
    match t.bankRequest p b with
    | 0 => (t.cancelFence p b).wakeBank p b false
    | 1 => t.cancelFence p b
    | 2 => if t.bankState p b = 3 then t.wakeBank p b false else (t.cancelFence p b).bankFollow p b
    | _ => (t.cancelFence p b).bankFollow p b) s

/-! Slice modes (R238). -/

/-- Every line of a list leaves the cache, its dirty bytes written back first; a line whose write has to wait stays, and what it waits for wakes.
The answer tells whether every line has gone. -/
def State.linesOut (s : State) (p : Nat) : List CacheLine → State × Bool
  | [] => (s, true)
  | l :: ls =>
    match s.lineOut p 0 l with
    | .ok (t, _) => State.linesOut (t.dropLine p l.slot l.rga) p ls
    | .error e =>
      let x := State.linesOut (s.wakeFor e) p ls
      (x.1, false)

/-- The bytes of a slice that becomes scratchpad are zeroed, and its banks are awake (R238, R250). -/
def State.sliceZero (s : State) (p i : Nat) : State := (s.awake p (i * 2 ^ 21) (2 ^ 21) true).mzero (fmLoc p (i * 2 ^ 21)) (2 ^ 21)

/-- SLICE_MODE_CHANGE: the setting takes effect. The cache is written back and invalidated, the slices switch, and every slice
that becomes scratchpad is zeroed (R238). While a line cannot be written back the change waits. Log entry 73 (DESIGN CHOICE, safe). -/
def State.sliceModeChange (s : State) (p : Nat) : State :=
  if s.on (Reg.FLD_FM_SLICE_MODE_PENDING p) then
    let old := s.get (Reg.FLD_FM_SLICE_MODE_ACTIVE_MODE p)
    let new := s.get (Reg.FLD_FM_SLICE_MODE_CACHE p)
    match s.linesOut p (s.field p).fm.lines with
    | (t, false) => t
    | (t, true) =>
      let u := (List.range 8).foldl (fun u i => if bit old i && !bit new i then u.sliceZero p i else u) t
      (u.puts [(Reg.FLD_FM_SLICE_MODE_ACTIVE_MODE p, new), (Reg.FLD_FM_SLICE_MODE_PENDING p, 0)]).modFm p fun f => { f with plru := [] }
  else s

/-- Is a resident context of the Field within a heat? -/
def State.fieldInHeat (s : State) (p : Nat) : Bool :=
  (List.range 4).any fun c => match s.ctxOf p c with
    | some k => s.inHeat k
    | none => false

/-- SLICE_MODE_WRITE: the number of cache slices must be 0, 1, 2, 4 or 8, or the register is unchanged; the setting waits for a
heat boundary of every resident context (R238). Log entry 73 (DESIGN CHOICE, safe). -/
def State.sliceModeWrite (s : State) (p v : Nat) : State :=
  let c := v % 256
  let k := ((List.range 8).filter fun i => bit c i).length
  if k = 0 ∨ k = 1 ∨ k = 2 ∨ k = 4 ∨ k = 8 then
    let t := s.puts [(Reg.FLD_FM_SLICE_MODE_CACHE p, c),
      (Reg.FLD_FM_SLICE_MODE_PENDING p, b2n (c != s.get (Reg.FLD_FM_SLICE_MODE_ACTIVE_MODE p)))]
    if s.fieldInHeat p then t else t.sliceModeChange p
  else s

def execSliceModeWrite (p : Fin 72) (value : Word) (s : State) : Host.Outcome State Fault Refusal :=
  answer (s.sliceModeWrite p value.toNat)

/-! The cache (R239 to R242, R245). -/

/-- Mark the line that holds an RGA bad. -/
def State.lineGoesBad (s : State) (p slot line : Nat) : State :=
  s.modFm p fun f => { f with lines := f.lines.map fun l => if l.rga == line && l.slot == slot then { l with bad := true } else l }

/-- What the code finds in the line of a slot that a VA leads to (R243, R245). -/
def State.lineEcc (s : State) (p c slot va : Nat) (e : Ecc) : State :=
  match s.translate p c false .read va with
  | .error _ => s
  | .ok (t, _) =>
    let line := s.rgaOf t / 256 * 256
    match s.lineOf p slot line, e with
    | some l, .corrected => s.fmCorrected p (fmLoc p (s.lineOff p line l.way)) false
    | some _, .uncorrectable => s.lineGoesBad p slot line
    | _, _ => s

/-- CACHE_ACCESS: one access of a cache-enabled context within a 256-byte granule hits or fills a line (R239, R240, R245). `bs` are
the bytes to write, or none for a read of `n` bytes; the data of a read goes to its consumer. Its agent is generator 0 of memory unit 0. Log entry 138 (DESIGN CHOICE, unsafe). -/
def State.cacheAccess (s : State) (p slot va n : Nat) (bs : Option (List Byte)) (lineEcc : Ecc) : State :=
  match s.ctxOf p slot with
  | none => s
  | some c =>
    let s0 := if s.cacheOn p slot then s.lineEcc p c slot va lineEcc else s
    let fail (e : AccErr) : State := s0.accFail p 4 0 slot e
    match bs with
    | none => (match s0.farRead p 4 0 slot true va n with
      | .ok t d => t.fmDeliver p d
      | .wait t => t
      | .err e => fail e)
    | some d => (match s0.farWrite p 4 0 slot true va d with
      | .ok t _ => t.fmDeliver p []
      | .wait t => t
      | .err e => fail e)

def execCacheAccess (p : Fin 72) (slot : Fin 4) (va n : Nat) (bs : Option (List Byte)) (lineEcc : Ecc) (s : State) :
    Host.Outcome State Fault Refusal :=
  answer (s.cacheAccess p slot va n bs lineEcc)

/-! Range operations (R241, Table 10-2). -/

/-- Where the pages of a VA range of a slot lead, as first RGA and bytes. A page that is not present is passed over, and so is one whose walk
fails otherwise, whose error is answered beside (R241). The error says that a walk has to wait. Log entry 156 (DESIGN CHOICE, unsafe). -/
def State.rangePages (s : State) (p c : Nat) : List (Nat × Nat) → Acc (List (Nat × Nat) × Option AccErr)
  | [] => .ok ([], none)
  | (va, n) :: ps =>
    match s.leafOf p c va false with
    | .ok l => (State.rangePages s p c ps).map fun x => ((l.frame + (va - l.vbase), n) :: x.1, x.2)
    | .error e =>
      if e.waits then .error e
      else (State.rangePages s p c ps).map fun x => (x.1, match e with
        | .xlt code .. => if code = Flt.XLT_NOT_PRESENT then x.2 else some e
        | _ => some e)

/-- The bytes of a line that pages of a range cover, as a mask; zero where they cover none. -/
def lineCover (ps : List (Nat × Nat)) (l : CacheLine) : Nat :=
  ps.foldl (fun acc x =>
    let lo := max x.1 l.rga
    let hi := min (x.1 + x.2) (l.rga + 256)
    if lo < hi then acc ||| ((2 ^ (hi - lo) - 1) * 2 ^ (lo - l.rga)) else acc) 0

/-- Make the line of a slot clean. -/
def State.cleanLine (s : State) (p slot rga : Nat) : State :=
  s.modFm p fun f => { f with lines := f.lines.map fun x => if x.rga == rga && x.slot == slot then { x with dirty := 0 } else x }

/-- A range operation acts on the lines it has still to do, in order (R241, R245): each leaves the cache (`drop`) or becomes clean, its dirty
bytes outside the mask written back. The answer holds whether a line was discarded, and the lines from the first on whose write has to wait. -/
def State.cmoLines (s : State) (p : Nat) (drop : Bool) : List (Nat × Nat × Nat) → State × Bool × List (Nat × Nat × Nat)
  | [] => (s, false, [])
  | (slot, rga, keep) :: rest =>
    match s.lineOf p slot rga with
    | none => State.cmoLines s p drop rest
    | some l =>
      match s.lineOut p keep l with
      | .error e => (s.wakeFor e, false, (slot, rga, keep) :: rest)
      | .ok (t, bad) =>
        let x := State.cmoLines (if drop then t.dropLine p slot rga else t.cleanLine p slot rga) p drop rest
        (x.1, bad || x.2.1, x.2.2)

/-- Does a context still wait for another part to accept what the cache of a Field has written there? -/
def State.cacheSending (s : State) (p c : Nat) : Bool :=
  (s.field p).ch.outbound.any (fun x => x.1.agent == cacheAgent && x.1.ctx == c) ||
    (List.range 4).any fun n => (s.port n).tags.any fun g => g.user.field == p && g.user.agent == cacheAgent && g.user.ctx == c && !g.timedOut

/-- The range of the range registers: base and length. -/
def State.cmoRange (s : State) (p : Nat) : Nat × Nat :=
  (s.get (Reg.FLD_FM_CMO_BASE_LO_BASE_LO p) + 2 ^ 32 * s.get (Reg.FLD_FM_CMO_BASE_HI_BASE_HI p), s.get (Reg.FLD_FM_CMO_LEN_LEN p))

/-- Nothing beside the lines. -/
def noAct (s : State) : State × Bool × Bool := (s, false, false)

/-- Lines of the cache, whole. -/
def State.linesWhole (s : State) (p : Nat) (f : CacheLine → Bool) : List (Nat × Nat × Nat) :=
  ((s.field p).fm.lines.filter f).map fun l => (l.slot, l.rga, 0)

/-- The lines that a range operation acts on, of those present when it started: a FLUSH discards none of their bytes, INVAL those the range
covers. Operations of a whole context and of the cache know no range. -/
def State.cmoPick (s : State) (p : Nat) (c : CmoRun) : Acc (List (Nat × Nat × Nat) × Option AccErr) :=
  if 4 ≤ c.op then .ok (c.todo, none)
  else match s.ctxOf p c.slot with
  | none => .ok ([], none)
  | some k => (s.rangePages p k (vaPieces c.base c.len)).map fun x =>
    ((s.field p).fm.lines.filterMap fun l =>
      let m := lineCover x.1 l
      if m ≠ 0 ∧ c.todo.any (fun y => y.1 == l.slot && y.2.1 == l.rga) = true then some (l.slot, l.rga, if c.op = 2 then m else 0) else none, x.2)

/-- A range operation goes on: it finds its lines, once the walks of its pages can be done, and acts on those it can (R241). A walk that fails is
recorded and sets ERR. Log entry 156 (DESIGN CHOICE, unsafe). -/
def State.cmoGo (s : State) (p : Nat) : State :=
  match (s.field p).fm.cmo with
  | none => s
  | some c =>
    match (if c.forming then s.cmoPick p c else .ok (c.todo, none)) with
    | .error e => s.wakeFor e
    | .ok (ls, e) =>
      let t := match e with
        | some (.tableUncorr o va _) => (s.stkUncorrSeen o false).cacheFault p c.slot Flt.XLT_UNCORR va
        | some (.xlt code va ..) => s.cacheFault p c.slot code va
        | _ => s
      let (u, bad, todo) := t.cmoLines p c.drop ls
      u.modFm p fun f => { f with cmo := some { c with forming := false, todo := todo, err := c.err || bad || e.isSome } }

/-- Start a range operation: while one runs, OVERRUN is set and nothing else happens; otherwise BUSY is set and the operation
acts on the lines present now (R241). -/
def State.cmoStart (s : State) (p op slot : Nat) (drop : Bool) (lines : CacheLine → Bool) (act : State → State × Bool × Bool) : State :=
  if s.on (Reg.FLD_FM_CMO_STATUS_BUSY p) then s.put (Reg.FLD_FM_CMO_STATUS_OVERRUN p) 1
  else
    let (t, err, rangeErr) := act (s.put (Reg.FLD_FM_CMO_STATUS_BUSY p) 1)
    let (base, len) := s.cmoRange p
    (t.modFm p fun f =>
      { f with cmo := some { op := op, slot := slot, base := base, len := len, todo := s.linesWhole p lines, forming := true, drop := drop,
                             err := err, rangeErr := rangeErr } }).cmoGo p

/-- Effect of ZERO over a Field-memory offset range (R241): past 16 MiB nothing is written; an end word that is uncorrectable
and only partly covered stays unwritten. Sleeping banks wake first (R249). -/
def State.zeroRangeOp (s : State) (p base len : Nat) : State × Bool × Bool :=
  let b := base % 2 ^ 24
  if 2 ^ 24 < b + len then (s, false, true)
  else
    let a := fmLoc p b
    let s := s.awake p b len true
    let ends := [eccWord a, eccWord (a + len - 1)].filter fun w => s.isBad w && !coversWord a len w && decide (0 < len)
    let keep := ends.map fun w => (w, s.mread w 32)
    let t := s.mzero a len
    let u := keep.foldl (fun v k => { v with mem := v.mem.writeBytes k.1 k.2, bad := (v.markBad k.1 true).bad }) t
    match ends with
    | [] => (u, false, false)
    | w :: _ => ((u.fmUncorrSeen p w false).fieldFault p 14 0 none Flt.FM_UNCORR (bits w 23 0), true, false)

/-- FLUSH, INVAL and FLUSH_INVAL over the range of the range registers (Table 10-2). -/
def State.cmoFlush (s : State) (p slot : Nat) : State := s.cmoStart p 1 slot false (·.slot == slot) noAct
def State.cmoInval (s : State) (p slot : Nat) : State := s.cmoStart p 2 slot true (·.slot == slot) noAct
def State.cmoFlushInval (s : State) (p slot : Nat) : State := s.cmoStart p 3 slot true (·.slot == slot) noAct

/-- ZERO over the range of the range registers. -/
def State.cmoZero (s : State) (p : Nat) : State :=
  s.cmoStart p 4 0 false (fun _ => false) fun t => t.zeroRangeOp p (s.cmoRange p).1 (s.cmoRange p).2

/-- FLUSH_INVAL of every line of a slot, and of every line. -/
def State.cmoCtx (s : State) (p slot : Nat) : State := s.cmoStart p 5 slot true (·.slot == slot) noAct
def State.cmoAll (s : State) (p : Nat) : State := s.cmoStart p 6 0 true (fun _ => true) noAct

def execFlush (p : Fin 72) (slot : Fin 4) (s : State) : Host.Outcome State Fault Refusal := answer (s.cmoFlush p slot)

def execInval (p : Fin 72) (slot : Fin 4) (s : State) : Host.Outcome State Fault Refusal := answer (s.cmoInval p slot)

def execFlushInval (p : Fin 72) (slot : Fin 4) (s : State) : Host.Outcome State Fault Refusal := answer (s.cmoFlushInval p slot)

def execZero (p : Fin 72) (s : State) : Host.Outcome State Fault Refusal := answer (s.cmoZero p)

def execFlushInvalCtx (p : Fin 72) (slot : Fin 4) (s : State) : Host.Outcome State Fault Refusal := answer (s.cmoCtx p slot)

def execFlushInvalAll (p : Fin 72) (s : State) : Host.Outcome State Fault Refusal := answer (s.cmoAll p)

/-- A write to `FLD_FM_CMO_CTRL` (Table 10-2): codes 0 and 7 have no effect. -/
def State.cmoCtrlWrite (s : State) (p v : Nat) : State :=
  let slot := bits v 5 4
  match bits v 2 0 with
  | 1 => s.cmoFlush p slot
  | 2 => s.cmoInval p slot
  | 3 => s.cmoFlushInval p slot
  | 4 => s.cmoZero p
  | 5 => s.cmoCtx p slot
  | 6 => s.cmoAll p
  | _ => s

/-- CMO_DONE: the range operation acts on the lines that had to wait; once none is left and other parts have accepted its writes it ends and
sets DONE, with ERR or RANGE_ERR as it found (R241). -/
def State.cmoDone (s : State) (p : Nat) : State :=
  let t := s.cmoGo p
  match (t.field p).fm.cmo with
  | none => t
  | some c =>
    let sends := match t.ctxOf p c.slot with
      | some k => t.cacheSending p k
      | none => false
    if c.forming || !c.todo.isEmpty || sends then t
    else
      let t := t.puts [(Reg.FLD_FM_CMO_STATUS_BUSY p, 0), (Reg.FLD_FM_CMO_STATUS_DONE p, 1)]
      let t := if c.err then t.put (Reg.FLD_FM_CMO_STATUS_ERR p) 1 else t
      let t := if c.rangeErr then t.put (Reg.FLD_FM_CMO_STATUS_RANGE_ERR p) 1 else t
      t.modFm p fun f => { f with cmo := none }

def execCmoDone (p : Fin 72) (s : State) : Host.Outcome State Fault Refusal := answer (s.cmoDone p)

/-! The patrol scrubber (R246). -/

/-- Where the scrubber's granule lies: 65,536 granules of Field memory, then 16,384 of MU storage. -/
def scrubLoc (p pos : Nat) : Nat :=
  if pos < 65536 then fmLoc p (256 * pos) else muLoc p ((pos - 65536) / 1024) ((pos - 65536) % 1024 * 256)

/-- The line kept at a Field-memory offset of a cache slice. -/
def State.lineAt (s : State) (p off : Nat) : Option CacheLine := (s.field p).fm.lines.find? fun l => s.lineOff p l.rga l.way == off

/-- The scrubber finds an uncorrectable word where a cache slice keeps a line: a clean line is invalidated, a dirty one is discarded with
FLT_FM_UNCORR (R245). -/
def State.lineScrub (s : State) (p off word : Nat) : State :=
  match s.lineAt p off with
  | none => s
  | some l =>
    let t := (s.dropLine p l.slot l.rga).fmUncorrSeen p (fmLoc p off + 32 * word) true
    if l.dirty = 0 then t else t.cacheFault p l.slot Flt.FM_UNCORR off

/-- The scrubber reads the next granule, corrects it and reports every uncorrectable word in it; it passes over OFF banks (R246). `word` is the
word of the granule in which `ecc` was found. -/
def State.fmScrub (s : State) (p : Nat) (ecc : Ecc) (word : Nat) : State :=
  if s.on (Reg.FLD_FM_SCRUB_CTRL_EN p) then
    let pos := (s.field p).fm.scrubPos
    let a := scrubLoc p pos
    let off := decide (pos < 65536) && decide (s.bankState p (bankOf (256 * pos)) = 3)
    let t :=
      if off then s
      else
        let t := if pos < 65536 then s.touchBanks p (256 * pos) 256 else s
        let cache := decide (pos < 65536) && bit (s.get (Reg.FLD_FM_SLICE_MODE_ACTIVE_MODE p)) (pos / 8192)
        let t := match ecc with
          | .good => t
          | .corrected => t.fmCorrected p (a + 32 * word) true
          | .uncorrectable => if cache then t.lineScrub p (256 * pos) word else t.markBad (a + 32 * word) true
        ((eccWords a 256).filter t.isBad).foldl (fun t w => (t.fmUncorrSeen p w true).fmBadFound p w) t
    let u := t.modFm p fun f => { f with scrubPos := (pos + 1) % 81920 }
    if pos + 1 = 81920 then
      u.put (Reg.FLD_FM_SCRUB_CTRL_PASSES p) (u.get (Reg.FLD_FM_SCRUB_CTRL_PASSES p) + 1)
    else u
  else s

end Sys2Proof.Machine
end

