-- ==== Sys2Proof/Machine/Stack.lean ====
section
/-!
DEFINITION. The memory stacks (chapter 13): transfers and their symbol code, near-memory operations, refresh and patrol scrub,
die sparing and row remapping, and power states.
-/

namespace Sys2Proof.Machine

/-- Part offset of local address `a` of stack `k` (R298). -/
def stackLoc (k a : Nat) : Nat := k * stackSize + a

/-- The context of a requester's resident slot. -/
def State.reqCtx (s : State) (r : Requester) : Nat := s.get (Reg.FLD_CTX_MAP_CTX_ID r.field r.slot)

/-- Location and count of a corrected transfer (R303). -/
def State.stkCorrected (s : State) (o : Nat) (byScrub : Bool) : State :=
  let k := o / stackSize
  let a := o % stackSize
  (((s.wearNote (wearRow k (rowKey (bits a 12 8) (bits a 21 16) (bits a 35 22)))).wearNote (wearDie k (bits a 21 18))).puts
   [(Reg.STK_ECC_STATUS_CORR_SEEN k, 1), (Reg.STK_ECC_STATUS_BY_SCRUB k, b2n byScrub),
    (Reg.STK_ECC_STATUS_PC k, bits a 12 8), (Reg.STK_ECC_STATUS_BANK k, bits a 21 16),
    (Reg.STK_ECC_STATUS_ROW k, bits a 35 22)]).count48 (Reg.aSTK_ECC_CORR_LO k) 1

/-- What the symbol code finds in the block at part offset `o` (R303, R304). -/
def State.stkEcc (s : State) (o : Nat) : Ecc → State
  | .good => s
  | .corrected => s.stkCorrected o false
  | .uncorrectable => s.markBad (o / 64 * 64) true

/-- A transfer that fails stops the operation of its requester with FLT_STK_UNCORR (R303, R304). -/
def State.stkFail (s : State) (o : Nat) (by' : Option Requester) : State :=
  let t := s.stkUncorrSeen o false
  match by' with
  | some r => t.agentFault r.field r.agent r.index (s.reqCtx r) Flt.STK_UNCORR (o % stackSize)
  | none => t.partFault 11 (o / stackSize) Flt.STK_UNCORR (o % stackSize)

/-- Take the charge of a translated access at issue (R338). Log entry 80 (DESIGN CHOICE, safe). -/
def State.stkCharge (s : State) (by' : Option Requester) (n : Nat) : State :=
  match by' with
  | some r => s.charge r.field (s.reqCtx r) false n
  | none => s

/-- Data of the last read of a stack, for its consumer. -/
def State.stkDeliver (s : State) (k : Nat) (bs : List Byte) : State := s.modStk k fun x => { x with lastRead := bs }

/-- Serve a read of `n` bytes at part offset `o`. -/
def State.stkServeRead (s : State) (o n : Nat) (by' : Option Requester) (ecc : Ecc) : State :=
  let t := s.stkEcc o ecc
  match t.badWord? o n with
  | some _ => t.stkFail o by'
  | none => t.stkDeliver (o / stackSize) (t.mread o n)

/-- Serve a write at part offset `o` (R301, R303): a write narrower than its block reads it first. -/
def State.stkServeWrite (s : State) (o : Nat) (bs : List Byte) (by' : Option Requester) (ecc : Ecc) : State :=
  let t := if o % 64 = 0 ∧ bs.length = 64 then s else s.stkEcc o ecc
  match t.badPartial? o bs.length with
  | some _ => t.stkFail o by'
  | none => t.mwrite o bs

/-- GATHER at a stack: up to 32 tokens of 128 bytes are read and returned in request order (R310). -/
def State.stkServeGather (s : State) (k : Nat) (as : List Nat) (by' : Option Requester) (ecc : Ecc) : State :=
  let u := match as.head? with
    | some a => s.stkEcc (stackLoc k a) ecc
    | none => s
  match as.find? fun a => (u.badWord? (stackLoc k a) 128).isSome with
  | some a => u.stkFail (stackLoc k a) by'
  | none => u.stkDeliver k (as.flatMap fun a => u.mread (stackLoc k a) 128)

/-! Near-memory arithmetic (R311 to R313). -/

/-- One element of a scatter-add: the stored value and the element, in the format SA_FMT names (R311). -/
def saElem (fmt old x : Nat) : Nat :=
  if fmt = fmtINT32 then (old + x) % 2 ^ 32
  else if fmt = fmtFP32 then f32Add old x
  else bf16Add old x

/-- The bytes of a token after its valid elements are added to the stored ones (R311): 32 lanes of 4 bytes, or 64 elements of
2 bytes with one valid bit for two. -/
def saToken (fmt mask : Nat) (old tok : List Byte) : List Byte :=
  let w := if fmt = fmtBF16 then 2 else 4
  (List.range (128 / w)).flatMap fun i =>
    let o := (old.drop (w * i)).take w
    if bit mask (w * i / 4) then leBytes w (saElem fmt (leNat o) (leNat ((tok.drop (w * i)).take w))) else o

/-- A scatter-add at part offset `o` of stack memory (R311); the two blocks it may touch are read first (R303). Log entry 81 (DESIGN CHOICE, unsafe). -/
def State.scatterAddAt (s : State) (o fmt mask : Nat) (tok : List Byte) : Acc State := do
  let old ← s.stackRead o 128
  s.stackWrite o (saToken fmt mask old tok)

/-- The new value of a 64-bit atomic (R313, Table 15-4): 0 ADD, 1 SWAP, 2 CAS, 3 SMIN, 4 SMAX, 5 UMIN, 6 UMAX, 7 AND, 8 OR,
9 XOR. For CAS `x` is the compare value and `new` the new one. -/
def atomicNew (op old x new : Nat) : Nat :=
  match op with
  | 0 => (old + x) % 2 ^ 64
  | 1 => x
  | 2 => if old = x then new else old
  | 3 => if signed 64 old ≤ signed 64 x then old else x
  | 4 => if signed 64 old ≤ signed 64 x then x else old
  | 5 => min old x
  | 6 => max old x
  | 7 => old &&& x
  | 8 => old ||| x
  | _ => old ^^^ x

/-- An atomic at a part offset of stack memory: the state and the old value (R313). Log entry 81 (DESIGN CHOICE, unsafe). -/
def State.atomicAt (s : State) (o op x new : Nat) : Acc (State × Nat) := do
  let old ← s.stackRead o 8
  let t ← s.stackWrite o (leBytes 8 (atomicNew op (leNat old) x new))
  .ok (t, leNat old)

/-! Accesses at the stack port (R299, R308, R317, R318). -/

/-- Serve a scatter-add at part offset `o`. -/
def State.stkServeAdd (s : State) (o fmt mask : Nat) (tok : List Byte) (r : Requester) : State :=
  match s.scatterAddAt o fmt mask tok with
  | .ok t => t
  | .error e => s.accFail r.field r.agent r.index r.slot e

/-- Stack `k` serves an atomic at part offset `o`. -/
def State.stkServeAtomic (s : State) (k o op x new : Nat) (r : Requester) : State :=
  match s.atomicAt o op x new with
  | .ok (t, old) => t.stkDeliver k (leBytes 8 old)
  | .error e => s.accFail r.field r.agent r.index r.slot e

/-- A stack serves an access. -/
def State.stkServe (s : State) (k : Nat) : StkReq → State
  | .read a n by' ecc => s.stkServeRead (stackLoc k a) n by' ecc
  | .write a bs by' ecc => s.stkServeWrite (stackLoc k a) bs by' ecc
  | .gather as by' ecc => s.stkServeGather k as by' ecc
  | .scatterAdd a fmt mask tok r => s.stkServeAdd (stackLoc k a) fmt mask tok r
  | .atomic a op x new r => s.stkServeAtomic k (stackLoc k a) op x new r

/-- An access reaches the port of a stack: it is held while the stack cannot serve (R317, R318), or its row is under remap or it stands behind a
held access of one of its blocks (R308), and served otherwise, so that accesses of one block keep the order in which they came (R299). Log entry 80 (DESIGN CHOICE, safe). -/
def State.stkArrive (s : State) (k : Nat) (x : StkReq) : State :=
  if !s.stackReady k then (s.wakeStack k).modStk k fun y => { y with held := y.held ++ [x] }
  else if (stkSpans x).any fun z => s.rowBusy (stackLoc k z.1) z.2 then s.modStk k fun y => { y with remapHeld := y.remapHeld ++ [x] }
  else s.stkServe k x

/-- The parts of a range that lie in one 64-byte block each, as first byte and length. -/
def blockPieces (a n : Nat) : List (Nat × Nat) :=
  if n = 0 then []
  else (List.range ((a + n - 1) / 64 - a / 64 + 1)).map fun i =>
    let lo := max a ((a / 64 + i) * 64)
    (lo, min (a + n) ((a / 64 + i + 1) * 64) - lo)

/-- The part itself writes bytes at a part offset through the ports of the stacks: a write is held as any other, and one narrower than its block
fails on an uncorrectable transfer (R299, R303, R308, R317, R318). -/
def State.stkPut (s : State) (o : Nat) (bs : List Byte) : State :=
  (blockPieces o bs.length).foldl (fun t x =>
    t.stkArrive (x.1 / stackSize) (.write (x.1 % stackSize) ((bs.drop (x.1 - o)).take x.2) none .good)) s

/-- STACK_READ: a stack serves the read of one 64-byte transfer at local address `a` (R299, R300, R303, R304). -/
def State.stackReadCmd (s : State) (k a : Nat) (by' : Option Requester) (ecc : Ecc) : State :=
  (s.stkCharge by' 64).stkArrive k (.read (a / 64 * 64) 64 by' ecc)

/-- Log entry 5 (DESIGN CHOICE, safe). -/
def execStackRead (k : Fin 32) (a : Nat) (by' : Option Requester) (ecc : Ecc) (s : State) : Host.Outcome State Fault Refusal :=
  if a < stackSize then answer (s.stackReadCmd k a by' ecc) else .fault .noSuchAddress

/-- STACK_WRITE: a stack accepts a write within one 64-byte block (R301, R303). Before the gate of R465 opens nothing is
written. -/
def State.stackWriteCmd (s : State) (k a : Nat) (bs : List Byte) (by' : Option Requester) (ecc : Ecc) : State :=
  if !s.writesEnabled then s else (s.stkCharge by' bs.length).stkArrive k (.write a bs by' ecc)

/-- Log entry 5 (DESIGN CHOICE, safe). -/
def execStackWrite (k : Fin 32) (a : Nat) (bs : List Byte) (by' : Option Requester) (ecc : Ecc) (s : State) :
    Host.Outcome State Fault Refusal :=
  if a + bs.length ≤ stackSize then answer (s.stackWriteCmd k a bs by' ecc) else .fault .noSuchAddress

/-- GATHER: the tokens of one request (R310). -/
def State.gatherCmd (s : State) (k : Nat) (as : List Nat) (by' : Option Requester) (ecc : Ecc) : State :=
  (s.stkCharge by' (128 * as.length)).stkArrive k (.gather as by' ecc)

/-- Log entry 5 (DESIGN CHOICE, safe). -/
def execGather (k : Fin 32) (as : List Nat) (by' : Option Requester) (ecc : Ecc) (s : State) : Host.Outcome State Fault Refusal :=
  if as.all fun a => decide (a + 128 ≤ stackSize) then answer (s.gatherCmd k (as.take 32) by' ecc) else .fault .noSuchAddress

/-! Scatter-adds and atomics of a Field's agents (R311 to R315, R327, R329). -/

/-- A token of 128 bytes as its agent names it: VA, format, valid lanes and bytes. -/
structure ScatterTok where
  va : Nat
  fmt : Nat
  mask : Nat
  bs : List Byte

/-- The parts of a token that lie in one page each: first lane and lanes. -/
def tokenParts (va : Nat) : List (Nat × Nat) :=
  let k := min 32 ((65536 - va % 65536) / 4)
  if k = 32 then [(0, 32)] else [(0, k), (k, 32 - k)]

/-- Lanes `n0` to `n0 + k - 1` of a token at address `a`, as a token that lies in the page of those lanes: address, valid lanes, bytes. Log entry 81 (DESIGN CHOICE, unsafe). -/
def ScatterTok.part (x : ScatterTok) (n0 k a : Nat) : Nat × Nat × List Byte :=
  let up := if n0 = 0 then 32 - k else 0
  (a - 4 * up, x.mask / 2 ^ n0 % 2 ^ k * 2 ^ up, padTo 128 (List.replicate (4 * up) 0 ++ (x.bs.drop (4 * n0)).take (4 * k)))

/-- Does an address of another part lead to its Field memory (R314, Table 14-2)? -/
def rgaInFields (rga : Nat) : Bool := match offsetTarget (bits rga 40 0) with | some (.fm _ _) => true | _ => false

/-- Where the parts of a token lead, each with its VA and lanes (R327): a target that is not stack memory has no effect and is a fault (R314). -/
def State.scatterTargets (s : State) (p c : Nat) (x : ScatterTok) : List (Nat × Nat) → Acc (List (Nat × Target × Nat × Nat))
  | [] => .ok []
  | (n0, k) :: ps => do
    let (t, _) ← s.translate p c false .scatterAdd (x.va + 4 * n0)
    let y ← (match t with
      | .fm _ _ => .error (.saTarget x.va)
      | .remote rga => if rgaInFields rga then .error (.saTarget x.va) else .ok (x.va + 4 * n0, .remote rga, n0, k)
      | t => .ok (x.va + 4 * n0, t, n0, k) : Acc (Nat × Target × Nat × Nat))
    let ys ← State.scatterTargets s p c x ps
    .ok (y :: ys)

/-- The request that carries a part of a token to another part. -/
def ScatterTok.msg (x : ScatterTok) (n0 k rga : Nat) : QMsg :=
  let y := x.part n0 k rga
  QMsg.request 0x04 (bits rga 50 41) 0 y.1 128 y.2.1 x.fmt y.2.2

/-- Ask for the remote parts of a token that have no response; the answer tells whether all have come. -/
def State.scatterAsk (s : State) (a : FarAgent) (x : ScatterTok) : List (Nat × Target × Nat × Nat) → State × Bool
  | [] => (s, true)
  | (va, .remote rga, n0, k) :: ps =>
    if (s.respFor a.p a.agent a.index va).isSome then State.scatterAsk s a x ps
    else
      let u := if s.bucketReady a.p a.c true 128 then s.agentRequest a.p a.agent a.index a.c va 0 (x.msg n0 k rga) else s
      ((State.scatterAsk u a x ps).1, false)
  | _ :: ps => State.scatterAsk s a x ps

/-- Perform the parts of a token in the local stacks, and use up the responses of the others. -/
def State.scatterDo (s : State) (a : FarAgent) (x : ScatterTok) : List (Nat × Target × Nat × Nat) → Acc State
  | [] => .ok s
  | (va, t, n0, k) :: ps => do
    let u ← (match t with
      | .stack o =>
        let y := x.part n0 k o
        match s.stackWay? a.p a.c y.1 128 with
        | some e => .error e
        | none => if s.bucketReady a.p a.c false (4 * k) then (s.charge a.p a.c false (4 * k)).scatterAddAt y.1 x.fmt y.2.1 y.2.2
            else .error .bucketEmpty
      | _ => .ok (s.takeResp a.p a.agent a.index va) : Acc State)
    State.scatterDo u a x ps

/-- A scatter-add of an agent that repeats it until it has taken place (R204, R311, R314). -/
def State.scatterVa (s : State) (a : FarAgent) (x : ScatterTok) : FarEnd Unit :=
  match s.scatterTargets a.p a.c x (tokenParts x.va) with
  | .error e => .err e
  | .ok ps =>
    match s.scatterAsk a x ps with
    | (t, false) => .wait t
    | (t, true) => FarEnd.ofWrite (t.scatterDo a x ps)

/-- SCATTER_ADD: a token of an agent reaches the stacks or leaves for another part; one without the rights, or for anything but stack memory,
has no effect and stops its agent (R314, R327). While a seam on the way is shut or the bucket is empty it waits. -/
def State.scatterAddCmd (s : State) (x : ScatterTok) (r : Requester) : State :=
  let c := s.reqCtx r
  match s.scatterTargets r.field c x (tokenParts x.va) with
  | .error e => s.accFail r.field r.agent r.index r.slot e
  | .ok ps =>
    let ready := ps.all fun y => match y.2.1 with
      | .stack o => s.wayOpen c (quadOfField r.field) (quadOfStack (o / stackSize)) && s.bucketReady r.field c false 128
      | _ => s.bucketReady r.field c true 128
    if !ready then s
    else ps.foldl (fun t y => match y.2.1 with
      | .stack o =>
        let z := x.part y.2.2.1 y.2.2.2 o
        (t.charge r.field c false (4 * y.2.2.2)).stkArrive (z.1 / stackSize) (.scatterAdd (z.1 % stackSize) x.fmt z.2.1 z.2.2 r)
      | .remote rga =>
        if (t.respFor r.field r.agent r.index y.1).isSome then t.takeResp r.field r.agent r.index y.1
        else t.agentRequest r.field r.agent r.index c y.1 0 (x.msg y.2.2.1 y.2.2.2 rga)
      | .fm _ _ => t) s

def execScatterAdd (va fmt mask : Nat) (tok : List Byte) (r : Requester) (s : State) : Host.Outcome State Fault Refusal :=
  answer (s.scatterAddCmd { va := va, fmt := fmt, mask := mask, bs := tok } r)

/-- ATOMIC of an agent at a VA (R313, R314, R327): unaligned it faults FLT_ATOMIC_ALIGN, outside stack memory FLT_SA_TARGET; the old value goes
to its consumer. One for another part leaves as a request. -/
def State.atomicCmd (s : State) (va op x new : Nat) (r : Requester) : State :=
  let c := s.reqCtx r
  if va % 8 ≠ 0 then s.agentFault r.field r.agent r.index c Flt.ATOMIC_ALIGN va
  else match s.translate r.field c false .atomic va with
    | .error e => s.accFail r.field r.agent r.index r.slot e
    | .ok (.fm _ _, _) => s.accFail r.field r.agent r.index r.slot (.saTarget va)
    | .ok (.stack o, _) =>
      if s.wayOpen c (quadOfField r.field) (quadOfStack (o / stackSize)) && s.bucketReady r.field c false 8 then
        (s.charge r.field c false 8).stkArrive (o / stackSize) (.atomic (o % stackSize) op (x % 2 ^ 64) (new % 2 ^ 64) r)
      else s
    | .ok (.remote rga, _) =>
      if rgaInFields rga then s.accFail r.field r.agent r.index r.slot (.saTarget va)
      else match s.respFor r.field r.agent r.index va with
      | some v => (s.takeResp r.field r.agent r.index va).fmDeliver r.field (leBytes 8 v.value)
      | none =>
        if s.bucketReady r.field c true 8 then
          s.agentRequest r.field r.agent r.index c va 0 (QMsg.request 0x03 (bits rga 50 41) 0 rga (if op = 2 then 8 else 0) op x
            (if op = 2 then leBytes 8 new else []))
        else s

def execAtomic (va op x new : Nat) (r : Requester) (s : State) : Host.Outcome State Fault Refusal :=
  answer (s.atomicCmd va op x new r)

/-! Refresh, temperature and patrol scrub (R305, R306). -/

/-- STACK_REFRESH: the logic die refreshes a row; no data changes (R305). -/
def execStackRefresh (k : Fin 32) (pc : Fin 32) (bank : Fin 64) (row : Fin 12288) (s : State) : Host.Outcome State Fault Refusal :=
  answer (s.modStk k fun x => { x with refreshPos := rowKey pc bank row })

/-- The refresh code of a temperature: 32 ms up to 85 °C, 16 ms up to 95 °C, 8 ms above (R305). -/
def refreshCode (t : Nat) : Nat := if t ≤ 85 then 0 else if t ≤ 95 then 1 else 2

/-- STACK_TEMP_UPDATE: the stack reports its hottest die and sets HOT above 95 °C (R305); its share is held until it falls under 90 °C (R437). Log entry 105 (DEDUCED, unsafe). -/
def State.stackTemp (s : State) (k t : Nat) : State :=
  let u := s.puts [(Reg.STK_THERMAL_TEMP_C k, t), (Reg.STK_THERMAL_REFRESH k, refreshCode t)]
  let bitK := 2 ^ k
  if 95 < t then (u.put (Reg.STK_THERMAL_HOT k) 1).modPower fun x => { x with hot := x.hot ||| bitK }
  else if t < 90 then u.modPower fun x => { x with hot := x.hot - (x.hot &&& bitK) }
  else u

def execStackTempUpdate (k : Fin 32) (t : Fin 256) (s : State) : Host.Outcome State Fault Refusal := answer (s.stackTemp k t)

/-- Perform accesses of a stack that were held, in order. -/
def State.stkRelease (s : State) (k : Nat) (hs : List StkReq) : State := hs.foldl (fun u h => u.stkArrive k h) s

/-- A stack in a low-power state becomes ACTIVE and its held accesses proceed (R317). -/
def State.stkActive (s : State) (k : Nat) : State :=
  ((s.put (Reg.STK_STATUS_PWR_STATE k) 0).modStk k fun x => { x with held := [], waking := false }).stkRelease k (s.stk k).held

/-- Pages that a pass of the scrubber reads: those of the sixteen data dies, and while a die is copied those of the spare (R306). -/
def State.scrubPages (s : State) (k : Nat) : Nat := if (s.stk k).copyDie.isSome then 25165824 + 1572864 else 25165824

/-- Local address of the first byte of a page the scrubber reads; pages of the spare die take the addresses of the die under copy. -/
def State.scrubPage (s : State) (k pos : Nat) : Nat :=
  if pos < 25165824 then pos / 2048 * 2 ^ 22 + pos / 32 % 64 * 2 ^ 16 + pos % 32 * 2 ^ 8
  else
    let i := pos - 25165824
    i / 128 * 2 ^ 22 + (4 * (s.stk k).copyDie.getD 0 + i / 32 % 4) * 2 ^ 16 + i % 32 * 2 ^ 8

/-- The transfers of a page of a stack, by part offset. -/
def pageBlocks (k a : Nat) : List Nat := (List.range 32).map fun x => stackLoc k (a + x / 4 * 2 ^ 13 + x % 4 * 64)

/-- The scrubber reads one 2 KiB page (R306, R317): it corrects what it can and reports every uncorrectable transfer of the page. `xfer` is the
transfer `ecc` was found in. A stack in SELF_REFRESH wakes for the read. The answer holds the uncorrectable transfers. -/
def State.stackScrub (s : State) (k : Nat) (ecc : Ecc) (xfer : Nat) : State × List Nat :=
  let st := s.get (Reg.STK_STATUS_PWR_STATE k)
  if s.on (Reg.STK_SCRUB_CTRL_EN k) ∧ st ≠ 3 then
    let s := if st = 1 then s.stkActive k else s
    let pos := (s.stk k).scrubPos
    let bs := pageBlocks k (s.scrubPage k pos)
    let o := bs.getD xfer 0
    let t := match ecc with
      | .good => s
      | .corrected => s.stkCorrected o true
      | .uncorrectable => s.markBad o true
    let bad := bs.filter t.isBad
    let u := (bad.foldl (fun t b => t.stkUncorrSeen b true) t).modStk k fun x => { x with scrubPos := if pos + 1 < s.scrubPages k then pos + 1 else 0 }
    (if s.scrubPages k ≤ pos + 1 then u.put (Reg.STK_SCRUB_CTRL_PASSES k) (u.get (Reg.STK_SCRUB_CTRL_PASSES k) + 1) else u, bad)
  else (s, [])

/-! Accesses of control cores. -/

/-- What an access of a control core to `n` bytes at a location reaches is awake: the wake is part of the access (R249, R317). Log entry 139 (DESIGN CHOICE, unsafe). -/
def State.coreAwake (s : State) (a n : Nat) (write : Bool) : State :=
  if a < 2 ^ 44 then
    (let k := a / stackSize
     if s.get (Reg.STK_STATUS_PWR_STATE k) = 1 ∨ s.get (Reg.STK_STATUS_PWR_STATE k) = 2 then s.stkActive k else s)
  else if a < 2 ^ 45 then s.awake (fieldOfWord 0 a) (bits a 23 0) n write
  else s

/-- A control core places bytes at a location. -/
def State.corePut (s : State) (a : Nat) (bs : List Byte) : State := (s.coreAwake a bs.length true).mwrite a bs

/-- A control core zeroes a range at a location. -/
def State.coreZero (s : State) (a n : Nat) : State := (s.coreAwake a n true).mzero a n

/-! Power states (R316). -/

/-- Has the stack no access outstanding, no copy or remap in progress (R316)? -/
def State.stkQuiet (s : State) (k : Nat) : Bool :=
  (s.stk k).held.isEmpty && (s.stk k).remapHeld.isEmpty && !(s.stk k).waking && (s.stk k).copyDie.isNone && !s.on (Reg.STK_ROW_REMAP_BUSY k)

/-- A quiet stack enters the low-power state its request asks for (R316). Log entry 141 (DESIGN CHOICE, unsafe). -/
def State.stkFollow (s : State) (k : Nat) : State :=
  let st := s.get (Reg.STK_STATUS_PWR_STATE k)
  if !s.stkQuiet k then s
  else match s.get (Reg.STK_PWR_CTRL_REQ k) with
  | 1 => if st = 0 ∨ st = 2 then s.put (Reg.STK_STATUS_PWR_STATE k) 1 else s
  | 2 => if st = 0 ∨ st = 1 then s.put (Reg.STK_STATUS_PWR_STATE k) 2 else s
  | _ => s

/-! Sparing (R307 to R309). -/

/-- The physical die of a logical die (R307). -/
def State.physDie (s : State) (k d : Nat) : Nat := Tab.get id (s.stk k).dieMap d

/-- DIE_COPY_START: no effect while a copy runs or when no spare die is free (R307). -/
def State.dieCopyStart (s : State) (k die : Nat) : State :=
  let t := s.put (Reg.STK_SPARE_CTRL_DIE k) die
  if s.on (Reg.STK_SPARE_STATUS_COPY_ACTIVE k) || !s.on (Reg.STK_STATUS_SPARE_DIE_FREE k) then t
  else (t.puts [(Reg.STK_SPARE_STATUS_COPY_ACTIVE k, 1), (Reg.STK_SPARE_STATUS_COPY_PROGRESS k, 0)]).modStk k
    fun x => { x with copyDie := some die }

def execDieCopyStart (k : Fin 32) (die : Fin 16) (s : State) : Host.Outcome State Fault Refusal := answer (s.dieCopyStart k die)

/-- DIE_COPY_DONE: the last row is copied, the die map switches and the old die is retired (R307, Table 13-3). -/
def State.dieCopyDone (s : State) (k : Nat) : State :=
  match (s.stk k).copyDie with
  | none => s
  | some d =>
    ((s.puts [(Reg.STK_SPARE_STATUS_COPY_ACTIVE k, 0), (Reg.STK_SPARE_STATUS_COPY_DONE k, 1),
      (Reg.STK_SPARE_STATUS_COPY_PROGRESS k, 100), (Reg.STK_SPARE_STATUS_RETIRED_DIE k, s.physDie k d),
      (Reg.STK_STATUS_SPARE_DIE_FREE k, 0)]).modStk k
      fun x => { x with copyDie := none, dieMap := Tab.set id x.dieMap d 16 }).stkFollow k

/-- ROW_REMAP: the logic die holds the row's accesses and copies it; with no spare row left NO_SPARE is set (R308). Log entry 28 (DESIGN CHOICE, unsafe). -/
def State.rowRemap (s : State) (k pc bank row : Nat) : State :=
  if s.on (Reg.STK_ROW_REMAP_BUSY k) then s
  else
    let t := s.puts [(Reg.STK_ROW_REMAP_PC k, pc), (Reg.STK_ROW_REMAP_BANK k, bank), (Reg.STK_ROW_REMAP_ROW k, row)]
    if 16 ≤ Tab.get (fun _ => 0) (s.stk k).spareUsed (pc * 64 + bank) then t.put (Reg.STK_ROW_REMAP_NO_SPARE k) 1
    else t.put (Reg.STK_ROW_REMAP_BUSY k) 1

/-- Firmware remaps a row, or notes it while another remap of the stack is in progress or the stack cannot serve (R304). -/
def State.rowRemapWhenFree (s : State) (k pc bank row : Nat) : State :=
  if s.on (Reg.STK_ROW_REMAP_BUSY k) || !s.on (Reg.STK_STATUS_READY k) then
    s.modStk k fun x => { x with remapNext := x.remapNext.filter (· != (pc, bank, row)) ++ [(pc, bank, row)] }
  else s.rowRemap k pc bank row

/-- Firmware starts the next remap that it has noted. -/
def State.remapGoOn (s : State) (k : Nat) : State :=
  match (s.stk k).remapNext with
  | [] => s
  | (pc, bank, row) :: rest =>
    if s.on (Reg.STK_ROW_REMAP_BUSY k) then s else (s.modStk k fun x => { x with remapNext := rest }).rowRemap k pc bank row

/-- ROW_REMAP_DONE: the row is redirected to a spare row and its held accesses are released (R308). -/
def State.rowRemapDone (s : State) (k : Nat) : State :=
  if s.on (Reg.STK_ROW_REMAP_BUSY k) then
    let pc := s.get (Reg.STK_ROW_REMAP_PC k)
    let bank := s.get (Reg.STK_ROW_REMAP_BANK k)
    let used := Tab.get (fun _ => 0) (s.stk k).spareUsed (pc * 64 + bank)
    let hs := (s.stk k).remapHeld
    let t := ((s.put (Reg.STK_ROW_REMAP_BUSY k) 0).put (Reg.STK_SPARE_STATUS_ROWS_REMAPPED k)
        (s.get (Reg.STK_SPARE_STATUS_ROWS_REMAPPED k) + 1)).modStk k fun x =>
      { x with spareUsed := Tab.set (fun _ => 0) x.spareUsed (pc * 64 + bank) (used + 1),
               remapped := Tab.set (fun _ => 0) x.remapped (rowKey pc bank (s.get (Reg.STK_ROW_REMAP_ROW k))) (used + 1),
               remapHeld := [] }
    ((t.stkRelease k hs).remapGoOn k).stkFollow k
  else s

/-- COPY_ABANDON: a copy or remap in progress when the stack's domain turns off is abandoned; firmware starts it again after power-on, and the
accesses that the remap held wait for the stack (R309, R318). -/
def State.copyAbandon (s : State) (k : Nat) : State :=
  let row := (s.get (Reg.STK_ROW_REMAP_PC k), s.get (Reg.STK_ROW_REMAP_BANK k), s.get (Reg.STK_ROW_REMAP_ROW k))
  let busy := s.on (Reg.STK_ROW_REMAP_BUSY k)
  (s.puts [(Reg.STK_SPARE_STATUS_COPY_ACTIVE k, 0), (Reg.STK_ROW_REMAP_BUSY k, 0)]).modStk k fun x =>
    { x with copyDie := none, copyAgain := x.copyDie.or x.copyAgain, held := x.remapHeld ++ x.held, remapHeld := [],
             remapNext := if busy then row :: x.remapNext.filter (· != row) else x.remapNext }

/-! Power states (R316 to R318). -/

/-- STACK_IDLE_EXPIRY: an idle AUTO stack enters SELF_REFRESH; one that an access has woken returns to the state its request asks for (R316). Log entry 141 (DESIGN CHOICE, unsafe). -/
def State.stackIdle (s : State) (k : Nat) : State :=
  if s.get (Reg.STK_PWR_CTRL_REQ k) = 4 ∧ s.get (Reg.STK_STATUS_PWR_STATE k) = 0 ∧ s.stkQuiet k then
    s.put (Reg.STK_STATUS_PWR_STATE k) 1
  else s.stkFollow k

def execStackIdleExpiry (k : Fin 32) (s : State) : Host.Outcome State Fault Refusal := answer (s.stackIdle k)

/-- STACK_WAKE: a stack woken by an access becomes ACTIVE and the held accesses proceed (R317). -/
def State.stackWake (s : State) (k : Nat) : State :=
  let st := s.get (Reg.STK_STATUS_PWR_STATE k)
  if (st = 1 ∨ st = 2) ∧ (s.stk k).waking then s.stkActive k else s

def execStackWake (k : Fin 32) (s : State) : Host.Outcome State Fault Refusal := answer (s.stackWake k)

/-- The stack's domain turns off: its data is lost (zero when it wakes) and a copy in progress is abandoned (R309, R318). -/
def State.stackOff (s : State) (k : Nat) : State :=
  ((s.copyAbandon k).puts [(Reg.STK_STATUS_PWR_STATE k, 3), (Reg.STK_STATUS_READY k, 0)]).mzero (k * stackSize) stackSize

/-- The stack's domain is ready: every row is zeroed, held accesses proceed (R318), and firmware starts an abandoned copy or remap again (R309). -/
def State.stackOn (s : State) (k : Nat) : State :=
  let hs := (s.stk k).held
  let t := (((s.puts [(Reg.STK_STATUS_PWR_STATE k, 0), (Reg.STK_STATUS_READY k, 1)]).mzero (k * stackSize) stackSize).modStk k
    fun x => { x with held := [], waking := false, copyAgain := none }).stkRelease k hs
  let u := match (s.stk k).copyAgain with
    | some d => t.dieCopyStart k d
    | none => t
  (u.remapGoOn k).stkFollow k

/-- Ask for a stack's domain, or turn it off (R429). -/
def State.stkDomain (s : State) (k : Nat) (on : Bool) : State :=
  let set (a : Nat) (t : State) (v : Bool) : State :=
    t.setReg a (BitVec.ofNat 32 (t.rdN a - (t.rdN a &&& 2 ^ k) + (if v then 2 ^ k else 0)))
  if on then set (Reg.aPWR_DOM_REQ 0) s true else set (Reg.aPWR_DOM_REQ 0) (set (Reg.aPWR_DOM_STATE 0) s false) false

/-- A write of a stack's power request (R316): ACTIVE wakes it, SELF_REFRESH and DEEP are entered once it is quiet, OFF turns its domain
off; any other request of a stack that is OFF asks for its domain. -/
def State.stkReqWritten (s : State) (k : Nat) : State :=
  let st := s.get (Reg.STK_STATUS_PWR_STATE k)
  let req := s.get (Reg.STK_PWR_CTRL_REQ k)
  if st = 3 then if req ≠ 3 then s.stkDomain k true else s
  else if req = 0 then if st = 1 ∨ st = 2 then s.modStk k fun x => { x with waking := true } else s
  else if req = 3 then (s.stackOff k).stkDomain k false
  else s.stkFollow k

end Sys2Proof.Machine
end

