-- ==== Sys2Proof/Machine/Quipel.lean ====
section
/-!
DEFINITION. The Quipel ports (chapter 15): training and lanes, flits with retry and credits, the transactions a holding part
performs, responses, reduction nodes, time-outs and link loss.
-/

namespace Sys2Proof.Machine

/-! Training, lanes and widths (R342 to R344). -/

/-- The heats of every context with a reduction tree of a key do not commit. -/
def State.uncommitTree (s : State) (tree code : Nat) : State :=
  (List.range 64).foldl (fun t c => if (s.ctx c).trees.any (·.key.val == tree) then t.uncommit c code else t) s

/-- What becomes of the agent that waits for a request that failed (R368, R369). The Ethernet port answers its requester itself (R377). -/
def State.userFail (s : State) (u : QUser) (code detail : Nat) : State :=
  if u.agent = deadAgent then s
  else if u.agent = 9 ∨ u.agent = cacheAgent then s.outFault u.field u code detail
  else if u.agent = 13 then s.modField u.field fun f =>
    { f with resps := f.resps ++ [{ ctx := u.ctx, agent := 13, index := u.index, va := u.va, status := 7, value := code, data := [] }] }
  else s.agentFault u.field u.agent u.index u.ctx code detail

/-- QPL_LINK_DOWN: every request outstanding on the port fails, REDUCE messages in flight are lost, and firmware raises a MAJ
alarm; the port keeps trying to train (R368). Log entry 29 (DESIGN CHOICE, unsafe). -/
def State.linkDown (s : State) (n : Nat) : State :=
  let tags := (s.port n).tags.filter fun t => !t.timedOut
  let t := s.puts [(Reg.QPL_PORT_STATUS_LINK_UP n, 0), (Reg.QPL_PORT_STATUS_DOWN_SEEN n, 1),
    (Reg.QPL_PORT_STATUS_TX_WIDTH n, 0), (Reg.QPL_PORT_STATUS_RX_WIDTH n, 0),
    (Reg.QPL_PORT_STATUS_TRAINING n, if s.on (Reg.QPL_PORT_CTRL_EN n) then 1 else 0)]
  let t := t.modPort n fun x =>
    { x with tags := x.tags.filter (·.timedOut), nodeIn := [], txq := [], retry := [], resend := none, rx := [], passed := [], owed := [], nakOwed := false,
             steerOwed := false, farSteer := none, retraining := false, downSinceRoute := true, rerouted := [] }
  let t := tags.foldl (fun u g => u.userFail g.user Flt.QPL_LINK_DOWN g.req.rga) t
  let trees := (List.range 4).flatMap fun m => (List.range 64).filterMap fun k =>
    let d := s.get (Reg.QPL_RNODE_DEST_DEVICE m k)
    if s.on (Reg.QPL_RNODE_CFG_EN m k) && (m == n || (d != s.deviceId && s.get (Reg.QPL_ROUTE_PORT 0 d) == n)) then
      some (s.get (Reg.QPL_RNODE_KEY_TREE m k))
    else none
  let t := trees.foldl (fun u k => u.uncommitTree k Flt.QPL_LINK_DOWN) t
  t.alarm 1 Flt.QPL_LINK_DOWN (srcOf 3 n) none

def execQplLinkDown (n : Fin 4) (s : State) : Host.Outcome State Fault Refusal := answer (s.linkDown n)

/-- PORT_TRAINING: a port with EN set, its SerDes domain on and REFCLK_SD locked trains (R342). -/
def State.portTraining (s : State) (n : Nat) : State :=
  if s.on (Reg.QPL_PORT_CTRL_EN n) && s.serdesReady n && !s.on (Reg.QPL_PORT_STATUS_LINK_UP n) then
    s.put (Reg.QPL_PORT_STATUS_TRAINING n) 1
  else s

def execPortTraining (n : Fin 4) (s : State) : Host.Outcome State Fault Refusal := answer (s.portTraining n)

/-- Lanes of a direction (0 transmit, 1 receive) that carry a logical position and have not failed. -/
def State.goodLanes (s : State) (n dir : Nat) : Nat :=
  ((List.range 5).filter fun l => decide (s.get (Reg.QPL_LANE_STATE_ROLE n (l + 5 * dir)) ≤ 3) &&
    !s.on (Reg.QPL_LANE_STATE_FAILED n (l + 5 * dir))).length

/-- The width code of a direction: two lanes or four (R344). -/
def State.widthCode (s : State) (n dir : Nat) : Nat :=
  if 4 ≤ s.goodLanes n dir then 2 else if 2 ≤ s.goodLanes n dir then 1 else 0

/-- The credits a port holds after training: the peer's receive buffers, split between the classes in torus mode (R348). -/
def State.freshCredit (s : State) (n : Nat) : List (Nat × Nat) :=
  let torus := s.get (Reg.QPL_PORT_CTRL_MODE n) == 2
  (List.range 8).foldl (fun t k =>
    Tab.set (fun _ => 0) t k (if torus then vcDepth (k / 2) / 2 else if k % 2 = 0 then vcDepth (k / 2) else 0)) []

/-- LINK_UP: training completes and the link carries traffic (R342). A retrain keeps the retry buffer and sends from the SEQ
the peer asked for (R347); a first training starts both directions afresh. -/
def State.linkUp (s : State) (n dev port : Nat) (switch nodeHost : Bool) : State :=
  if s.on (Reg.QPL_PORT_STATUS_TRAINING n) then
    let t := s.puts [(Reg.QPL_PORT_STATUS_TRAINING n, 0), (Reg.QPL_PORT_STATUS_LINK_UP n, 1),
      (Reg.QPL_PORT_STATUS_TX_WIDTH n, s.widthCode n 0), (Reg.QPL_PORT_STATUS_RX_WIDTH n, s.widthCode n 1),
      (Reg.QPL_PORT_STATUS_PEER_SWITCH n, b2n switch), (Reg.QPL_PORT_STATUS_PEER_NODE_HOST n, b2n nodeHost),
      (Reg.QPL_PORT_STATUS_PEER_DEVICE n, dev), (Reg.QPL_PORT_STATUS_PEER_PORT n, port)]
    t.modPort n fun x =>
      if x.retraining then { x with retraining := false, resend := if 8 ≤ x.nakCount then some x.nakSeq else x.resend, nakCount := 0 }
      else { x with txSeq := 0, rxSeq := 0, retry := [], resend := none, nakCount := 0, credit := s.freshCredit n, owed := [], blockAt := 0, wordBad := false }
  else s

def execLinkUp (n : Fin 4) (dev : Fin 1024) (port : Fin 4) (switch nodeHost : Bool) (s : State) :
    Host.Outcome State Fault Refusal :=
  answer (s.linkUp n dev port switch nodeHost)

/-- Steer the logical position of a physical lane onto the spare of its direction (R343). -/
def State.steerLane (s : State) (n dir lane : Nat) : Option State :=
  let i := lane + 5 * dir
  let role := s.get (Reg.QPL_LANE_STATE_ROLE n i)
  match (List.range 5).find? fun l => s.get (Reg.QPL_LANE_STATE_ROLE n (l + 5 * dir)) == 4 &&
      !s.on (Reg.QPL_LANE_STATE_FAILED n (l + 5 * dir)) with
  | none => none
  | some sp => if role ≤ 3 then
      some (s.puts [(Reg.QPL_LANE_STATE_ROLE n (sp + 5 * dir), role), (Reg.QPL_LANE_STATE_ROLE n i, 5)])
    else none

/-- A lane fails: its position goes onto the spare; with none left the direction retrains at two lanes with a MAJ alarm, and
below two good lanes the link goes down (R343, R344). That retrain has 20 ms, where the others have 10 ms (R347). Log entry 145 (DEDUCED, unsafe). -/
def State.laneFail (s : State) (n dir lane : Nat) : State :=
  let t := s.put (Reg.QPL_LANE_STATE_FAILED n (lane + 5 * dir)) 1
  if 4 ≤ s.get (Reg.QPL_LANE_STATE_ROLE n (lane + 5 * dir)) then t
  else match t.steerLane n dir lane with
    | some u => u.modPort n fun x => { x with steerOwed := true }
    | none =>
      let u := t.put (Reg.QPL_LANE_STATE_ROLE n (lane + 5 * dir)) 5
      if u.goodLanes n dir < 2 then u.linkDown n
      else ((u.puts [(Reg.QPL_PORT_STATUS_TRAINING n, 1),
          (if dir = 0 then (Reg.QPL_PORT_STATUS_TX_WIDTH n, 1) else (Reg.QPL_PORT_STATUS_RX_WIDTH n, 1))]).modPort n
          fun x => { x with retraining := true, retrainSince := s.stamp + ticksOfMs 10 }).alarm 1 0 (srcOf 3 n) none

/-- LANE_ERROR_CHECK: a receiver's measured symbol error ratio of a lane over the last second (R343). -/
def State.laneCheck (s : State) (n lane serLog : Nat) (exceeded : Bool) : State :=
  let t := s.put (Reg.QPL_LANE_STATE_SER_LOG n (lane + 5)) serLog
  if exceeded then t.laneFail n 1 lane else t

def execLaneErrorCheck (n : Fin 4) (lane : Fin 5) (serLog : Fin 16) (exceeded : Bool) (s : State) :
    Host.Outcome State Fault Refusal :=
  answer (s.laneCheck n lane serLog exceeded)

/-- LANE_LOSS_OF_LOCK: a lane loses lock (R343, R344). -/
def execLaneLossOfLock (n : Fin 4) (dir : Fin 2) (lane : Fin 5) (s : State) : Host.Outcome State Fault Refusal :=
  answer (s.laneFail n dir lane)

/-- Is a spare free in a direction? -/
def State.spareFree (s : State) (n dir : Nat) : Bool :=
  (List.range 5).any fun l => s.get (Reg.QPL_LANE_STATE_ROLE n (l + 5 * dir)) == 4 &&
    !s.on (Reg.QPL_LANE_STATE_FAILED n (l + 5 * dir))

/-- QPL_STEER: START requests a lane change; it has no effect while BUSY or with no spare free, and then sets FAIL (R343). Log entry 29 (DESIGN CHOICE, unsafe). -/
def State.qplSteer (s : State) (n lane dir : Nat) : State :=
  let t := s.puts [(Reg.QPL_STEER_LANE n, lane), (Reg.QPL_STEER_DIR n, dir)]
  if s.on (Reg.QPL_STEER_BUSY n) then s.put (Reg.QPL_STEER_FAIL n) 1
  else if !s.spareFree n dir then t.put (Reg.QPL_STEER_FAIL n) 1
  else (t.put (Reg.QPL_STEER_BUSY n) 1).modPort n fun x => { x with steer := some (dir, lane), steerOwed := true }

def execQplSteer (n : Fin 4) (lane : Fin 5) (dir : Fin 2) (s : State) : Host.Outcome State Fault Refusal :=
  answer (s.qplSteer n lane dir)

/-- STEER_DONE: the lane change completes at a block boundary and sets DONE (R343). -/
def State.steerDone (s : State) (n : Nat) : State :=
  match (s.port n).steer with
  | none => s
  | some (dir, lane) =>
    let t := (s.put (Reg.QPL_STEER_BUSY n) 0).modPort n fun x => { x with steer := none }
    match t.steerLane n dir lane with
    | some u => u.put (Reg.QPL_STEER_DONE n) 1
    | none => t.put (Reg.QPL_STEER_FAIL n) 1

/-! Flits (R345 to R349). -/

/-- The flit a 256-byte block spells: flit, SEQ, ACK, credit VC, class and count. -/
def parseFlit (bs : List Byte) : QFlit × Nat × Nat × Nat × Nat × Nat :=
  let b0 := leNat (bs.take 1)
  let b1 := leNat ((bs.drop 1).take 1)
  ({ kind := b0 % 16, vc := b0 / 16 % 4, last := bit b0 6, cls := b0 / 128, body := (bs.drop 8).take 240 },
    leNat ((bs.drop 2).take 2), leNat ((bs.drop 4).take 2), b1 % 4, b1 / 4 % 2, leNat ((bs.drop 6).take 1))

/-- Is the flit's CRC good (Table 15-2)? -/
def flitCrcOk (bs : List Byte) : Bool := bs.length == 256 && crc32c (bs.take 252) == leNat (bs.drop 252)

/-- Retry entries left after an ACK of a SEQ (R347). -/
def ackRetry (ack : Nat) (rs : List (Nat × QFlit)) : List (Nat × QFlit) :=
  match rs.findIdx? fun r => r.1 == ack with
  | some i => rs.drop (i + 1)
  | none => rs

/-- The link retrains, keeping its retry buffer (R347). -/
def State.linkRetrain (s : State) (n : Nat) : State :=
  (s.put (Reg.QPL_PORT_STATUS_TRAINING n) 1).modPort n fun x => { x with retraining := true, retrainSince := s.stamp }

/-- A NAK names the SEQ to resend from; the eighth for one SEQ makes the link retrain (R347). -/
def State.nakReceived (s : State) (n seq : Nat) : State :=
  let x := s.port n
  let k := if x.nakSeq = seq then x.nakCount + 1 else 1
  let t := s.modPort n fun y => { y with nakSeq := seq, nakCount := k, resend := some seq }
  if 8 ≤ k then t.linkRetrain n else t

/-! Messages that have arrived. -/

/-- The flits of the first message of a virtual channel and class, if its last flit has come. -/
def headMessage (fs : List QFlit) : Option (List QFlit) :=
  match fs.findIdx? (·.last) with
  | some i => some (fs.take (i + 1))
  | none => none

/-- The message at the head of a virtual channel in a class, and the number of its flits. -/
def State.rxHeadOf (s : State) (n vc cls : Nat) : Option (QMsg × Nat) :=
  match headMessage (Tab.get (fun _ => []) (s.port n).rx (2 * vc + cls)) with
  | none => none
  | some fs =>
    match fs with
    | [] => none
    | h :: rest =>
      let m := QMsg.parse (h.body.take 32) (h.body.drop 32 ++ rest.flatMap (·.body))
      some ({ m with data := m.data.take m.len }, fs.length)

/-- The first message at the head of a virtual channel that fulfils a condition, its class, and the number of its flits. -/
def State.rxHead (s : State) (n vc : Nat) (ok : QMsg → Bool) : Option (QMsg × Nat × Nat) :=
  [0, 1].findSome? fun cls => ((s.rxHeadOf n vc cls).filter fun x => ok x.1).map fun x => (x.1, cls, x.2)

/-- Is a message of an opcode for this part? -/
def State.takes (s : State) (op : Nat) (m : QMsg) : Bool := m.op == op && m.dstDev == s.deviceId

/-- The flits of the first message of a virtual channel and class leave the receive buffer as they come, and their credit is owed (R348). Log entry
83 (DESIGN CHOICE, unsafe). -/
def PortState.moveOn (x : PortState) (k : Nat) : PortState :=
  let fs := Tab.get (fun _ => []) x.rx k
  let c := (headMessage fs).getD fs |>.length
  let b := Tab.get (fun _ => 0) x.passed k
  { x with passed := Tab.set (fun _ => 0) x.passed k c, owed := Tab.set (fun _ => 0) x.owed k (Tab.get (fun _ => 0) x.owed k + (c - b)) }

/-- Take the head message of a virtual channel and class: the flits of the next one move on (R348). -/
def State.rxPop (s : State) (n vc cls k : Nat) : State :=
  s.modPort n fun x =>
    ({ x with rx := Tab.set (fun _ => []) x.rx (2 * vc + cls) ((Tab.get (fun _ => []) x.rx (2 * vc + cls)).drop k),
              passed := Tab.set (fun _ => 0) x.passed (2 * vc + cls) 0 }).moveOn (2 * vc + cls)

/-- The response opcode of a request (Table 15-4). -/
def respOp (op : Nat) : Nat := if op = 0x40 then 0xC0 else 0x80 + op

/-- Is a message a request for this part of an opcode that Table 15-4 does not name? -/
def State.strange (s : State) (m : QMsg) : Bool := m.dstDev == s.deviceId && !([1, 2, 3, 4, 5, 6].contains m.op)

/-- A request of an opcode that Table 15-4 does not name is answered MALFORMED (R353), once the way to the port of the answer is open (R54). -/
def State.strangeOut (s : State) (n : Nat) : State :=
  match s.rxHead n 0 s.strange with
  | none => s
  | some (m, cls, k) =>
    if s.portWayOpen n (s.backPort n m.srcDev) then (s.rxPop n 0 cls k).respond n (m.response (respOp m.op % 256) 4 0 []) else s

/-- The codeword that a flit is the first to need, and the lane change that takes effect at the end of a block (R343, R345): flits 1 to 3 of a block
lie in the codeword before as well, and the last needs no further one. The answer tells whether a codeword of the flit has failed. -/
def State.codeword (s : State) (n : Nat) (bad : List (Fin 272)) : State × Bool :=
  let x := s.port n
  let i := x.blockAt % 5
  let errs := if i = 4 then 0 else bad.eraseDups.length
  let failed := decide (7 < errs) || (i != 0 && x.wordBad)
  let t := if 0 < errs ∧ errs ≤ 7 then s.count48 (Reg.aQPL_FEC_CORR_LO n) 1 else s
  let t := t.modPort n fun x =>
    { x with blockAt := (x.blockAt + 1) % 327680, wordBad := if i = 4 then x.wordBad else decide (7 < errs),
             badCodewords := x.badCodewords + b2n (decide (7 < errs)) }
  match i, (t.port n).farSteer with
  | 4, some (dir, lane) =>
    let u := t.modPort n fun x => { x with farSteer := none }
    ((u.steerLane n dir lane).getD u, failed)
  | _, _ => (t, failed)

/-- The lane change that the peer announces (R346). Log entry 145 (DEDUCED, unsafe). -/
def steerOf (body : List Byte) : Nat × Nat := (Config.steerNames body / 5 % 2, Config.steerNames body % 5)

/-- FLIT_RECEIVE: the receiver takes an in-order flit whose CRC and codewords are good, or discards it and owes a NAK (R345,
R347). ACK and credit of a good flit count whatever its kind. `bad` are the symbols of the flit's next codeword that arrive bad. -/
def State.flitReceive (s : State) (n : Nat) (bs : List Byte) (bad : List (Fin 272)) : State :=
  if !s.on (Reg.QPL_PORT_STATUS_LINK_UP n) then s
  else
  let (s, failed) := (s.strangeOut n).codeword n bad
  if !flitCrcOk bs || failed then s.modPort n fun x => { x with nakOwed := true }
  else
    let (f, seq, ack, cvc, ccls, ccount) := parseFlit bs
    let t := s.modPort n fun x =>
      { x with retry := ackRetry ack x.retry,
               credit := Tab.set (fun _ => 0) x.credit (2 * cvc + ccls) (Tab.get (fun _ => 0) x.credit (2 * cvc + ccls) + ccount) }
    let k := 2 * f.vc + f.cls
    match f.kind with
    | 1 | 2 =>
      if seq = (t.port n).rxSeq then
        t.modPort n fun x => ({ x with rxSeq := (seq + 1) % 65536, nakOwed := false,
                                       rx := Tab.set (fun _ => []) x.rx k (Tab.get (fun _ => []) x.rx k ++ [f]) }).moveOn k
      else t.modPort n fun x => { x with nakOwed := true }
    | 3 =>
      if leNat (f.body.take 2) = 1 then t.nakReceived n (leNat ((f.body.drop 2).take 2))
      else if leNat (f.body.take 2) = 2 then t.modPort n fun x => { x with farSteer := some (steerOf f.body) }
      else t
    | _ => t

def execFlitReceive (n : Fin 4) (bs : List Byte) (bad : List (Fin 272)) (s : State) : Host.Outcome State Fault Refusal :=
  answer (s.flitReceive n bs bad)

/-- RETRAIN_TIMEOUT: a retrain not complete within 10 ms takes the link down (R347). -/
def State.retrainTimeout (s : State) (n : Nat) : State :=
  if (s.port n).retraining && decide ((s.port n).retrainSince + ticksOfMs 10 ≤ s.stamp) then s.linkDown n else s

def execRetrainTimeout (n : Fin 4) (s : State) : Host.Outcome State Fault Refusal := answer (s.retrainTimeout n)

/-- The flits that wait in a virtual channel and class. -/
def PortState.waits (x : PortState) (vc cls : Nat) : List QFlit := Tab.get (fun _ => []) x.txq (2 * vc + cls)

/-- The class whose flit a virtual channel sends next: that of a message begun, or the first with a flit and the credit to send it, since the flits
of one message are consecutive (R346, R348). Log entry 83 (DESIGN CHOICE, unsafe). -/
def PortState.vcClass (x : PortState) (vc : Nat) : Option Nat :=
  ([0, 1].find? fun c => (x.waits vc c).head?.any (·.kind == 2)).or
    ([0, 1].find? fun c => !(x.waits vc c).isEmpty && decide (0 < Tab.get (fun _ => 0) x.credit (2 * vc + c)))

/-- Does a VC have a flit and the credit to send it (R348)? Log entry 83 (DESIGN CHOICE, unsafe). -/
def State.vcReady (s : State) (n vc : Nat) : Bool :=
  match (s.port n).vcClass vc with
  | some c => !((s.port n).waits vc c).isEmpty && decide (0 < Tab.get (fun _ => 0) (s.port n).credit (2 * vc + c))
  | none => false

/-- The virtual channels by priority (R349): management, response, reduction, request. -/
def vcOrder : List Nat := [3, 1, 2, 0]

/-- The VC whose flit goes next (R349): management, response, reduction, request; a VC overtaken by 7 flits goes first. Log entry 83 (DESIGN CHOICE, unsafe). -/
def State.vcChoice (s : State) (n : Nat) : Option Nat :=
  let ready := vcOrder.filter (s.vcReady n)
  match ready.find? fun v => decide (7 ≤ Tab.get (fun _ => 0) (s.port n).waited v) with
  | some v => some v
  | none => ready.head?

/-- The credit a flit returns: the first VC and class that owe any, at most 255 (R348). Log entry 83 (DESIGN CHOICE, unsafe). -/
def PortState.creditReturn (x : PortState) : Nat × Nat :=
  match x.owed.find? fun e => decide (0 < e.2) with
  | some (k, c) => (k, min c 255)
  | none => (0, 0)

/-- Put a flit on the wire with the port's ACK and credit return. -/
def State.emitFlit (s : State) (n seq : Nat) (f : QFlit) : State :=
  let x := s.port n
  let (k, c) := x.creditReturn
  let bs := f.bytes seq ((x.rxSeq + 65535) % 65536) (k / 2) (k % 2) c
  s.modPort n fun y => { y with sent := y.sent ++ [bs], owed := Tab.set (fun _ => 0) y.owed k (Tab.get (fun _ => 0) y.owed k - c) }

/-- FLIT_SEND: a NAK that is owed goes first, then a lane change to announce, then a resend from the SEQ the peer named, then the flit of the chosen
VC (R343, R346 to R349); lower VCs that had one waited for it. With nothing to send, credit that is owed goes in an IDLE flit. A sender with 512 flits unacknowledged waits. Log entry 83 (DESIGN CHOICE, unsafe). -/
def State.flitSend (s : State) (n : Nat) : State :=
  let s := (s.fields.map (·.1)).foldl (fun t p => t.flushOutbound p) s
  let x := s.port n
  if !s.on (Reg.QPL_PORT_STATUS_LINK_UP n) || s.on (Reg.QPL_PORT_STATUS_TRAINING n) then s
  else if x.nakOwed then
    (s.emitFlit n 0 { kind := 3, vc := 0, last := false, cls := 0, body := padTo 240 (leBytes 2 1 ++ leBytes 2 x.rxSeq) }).modPort n
      fun y => { y with nakOwed := false }
  else if x.steerOwed then
    (s.emitFlit n 0 { kind := 3, vc := 0, last := false, cls := 0, body := padTo 240 (leBytes 2 2) }).modPort n fun y => { y with steerOwed := false }
  else match x.resend with
    | some q =>
      match x.retry.find? fun r => r.1 == q with
      | none => s.modPort n fun y => { y with resend := none }
      | some (seq, f) =>
        let t := (s.emitFlit n seq f).count48 (Reg.aQPL_RETRY_LO n) 1
        t.modPort n fun y => { y with resend := some ((seq + 1) % 65536) }
    | none =>
      if 512 ≤ x.retry.length then s
      else match s.vcChoice n with
        | some v =>
          let c := (x.vcClass v).getD 0
          match x.waits v c with
          | [] => s
          | f :: rest =>
            let t := s.emitFlit n x.txSeq f
            t.modPort n fun y =>
              { y with txq := Tab.set (fun _ => []) y.txq (2 * v + c) rest, txSeq := (y.txSeq + 1) % 65536, retry := y.retry ++ [(x.txSeq, f)],
                       credit := Tab.set (fun _ => 0) y.credit (2 * v + c) (Tab.get (fun _ => 0) y.credit (2 * v + c) - 1),
                       waited := (((vcOrder.dropWhile (· != v)).drop 1).filter (s.vcReady n)).foldl
                         (fun w k => Tab.set (fun _ => 0) w k (Tab.get (fun _ => 0) w k + 1)) (Tab.set (fun _ => 0) y.waited v 0) }
        | none =>
          if (x.owed.any fun e => decide (0 < e.2)) then
            s.emitFlit n 0 { kind := 0, vc := 0, last := false, cls := 0, body := [] }
          else s

def execFlitSend (n : Fin 4) (s : State) : Host.Outcome State Fault Refusal := answer (s.flitSend n)

/-! The holding part (R336, R353, R354). -/

/-- The port of a dimension: QP0 and QP1 are X, QP2 and QP3 are Y (R362). -/
def portDim (n : Nat) : Nat := n / 2

/-- FLIT_FORWARD: a message for another part passes from port to port (R362, R363, R366). CE is set when the output VC holds
more than MARK_THRESH flits; a request with no route is answered UNROUTABLE. It waits while a seam between the ports is shut (R54). -/
def State.flitForward (s : State) (n vc : Nat) : State :=
  match s.rxHead n vc (fun m => m.dstDev != s.deviceId) with
  | none => s
  | some (m, cls, k) =>
      let t := s.rxPop n vc cls k
      if !s.on (Reg.QPL_ROUTE_VALID 0 m.dstDev) then
        if m.vc = 0 then t.respond n (m.response (respOp m.op % 256) 5 0 []) else t
      else
        let o := s.get (Reg.QPL_ROUTE_PORT 0 m.dstDev)
        let deep := decide (s.get (Reg.QPL_CONG_CTRL_MARK_THRESH o) < ((s.port o).waits vc 0).length + ((s.port o).waits vc 1).length)
        if !s.portWayOpen n o then s
        else t.qplEnqueue o (s.exitClass o (cls == 1 && portDim n == portDim o)) { m with ce := m.ce || deep }

def execFlitForward (n : Fin 4) (vc : Fin 4) (s : State) : Host.Outcome State Fault Refusal := answer (s.flitForward n vc)

/-! The holding part (R336, R353, R354). -/

/-- What the export table says of an access (R336). -/
inductive Export where
  | ok | notPresent | refused
  deriving DecidableEq, Repr

/-- The check of an arriving access: the first enabled entry that covers its offset decides (R336); with no device id every
access is refused (R321). -/
def State.exportCheck (s : State) (src off : Nat) (need : Need) : Export :=
  if !s.on Reg.XLT_DEVICE_ID_VALID then .refused
  else
    let covers (k : Nat) : Bool :=
      let b := s.get (Reg.XLT_EXPORT_BASE_BASE k) * 65536
      s.on (Reg.XLT_EXPORT_CFG_EN k) && decide (b ≤ off ∧ off < b + s.get (Reg.XLT_EXPORT_LEN_LEN k) * 65536)
    match (List.range 64).find? covers with
    | none => .refused
    | some k =>
      let rights := s.get ⟨Reg.aXLT_EXPORT_CFG k, 4, 2⟩
      if !(s.on (Reg.XLT_EXPORT_CFG_ANY k) || s.get (Reg.XLT_EXPORT_CFG_DEVICE k) == src) then .refused
      else if !need.granted rights then .refused
      else if s.on (Reg.XLT_EXPORT_CFG_PRESENT k) then .ok else .notPresent

/-- Read for another part from port `n`, once traffic passes from its quadrant (R54, R57). Log entry 82 (DESIGN CHOICE, safe). -/
def State.heldRead (s : State) (port off n : Nat) : Acc (State × List Byte) :=
  match offsetTarget off with
  | some (.stack o) =>
    if s.portWayOpen port (quadOfStack (o / stackSize)) then do
      let bs ← s.stackRead o n
      .ok (s, bs)
    else .error .blocked
  | some (.fm m o) =>
    match s.physOf m with
    | some q => if s.portWayOpen port (quadOfField q) then s.fmRead q none o n else .error .blocked
    | none => .error (.protect o)
  | _ => .error (.protect off)

/-- Write for another part from port `n`. Log entry 82 (DESIGN CHOICE, safe). -/
def State.heldWrite (s : State) (port off : Nat) (bs : List Byte) : Acc State :=
  match offsetTarget off with
  | some (.stack o) => if s.portWayOpen port (quadOfStack (o / stackSize)) then s.stackWrite o bs else .error .blocked
  | some (.fm m o) =>
    match s.physOf m with
    | some q => if s.portWayOpen port (quadOfField q) then s.fmWrite q none o bs else .error .blocked
    | none => .error (.protect o)
  | _ => .error (.protect off)

/-- The status a failed access answers with, or none while it is held (Table 15-5). -/
def AccErr.status : AccErr → Option Nat
  | .fmUncorr _ => some 3
  | .stkUncorr _ => some 3
  | .bankAsleep .. => none
  | .stackAsleep _ => none
  | .bucketEmpty => none
  | .blocked => none
  | _ => some 2

/-- What a holding part notes of a word that failed an access (R244, R304). -/
def State.heldFail (s : State) : AccErr → State
  | .fmUncorr a => s.fmUncorrSeen (fieldOfWord 0 a) a false
  | .stkUncorr o => s.stkUncorrSeen o false
  | _ => s

/-- A holding part performs the request at the head of the request channel of port `n`, when it has the given opcode and is for
this part (R353): malformed, refused and not-present requests are answered so and perform nothing. Log entry 82 (DESIGN CHOICE, safe). -/
def State.hold (s : State) (n op : Nat) (need : Need) (act : State → QMsg → Acc (State × Nat × List Byte)) : State :=
  match s.rxHead n 0 (s.takes op) with
  | none => s
  | some (m, cls, k) =>
    if !s.portWayOpen n (s.backPort n m.srcDev) then s
    else
      let t := s.rxPop n 0 cls k
      let answer (u : State) (status v : Nat) (bs : List Byte) : State := u.respond n (m.response (respOp op) status v bs)
      if !m.aligned || decide (2 ^ 51 ≤ m.rga) then answer t 4 0 []
      else match s.exportCheck m.srcDev (bits m.rga 40 0) need with
        | .refused => answer t 2 0 []
        | .notPresent => answer t 1 0 []
        | .ok =>
          match act t m with
          | .ok (u, v, bs) => answer u 0 v bs
          | .error e =>
            match e.status with
            | some st => answer (t.heldFail e) st 0 []
            | none => s.wakeFor e

/-- QPL_READ (R353). -/
def State.qplRead (s : State) (n : Nat) : State :=
  s.hold n 0x01 .read fun t m => do
    let (u, bs) ← t.heldRead n (bits m.rga 40 0) (m.arg0 % 8192)
    .ok (u, 0, bs)

/-- QPL_WRITE (R353). -/
def State.qplWrite (s : State) (n : Nat) : State :=
  s.hold n 0x02 .write fun t m => do
    let u ← t.heldWrite n (bits m.rga 40 0) m.data
    .ok (u, 0, [])

/-- QPL_ATOMIC (R313, R314, R353). Log entry 81 (DESIGN CHOICE, unsafe). -/
def State.qplAtomic (s : State) (n : Nat) : State :=
  s.hold n 0x03 .atomic fun t m =>
    let o := bits m.rga 40 0
    if stackBytes < o + 8 then .error (.saTarget o)
    else if !t.portWayOpen n (quadOfStack (o / stackSize)) then .error .blocked
    else do
      let (u, old) ← t.atomicAt o (m.arg0 % 16) m.arg1 (leNat m.data)
      .ok (u, old, [])

/-- QPL_SCATTER_ADD (R311, R314, R353). Log entry 81 (DESIGN CHOICE, unsafe). -/
def State.qplScatterAdd (s : State) (n : Nat) : State :=
  s.hold n 0x04 .scatterAdd fun t m =>
    let o := bits m.rga 40 0
    if stackBytes < o + 128 then .error (.saTarget o)
    else if !t.portWayOpen n (quadOfStack (o / stackSize)) then .error .blocked
    else do
      let u ← t.scatterAddAt o (m.arg1 % 32) m.arg0 m.data
      .ok (u, 0, [])

def execQplRead (n : Fin 4) (s : State) : Host.Outcome State Fault Refusal := answer (s.qplRead n)
def execQplWrite (n : Fin 4) (s : State) : Host.Outcome State Fault Refusal := answer (s.qplWrite n)
def execQplAtomic (n : Fin 4) (s : State) : Host.Outcome State Fault Refusal := answer (s.qplAtomic n)
def execQplScatterAdd (n : Fin 4) (s : State) : Host.Outcome State Fault Refusal := answer (s.qplScatterAdd n)

/-- A record of another generation than its channel's, or for a channel that is not open, is discarded, counted, and sets STALE (R266). -/
def State.msgStale (s : State) (q ch : Nat) : State :=
  (s.put (Reg.FLD_CH_RX_STATE_STALE q ch) 1).modCh q fun x =>
    { x with stale := Tab.set (fun _ => 0) x.stale ch (Tab.get (fun _ => 0) x.stale ch + 1) }

/-- The bytes of a record that has come over Quipel: REMOTE is set, and a PAD keeps its header alone. -/
def msgRecord (m : QMsg) : List Byte :=
  let bs := m.data.take 1 ++ [1] ++ m.data.drop 2
  if isPadOf m.data.length (bs.take 32) then bs.take 32 else bs

/-- MSG: a remote record lands in its receive channel; one of another generation is discarded; MSG_ACK is sent once WPTR has passed the record
(R266, R353). A record without space or way waits at the head of its queue. -/
def State.qplMsg (s : State) (n : Nat) : State :=
  match s.rxHead n 0 (s.takes 0x05) with
  | none => s
  | some (m, cls, k) =>
    if !s.portWayOpen n (s.backPort n m.srcDev) then s
    else
      let t := s.rxPop n 0 cls k
      let ch := m.arg0 % 32
      let ack (u : State) (st : Nat) : State := u.respond n (m.response 0x85 st 0 [])
      if !m.aligned then ack t 4
      else match s.physOf m.dstLf with
        | none => ack t 2
        | some q =>
          let gen := s.get (Reg.FLD_CH_RX_STATE_GEN q ch)
          let live := match s.rxChan q ch with
            | some r => r.remote && gen == m.arg0 / 32 % 2048
            | none => false
          if !live then ack (t.msgStale q ch) 0
          else if !s.routeUp (.chan q ch false) then s
          else match (match t.ringEnter q ch (msgRecord m) with
            | .ok (.padded u) => u.ringEnter q ch (msgRecord m)
            | x => x) with
          | .ok (.entered u) => ack u 0
          | .ok _ => s
          | .error e => match e.status with
            | some st => ack (t.heldFail e) st
            | none => s.wakeFor e

def execMsg (n : Fin 4) (s : State) : Host.Outcome State Fault Refusal := answer (s.qplMsg n)

/-- HURDLE_ARRIVE: a remote arrival is checked by EN and GEN and applied, or discarded and REFUSED (R277); one with data is MALFORMED (R353). It waits
while a seam on its way is shut (R54). -/
def State.qplArrive (s : State) (n : Nat) : State :=
  match s.rxHead n 0 (s.takes 0x06) with
  | none => s
  | some (m, cls, k) =>
    if !s.portWayOpen n (s.backPort n m.srcDev) then s
    else
      let t := s.rxPop n 0 cls k
      let h := m.arg0 / 65536 % 256
      let ack (u : State) (st : Nat) : State := u.respond n (m.response 0x86 st 0 [])
      if !m.aligned then ack t 4
      else match s.physOf m.dstLf with
      | none => ack (t.faultWith (some 1) Flt.HURDLE_UNMAPPED 9 0 none none h) 6
      | some q =>
        if !s.portWayOpen n (quadOfField q) then s
        else if s.on (Reg.FLD_HRD_STATE_EN q h) && s.get (Reg.FLD_HRD_CFG_GEN q h) == m.arg0 % 65536 then
          ack (t.hurdleArrive q h (m.arg1 % 65536) q (some (s.get (Reg.FLD_HRD_STATE_OWNER q h)))) 0
        else ack (t.faultWith (some 1) Flt.HURDLE_UNMAPPED 9 0 (some m.dstLf) none h) 6

def execHurdleArrive (n : Fin 4) (s : State) : Host.Outcome State Fault Refusal := answer (s.qplArrive n)

/-- CH_CREDIT: ring credit returns to an endpoint (R258, R353); a credit of another generation is dropped. -/
def State.chCredit (s : State) (n : Nat) : State :=
  match s.rxHead n 1 (s.takes 0x88) with
  | none => s
  | some (m, cls, k) =>
      let t := s.rxPop n 1 cls k
      match s.physOf m.dstLf with
      | none => t
      | some q =>
        if !s.portWayOpen n (quadOfField q) then s
        else
        let i := m.arg0 / 65536 % 32
        match s.txChan q i with
        | none => t
        | some x =>
          if x.gen = m.arg0 / 32 % 2048 ∧ x.rxIdx = m.arg0 % 32 then t.setTxCredit q i (t.txCredit q i + m.arg1 % 2 ^ 32) else t

def execChCredit (n : Fin 4) (s : State) : Host.Outcome State Fault Refusal := answer (s.chCredit n)

/-- PING: answered with PONG copying its arguments (R352), MALFORMED where it carries data (R353). -/
def State.qplPing (s : State) (n : Nat) : State :=
  match s.rxHead n 3 (s.takes 0x40) with
  | none => s
  | some (m, cls, k) =>
    let t := s.rxPop n 3 cls k
    if !s.portWayOpen n (s.backPort n m.srcDev) then s
    else if !m.aligned then t.respond n (m.response 0xC0 4 0 [])
    else t.respond n { m.response 0xC0 0 m.arg1 [] with arg0 := m.arg0 }

def execPing (n : Fin 4) (s : State) : Host.Outcome State Fault Refusal := answer (s.qplPing n)

/-! Responses (R350, R366 to R369). -/

/-- The window of a destination after a response (R367): it halves at most once in 10 microseconds, and whether these have passed within one tick or
the next is open. Log entry 158 (DESIGN CHOICE, safe). -/
def State.windowAdjust (s : State) (n dev : Nat) (echo : Bool) : State :=
  let w := s.qplWindow n dev
  let lo := 2 ^ s.get (Reg.QPL_CONG_CTRL_WIN_MIN_LOG2 n)
  let hi := 2 ^ s.get (Reg.QPL_CONG_CTRL_WIN_MAX_LOG2 n)
  let w' : QWindow :=
    if echo then
      if w.halvedAt = 0 ∨ w.halvedAt + 2 ≤ s.stamp ∨ Config.tenMicros s.fresh = true then { size := max lo (w.size / 2), halvedAt := s.stamp } else w
    else { w with size := min hi (w.size + 4096) }
  (s.bumpFresh).modPort n fun x => { x with windows := Tab.set (fun _ => { size := hi, halvedAt := 0 }) x.windows dev w' }

/-- The entry of the fault queue for a write of the cache to another part (R333); the channel unit translates no VA and writes none. Log entry 146
(DESIGN CHOICE, unsafe). -/
def State.outEntry (s : State) (u : QUser) (code rga n : Nat) : State :=
  if u.agent = cacheAgent then s.fqEnter u.field 4 0 u.ctx code u.va rga true n else s

/-- A message of the channel unit or a write of the cache that was answered NOT_PRESENT goes again, up to RETRY_LIMIT times (R337). Log entry 146 (DESIGN CHOICE, unsafe). -/
def State.outAgain (s : State) (g : QTag) : State :=
  let u := g.user
  let key := agentKey u.agent u.index u.ctx
  let n := Tab.get (fun _ => 0) (s.field u.field).retryCount key
  if n < s.get Reg.XLT_REMOTE_RETRY_RETRY_LIMIT then
    s.modField u.field fun f =>
      { f with ch := { f.ch with outbound := f.ch.outbound ++ [(u, g.req)] }, retryCount := Tab.set (fun _ => 0) f.retryCount key (n + 1) }
  else
    ((s.modField u.field fun f => { f with retryCount := Tab.set (fun _ => 0) f.retryCount key 0 }).outFault u.field u Flt.REMOTE_NOT_PRESENT g.req.rga).outEntry
      u Flt.REMOTE_NOT_PRESENT g.req.rga n

/-- The RGA of the access that a request of an agent is for: it has the VA's place in its page of 4 KiB. -/
def QTag.accessRga (g : QTag) : Nat := g.req.rga / 4096 * 4096 + (g.user.va + g.user.off) % 4096

/-- Does an agent wait to repeat a remote access (R337)? -/
def State.retries (s : State) (p key : Nat) : Bool := (s.stopOf p key).any (·.kind == .remoteRetry)

/-- What a response does to the agent that waits for it (Table 15-5). One that has stopped already stops once (R340); a refusal ends its wait for a
repeat (R337). -/
def State.respDeliver (s : State) (g : QTag) (m : QMsg) : State :=
  let u := g.user
  let write := g.req.op ≠ 0x01
  let key := agentKey u.agent u.index u.ctx
  let tried := Tab.get (fun _ => 0) (s.field u.field).retryCount key
  let posted := u.agent = 9 ∨ u.agent = cacheAgent
  if u.agent = deadAgent then s
  else if u.agent = 13 then s.modField u.field fun f =>
    { f with resps := f.resps ++ [{ ctx := u.ctx, agent := 13, index := u.index, va := u.va, status := m.status, value := m.arg1, data := m.data }] }
  else match m.status with
  | 0 => s.modField u.field fun f =>
      { f with resps := if posted then f.resps else f.resps ++ [{ ctx := u.ctx, agent := u.agent, index := u.index, va := u.va, status := 0, value := m.arg1, data := m.data }],
               retryCount := Tab.set (fun _ => 0) f.retryCount key 0 }
  | 1 => if posted then s.outAgain g
         else if (s.stopOf u.field key).isSome then s
         else s.setStop u.field key
      { kind := .remoteRetry, code := Flt.REMOTE_NOT_PRESENT, ctx := u.ctx, va := u.va + u.off, rga := g.accessRga, write := write, retries := tried }
  | 2 => if posted then (s.outFault u.field u Flt.REMOTE_ACCESS g.req.rga).outEntry u Flt.REMOTE_ACCESS g.req.rga tried
         else (if s.retries u.field key then s.clearStop u.field key else s).xltFault u.field u.agent u.index u.ctx Flt.REMOTE_ACCESS (u.va + u.off)
           g.accessRga write tried
  | 3 => s.userFail u Flt.QPL_REMOTE_UNCORR g.req.rga
  | 4 => s.userFail u Flt.QPL_MALFORMED g.req.rga
  | 5 => s.userFail u Flt.QPL_UNROUTABLE g.req.rga
  | _ => s.uncommitAs u.ctx 3 Flt.HURDLE_UNMAPPED

/-- A response of a given opcode at the head of the response channel reaches its requester by the tag of the port its request left by (R350), whichever
port it comes in by; a late one is discarded and sets LATE (R368). -/
def State.qplResponse (s : State) (n vc op : Nat) : State :=
  match s.rxHead n vc (s.takes op) with
  | none => s
  | some (m, cls, k) =>
      let t := s.rxPop n vc cls k
      let q := m.tag / 2048
      match (s.port q).tags.find? fun g => g.tag == m.tag with
      | none => t
      | some g =>
        if g.timedOut then t.put (Reg.QPL_TIMEOUT_LATE q) 1
        else
          let u := t.modPort q fun x => { x with tags := x.tags.filter fun y => y.tag != m.tag }
          (u.windowAdjust q g.req.dstDev m.ceEcho).respDeliver g m

def execRdData (n : Fin 4) (s : State) : Host.Outcome State Fault Refusal := answer (s.qplResponse n 1 0x81)
def execWrAck (n : Fin 4) (s : State) : Host.Outcome State Fault Refusal := answer (s.qplResponse n 1 0x82)
def execAtData (n : Fin 4) (s : State) : Host.Outcome State Fault Refusal := answer (s.qplResponse n 1 0x83)
def execSaAck (n : Fin 4) (s : State) : Host.Outcome State Fault Refusal := answer (s.qplResponse n 1 0x84)
def execMsgAck (n : Fin 4) (s : State) : Host.Outcome State Fault Refusal := answer (s.qplResponse n 1 0x85)
def execHaAck (n : Fin 4) (s : State) : Host.Outcome State Fault Refusal := answer (s.qplResponse n 1 0x86)
def execPong (n : Fin 4) (s : State) : Host.Outcome State Fault Refusal := answer (s.qplResponse n 3 0xC0)

/-- Has TIMEOUT_US passed at a port since a time (R368)? -/
def State.qplTimedOut (s : State) (n since : Nat) : Bool := decide (since + ticksOfUs (s.get (Reg.QPL_TIMEOUT_TIMEOUT_US n)) ≤ s.stamp)

/-- QPL_RESPONSE_TIMEOUT: a request without response after TIMEOUT_US fails with FLT_QPL_TIMEOUT, and its tag stays out of use (R368). -/
def State.respTimeout (s : State) (n tag : Nat) : State :=
  match (s.port n).tags.find? fun g => g.tag == tag && !g.timedOut with
  | none => s
  | some g =>
    if !s.qplTimedOut n g.issued then s
    else
      (s.modPort n fun x => { x with tags := x.tags.map fun y => if y.tag == tag then { y with timedOut := true, issued := s.stamp } else y }).userFail
        g.user Flt.QPL_TIMEOUT g.req.rga

def execQplResponseTimeout (n : Fin 4) (tag : Fin 2048) (s : State) : Host.Outcome State Fault Refusal :=
  answer (s.respTimeout n (2048 * n + tag))

/-- QPL_TAG_RELEASE: a tag held for a further TIMEOUT_US after a time-out is free again (R368). -/
def State.tagRelease (s : State) (n tag : Nat) : State :=
  s.modPort n fun x => { x with tags := x.tags.filter fun y => !(y.tag == tag && y.timedOut && s.qplTimedOut n y.issued) }

def execQplTagRelease (n : Fin 4) (tag : Fin 2048) (s : State) : Host.Outcome State Fault Refusal := answer (s.tagRelease n (2048 * n + tag))

/-! Reduction nodes (R356 to R360). -/

/-- One element combined by a node, with its clamp (R358). -/
def redElem (fmt a b : Nat) : Nat × Bool :=
  if fmt = fmtINT32 then i32SatAdd a b else if fmt = fmtFP32 then (f32Add a b, false) else (bf16Add a b, false)

/-- Two operands combined element by element (R358). Log entry 84 (DESIGN CHOICE, unsafe). -/
def redCombine (fmt count : Nat) (a b : List Byte) : List Byte :=
  let es := (List.range count).map fun i => redElem fmt (redGet fmt a i) (redGet fmt b i)
  let data := es.flatMap fun e => leBytes (redWidth fmt) e.1
  if fmt = fmtINT32 then
    data ++ clampMapBytes ((List.range count).map fun i =>
      redClamp a count i || redClamp b count i || (redElem fmt (redGet fmt a i) (redGet fmt b i)).2)
  else data

/-- A result for a root Field of this part lands there. -/
def State.redDeliver (s : State) (q tree off count : Nat) (bs : List Byte) : State :=
  s.modField q fun f =>
    { f with resps := f.resps ++ [{ ctx := 64, agent := 0, index := 63, va := tree * 2 ^ 32 + off, status := 0, value := count, data := bs }] }

/-- A node's result goes onward: a REDUCE to the node or root Field its DEST names (R356). A destination on this part is delivered without a link; none
while a seam on the way is shut (R54). Without a route the heats of the tree do not commit (R369). Log entry 84 (DESIGN CHOICE, unsafe). -/
def State.redOnward (s : State) (n k off count : Nat) (bs : List Byte) : Option State :=
  let dev := s.get (Reg.QPL_RNODE_DEST_DEVICE n k)
  let target := s.get (Reg.QPL_RNODE_DEST_TARGET n k)
  let tree := s.get (Reg.QPL_RNODE_KEY_TREE n k)
  let root := s.on (Reg.QPL_RNODE_DEST_ROOT n k)
  let m := QMsg.reduce s.deviceId dev (if root then target else 0) tree (if root then redRoot else target) (s.get (Reg.QPL_RNODE_CFG_OUT_SIDE n k))
    (s.get (Reg.QPL_RNODE_CFG_GEN n k)) (s.get (Reg.QPL_RNODE_CFG_FMT n k)) off count bs
  if dev = s.deviceId then
    if root then
      match s.physOf target with
      | some q => if s.portWayOpen n (quadOfField q) then some (s.redDeliver q tree off count bs) else none
      | none => some s
    else
      let q := s.portOfNode n tree target
      if s.portWayOpen n q then some (s.modPort q fun x => { x with nodeIn := x.nodeIn ++ [m] }) else none
  else if !s.on (Reg.QPL_ROUTE_VALID 0 dev) then some (s.uncommitTree tree Flt.QPL_UNROUTABLE)
  else if s.portWayOpen n (s.get (Reg.QPL_ROUTE_PORT 0 dev)) then some (s.qplPost m)
  else none

/-- A refused operand: discarded, counted and reported with a MAJ alarm; the heat group of the tree does not commit (R359). Log entry 84 (DESIGN CHOICE, unsafe). -/
def State.redRefuse (s : State) (n tree : Nat) : State :=
  ((s.modPort n fun x => { x with reduceRefused := x.reduceRefused + 1 }).partFault 12 n Flt.QPL_REDUCE tree).uncommitTree tree
    Flt.QPL_REDUCE

/-- The bytes of an operand (R357). -/
def QOperand.bytes (o : QOperand) : Nat := redLen o.fmt o.count

/-- Bytes of operands a port holds, in its buffer or in the spill area. -/
def State.redHeld (s : State) (n : Nat) (spilled : Bool) : Nat :=
  ((s.port n).operands.filter (·.spilled.isSome == spilled)).foldl (fun a o => a + o.bytes) 0

/-- Show the spill area's use. -/
def State.redShow (s : State) (n : Nat) : State :=
  s.put (Reg.QPL_RSPILL_SIZE_USED_MIB n) ((s.redHeld n true + 2 ^ 20 - 1) / 2 ^ 20)

/-- The first place of the spill area where so many bytes fit, in units of 64 bytes. Log entry 84 (DESIGN CHOICE, unsafe). -/
def State.redPlace (s : State) (n len : Nat) : Option Nat :=
  let used := (s.port n).operands.filterMap fun o => o.spilled.map fun a => (a, o.bytes)
  (0 :: used.map fun u => (u.1 + u.2 + 63) / 64 * 64).find? fun a =>
    decide (a + len ≤ s.get (Reg.QPL_RSPILL_SIZE_SIZE_MIB n) * 2 ^ 20) && used.all fun u => decide (a + len ≤ u.1 ∨ u.1 + u.2 ≤ a)

/-- The part offset of a place of the spill area (R360). -/
def State.redAt (s : State) (n a : Nat) : Nat := s.get (Reg.QPL_RSPILL_BASE_BASE n) * 65536 + a

/-- An access of a node to the spill area that fails: it waits, or the heats of the tree do not commit (R304). -/
def State.redFail (s t : State) (tree : Nat) (e : AccErr) : State :=
  if e.waits then s.wakeFor e else (t.heldFail e).uncommitTree tree (match e with | .stkUncorr _ => Flt.STK_UNCORR | _ => Flt.QPL_RSPILL)

/-- Hold an operand for its partner: in the 256 KiB buffer, else in the spill area in the stacks; a full area raises FLT_QPL_RSPILL, and firmware
doubles it before the replay (R360). `s` is the state in which the operand still waits. Log entry 84 (DESIGN CHOICE, unsafe). -/
def State.redHold (s t : State) (n : Nat) (o : QOperand) : State :=
  if t.redHeld n false + o.bytes ≤ 2 ^ 18 then t.modPort n fun x => { x with operands := x.operands ++ [o] }
  else match t.redPlace n o.bytes with
  | some a =>
    if !t.portWayOpen n (quadOfStack (t.redAt n a / stackSize)) then s
    else match t.stackWrite (t.redAt n a) o.data with
    | .ok u => (u.modPort n fun x => { x with operands := x.operands ++ [{ o with data := [], spilled := some a }] }).redShow n
    | .error e => s.redFail t o.tree e
  | none => ((t.modPort n fun x => { x with grow := true }).partFault 12 n Flt.QPL_RSPILL o.tree).uncommitTree o.tree Flt.QPL_RSPILL

/-- The data of a held operand, from the spill area where it lies there. -/
def State.redData (s : State) (n : Nat) (o : QOperand) : Acc (List Byte) :=
  match o.spilled with
  | none => .ok o.data
  | some a => if s.portWayOpen n (quadOfStack (s.redAt n a / stackSize)) then s.stackRead (s.redAt n a) o.bytes else .error .blocked

/-- The REDUCE message that port `n` takes next: one from this part, or the one at the head of the reduction channel. -/
def State.nodeTake (s : State) (n : Nat) : Option (State × QMsg) :=
  match (s.port n).nodeIn with
  | m :: rest => some (s.modPort n fun x => { x with nodeIn := rest }, m)
  | [] => (s.rxHead n 2 (s.takes 0x07)).map fun x => (s.rxPop n 2 x.2.1 x.2.2, x.1)

/-- Has a REDUCE message elements of its format in a number that R357 allows, and the length they take? -/
def redFits (fmt count len : Nat) : Bool := decide (1 ≤ count ∧ count ≤ (if fmt = fmtBF16 then 2048 else 1024) ∧ len = redLen fmt count)

/-- REDUCE: a node holds or combines the next operand of its port and sends the result onward, and a result for a root Field lands there (R356 to
R360). One of a length that does not fit its elements has no effect (R353). Log entry 84 (DESIGN CHOICE, unsafe). -/
def State.qplReduce (s : State) (n : Nat) : State :=
  match s.nodeTake n with
  | none => s
  | some (t, m) =>
    let tree := m.arg0 % 65536
    let node := m.arg0 / 2 ^ 16 % 64
    let side := m.arg0 / 2 ^ 22 % 2
    let gen := m.arg0 / 2 ^ 23 % 16
    let fmt := m.arg0 / 2 ^ 27 % 32
    let off := m.arg1 % 2 ^ 32
    let count := m.arg1 / 2 ^ 32 % 65536
    match (List.range 64).find? fun k => s.on (Reg.QPL_RNODE_CFG_EN n k) &&
        s.get (Reg.QPL_RNODE_KEY_TREE n k) == tree && s.get (Reg.QPL_RNODE_KEY_NODE n k) == node with
    | none =>
      if node ≠ redRoot then t.redRefuse n tree
      else if !redFits fmt count m.len then t
      else match s.physOf m.dstLf with
      | some q => if s.portWayOpen n (quadOfField q) then t.redDeliver q tree off count m.data else s
      | none => t.redRefuse n tree
    | some k =>
      if s.get (Reg.QPL_RNODE_CFG_GEN n k) ≠ gen then t.modPort n fun x => { x with reduceStale := x.reduceStale + 1 }
      else if s.get (Reg.QPL_RNODE_CFG_FMT n k) ≠ fmt then t.redRefuse n tree
      else if !redFits fmt count m.len then t
      else if s.on (Reg.QPL_RNODE_CFG_PASS n k) && side == 0 then (t.redOnward n k off count m.data).getD s
      else
        let same (o : QOperand) : Bool := o.tree == tree && o.node == node && o.off == off
        match (s.port n).operands.find? same with
        | none => s.redHold t n { tree := tree, node := node, side := side, fmt := fmt, off := off, count := count, data := m.data, spilled := none }
        | some o =>
          if o.side = side ∨ o.count ≠ count then t.redRefuse n tree
          else
            let u := (t.modPort n fun x => { x with operands := dropFirst same x.operands }).redShow n
            match t.redData n o with
            | .error e => s.redFail u tree e
            | .ok bs => (u.redOnward n k off count (redCombine fmt count bs m.data)).getD s

def execReduce (n : Fin 4) (s : State) : Host.Outcome State Fault Refusal := answer (s.qplReduce n)

end Sys2Proof.Machine
end

