-- ==== Sys2Proof/Machine/Posting.lean ====
section
/-!
DEFINITION. What every post shares (R112, R159, R222, R230, R279, R404): the check of the resident slot, the copy of the
descriptor into the queue, and the waits of agents on sleeping memory.
-/

namespace Sys2Proof.Machine

/-- Change the grid of a Field. -/
def State.modGrid (s : State) (p : Nat) (g : GridState → GridState) : State := s.modField p fun f => { f with grid := g f.grid }

/-! Progress (R213). -/

/-- A resident context makes progress on a Field. -/
def State.progress (s : State) (p slot : Nat) : State :=
  s.modGrid p fun g => { g with windows := Tab.erase g.windows slot }

/-- A post that names a resident slot that is not VALID (R404): the overrun bit of its target and FLT_CTX_INVALID. -/
def State.postInvalid (s : State) (p agent index : Nat) (overrun : RF) : State :=
  (s.put overrun 1).fieldFault p agent index none Flt.CTX_INVALID 0

/-- The bytes a post copies from Field memory, through the windows of its slot (R111, R237). A sleeping bank wakes first (R249). Bytes outside
the windows and an uncorrectable word are faults, and nothing is posted. Log entry 52 (DESIGN CHOICE, unsafe). Log entry 134 (DESIGN CHOICE, unsafe). -/
def State.postRead (s : State) (p agent index slot off n : Nat) : State × Option (List Byte) :=
  if !s.windowOk p slot off n then (s.fieldFault p agent index (s.ctxOf p slot) Flt.FM_PROTECT off, none)
  else
    let t := s.awake p off n false
    match t.badWord? (fmLoc p off) n with
    | some w => ((t.fmUncorrSeen p w false).fieldFault p agent index (s.ctxOf p slot) Flt.FM_UNCORR (bits w 23 0), none)
    | none => (t, some (t.mread (fmLoc p off) n))

/-- The outcome of a post: its slot is not VALID, the queue or the context's share is full, or it has been taken. -/
inductive PostEnd where
  | invalid
  | full
  | done (s : State)

/-- Post a descriptor of `n` bytes to a queue of `cap` entries of which one slot may hold `share` (R112, R159, R222, R230, R279,
R404). `put` adds the entry to its queue. Log entry 52 (DESIGN CHOICE, unsafe). -/
def State.postTo (s : State) (p agent index slot off n : Nat) (q : List Posted) (cap share : Nat)
    (put : State → Posted → State) : PostEnd :=
  match s.ctxOf p slot with
  | none => .invalid
  | some c =>
    if cap ≤ q.length ∨ share ≤ (q.filter (·.slot == slot)).length then .full
    else match s.postRead p agent index slot off n with
    | (t, none) => .done t
    | (t, some d) =>
      .done (put (t.modCtx c fun x => { x with posts := x.posts + 1 }) { slot := slot, order := (t.ctx c).posts, split := 0, desc := d })

/-- What a DCS post shows of its outcome (R112, R404). -/
def State.dcsPost (s : State) (p agent index : Nat) (overrun : RF) : PostEnd → State
  | .invalid => s.postInvalid p agent index overrun
  | .full => s.put overrun 1
  | .done t => t

/-! What a context has issued or posted before (R114, R161). -/

/-- What array `a` of Field `p` holds. -/
def State.ma (s : State) (p a : Nat) : MaState := if a = 0 then (s.field p).ma0 else (s.field p).ma1

/-- What engine `e` of Field `p` holds: 0 the vector engine, 1 the row engine. -/
def State.eng (s : State) (p e : Nat) : EngState := if e = 0 then (s.field p).ve else (s.field p).re

/-- What DMA engine `d` of Field `p` holds. -/
def State.dma (s : State) (p d : Nat) : DmaState := Tab.get (fun _ => ⟨[], []⟩) (s.field p).dmas d

/-- Does a queue hold an entry of a context posted before `n`? Log entry 52 (DESIGN CHOICE, unsafe). -/
def State.queuedBefore (s : State) (p c n : Nat) (q : List Posted) : Bool :=
  q.any fun e => s.ctxOf p e.slot == some c && decide (e.order < n)

/-- Is a macro that a context posted before `n` unfinished? The partner of a paired macro, by its sequence number, does not count. Log entry 52
(DESIGN CHOICE, unsafe). -/
def State.macrosBefore (s : State) (p c n : Nat) (mate : Option Nat) : Bool :=
  [0, 1].any fun a => (s.ma p a).runs.any (fun r => r.ctx == c && decide (r.post < n) && mate != some r.seq) || s.queuedBefore p c n (s.ma p a).queue

/-- Is an engine operation that a context posted before `n` unfinished? Log entry 52 (DESIGN CHOICE, unsafe). -/
def State.engsBefore (s : State) (p c n : Nat) : Bool :=
  [0, 1].any fun e => (s.eng p e).runs.any (fun r => r.ctx == c && decide (r.post < n)) || s.queuedBefore p c n (s.eng p e).queue

/-- Is a DMA that a context posted before `n` unfinished? Log entry 52 (DESIGN CHOICE, unsafe). -/
def State.dmasBefore (s : State) (p c n : Nat) : Bool :=
  (List.range 4).any fun d =>
    (s.dma p d).runs.any (fun r => r.ctx == c && decide (r.post < n)) || s.queuedBefore p c n (s.dma p d).queue

/-- Does an entry of an agent working for a context still wait for its place in the fault queue (R334)? -/
def State.fqPending (s : State) (p agent index ctx : Nat) : Bool :=
  s.xlt.fqWait.any fun e =>
    e.1 == quadOfField p && e.2.lfield == (s.lfieldOf p).getD 0 && e.2.agent == agent && e.2.index == index && e.2.ctx == ctx

/-- Has an agent working for a context stopped with a fault, its entry in the fault queue where it has one (R333, R334)? -/
def State.stopCode (s : State) (p agent index ctx : Nat) : Option Nat :=
  match s.stopOf p (agentKey agent index ctx) with
  | some x => if x.kind = .failed ∧ s.fqPending p agent index ctx = false then some x.code else none
  | none => none

/-- Does an agent working for a context wait for an answer to a translation fault (R333, R337), or for the place of its entry in the fault
queue (R334)? -/
def State.agentWaits (s : State) (p agent index ctx : Nat) : Bool :=
  match s.stopOf p (agentKey agent index ctx) with
  | some x => x.kind != .failed || s.fqPending p agent index ctx
  | none => false

/-- What a check at issue that fails leaves beside its fault record: the place of an uncorrectable word of a record it read (R244). -/
def State.checkSeen (s : State) (p code detail : Nat) : State :=
  if code = Flt.FM_UNCORR then s.fmUncorrSeen p (fmLoc p detail) false else s

/-- Write a completion record of 32 bytes through the windows of a slot. The answer is the state and whether the operation ends:
a record outside the windows is a fault, and the operation ends without it; a sleeping bank wakes, and the operation waits. -/
def State.recordWrite (s : State) (p agent index slot off : Nat) (bs : List Byte) : State × Bool :=
  match s.fmWrite p (some slot) off bs with
  | .ok t => (t, true)
  | .error (.bankAsleep q b w) => (s.wakeBank q b w, false)
  | .error (.protect o) => (s.fieldFault p agent index (s.ctxOf p slot) Flt.FM_PROTECT o, true)
  | .error (.fmUncorr a) =>
    ((s.fmUncorrSeen p a false).fieldFault p agent index (s.ctxOf p slot) Flt.FM_UNCORR (bits a 23 0), true)
  | .error _ => (s, true)

end Sys2Proof.Machine
end

