-- ==== Sys2Proof/Machine/MatrixOps.lean ====
section
/-!
DEFINITION. The matrix macro descriptor (Table 5-2), its effective shape and walk (R118 to R127), the checks at issue
(Table 5-1), and the accumulation and output of tiles (R90 to R107, R135 to R137).
-/

namespace Sys2Proof.Machine

/-- Bits of 32-bit word `k` of a record. -/
def fw (d : List Byte) (k hi lo : Nat) : Nat := bits (leNat ((d.drop (4 * k)).take 4)) hi lo

/-- The 48-bit VA in words `k` and `k + 1` of a record. -/
def fva (d : List Byte) (k : Nat) : Nat := leNat ((d.drop (4 * k)).take 6)

/-- `a / b` rounded up. -/
def ceilDiv (a b : Nat) : Nat := (a + b - 1) / b

/-! Fields of the descriptor that rules name. -/

/-- Loop order. -/
def mdLoop (d : List Byte) : Nat := fw d 0 10 8
/-- Group size G. -/
def mdG (d : List Byte) : Nat := 4 * 2 ^ fw d 0 12 11
/-- Accumulate mode: 0 fresh, 1 accumulate, 2 pinned. -/
def mdAcc (d : List Byte) : Nat := fw d 0 14 13
/-- PAIR. -/
def mdPair (d : List Byte) : Bool := fw d 0 27 27 == 1
/-- Formats of A, B, the output and the stash. -/
def mdAFmt (d : List Byte) : Nat := fw d 1 4 0
def mdBFmt (d : List Byte) : Nat := fw d 1 12 8
def mdOutFmt (d : List Byte) : Nat := fw d 1 20 16
def mdStashFmt (d : List Byte) : Nat := fw d 1 28 24
/-- Planned shape, tile sizes and the K range. -/
def mdM (d : List Byte) : Nat := fw d 2 31 0
def mdN (d : List Byte) : Nat := fw d 3 23 0
def mdTM (d : List Byte) : Nat := fw d 3 31 24
def mdK (d : List Byte) : Nat := fw d 4 31 0
def mdTN (d : List Byte) : Nat := fw d 5 7 0
def mdTK (d : List Byte) : Nat := fw d 5 31 16
def mdKLo (d : List Byte) : Nat := fw d 24 31 0
def mdBatch (d : List Byte) : Nat := fw d 20 15 0
/-- Pointer-list mode. -/
def mdPtr (d : List Byte) : Bool := fw d 0 25 24 == 1
/-- Pinned slots, in increasing number. -/
def mdPins (d : List Byte) : List Nat := (List.range 8).filter fun n => bit (fw d 20 23 16) n
/-- K parts and this part's index. -/
def mdP (d : List Byte) : Nat := fw d 28 17 12
def mdPart (d : List Byte) : Nat := fw d 28 22 18
/-- Is the part the root of its split, or the macro unsplit? -/
def mdRoot (d : List Byte) : Bool := mdP d == 0 || mdPart d == 0
/-- Tile grid of the planned shape (R118). -/
def mdMt (d : List Byte) : Nat := ceilDiv (mdM d) (mdTM d)
def mdNt (d : List Byte) : Nat := ceilDiv (mdN d) (mdTN d)
/-- Does the macro accumulate in FP32? -/
def mdF32 (d : List Byte) : Bool := pairAcc (mdAFmt d) (mdBFmt d) == some .fp32
/-- The initial value of an element: -0 in FP32, 0 in INT32 (R93). -/
def mdInit (d : List Byte) : Nat := if mdF32 d then 2 ^ 31 else 0
/-- Is the output the raw INT32 accumulator? -/
def mdRaw (d : List Byte) : Bool := mdOutFmt d == fmtINT32
/-- The tile index of an output tile (R118). -/
def mdTile (d : List Byte) (b i j : Nat) : Nat := (b * mdMt d + i) * mdNt d + j

/-- The word of a chain record or descriptor as a truth value. -/
def fbit (d : List Byte) (k i : Nat) : Bool := fw d k i i == 1

/-! Effective shape and walk (R120 to R125). -/

/-- Entry `b` of a pointer list: VAs of A, B and C, M_ELEM and N_ELEM. -/
def ptrVa (ps : List Byte) (b k : Nat) : Nat := fva (ps.drop (32 * b)) (2 * k)
def ptrM (ps : List Byte) (b : Nat) : Nat := fw (ps.drop (32 * b)) 6 31 0
def ptrN (ps : List Byte) (b : Nat) : Nat := fw (ps.drop (32 * b)) 7 31 0

/-- The end of the present k of the macro's range (R122). -/
def MacroRun.kEnd (r : MacroRun) : Nat := min (mdKLo r.desc + mdK r.desc) r.kEff

/-- Rows and columns of batch element `b` (R122, R127). -/
def MacroRun.rows (r : MacroRun) (b : Nat) : Nat := if mdPtr r.desc then ptrM r.ptrs b else r.mEff
def MacroRun.colsN (r : MacroRun) (b : Nat) : Nat := if mdPtr r.desc then ptrN r.ptrs b else r.nEff

/-- K-tiles of the effective shape. A part of a split with no present k still visits each tile once (R132). -/
def MacroRun.kt (r : MacroRun) : Nat :=
  let k := ceilDiv (r.kEnd - mdKLo r.desc) (mdTK r.desc)
  if k = 0 ∧ mdP r.desc ≠ 0 ∧ r.kEff ≠ 0 then 1 else k

/-- Tile rows and columns of batch element `b`; zero where no tile runs (R123). -/
def MacroRun.mt (r : MacroRun) (b : Nat) : Nat := if r.kt = 0 then 0 else ceilDiv (r.rows b) (mdTM r.desc)
def MacroRun.nt (r : MacroRun) (b : Nat) : Nat := if r.kt = 0 then 0 else ceilDiv (r.colsN b) (mdTN r.desc)

/-- The place (i, j, kk) of position `q` of the walk of one batch element (R120, Table 5-3). -/
def walkPlace (loop mt nt kt q : Nat) : Nat × Nat × Nat :=
  match loop with
  | 0 => (q / (nt * kt), q / kt % nt, q % kt)
  | 1 => (q / kt % mt, q / (mt * kt), q % kt)
  | 2 => (q / (kt * nt), q % nt, q / nt % kt)
  | 3 => (q % mt, q / (kt * mt), q / mt % kt)
  | 4 => (q / nt % mt, q % nt, q / (mt * nt))
  | _ => (q % mt, q / mt % nt, q / (nt * mt))

/-- Live tiles of a loop order (Table 5-3). -/
def liveTiles (loop mt nt : Nat) : Nat :=
  if mt * nt = 0 then 0 else match loop with
  | 0 | 1 => 1
  | 2 => nt
  | 3 => mt
  | _ => mt * nt

/-- The live index of a tile (Table 5-3). -/
def liveIndex (loop nt i j : Nat) : Nat :=
  match loop with
  | 0 | 1 => 0
  | 2 => j
  | 3 => i
  | _ => i * nt + j

/-- Does the occupancy map skip a tile (R124)? -/
def MacroRun.vacant (r : MacroRun) (b i j : Nat) : Bool :=
  fbit r.desc 0 21 &&
    (let t := mdTile r.desc b i j
     !bit (leNat ((r.occ.drop (t / 8)).take 1)) (t % 8))

/-- Does the tile (i, j) of every batch element of a gang macro fall to another member: it runs on the member whose rank is i × nt + j modulo their
number, so that an element of a C that the batch shares is computed in one Field (R29, R126)? Log entry 147 (DESIGN CHOICE, unsafe). -/
def MacroRun.elsewhere (r : MacroRun) (i j : Nat) : Bool :=
  !r.gang.isEmpty && mdTile r.desc 0 i j % r.gang.length != r.rank

/-- Does a run pass over a tile: empty in the occupancy map (R124), or another member's (R29)? -/
def MacroRun.skips (r : MacroRun) (b i j : Nat) : Bool := r.vacant b i j || r.elsewhere i j

/-- The first position at or after `(b, q)` whose tile is not skipped. The fuel bounds the positions. -/
def MacroRun.seek (r : MacroRun) : Nat → Nat → Nat → Option (Nat × Nat)
  | 0, _, _ => none
  | fuel + 1, b, q =>
    if r.bEff ≤ b then none
    else if r.mt b * r.nt b * r.kt ≤ q then MacroRun.seek r fuel (b + 1) 0
    else
      let (i, j, _) := walkPlace (mdLoop r.desc) (r.mt b) (r.nt b) r.kt q
      if r.skips b i j then MacroRun.seek r fuel b (q + 1) else some (b, q)

/-- Positions a walk may have, as fuel. -/
def MacroRun.fuel (r : MacroRun) : Nat := mdBatch r.desc * (mdMt r.desc * mdNt r.desc * r.kt + 1) + 1

/-- The run with its walk at the first live position at or after `(b, q)`. -/
def MacroRun.goTo (r : MacroRun) (b q : Nat) : MacroRun :=
  match r.seek r.fuel b q with
  | some (b', q') => { r with b := b', q := q', walkDone := false }
  | none => { r with walkDone := true }

/-- The first place of the walk after the present one that needs another B tile (R88, R144); none where the walk ends first. The fuel bounds
the places. -/
def MacroRun.nextB (r : MacroRun) (j kk : Nat) : Nat → MacroRun → Option MacroRun
  | 0, _ => none
  | fuel + 1, x =>
    let y := x.goTo x.b (x.q + 1)
    if y.walkDone then none
    else
      let (_, j', kk') := walkPlace (mdLoop y.desc) (y.mt y.b) (y.nt y.b) y.kt y.q
      if y.b = r.b ∧ j' = j ∧ kk' = kk then MacroRun.nextB r j kk fuel y else some y

/-- The tile and K-tile of the walk's position. -/
def MacroRun.place (r : MacroRun) : Nat × Nat × Nat :=
  walkPlace (mdLoop r.desc) (r.mt r.b) (r.nt r.b) r.kt r.q

/-- The largest number of live tiles over the batch elements (R128). -/
def MacroRun.live (r : MacroRun) : Nat :=
  (List.range r.bEff).foldl (fun l b => max l (liveTiles (mdLoop r.desc) (r.mt b) (r.nt b))) 0

/-- Effective output tiles, in increasing tile index (R131). -/
def MacroRun.effTiles (r : MacroRun) : List (Nat × Nat × Nat) :=
  (List.range r.bEff).flatMap fun b => (List.range (r.mt b)).flatMap fun i => (List.range (r.nt b)).map fun j => (b, i, j)

/-- The number of effective output tiles. -/
def MacroRun.effCount (r : MacroRun) : Nat := (List.range r.bEff).foldl (fun n b => n + r.mt b * r.nt b) 0

/-! Bases and strides. -/

/-- The base of A, B or C (`k` 0, 1, 2) for batch element `b` (R126, R127). -/
def MacroRun.base (r : MacroRun) (k b : Nat) : Nat :=
  if mdPtr r.desc then ptrVa r.ptrs b k else fva r.desc (7 + 2 * k) + 256 * b * fw r.desc (21 + k) 31 0

/-- The stride of A, B or C. -/
def mdStride (d : List Byte) (k : Nat) : Nat := fw d (13 + k) 31 0

/-- The scale row of row or column `x` of operand A or B (`k` 0, 1) in element `b` (R571). -/
def MacroRun.scaleRow (r : MacroRun) (k b x : Nat) : Nat :=
  if mdPtr r.desc ∨ fw r.desc (21 + k) 31 0 ≠ 0 then b * (if k = 0 then mdM r.desc else mdN r.desc) + x else x

/-! Reading and writing packed elements. -/

/-- `n` elements of a format from element `k0` of a stored row at a VA. -/
def State.readElems (s : State) (p slot : Nat) (isVa : Bool) (fmt va k0 n : Nat) : Acc (State × List Nat) := do
  let w := fmtWidth fmt
  let lo := w * k0 / 8
  let (t, bs) ← s.opRead p slot isVa (va + lo) ((w * (k0 + n) + 7) / 8 - lo)
  .ok (t, (List.range n).map fun i =>
    let o := w * (k0 + i) - 8 * lo
    (leNat ((bs.drop (o / 8)).take 5) / 2 ^ (o % 8)) % 2 ^ w)

/-- Elements of a packing unit (Table 3-2). -/
def packUnit (fmt : Nat) : Nat := match fmtWidth fmt with | 4 => 2 | 6 => 4 | _ => 1

/-- Put element codes into packed bytes from element `i`. -/
def elemsPut (fmt : Nat) : Nat → List Nat → List Byte → List Byte
  | _, [], bs => bs
  | i, v :: vs, bs => elemsPut fmt (i + 1) vs (elemPut fmt bs i v)

/-- Write element codes from element `k0` of a stored row at a VA, keeping every other bit (R60). -/
def State.writeElems (s : State) (p slot : Nat) (isVa : Bool) (fmt va k0 : Nat) (vs : List Nat) : Acc State := do
  let w := fmtWidth fmt
  if w < 8 then
    let e0 := k0 / packUnit fmt * packUnit fmt
    let (t, bs) ← s.opRead p slot isVa (va + w * e0 / 8) (fmtBytes fmt (k0 - e0 + vs.length))
    t.opWrite p slot isVa (va + w * e0 / 8) (elemsPut fmt (k0 - e0) vs bs)
  else s.opWrite p slot isVa (va + w / 8 * k0) (vs.flatMap fun v => leBytes (w / 8) v)

/-- Rows of elements: each a VA, a first element and a count. -/
def State.readRows (s : State) (p slot : Nat) (isVa : Bool) (fmt : Nat) : List (Nat × Nat × Nat) → Acc (State × List (List Nat))
  | [] => .ok (s, [])
  | (va, k0, n) :: rest => do
    let (t, a) ← s.readElems p slot isVa fmt va k0 n
    let (u, as) ← State.readRows t p slot isVa fmt rest
    .ok (u, a :: as)

/-! Transpose-on-read (R149). -/

/-- The banks of a transpose buffer once the rows of a block have been written: element (s, t) in bank (s + t) mod 128, at place s. -/
def transFill (rows : List (List Nat)) : List (List Nat) :=
  (List.range 128).map fun bank => (List.range rows.length).map fun i => (rows.getD i []).getD ((bank + 128 - i % 128) % 128) 0

/-- Transposed row `t` of a block of `n` rows, read from the banks. -/
def transRow (n : Nat) (banks : List (List Nat)) (t : Nat) : List Nat :=
  (List.range n).map fun i => (banks.getD ((i + t) % 128) []).getD i 0

/-- The first `n` columns of rows, as rows. -/
def transposeL (n : Nat) (rows : List (List Nat)) : List (List Nat) :=
  (List.range n).map fun i => rows.map fun r => r.getD i 0

/-- What array `a` of Field `p` holds, changed. -/
def State.modMa (s : State) (p a : Nat) (g : MaState → MaState) : State :=
  s.modField p fun f => if a = 0 then { f with ma0 := g f.ma0 } else { f with ma1 := g f.ma1 }

/-- Write a block into the transpose buffer of an operand that was filled longer ago. -/
def MaState.fillBuf (m : MaState) (operand : Nat) (banks : List (List Nat)) : MaState :=
  let n := match m.tbufs.reverse.find? fun b => b.operand == operand with
    | some b => 1 - b.buffer
    | none => 0
  { m with tbufs := (m.tbufs.filter fun b => !(b.operand == operand && b.buffer == n)) ++
      [{ operand := operand, buffer := n, banks := banks }] }

/-- Pass the stored rows of an operand through its transpose buffers, a block of 128 rows at a time: the first `xn` transposed rows. The fuel
bounds the blocks. -/
def State.transPass (s : State) (p a operand xn : Nat) : Nat → List (List Nat) → State × List (List Nat)
  | 0, _ => (s, (List.range xn).map fun _ => [])
  | fuel + 1, rows =>
    if rows.isEmpty then (s, (List.range xn).map fun _ => [])
    else
      let blk := rows.take 128
      let banks := transFill blk
      let (u, rest) := State.transPass (s.modMa p a fun m => m.fillBuf operand banks) p a operand xn fuel (rows.drop 128)
      (u, (List.range xn).map fun t => transRow blk.length banks t ++ rest.getD t [])

/-- The same for `xn` columns of any width, in blocks of 128 columns. -/
def State.transAll (s : State) (p a operand xn : Nat) (rows : List (List Nat)) : State × List (List Nat) :=
  (List.range (ceilDiv xn 128)).foldl (fun acc c =>
    let w := min 128 (xn - 128 * c)
    let (u, ys) := acc.1.transPass p a operand w (rows.length + 1) (rows.map fun r => (r.drop (128 * c)).take w)
    (u, acc.2 ++ ys)) (s, [])

/-- A block of operand A or B (`operand` 0, 1) by its output index: `x0` up, `xn` of them, each with `kn` elements from `k0`. `byK` says the
operand is stored with k as its row; `trans` whether it is read through the transpose buffers of array `a` (R117, R149). -/
def State.readBlock (s : State) (p a operand slot fmt base stride : Nat) (trans byK : Bool) (x0 xn k0 kn : Nat) : Acc (State × List (List Nat)) := do
  let (t, rows) ← s.readRows p slot true fmt
    (if byK then (List.range kn).map fun k => (base + (k0 + k) * stride, x0, xn)
     else (List.range xn).map fun x => (base + (x0 + x) * stride, k0, kn))
  if !trans then .ok (t, if byK then transposeL xn rows else rows)
  else if byK then .ok (t.transAll p a operand xn rows)
  else
    let (u, cols) := t.transAll p a operand kn rows
    .ok (u, transposeL xn cols)

/-- The scale bytes of an MX operand for the rows or columns of a block; none for another format (R67, R571). -/
def State.readScales (s : State) (p : Nat) (r : MacroRun) (k b x0 xn k0 kn : Nat) : Acc (State × List (List Nat)) :=
  if fmtIsMx (if k = 0 then mdAFmt r.desc else mdBFmt r.desc) then
    let base := fva r.desc (16 + 2 * k)
    let str := fw r.desc (17 + 2 * k) 31 16
    let q0 := k0 / 32
    let q1 := (k0 + kn + 31) / 32
    s.readRows p r.slot true fmtINT8 ((List.range xn).map fun x => (base + r.scaleRow k b (x0 + x) * str + q0, 0, q1 - q0))
  else .ok (s, [])

/-! Accumulation (R90 to R94). -/

/-- Add the groups of a run of present k, from absolute index `k`, to an accumulator word and its clamp flag. `sa` and `sb` are
the scale bytes from the block of `k0`. The fuel bounds the groups. -/
def accGroups (f32 : Bool) (fa fb g k0 : Nat) (sa sb : List Nat) : Nat → Nat → List Nat → List Nat → Nat × Bool → Nat × Bool
  | 0, _, _, _, acc => acc
  | fuel + 1, k, as, bs, acc =>
    if as.isEmpty then acc
    else
      let n := g - k % g
      let ga := as.take n
      let gb := bs.take n
      let acc' :=
        if f32 then
          (f32Add acc.1 (groupF32 (sa.getD (k / 32 - k0 / 32) 127) (sb.getD (k / 32 - k0 / 32) 127)
            ((ga.zip gb).map fun x => (elemVal fa x.1, elemVal fb x.2))), acc.2)
        else
          let t := i32Clamp (signed 32 acc.1 +
            groupInt ((ga.zip gb).map fun x => (signed (fmtWidth fa) x.1, signed (fmtWidth fb) x.2)))
          (t.1, acc.2 || t.2)
      accGroups f32 fa fb g k0 sa sb fuel (k + n) (as.drop n) (bs.drop n) acc'

/-- The word and clamp flag of an element of a tile. -/
def Tile.elem (t : Tile) (key : Nat) : Nat × Bool :=
  (Tab.get (fun _ => t.init) t.elems key, Tab.get (fun _ => false) t.clamps key)

/-- Replace the word and clamp flag of an element. -/
def Tile.put (t : Tile) (key : Nat) (v : Nat × Bool) : Tile :=
  { t with elems := Tab.set (fun _ => t.init) t.elems key v.1, clamps := Tab.set (fun _ => false) t.clamps key v.2 }

/-- Add the groups of a K-tile's block to every present element of a tile (R92, R93). -/
def Tile.addBlock (t : Tile) (d : List Byte) (k0 : Nat) (as bs sa sb : List (List Nat)) : Tile :=
  (List.range as.length).foldl (fun t m => (List.range bs.length).foldl (fun t n =>
    let a := as.getD m []
    let v := accGroups t.f32 (mdAFmt d) (mdBFmt d) (mdG d) k0 (sa.getD m []) (sb.getD n []) (a.length + 1) k0 a (bs.getD n [])
      (t.elem (128 * m + n))
    t.put (128 * m + n) v) t) t

/-! Spill frames (R100, Table 4-2). -/

/-- The 256-byte header of a frame of kind 1 or 2. -/
def Tile.header (t : Tile) (kind : Nat) : List Byte :=
  leBytes 4 kind ++ leBytes 4 t.tidx ++ leBytes 4 t.nextG ++ leBytes 4 (if t.f32 then fmtFP32 else fmtINT32) ++
  leBytes 4 (t.g + 32 * t.part) ++ leBytes 4 t.seq ++ List.replicate 232 0

/-- The 67,840 bytes of a frame. Elements beyond TM × TN, which R95 never writes, stand as their initial value. Log entry 149 (DESIGN CHOICE,
unsafe). -/
def Tile.frame (t : Tile) (kind : Nat) : List Byte :=
  t.header kind ++ ((List.range 16384).flatMap fun k => leBytes 4 (t.elem k).1) ++
  ((List.range 2048).map fun b => BitVec.ofNat 8
    ((List.range 8).foldl (fun v i => v + (if (t.elem (8 * b + i)).2 then 2 ^ i else 0)) 0))

/-- Does a frame's header match the macro, tile and part being resumed (R100)? -/
def Tile.matchesFrame (t : Tile) (kind : Nat) (bs : List Byte) : Bool :=
  (List.range 4).all (fun k => fw bs k 31 0 == fw (t.header kind) k 31 0) &&
  fw bs 4 10 0 == fw (t.header kind) 4 10 0 && fw bs 5 31 0 == fw (t.header kind) 5 31 0

/-- The tile with the values of a frame. -/
def Tile.load (t : Tile) (bs : List Byte) : Tile :=
  (List.range 16384).foldl (fun t k =>
    t.put k (leNat ((bs.drop (256 + 4 * k)).take 4), bit (leNat ((bs.drop (65792 + k / 8)).take 1)) (k % 8))) t

/-- Bytes of a frame. -/
def frameSize : Nat := 67840

/-- Does the batch share C, so that each element of the batch reads what the one before it has written (R126)? -/
def MacroRun.sharesC (r : MacroRun) : Bool :=
  mdAcc r.desc == 1 && mdRoot r.desc && !mdPtr r.desc && fw r.desc 23 31 0 == 0

/-- Does another batch element's tile of the same rows and columns still await its drain? -/
def MacroRun.sharedBusy (r : MacroRun) (m : MaState) : Bool :=
  let (i, j, _) := r.place
  r.sharesC && (m.tiles ++ m.saved).any fun e => e.2.ctx == r.ctx && e.2.seq == r.seq && e.2.i == i && e.2.j == j && e.2.b != r.b

/-- Part offset of the frame of slot `n` of array `a` in a resident slot's save area (R428, Table 17-8). -/
def State.saveFrame (s : State) (p slot a n : Nat) : Nat :=
  s.get (Reg.FLD_CTX_SAVE_BASE p slot) * 4096 + 131072 + frameSize * (8 * a + n)

/-- VA of the frame of a live tile in the macro's spill area (R129). -/
def State.spillFrame (s : State) (p : Nat) (r : MacroRun) (live : Nat) : Nat :=
  fva r.desc 26 + frameSize * (live + r.live * s.gangRank p r.ctx)

/-! The output chain (R72 to R76, R135, R136). -/

/-- One element through the chain, up to and including the clip step. `sc` and `bi` are its scale and bias, `tab` the
activation table. -/
def chainValue (ch : List Byte) (sc bi : Nat) (tab : List Byte) (x : Nat) : Nat :=
  let x := if fw ch 0 1 0 = 0 then x else f32Mul x sc
  let x := if fbit ch 0 2 then f32Add x bi else x
  let x := match fw ch 0 5 3 with
    | 0 => x
    | 1 => f32Relu x
    | 2 => f32Gelu x
    | 3 => f32Silu x
    | 4 => f32Clip (fw ch 3 31 0) (fw ch 4 31 0) x
    | _ => f32Pwl x (fw tab 0 31 0) (fw tab 1 31 0) ((List.range 256).map fun i => fw tab (2 + i) 31 0)
             ((List.range 256).map fun i => fw tab (258 + i) 31 0)
  let x := if fbit ch 0 6 then f32Clip (fw ch 5 31 0) (fw ch 6 31 0) x else x
  if (f32v x).isNan then f32Nan else x

/-- The rounding of element (b, m, n) of a macro (R83 to R85, R119). -/
def mdRound (d : List Byte) (b m n : Nat) : RMode :=
  let f := (b * ceilDiv (mdM d) 128 + m / 128) * ceilDiv (mdN d) 128 + n / 128
  match fw d 0 18 17 with
  | 1 => .sr 8 (srRandom (fw d 29 31 0) (f % 2 ^ 32) (n % 128) (m % 128) 8)
  | 2 => .sr 16 (srRandom (fw d 29 31 0) (f % 2 ^ 32) (n % 128) (m % 128) 16)
  | _ => .rne

/-- Blocks of at most 32 of a list; the fuel bounds their number. -/
def chunks32 {α : Type} : Nat → List α → List (List α)
  | 0, _ => []
  | fuel + 1, l => if l.isEmpty then [] else l.take 32 :: chunks32 fuel (l.drop 32)

/-- FP32 words from Field memory. -/
def State.fmWords (s : State) (p slot off n : Nat) : Acc (State × List Nat) := do
  let (t, bs) ← s.fmRead p (some slot) off (4 * n)
  .ok (t, (List.range n).map fun i => fw bs i 31 0)

/-- The values of one tile row after the clip step (R72 to R76): row `m` of the tile of element `b`, `np` columns from `n0`. -/
def State.chainRow (s : State) (p : Nat) (r : MacroRun) (b m n0 : Nat) (xs : List Nat) : Acc (State × List Nat) := do
  let ch := r.chain
  let np := xs.length
  let (s1, sc) ← (match fw ch 0 1 0 with
    | 1 => .ok (s, List.replicate np (fw ch 1 31 0))
    | 2 => do
      let (t, v) ← s.fmWords p r.slot (fw ch 1 23 0 + 4 * (b * mdM r.desc + m)) 1
      .ok (t, List.replicate np (v.getD 0 0))
    | 3 => s.fmWords p r.slot (fw ch 1 23 0 + 4 * n0) np
    | _ => .ok (s, []))
  let (s2, bi) ← (if fbit ch 0 2 then s1.fmWords p r.slot (fw ch 2 23 0 + 4 * n0) np else .ok (s1, []))
  let (s3, tab) ← (if fw ch 0 5 3 = 5 then s2.fmRead p (some r.slot) (fw ch 3 31 0) 2056 else .ok (s2, []))
  .ok (s3, (List.range np).map fun i => chainValue ch (sc.getD i 0) (bi.getD i 0) tab (xs.getD i 0))

/-- The value a stash element is compared with in R81: the destination's largest finite value. -/
def stashMax (fmt : Nat) : Nat × Int :=
  match floatFmt fmt with
  | some f => match f.decode f.maxCode with
    | .fin _ m e => (m, e)
    | _ => (1, 0)
  | none => (1, 0)

/-- Write the stash copy of a row segment (R81, R137). -/
def State.stashRow (s : State) (p : Nat) (r : MacroRun) (b m n0 j : Nat) (ys : List Nat) : Acc State := do
  let d := r.desc
  let f := mdStashFmt d
  let row := b * mdM d + m
  let at' := fva r.chain 10 + row * fw r.chain 12 31 0
  let vs := ys.map f32v
  if fbit r.chain 0 7 then
    let (fm, fe) := stashMax f
    let e := rowScaleExp vs fm fe
    let t ← s.writeElems p r.slot true f at' n0 (vs.map fun v => elemConvert f .rne (fbit d 0 19) (v.unscale e))
    t.opWrite p r.slot true (fva r.chain 13 + 4 * (row * mdNt d + j)) (leBytes 4 (f32Pow2 e))
  else s.writeElems p r.slot true f at' n0 (vs.map fun v => elemConvert f .rne (fbit d 0 19) v)

/-- Write MX blocks of an output row: elements and scale bytes (R80, R136). -/
def State.mxRow (s : State) (p : Nat) (r : MacroRun) (va row : Nat) : Nat → List (List (Fv × RMode)) → Acc State
  | _, [] => .ok s
  | n0, blk :: rest => do
    let fmt := mdOutFmt r.desc
    let (sc, es) := mxBlock fmt (fbit r.desc 0 19) blk
    let t ← s.writeElems p r.slot true fmt va n0 es
    let u ← t.opWrite p r.slot true (fva r.chain 8 + row * fw r.chain 9 31 16 + n0 / 32) (leBytes 1 sc)
    State.mxRow u p r va row (n0 + 32) rest

/-- Drain row `m` (within the tile) of a tile: through the chain to C, and to the stash (R97, R135 to R137). -/
def State.drainRow (s : State) (p : Nat) (r : MacroRun) (t : Tile) (m : Nat) : Acc State := do
  let d := r.desc
  let n0 := t.j * mdTN d
  let np := min (mdTN d) (r.colsN t.b - n0)
  let gm := t.i * mdTM d + m
  let raw := (List.range np).map fun n => (t.elem (128 * m + n)).1
  let va := r.base 2 t.b + gm * mdStride d 2
  if mdRaw d then s.writeElems p r.slot true fmtINT32 va n0 raw
  else
    let (s0, ys) ← s.chainRow p r t.b gm n0 (raw.map fun w => if t.f32 then w else i32ToF32 w)
    let rounded := (List.range np).map fun n => (f32v (ys.getD n 0), mdRound d t.b gm (n0 + n))
    let s1 ← (if fmtIsMx (mdOutFmt d) then s0.mxRow p r va (t.b * mdM d + gm) n0 (chunks32 np rounded)
      else s0.writeElems p r.slot true (mdOutFmt d) va n0
        (rounded.map fun v => if mdOutFmt d = fmtFP32 then toF32 v.1 else elemConvert (mdOutFmt d) v.2 (fbit d 0 19) v.1))
    if fbit d 0 20 then s1.stashRow p r t.b gm n0 t.j ys else .ok s1

/-- Bytes of `n` elements of a format from element `k0` of a stored row, as where they begin and how many (R60). -/
def elemSpan (fmt va k0 n : Nat) : Nat × Nat :=
  let w := fmtWidth fmt
  (va + w * k0 / 8, (w * (k0 + n) + 7) / 8 - w * k0 / 8)

/-- The bytes that the drain of a tile writes: C, MX output scales, stash and stash scales (R329). -/
def MacroRun.drainSpans (r : MacroRun) (t : Tile) : List (Nat × Nat) :=
  let d := r.desc
  let n0 := t.j * mdTN d
  let np := min (mdTN d) (r.colsN t.b - n0)
  (List.range (min (mdTM d) (r.rows t.b - t.i * mdTM d))).flatMap fun m =>
    let gm := t.i * mdTM d + m
    let row := t.b * mdM d + gm
    elemSpan (if mdRaw d then fmtINT32 else mdOutFmt d) (r.base 2 t.b + gm * mdStride d 2) n0 np ::
    ((if fmtIsMx (mdOutFmt d) then [(fva r.chain 8 + row * fw r.chain 9 31 16 + n0 / 32, ceilDiv np 32)] else []) ++
     (if fbit d 0 20 then [elemSpan (mdStashFmt d) (fva r.chain 10 + row * fw r.chain 12 31 0) n0 np] else []) ++
     (if fbit d 0 20 && fbit r.chain 0 7 then [(fva r.chain 13 + 4 * (row * mdNt d + t.j), 4)] else []))

/-- The first byte that a range touches in each of its pages of 4 KiB. -/
def pageHeads (x : Nat × Nat) : List Nat :=
  if x.2 = 0 then [] else (List.range ((x.1 + x.2 - 1) / 4096 - x.1 / 4096 + 1)).map fun i => max x.1 ((x.1 / 4096 + i) * 4096)

/-- Does every page of the ranges translate for a local-only agent (R329)? The first that does not is the error, at the first byte there. -/
def State.pagesReady (s : State) (p c : Nat) (need : Need) (spans : List (Nat × Nat)) : Acc Unit :=
  ((spans.flatMap pageHeads).eraseDupsBy fun a b => a / 4096 == b / 4096).foldl
    (fun (e : Acc Unit) va => match e with
      | .error x => .error x
      | .ok _ => match s.translate p c true need va with
        | .error x => .error x
        | .ok _ => .ok ()) (.ok ())

/-! Checks at issue (Table 5-1). -/

/-- The first check: codes, reserved fields, ranges and the split fields. SPILL_BASE is used as it stands, aligned or not, a SPILL_INTERVAL with no
frames is refused, and so is a TREE_ID of an unsplit macro that is not zero. Log entry 149 (DESIGN CHOICE, unsafe). -/
def mdWellFormed (d : List Byte) : Bool :=
  let mx := fmtIsMx (mdAFmt d) || fmtIsMx (mdBFmt d)
  let stash := fbit d 0 20
  let p := mdP d
  fw d 0 7 0 == 1 && decide (mdLoop d ≤ 5) && fw d 0 12 11 != 3 && fw d 0 14 13 != 3 && fw d 0 18 17 != 3 &&
  decide (fw d 0 25 24 ≤ 1) && fw d 0 31 28 == 0 &&
  fw d 1 7 5 == 0 && fw d 1 15 13 == 0 && fw d 1 23 21 == 0 && fw d 1 31 29 == 0 &&
  fmtOperand (mdAFmt d) && fmtOperand (mdBFmt d) && fmtKnown (mdOutFmt d) &&
  (if stash then [4, 5, 8, 9].contains (mdStashFmt d) else mdStashFmt d == 0) &&
  !(mdRaw d && stash) &&
  decide (1 ≤ mdM d ∧ 1 ≤ mdN d ∧ 1 ≤ mdK d ∧ 1 ≤ mdTM d ∧ mdTM d ≤ 128 ∧ 1 ≤ mdTN d ∧ mdTN d ≤ 128) &&
  decide (mdTK d ≠ 0 ∧ mdTK d % mdG d = 0) && (!mx || mdTK d % 32 == 0) && (!fmtIsMx (mdOutFmt d) || mdTN d % 32 == 0) &&
  decide (mdBatch d ≠ 0) && decide (mdBatch d * mdMt d * mdNt d < 2 ^ 32) && (!mdPtr d || decide (mdBatch d ≤ 4096)) &&
  fw d 5 15 8 == 0 && fw d 6 31 20 == 0 &&
  [8, 10, 12].all (fun k => fw d k 31 16 == 0) &&
  (fmtIsMx (mdAFmt d) || fva d 16 == 0) && (fmtIsMx (mdBFmt d) || fva d 18 == 0) &&
  fw d 20 31 26 == 0 && (!mdPtr d || (fw d 21 31 19 == 0 && fw d 22 31 0 == 0 && fw d 23 31 0 == 0 && fw d 6 17 16 == 0)) &&
  decide (p = 0 ∨ (2 ≤ p ∧ p ≤ 32)) &&
  (if p = 0 then mdPart d == 0 && !fbit d 0 26 && fw d 28 30 23 == 0 && mdKLo d == 0
   else decide (mdPart d < p) && (mdPart d != 0 || mdKLo d == 0)) &&
  (mdAcc d != 2 || fw d 20 23 16 != 0) && (fw d 27 31 16 != 0 || fw d 28 11 0 == 0) &&
  fw d 28 31 31 == 0 && fw d 30 31 30 == 0 && fw d 31 31 18 == 0 &&
  (mdPtr d || fw d 23 31 0 != 0 || mdBatch d == 1 || (mdAcc d == 1 && decide (mdLoop d ≤ 1)))

/-- The Field-memory records a macro uses: offset and length (second check). -/
def mdRecords (d : List Byte) : List (Nat × Nat) :=
  (if mdPtr d then [(32 * fw d 21 18 0, 32 * mdBatch d)] else []) ++
  (if fbit d 0 22 then [(256 * fw d 25 31 16, 64)] else []) ++
  (if fbit d 0 21 then [(256 * fw d 25 15 0, (mdBatch d * mdMt d * mdNt d + 7) / 8)] else []) ++
  (if mdRaw d then [] else [(64 * fw d 31 17 0, 64)])

/-- Is a halo record well formed (R133)? An entry that names no neighbour may hold anything. Log entry 149 (DESIGN CHOICE, unsafe). -/
def haloOk (d h : List Byte) : Bool :=
  (List.range 4).all fun i =>
    let e := h.drop (16 * i)
    let f := fw e 0 15 0
    f == 0xFFFF || (decide (f ≤ 63) && decide (1 ≤ fw e 0 23 16) && fw e 3 31 16 == 0 &&
      (if i < 2 then decide (fw e 0 23 16 ≤ 8) else decide (8 * fw e 3 15 0 ≤ 8 * fmtWidth (mdAFmt d))))

/-- Does FP32 word `a` exceed `b`? -/
def f32Exceeds (a b : Nat) : Bool := f32Lt b a

/-- Does a chain record meet R135? Bits [31:24] of SCALE for kinds 2 and 3 and of the BIAS_OFF word, which Table 5-6 does not name, count as
reserved; a NaN bound is accepted, as it exceeds nothing. Log entry 149 (DESIGN CHOICE, unsafe). -/
def chainOk (d ch : List Byte) : Bool :=
  let act := fw ch 0 5 3
  let kind := fw ch 0 1 0
  fw ch 0 31 8 == 0 && decide (act ≤ 5) && (kind != 0 || fw ch 1 31 0 == 0) && (decide (kind < 2) || fw ch 1 31 24 == 0) &&
  fw ch 2 31 24 == 0 && (act == 4 || act == 5 || fw ch 3 31 0 == 0) && (act == 4 || fw ch 4 31 0 == 0) &&
  fw ch 7 31 0 == 0 && (fmtIsMx (mdOutFmt d) || (fva ch 8 == 0 && fw ch 9 31 16 == 0)) &&
  fw ch 11 31 16 == 0 && fw ch 14 31 16 == 0 && fw ch 15 31 0 == 0 &&
  !(act == 4 && f32Exceeds (fw ch 3 31 0) (fw ch 4 31 0)) && !(fbit ch 0 6 && f32Exceeds (fw ch 5 31 0) (fw ch 6 31 0))

/-- The end of an array of `rows` rows of `row` bytes at a stride. -/
def spanEnd (base rows stride row : Nat) : Nat := if rows = 0 then base else base + (rows - 1) * stride + row

/-- Does every byte of the planned walk lie below 2^48 (R126)? -/
def addressesOk (r : MacroRun) : Bool :=
  let d := r.desc
  let kTop := mdKLo d + mdK d
  let ends (k b : Nat) : Nat := match k with
    | 0 => if fbit d 0 15 then spanEnd (r.base 0 b) kTop (mdStride d 0) (fmtBytes (mdAFmt d) (mdM d))
           else spanEnd (r.base 0 b) (mdM d) (mdStride d 0) (fmtBytes (mdAFmt d) kTop)
    | 1 => if fbit d 0 16 then spanEnd (r.base 1 b) (mdN d) (mdStride d 1) (fmtBytes (mdBFmt d) kTop)
           else spanEnd (r.base 1 b) kTop (mdStride d 1) (fmtBytes (mdBFmt d) (mdN d))
    | _ => spanEnd (r.base 2 b) (mdM d) (mdStride d 2)
             (max (fmtBytes (mdOutFmt d) (mdN d)) (if mdAcc d = 1 then 4 * mdN d else 0))
  let last := mdBatch d - 1
  let bs := if mdPtr d then List.range (mdBatch d) else [last]
  let rows := mdBatch d * mdM d
  bs.all (fun b => [0, 1, 2].all fun k => decide (ends k b ≤ 2 ^ 48)) &&
  (!fmtIsMx (mdAFmt d) ||
    decide (spanEnd (fva d 16) (r.scaleRow 0 last (mdM d - 1) + 1) (fw d 17 31 16) ((kTop + 31) / 32) ≤ 2 ^ 48)) &&
  (!fmtIsMx (mdBFmt d) ||
    decide (spanEnd (fva d 18) (r.scaleRow 1 last (mdN d - 1) + 1) (fw d 19 31 16) ((kTop + 31) / 32) ≤ 2 ^ 48)) &&
  (!fmtIsMx (mdOutFmt d) ||
    decide (spanEnd (fva r.chain 8) rows (fw r.chain 9 31 16) ((mdN d + 31) / 32) ≤ 2 ^ 48)) &&
  (!fbit d 0 20 || (decide (spanEnd (fva r.chain 10) rows (fw r.chain 12 31 0) (fmtBytes (mdStashFmt d) (mdN d)) ≤ 2 ^ 48) &&
    (!fbit r.chain 0 7 || decide (fva r.chain 13 + 4 * (rows * mdNt d) ≤ 2 ^ 48))))

/-- Do the part's K boundaries obey R101? -/
def splitAligned (d : List Byte) : Bool :=
  let p := mdP d
  let ok (k : Nat) : Bool := k % mdG d == 0 && (!(fmtIsMx (mdAFmt d) || fmtIsMx (mdBFmt d)) || k % 32 == 0)
  p == 0 || ((mdPart d == 0 || ok (mdKLo d)) && (mdPart d + 1 == p || ok (mdKLo d + mdK d)))

/-- Does the effective shape lie within the plan (R125)? -/
def shapeInPlan (r : MacroRun) : Bool :=
  let d := r.desc
  decide (r.mEff ≤ mdM d ∧ r.nEff ≤ mdN d ∧ r.bEff ≤ mdBatch d) &&
  (!mdPtr d || (List.range (mdBatch d)).all fun b => decide (ptrM r.ptrs b ≤ mdM d ∧ ptrN r.ptrs b ≤ mdN d)) &&
  (decide (mdP d ≠ 0 ∧ mdPart d + 1 ≠ mdP d) || decide (r.kEff ≤ mdKLo d + mdK d))

end Sys2Proof.Machine
end

