-- ==== Sys2Proof/Machine/GridOps.lean ====
section
/-!
DEFINITION. The shared operations of the dataflow grid (chapters 8 and 9): units and their legs, routes, queues and their
reservations, grid ports, and Silt.
-/

namespace Sys2Proof.Machine

/-! Access. -/

/-- A unit as it leaves reset. -/
def UnitState.reset : UnitState := { queues := [], legs := [], old := none }

/-- What unit `u` holds (R180): 0 to 15 are CUs, 16 to 31 MUs. -/
def State.unit (s : State) (p u : Nat) : UnitState := Tab.get (fun _ => UnitState.reset) (s.field p).grid.units u

/-- Change what a unit holds. -/
def State.modUnit (s : State) (p u : Nat) (g : UnitState → UnitState) : State :=
  s.modGrid p fun x => { x with units := Tab.set (fun _ => UnitState.reset) x.units u (g (s.unit p u)) }

/-- The entries of an input queue. -/
def State.iq (s : State) (p u q : Nat) : List QEntry := Tab.get (fun _ => []) (s.unit p u).queues q

/-- Replace the entries of an input queue. -/
def State.setIq (s : State) (p u q : Nat) (es : List QEntry) : State :=
  s.modUnit p u fun x => { x with queues := Tab.set (fun _ => []) x.queues q es }

/-- Leg `x` of a unit, once loaded. -/
def State.leg (s : State) (p u x : Nat) : Option Leg := ((s.unit p u).legs.find? fun e => e.1 == x).map (·.2)

/-- Replace a leg. -/
def State.setLeg (s : State) (p u x : Nat) (l : Leg) : State :=
  s.modUnit p u fun n => { n with legs := n.legs.filter (·.1 != x) ++ [(x, l)] }

/-! Fields of a leg's configuration (Tables 8-6 to 8-10). -/

/-- Bits of the eight bytes from a byte offset of a configuration. -/
def cfgBits (c : List Byte) (byte hi lo : Nat) : Nat := bits (leNat ((c.drop byte).take 8)) hi lo

def Leg.kind (l : Leg) : Nat := cfgBits l.cfg 0 3 0
def Leg.valid (l : Leg) : Bool := cfgBits l.cfg 0 4 4 == 1
def Leg.slot (l : Leg) : Nat := cfgBits l.cfg 0 6 5
def Leg.mark (l : Leg) : Bool := cfgBits l.cfg 0 7 7 == 1
def Leg.next (l : Leg) : Nat := cfgBits l.cfg 1 2 0
def Leg.route (l : Leg) : Nat := cfgBits l.cfg 1 6 4
def Leg.quota (l : Leg) : Nat := cfgBits l.cfg 2 15 0
def Leg.stages (l : Leg) : Nat := cfgBits l.cfg 4 3 0
def Leg.fwd (l : Leg) : Nat := cfgBits l.cfg 5 3 0
def Leg.reserve (l : Leg) (q : Nat) : Nat := cfgBits l.cfg 6 (4 * q + 3) (4 * q)
def Leg.routeWord (l : Leg) (o : Nat) : Nat := cfgBits l.cfg (8 + 4 * o) 31 0
def Leg.stage (l : Leg) (i hi lo : Nat) : Nat := cfgBits l.cfg (32 + 8 * i) hi lo
def Leg.counter (l : Leg) (k hi lo : Nat) : Nat := cfgBits l.cfg (80 + 8 * k) hi lo
def Leg.ag (l : Leg) (g byte hi lo : Nat) : Nat := cfgBits l.cfg (32 + 48 * g + byte) hi lo

/-- A leg as it is loaded, with everything it holds at its reset value (R198, R227). -/
def Leg.fresh (cfg : List Byte) : Leg :=
  { cfg := cfg, values := [], limits := [], halted := [], carry := [], sel := 1, skip := [], due := [], ags := [], sent := 0,
    target := none, lane0 := 0, seals := [], sealDone := false }

/-- The leg with what it holds returned to its reset values (R198). -/
def Leg.restart (l : Leg) : Leg := Leg.fresh l.cfg

/-- A data token. -/
def QEntry.data (leg : Nat) (lanes : List Nat) (valid : Nat) : QEntry :=
  { baton := false, leg := leg, lanes := lanes, valid := valid }

/-- A baton, by its kind, level and payload (R188). -/
def batonWord (kind level payload : Nat) : Nat := payload % 256 + 256 * (level % 16) + 4096 * (kind % 16)

/-- The 32 lanes of 128 bytes. -/
def lanesOf (bs : List Byte) : List Nat := (List.range 32).map fun l => leNat ((bs.drop (4 * l)).take 4)

/-- The 128 bytes of a token's lanes. -/
def laneBytes (ls : List Nat) : List Byte := (List.range 32).flatMap fun l => leBytes 4 (ls.getD l 0)

/-- The lanes of a mask, lowest first. -/
def maskLanes (m : Nat) : List Nat := (List.range 32).filter fun l => bit m l

/-- All 32 lanes valid. -/
def allLanes : Nat := 2 ^ 32 - 1

/-! Silt (R215 to R220). -/

/-- Where byte `off` of a slot's Silt lies. -/
def State.siltBase (s : State) (p slot : Nat) : Nat :=
  s.get (Reg.FLD_SILT_BASE_LO_BASE_LO p slot) + 2 ^ 32 * s.get (Reg.FLD_SILT_BASE_HI_BASE_HI p slot)

/-- Write bytes of a slot's Silt. Windows do not bound it (R237). -/
def State.siltWrite (s : State) (p slot off : Nat) (bs : List Byte) : Acc State :=
  if s.on (Reg.FLD_SILT_CTRL_TARGET p slot) then s.vaWrite p slot true false (s.siltBase p slot + off) bs
  else s.fmWrite p none (s.siltBase p slot + off) bs

/-- Read bytes of a slot's Silt. -/
def State.siltRead (s : State) (p slot off n : Nat) : Acc (State × List Byte) :=
  if s.on (Reg.FLD_SILT_CTRL_TARGET p slot) then s.vaRead p slot true false (s.siltBase p slot + off) n
  else s.fmRead p none (s.siltBase p slot + off) n

/-- An access to Silt that does not take place (R329, R333): one that waits wakes what it waits for, and any other is a fault of the Silt logic,
raised once. -/
def State.siltFail (s : State) (p slot : Nat) (e : AccErr) : State :=
  if e.waits then s.wakeFor e
  else if (s.stopOf p (agentKey 7 0 (s.get (Reg.FLD_CTX_MAP_CTX_ID p slot)))).isSome then s
  else s.accFail p 7 0 slot e

/-- The first chunk of a slot's Silt that is not in use. -/
def State.siltFree (s : State) (p slot : Nat) : Option Nat :=
  let used := ((s.field p).grid.silt.filter (·.slot == slot)).flatMap (·.chunks)
  (List.range (s.get (Reg.FLD_SILT_CTRL_CHUNKS p slot))).find? fun c => !used.contains c

/-- Show the chunks in use. -/
def State.siltShow (s : State) (p slot : Nat) : State :=
  s.put (Reg.FLD_SILT_BASE_HI_USED p slot) (((s.field p).grid.silt.filter (·.slot == slot)).flatMap (·.chunks)).length

/-- A use of Silt. -/
def State.siltUse (s : State) (p slot kind key : Nat) : Option SiltUse :=
  (s.field p).grid.silt.find? fun u => u.slot == slot && u.kind == kind && u.key == key

/-- Replace a use of Silt. -/
def State.setSilt (s : State) (p : Nat) (u : SiltUse) : State :=
  (s.modGrid p fun g =>
    { g with silt := g.silt.filter (fun x => !(x.slot == u.slot && x.kind == u.kind && x.key == u.key)) ++ [u] }).siltShow p u.slot

/-- May a chunk be used: a chunk at a VA lies in pages that the context may read and write (R329)? -/
def State.chunkUsable (s : State) (p slot k : Nat) : Acc Unit :=
  if s.on (Reg.FLD_SILT_CTRL_TARGET p slot) then do
    let c := s.get (Reg.FLD_CTX_MAP_CTX_ID p slot)
    let _ ← s.translate p c true .read (s.siltBase p slot + 16384 * k)
    let _ ← s.translate p c true .write (s.siltBase p slot + 16384 * k)
    .ok ()
  else .ok ()

/-- Nothing in Silt for a use. -/
def SiltUse.none (slot kind key : Nat) : SiltUse := { slot := slot, kind := kind, key := key, chunks := [], places := [] }

/-- What an extension comes to: the use has one more chunk; the walk for the chunk's page waits; or there is no chunk for it. -/
inductive SiltStep where
  | given (s : State)
  | wait (e : AccErr)
  | refused (s : State)

/-- Give a use one more chunk. The slot's Silt may have none free, or the free one's page faults, which is recorded for the Silt logic (R218, R329,
R333). -/
def State.siltExtend (s : State) (p slot kind key : Nat) : SiltStep :=
  match s.siltFree p slot with
  | none => .refused s
  | some k =>
    match s.chunkUsable p slot k with
    | .error e => if e.waits then .wait e else .refused (s.siltFail p slot e)
    | .ok _ =>
      let u := (s.siltUse p slot kind key).getD (SiltUse.none slot kind key)
      .given (s.setSilt p { u with chunks := u.chunks ++ [k] })

/-- The place of the next entry of a use: the first free one of its chunks. Log entry 150 (DESIGN CHOICE, unsafe). -/
def SiltUse.room (u : SiltUse) : Option Nat :=
  (u.chunks.flatMap fun k => (List.range 64).map fun i => 64 * k + i).find? fun n => !u.places.contains n

/-- The 256 bytes of a queue entry in Silt (Table 9-2). -/
def siltEntry (u q : Nat) (e : QEntry) : List Byte :=
  laneBytes e.lanes ++ leBytes 4 e.valid ++ leBytes 1 (b2n e.baton + 2 * e.leg + 16 * q) ++ leBytes 1 u ++ List.replicate 122 0

/-- A queue entry from its 256 bytes in Silt. -/
def ofSilt (bs : List Byte) : QEntry :=
  { baton := cfgBits bs 132 0 0 == 1, leg := cfgBits bs 132 3 1, lanes := lanesOf bs, valid := cfgBits bs 128 31 0 }

/-- The key of a queue of a leg among the uses of Silt. -/
def queueKey (u q x : Nat) : Nat := 32 * u + 8 * q + x

/-! Queues (R185, R186, R216). -/

/-- May leg `x` have one more of a queue's 16 entries (R186)? -/
def State.queueHas (s : State) (p u q x : Nat) : Bool :=
  let es := s.iq p u q
  let held (y : Nat) : Nat := (es.filter (·.leg == y)).length
  let free := 16 - es.length
  let others := (s.unit p u).legs.foldl (fun n e =>
    if e.1 = x ∨ e.2.valid = false then n else n + (e.2.reserve q - held e.1)) 0
  let mine : Nat := match s.leg p u x with
    | some l => l.reserve q - held x
    | none => 0
  decide (0 < free) && (decide (others < free) || decide (0 < mine))

/-- Is leg `x` of unit `u` in the region under reconfiguration (R222)? -/
def State.inRegion (s : State) (p u x : Nat) : Bool :=
  match (s.field p).grid.region with
  | some r => r.started && bit (cfgBits r.rcd (4 + 4 * x) 31 0) u
  | none => false

/-- The sender code of a leg, and of a grid port. -/
def legSender (u x : Nat) : Nat := 8 * u + x
def portSender (g : Nat) : Nat := 256 + g

/-- Does the region's border refuse an entry (R223)? -/
def State.borderRefuses (s : State) (p u x src : Nat) : Bool :=
  s.inRegion p u x && !(decide (src < 256) && s.inRegion p (src / 8) (src % 8))

/-- Put an entry into the Silt of its queue and leg: none where it has no Silt with room. -/
def State.siltPush (s : State) (p u q : Nat) (e : QEntry) : Option (Acc State) := do
  let l ← s.leg p u e.leg
  let x ← s.siltUse p l.slot 0 (queueKey u q e.leg)
  let n ← x.room
  some ((s.siltWrite p l.slot (256 * n) (siltEntry u q e)).map fun t => t.setSilt p { x with places := x.places ++ [n] })

/-- An entry that its Silt could not take for the moment: what it waits for is set going. -/
def State.siltNudge (s : State) (p u q : Nat) (e : QEntry) : State :=
  match s.leg p u e.leg, s.siltPush p u q e with
  | some l, some (.error err) => s.siltFail p l.slot err
  | _, _ => s

/-- Does a queue of a leg hold entries in Silt? -/
def State.siltHolds (s : State) (p u q x : Nat) : Bool :=
  match s.leg p u x with
  | some l => match s.siltUse p l.slot 0 (queueKey u q x) with
    | some y => !y.places.isEmpty
    | none => false
  | none => false

/-- An entry goes behind those that its queue and leg hold: in the queue, or in its Silt (R185, R186, R216). -/
def State.enqueue (s : State) (p u q : Nat) (e : QEntry) : Option State :=
  if !s.siltHolds p u q e.leg && s.queueHas p u q e.leg then some (s.setIq p u q (s.iq p u q ++ [e]))
  else match s.siltPush p u q e with
    | some (.ok t) => some t
    | _ => none

/-- A queue accepts an entry (R185, R186, R216, R223), or refuses it. -/
def State.accept (s : State) (p u q : Nat) (e : QEntry) (src : Nat) : Option State :=
  if s.borderRefuses p u e.leg src then none
  else (s.enqueue p u q e).map fun t => match s.leg p u e.leg with
    | some l => t.progress p l.slot
    | none => t

/-- SILT_REFILL: the oldest Silt entries of a queue of a leg move back into it as it frees entries (R216). The fuel is the entries
that may move. -/
def State.siltRefill (s : State) (p u q x : Nat) : Nat → State
  | 0 => s
  | fuel + 1 =>
    match s.leg p u x with
    | none => s
    | some l =>
      match s.siltUse p l.slot 0 (queueKey u q x) with
      | none => s
      | some y =>
        match y.places with
        | [] => s
        | n :: rest =>
          if !s.queueHas p u q x then s
          else match s.siltRead p l.slot (256 * n) 256 with
          | .error e => s.siltFail p l.slot e
          | .ok (t, bs) =>
            State.siltRefill ((t.setIq p u q (t.iq p u q ++ [ofSilt bs])).setSilt p { y with places := rest }) p u q x fuel

/-- Every queue with entries in Silt takes those it has room for (R216). -/
def State.refillAll (s : State) (p : Nat) : State :=
  (s.field p).grid.silt.foldl (fun t y =>
    if y.kind = 0 ∧ y.places ≠ [] then t.siltRefill p (y.key / 32) (y.key / 8 % 4) (y.key % 8) 16 else t) s

/-- The head of a leg's entries in a queue (R185). -/
def State.headOfLeg (s : State) (p u q x : Nat) : Option QEntry := (s.iq p u q).find? (·.leg == x)

/-- Take the head of a leg's entries from a queue; Silt refills what it frees (R216). -/
def State.popLeg (s : State) (p u q x : Nat) : State :=
  (s.setIq p u q (dropFirst (·.leg == x) (s.iq p u q))).refillAll p

/-- The lanes of a baton. -/
def batonLanes (w : Nat) : List Nat := w :: List.replicate 31 0

/-- A SEAL of a region's tag for a leg (R223). -/
def sealEntry (rcd : List Byte) (x : Nat) : QEntry :=
  { baton := true, leg := x, lanes := batonLanes (batonWord 4 0 (cfgBits rcd 0 11 4)), valid := 0 }

/-- The port appends the SEALs of its region to the queues that have room for them, behind the last entry each has accepted (R223). Log entry 70 (DEDUCED, unsafe). -/
def State.sealsGo (s : State) (p : Nat) : State :=
  match (s.field p).grid.region with
  | none => s
  | some r =>
    if r.seals = [] then s
    else
      let (t, left) := r.seals.foldl (fun (y : State × List (Nat × Nat × Nat)) k =>
        match y.1.enqueue p k.1 k.2.1 (sealEntry r.rcd k.2.2) with
        | some t => (t, y.2)
        | none => (y.1.siltNudge p k.1 k.2.1 (sealEntry r.rcd k.2.2), y.2 ++ [k])) (s, [])
      (t.modGrid p fun g => { g with region := some { r with seals := left } }).put (Reg.FLD_RECONF_STATUS_PHASE p) (if left = [] then 2 else 1)

/-! Routes (R181). -/

/-- The cluster of a unit, or of 32 + a grid port (R180). -/
def clusterOf (d : Nat) : Nat := if d < 32 then d % 16 / 2 else (d - 32) / 2

/-- The link that leaves a cluster: 0 to the next, 1 to the one before, 2 the chord. -/
def linkKey (c k : Nat) : Nat := 3 * (c % 8) + k

/-- The links of the route from one cluster to another. -/
def routePath (a b : Nat) : List Nat :=
  match (b + 8 - a) % 8 with
  | 0 => []
  | 1 => [linkKey a 0]
  | 2 => [linkKey a 0, linkKey (a + 1) 0]
  | 3 => [linkKey a 2, linkKey (a + 4) 1]
  | 4 => [linkKey a 2]
  | 5 => [linkKey a 2, linkKey (a + 4) 0]
  | 6 => [linkKey a 1, linkKey (a + 7) 1]
  | _ => [linkKey a 1]

/-- Where an output port of a unit enters its switch box, for its first or second destination. -/
def outKey (u o d : Nat) : Nat := 24 + 8 * u + 2 * o + d

/-- Where a grid port enters its switch box. -/
def portKey (g : Nat) : Nat := 280 + g

/-- The entries a switch box holds for an incoming link. -/
def State.link (s : State) (p k : Nat) : List Transit := Tab.get (fun _ => []) (s.field p).grid.links k

/-- Replace the entries of an incoming link. -/
def State.setLink (s : State) (p k : Nat) (ts : List Transit) : State :=
  s.modGrid p fun g => { g with links := Tab.set (fun _ => []) g.links k ts }

/-- Is an entry a SEAL that a region leg sends out of its region? The border absorbs it (R224). Log entry 70 (DEDUCED, unsafe). -/
def State.sealAbsorbed (s : State) (p : Nat) (t : Transit) : Bool :=
  match (s.field p).grid.region with
  | none => false
  | some r =>
    let w := t.entry.lanes.headD 0
    t.entry.baton && w / 4096 % 16 == 4 && w % 256 == cfgBits r.rcd 0 11 4 && decide (t.src < 256) &&
      s.inRegion p (t.src / 8) (t.src % 8) && !(decide (t.unit < 32) && s.inRegion p t.unit t.entry.leg)

/-- Does a region in flush mode discard an entry that one of its legs has sent to another (R226)? -/
def State.flushTakes (s : State) (p : Nat) (t : Transit) : Bool :=
  match (s.field p).grid.region with
  | none => false
  | some r => cfgBits r.rcd 0 1 0 == 1 && decide (t.src < 256) && s.inRegion p (t.src / 8) (t.src % 8) && decide (t.unit < 32) &&
      s.inRegion p t.unit t.entry.leg

/-- Move the head of one incoming link on, where it can go. Log entry 66 (DESIGN CHOICE, safe). -/
def State.linkMove (s : State) (p k : Nat) : State :=
  match s.link p k with
  | [] => s
  | t :: rest =>
    let gone (u : State) : State := (u.stepTaken p (unitLink k)).setLink p k rest
    if !s.mayStep p (unitLink k) then s
    else match t.path with
    | n :: path => if (s.link p n).length < 2 then (gone s).setLink p n (s.link p n ++ [{ t with path := path }]) else s
    | [] =>
      if s.sealAbsorbed p t then gone s
      else if s.flushTakes p t then (gone s).modGrid p fun g => { g with region := g.region.map fun r => { r with gone := r.gone + 1 } }
      else if 32 ≤ t.unit then s
      else match s.accept p t.unit t.q t.entry t.src with
      | some u => gone u
      | none => s.siltNudge p t.unit t.q t.entry

/-- Move every entry on its way as far as it can go in a few rounds of the switch boxes, once queues have taken their entries back from Silt
and the reconfiguration port has sent its SEALs. Log entry 66 (DESIGN CHOICE, safe). -/
def State.gridSettle (s : State) (p : Nat) : State :=
  iterate (fun t => ((t.field p).grid.links.map (·.1)).foldl (fun u k => u.linkMove p k) t) 8 ((s.refillAll p).sealsGo p)

/-- The destinations of a route word (Table 8-7): unit, or 32 + a grid port, with its queue and leg. -/
def routeDests (w : Nat) : List (Nat × Nat × Nat) :=
  let one (d q x : Nat) : List (Nat × Nat × Nat) := if d = 63 then [] else [(d, q, x)]
  one (bits w 5 0) (bits w 7 6) (bits w 10 8) ++ one (bits w 17 12) (bits w 19 18) (bits w 22 20)

/-- The switch-box places that an entry on a set of output ports goes to, each with its destination. -/
def Leg.outs (l : Leg) (u ports : Nat) : List (Nat × Nat × Nat × Nat) :=
  ((List.range 4).filter fun o => bit ports o).flatMap fun o => (routeDests (l.routeWord o)).zipIdx.map fun d => (outKey u o d.2, d.1)

/-- Those of them that are full. -/
def State.fullOuts (s : State) (p u : Nat) (l : Leg) (ports : Nat) : List Nat :=
  ((l.outs u ports).map (·.1)).filter fun k => decide (2 ≤ (s.link p k).length)

/-- Send an entry from a leg on a set of output ports (R194): it leaves only when the switch box has room for it for every destination. Log entry
155 (DESIGN CHOICE, unsafe). -/
def State.sendOut (s : State) (p u x : Nat) (l : Leg) (ports : Nat) (baton : Bool) (lanes : List Nat) (valid : Nat) : Option State :=
  let ds := l.outs u ports
  if ds.all fun d => decide ((s.link p d.1).length < 2) then
    some ((ds.foldl (fun t d =>
      let (unit, q, leg) := d.2
      t.setLink p d.1 (t.link p d.1 ++
        [{ entry := { baton := baton, leg := leg, lanes := lanes, valid := valid }, unit := unit, q := q,
           path := routePath (clusterOf u) (clusterOf unit), src := legSender u x, held := false }])) s).gridSettle p |>.progress p l.slot)
  else none

/-- The output ports of a leg whose route is not "none": a CU leg has OP0 and OP1 (Table 8-6). -/
def Leg.openPorts (l : Leg) : Nat :=
  (List.range 4).foldl (fun m o => if l.kind = 1 ∧ 2 ≤ o then m else if (routeDests (l.routeWord o)).isEmpty then m else m + 2 ^ o) 0

/-- Where a leg's routes lead: unit, or 32 + a grid port, with its queue and leg. -/
def Leg.dests (l : Leg) : List (Nat × Nat × Nat) := ((List.range 4).filter fun o => bit l.openPorts o).flatMap fun o => routeDests (l.routeWord o)

/-! Grid ports (R182). -/

/-- The first entry that waits at a grid port for its binding and fulfils a condition. -/
def State.portFirst (s : State) (p g : Nat) (ok : Transit → Bool) : Option (Nat × Transit) :=
  (s.field p).grid.links.findSome? fun e => match e.2 with
    | t :: _ => if t.path.isEmpty && t.unit == 32 + g && ok t then some (e.1, t) else none
    | [] => none

/-- The entry that waits at a grid port for its binding: the WAIT that the port holds, where it holds one (R273). -/
def State.portHead (s : State) (p g : Nat) : Option (Nat × Transit) := (s.portFirst p g (·.held)).or (s.portFirst p g fun _ => true)

/-- A grid port holds the WAIT at its head until it completes: nothing else is served there meanwhile (R273). -/
def State.portHold (s : State) (p g : Nat) : State :=
  match s.portHead p g with
  | some (k, t) => s.setLink p k ({ t with held := true } :: (s.link p k).drop 1)
  | none => s

/-- Take the entry that waits at a grid port. Log entry 60 (DESIGN CHOICE, unsafe). Log entry 135 (DESIGN CHOICE, safe). -/
def State.portPop (s : State) (p g : Nat) : State :=
  match s.portHead p g with
  | some (k, _) => (s.setLink p k ((s.link p k).drop 1)).gridSettle p
  | none => s

/-- Deliver an entry from a grid port to a queue and leg of a unit, where its switch box has room. -/
def State.portSend (s : State) (p g u q : Nat) (e : QEntry) : Option State :=
  if (s.link p (portKey g)).length < 2 then
    some ((s.setLink p (portKey g) (s.link p (portKey g) ++
      [{ entry := e, unit := u, q := q, path := routePath (clusterOf (32 + g)) (clusterOf u), src := portSender g, held := false }])).gridSettle p)
  else none

/-- Gather the tokens that have come to a grid port until `need` bytes are held; batons are dropped. The fuel bounds the entries. Log entry 60 (DESIGN CHOICE, unsafe). Log entry 135 (DESIGN CHOICE, safe). -/
def State.portGather (s : State) (p g need : Nat) : Nat → List Byte → State × List Byte
  | 0, buf => (s, buf)
  | fuel + 1, buf =>
    if need ≤ buf.length then (s, buf)
    else match s.portHead p g with
    | none => (s, buf)
    | some (_, t) =>
      State.portGather (s.portPop p g) p g need fuel (if t.entry.baton then buf else buf ++ laneBytes t.entry.lanes)

/-- Bytes cut into the 128-byte tokens that carry them. The fuel bounds their number. -/
def tokenBytes : Nat → List Byte → List (List Byte)
  | 0, _ => []
  | _, [] => []
  | fuel + 1, bs => bs.take 128 :: tokenBytes fuel (bs.drop 128)

/-- Send tokens through a grid port as far as its switch box has room; the answer holds those still to go. Lanes beyond a token's
bytes are not valid. -/
def State.portBytes (s : State) (p g u q x : Nat) : Nat → List (List Byte) → State × List (List Byte)
  | 0, ts => (s, ts)
  | _, [] => (s, [])
  | fuel + 1, t :: ts =>
    match s.portSend p g u q (QEntry.data x (lanesOf (padTo 128 t)) (2 ^ ((t.length + 3) / 4) - 1)) with
    | none => (s, t :: ts)
    | some v => State.portBytes v p g u q x fuel ts

/-- Bind a grid port to a peer, where it is free or already bound so (R182). -/
def State.gpBind (s : State) (p g peer slot idx : Nat) : Option State :=
  let now := s.get (Reg.FLD_GP_BIND_PEER p g)
  if now = peer ∧ s.get (Reg.FLD_GP_BIND_CTX_SLOT p g) = slot ∧ s.get (Reg.FLD_GP_BIND_INDEX p g) = idx then some s
  else if now = 0 then
    some (s.puts [(Reg.FLD_GP_BIND_PEER p g, peer), (Reg.FLD_GP_BIND_CTX_SLOT p g, slot), (Reg.FLD_GP_BIND_INDEX p g, idx)])
  else none

/-- Bind a port to the channel unit as FLD_CH_PORT_BIND names it (R182). -/
def State.gpChan (s : State) (p g : Nat) : State :=
  s.puts [(Reg.FLD_GP_BIND_PEER p g, 3), (Reg.FLD_GP_BIND_CTX_SLOT p g, s.get (Reg.FLD_CH_PORT_BIND_CTX p g)), (Reg.FLD_GP_BIND_INDEX p g, 0)]

/-- End a grid port's binding: a channel that waits for the port has it now (R182). -/
def State.gpFree (s : State) (p g : Nat) : State :=
  let t := s.puts [(Reg.FLD_GP_BIND_PEER p g, 0), (Reg.FLD_GP_BIND_CTX_SLOT p g, 0), (Reg.FLD_GP_BIND_INDEX p g, 0)]
  if t.get (Reg.FLD_CH_PORT_BIND_ROLE p g) ≠ 0 then t.gpChan p g else t

end Sys2Proof.Machine
end

