-- ==== Sys2Proof/Machine/Contexts.lean ====
section
/-!
DEFINITION. Contexts as their commands share them: where a context is resident, its state of Table 17-1, and its descheduling
(R339, R403, R405).
-/

namespace Sys2Proof.Machine

/-- The Fields and resident slots of a context. -/
def State.slotsOf (s : State) (c : Nat) : List (Nat × Nat) :=
  (List.range 72).flatMap fun p => ((List.range 4).filter fun k => s.ctxOf p k == some c).map fun k => (p, k)

/-- Show on its Fields whether a context is scheduled and within a heat (FLD_CTX_MAP). -/
def State.ctxShow (s : State) (c : Nat) : State :=
  let h := s.inHeat c
  let a := h && s.ctxActive c
  (s.slotsOf c).foldl (fun t x =>
    t.puts [(Reg.FLD_CTX_MAP_SCHED x.1 x.2, b2n a), (Reg.FLD_CTX_MAP_IN_HEAT x.1 x.2, b2n h)]) s

/-- Codes of Table 17-1. -/
def ctxUnloaded : Nat := 0
def ctxIdle : Nat := 1
def ctxRunning : Nat := 2
def ctxSuspended : Nat := 3
def ctxCommitting : Nat := 4
def ctxVoted : Nat := 5
def ctxAbandoning : Nat := 6

/-- The state of a context. -/
def State.ctxState (s : State) (c : Nat) : Nat := s.get (Reg.SCH_CTX_STATE_STATE c)

/-- Set the state of a context. -/
def State.setCtxState (s : State) (c v : Nat) : State := (s.put (Reg.SCH_CTX_STATE_STATE c) v).ctxShow c

/-- What the serving loop keeps of a context. -/
def State.serve (s : State) (c : Nat) : CtxServe := Tab.get (fun _ => CtxServe.reset) s.srv.ctxs c

/-- Change what the serving loop keeps of a context. -/
def State.modServe (s : State) (c : Nat) (g : CtxServe → CtxServe) : State :=
  { s with srv := { s.srv with ctxs := Tab.set (fun _ => CtxServe.reset) s.srv.ctxs c (g (s.serve c)) } }

/-- The time for which the heat of a context has been scheduled (R426). -/
def State.heatTime (s : State) (c : Nat) : Nat :=
  (s.serve c).ran + if s.inHeat c && s.ctxActive c then s.stamp - (s.serve c).ranFrom else 0

/-- The control core stops a context from issuing (R339). -/
def State.stopIssue (s : State) (c : Nat) : State :=
  ((s.modServe c fun x => { x with ran := s.heatTime c }).modCtx c fun x => { x with desched := true, stopDue := false }).ctxShow c

/-- The control core schedules a context again. -/
def State.reschedule (s : State) (c : Nat) : State :=
  let u := if s.ctxActive c then s else s.modServe c fun x => { x with ranFrom := s.stamp }
  let t := u.modCtx c fun x => { x with desched := false, waitSusp := false, stopDue := false }
  if t.ctxState c = ctxSuspended then t.setCtxState c ctxRunning else t.ctxShow c

/-- Is a region of the context under reconfiguration on some Field (R229)? -/
def State.regionBusy (s : State) (c : Nat) : Bool :=
  (s.slotsOf c).any fun x => match (s.field x.1).grid.region with
    | some r => r.slot == x.2
    | none => false

/-- The control core stops a context from issuing; while a region of it is under reconfiguration the stop waits for the release (R229). -/
def State.stopWhenFree (s : State) (c : Nat) : State :=
  if s.regionBusy c then s.modCtx c fun x => { x with stopDue := true } else s.stopIssue c

/-- Have all agents of a context on a Field stopped at restart points (R339, Table 14-5)? -/
def State.agentsStopped (s : State) (p c : Nat) : Bool :=
  let f := s.field p
  ([0, 1].all fun a => (s.ma p a).runs.all fun r => r.ctx != c || r.suspended || r.fault.isSome ||
    (r.walkDone && (s.ma p a).tiles.all fun e => e.2.ctx != c || s.get (Reg.FLD_MA_SLOTS_SLOT_STATE p a e.1) != 3)) &&
  (f.ve.runs ++ f.re.runs).all (fun r => r.ctx != c || r.suspended || r.fault.isSome) &&
  (f.dmas.all fun d => d.2.runs.all fun r => r.ctx != c || r.suspended || r.fault.isSome) &&
  f.grid.walks.all fun r => r.ctx != c || r.suspended || r.fault.isSome

end Sys2Proof.Machine
end

