-- ==== Sys2Proof/Machine/Sched.lean ====
section
/-!
DEFINITION. Requests and contexts as the scheduler sees them (R387 to R389, R401, R402, R405 to R407, R413, R460), gangs (R28, R30), and scheduling
points (R406).
-/

namespace Sys2Proof.Machine

/-- Change the control plane. -/
def State.modPlane (s : State) (g : PlaneState → PlaneState) : State := { s with plane := g s.plane }

/-- Put an element before the first that it may precede. -/
def sortInto {α : Type} (le : α → α → Bool) (x : α) : List α → List α
  | [] => [x]
  | y :: ys => if le x y then x :: y :: ys else y :: sortInto le x ys

/-- A list in order; elements that rank alike stay as they come. -/
def sortBy {α : Type} (le : α → α → Bool) (xs : List α) : List α := xs.foldr (sortInto le) []

/-! Requests. -/

/-- Change the serving runtime. -/
def State.modSrv (s : State) (g : ServeState → ServeState) : State := { s with srv := g s.srv }

/-- The request with an admission number. -/
def State.reqOf (s : State) (order : Nat) : Option Request := s.srv.reqs.find? fun r => r.order == order

/-- Change a request. -/
def State.modReq (s : State) (order : Nat) (g : Request → Request) : State :=
  s.modSrv fun v => { v with reqs := v.reqs.map fun r => if r.order = order then g r else r }

/-- Change a sequence of a request. -/
def State.modSeq (s : State) (order i : Nat) (g : SeqRun → SeqRun) : State :=
  s.modReq order fun r => { r with seqs := r.seqs.zipIdx.map fun x => if x.2 = i then g x.1 else x.1 }

/-- Has a request a sequence in a batch? -/
def Request.inBatch (r : Request) : Bool := r.seqs.any fun q => q.slot.isSome && !q.ended

/-- Has a request a sequence that is not yet in a batch (R387)? -/
def Request.queued (r : Request) : Bool := r.ended.isNone && r.seqs.any fun q => q.slot.isNone && !q.ended

/-- Requests of a context that have not ended, in order of PRIORITY and then of admission (R389). -/
def State.openReqs (s : State) (c : Nat) : List Request :=
  sortBy (fun a b => decide (b.prio < a.prio) || (a.prio == b.prio && decide (a.order ≤ b.order)))
    (s.srv.reqs.filter fun r => r.ctx == c && r.ended.isNone)

/-- Sequences that hold a batch slot of a context, as request order and index, by slot (R413). -/
def State.batchOf (s : State) (c : Nat) : List (Nat × Nat) :=
  let all : List (Nat × Nat × Nat) := (s.srv.reqs.filter fun r => r.ctx == c).flatMap fun r =>
    r.seqs.zipIdx.filterMap fun x => match x.1.slot with
      | some b => if x.1.ended then none else some (b, r.order, x.2)
      | none => none
  (sortBy (fun a b => decide (a.1 ≤ b.1)) all).map (·.2)

/-- Has a context a running batch, admitted sequences, or a load heat that waits (R405)? -/
def State.hasWork (s : State) (c : Nat) : Bool :=
  let x := s.serve c
  x.rerun || !x.loads.isEmpty || (s.srv.reqs.any fun r => r.ctx == c && r.ended.isNone && !r.cancelled)

/-- Bytes of RESULT datagrams a partition's result buffer holds (R401). Log entry 95 (DESIGN CHOICE, unsafe). -/
def State.bufHeld (s : State) (part : Nat) : Nat :=
  (s.srv.reqs.filter fun r => r.part == part).foldl (fun a r => r.kept.foldl (fun b k => b + k.len) a) 0

/-- The size of a partition's result buffer (R400). Log entry 95 (DESIGN CHOICE, unsafe). -/
def State.bufTotal (s : State) (part : Nat) : Nat := Tab.get (fun _ => 0) s.srv.bufSize part

/-- The datagram bytes of a RESULT with `n` bytes of output. -/
def resultBytes (n : Nat) : Nat := 24 + n + 32 * max 1 ((24 + n + 8191) / 8192)

/-! Where a context lives. -/

/-- The home quadrant of a context (R402). -/
def State.homeQ (s : State) (c : Nat) : Nat := s.get (Reg.SCH_CTX_STATE_HOME_Q c)

/-- SOURCE and index of the control core that runs a quadrant. -/
def State.coreOf (s : State) (q : Nat) : Nat := s.get (Reg.DEV_CORE_MAP_CORE q)

/-! Plan variants (R414, R425, R460). -/

/-- The largest length a variant plans for. -/
def loadLimit (d : CtxLoad) (v : Nat) : Nat := ((d.decl.variants[v]?).map fun x => x.shapes.getD d.decl.lenShape.val 0).getD 0

/-- The last variant. -/
def loadLast (d : CtxLoad) : Nat := d.decl.variants.length - 1

/-- The smallest variant from `lo` on that covers a length. -/
def loadCover (d : CtxLoad) (lo len : Nat) : Option Nat :=
  (List.range d.decl.variants.length).find? fun v => decide (lo ≤ v ∧ len ≤ loadLimit d v)

/-- The largest output of a sequence in a heat that any variant declares (R387). -/
def loadOutMax (d : CtxLoad) : Nat := d.decl.variants.foldl (fun a v => max a v.outMax) 0

/-- The preference of phase 0 of the variant in force, or none (R433). -/
def loadPref (d : CtxLoad) (v : Nat) : Option Nat :=
  match d.decl.variants[v]? with
  | some x => (match x.phases with | (p, _) :: _ => p.map (·.val) | [] => none)
  | none => none

/-! Gangs (R28, R30). -/

/-- Does a gang for a context overlap no other context's, and is it the only one of more than 8 Fields in its quadrant (R28)? -/
def State.gangFits (s : State) (c : Nat) (ms : List Nat) : Bool :=
  let others := s.gangs.filter (·.1 != c)
  (others.all fun g => ms.all fun m => !g.2.contains m) &&
    (decide (ms.length ≤ 8) || others.all fun g => decide (g.2.length ≤ 8) || g.2.headD 0 / 16 != ms.headD 0 / 16)

/-- Is what a context declares as its gang one (R28): none, or 2 to 16 Fields of one quadrant that the context is resident on? -/
def gangShape (d : CtxDecl) : Bool :=
  let ms := d.gang.map (·.val)
  ms.isEmpty || (decide (2 ≤ ms.length ∧ ms.length ≤ 16) && ms.eraseDups.length == ms.length &&
    ms.all fun m => m / 16 == ms.headD 0 / 16 && d.fields.any fun f => f.1.val == m)

/-- May the gang that a context declares be formed (R28)? -/
def State.gangOk (s : State) (c : Nat) (d : CtxDecl) : Bool := gangShape d && s.gangFits c (d.gang.map (·.val))

/-- Changes of gangs that are due take effect where every context on the Fields concerned is outside a heat (R30): the old gang goes, and the new one is
formed once no other holds a member of it. -/
def State.gangStep (s : State) (g : Nat × List Nat) : State :=
  let old := (s.gangs.filter (·.1 == g.1)).flatMap (·.2)
  let quiet := (old ++ g.2).all fun m => match s.physOf m with
    | some p => !s.fieldInHeat p
    | none => true
  if !quiet then s
  else
    let t : State := { s with gangs := s.gangs.filter (·.1 != g.1) }
    let done (u : State) : State := u.modPlane fun y => { y with gangDue := y.gangDue.filter (·.1 != g.1) }
    if g.2.isEmpty then done t
    else if t.gangFits g.1 g.2 then done { t with gangs := t.gangs ++ [g] }
    else t

/-- Every change of gangs that may take effect now does so; a gang that another's end lets form does so in the second pass. -/
def State.gangSettle (s : State) : State := s.plane.gangDue.foldl State.gangStep (s.plane.gangDue.foldl State.gangStep s)

/-- A context is to have a gang, or none: at the latest boundary of the contexts concerned (R30). -/
def State.gangAsk (s : State) (c : Nat) (ms : List Nat) : State :=
  (s.modPlane fun y => { y with gangDue := y.gangDue.filter (·.1 != c) ++
    (if s.gangs.any (·.1 == c) || !ms.isEmpty then [(c, ms)] else []) }).gangSettle

/-- Ask for the gang that a context declares, in place of the one it had (R28, R30). Its members share one rate from the next write to a pacer of theirs
on (R48): log entry 155 (DESIGN CHOICE, unsafe). -/
def State.gangForm (s : State) (c : Nat) (d : CtxDecl) : State := s.gangAsk c (if gangShape d then d.gang.map (·.val) else [])

/-! Scheduling (R405, R406, R407). -/

/-- The place a context takes on a Field: within a heat and scheduled. -/
def State.placed (s : State) (c : Nat) : Bool := s.inHeat c && s.ctxActive c

/-- Does a context take a place on its Fields: it is placed, or it has been stopped and its agents have not all come to restart points (R31, R339)? -/
def State.occupies (s : State) (c : Nat) : Bool := s.placed c || (s.ctxState c == ctxRunning && !s.ctxActive c)

/-- Do two contexts share a member of the gang of one of them? Such contexts do not run at the same time (R31). -/
def State.gangBars (s : State) (c d : Nat) : Bool :=
  s.gangs.any fun g => (g.1 == c || g.1 == d) && (s.slotsOf c).any fun x =>
    ((s.lfieldOf x.1).map g.2.contains).getD false && (s.slotsOf d).any fun y => y.1 == x.1

/-- Has every Field of a context a free place, beside its own, and does no context hold a Field that it must not share (R31)? -/
def State.placesFree (s : State) (c : Nat) : Bool :=
  ((s.slotsOf c).all fun x =>
    decide (((List.range 4).filter fun k => match s.ctxOf x.1 k with
      | some d => d != c && s.occupies d
      | none => false).length < max 1 (s.get Reg.SCH_CTRL_MAX_CONC))) &&
  (s.gangs.isEmpty || (List.range 64).all fun d => d == c || !s.gangBars c d || !s.occupies d)

/-- The batch of the next heat: the running sequences, and those that join, up to 4,096 (R389, R413). -/
def State.joiners (s : State) (c : Nat) : List (Nat × Nat) :=
  let now := s.batchOf c
  let more : List (Nat × Nat) := ((s.openReqs c).filter fun r => !r.cancelled).flatMap fun r =>
    r.seqs.zipIdx.filterMap fun x => if x.1.slot.isNone && !x.1.ended then some (r.order, x.2) else none
  more.take (4096 - now.length)

/-- The request's outputs return inline. -/
def State.inlineOut (s : State) (order : Nat) : Bool := ((s.reqOf order).map fun r => r.outAt.isNone).getD true

/-- Bytes of RESULT datagrams that a heat with this batch may make. -/
def State.heatBytes (s : State) (d : CtxLoad) (batch : List (Nat × Nat)) : Nat :=
  batch.foldl (fun a x => a + resultBytes (if s.inlineOut x.1 then loadOutMax d else 0)) 0

/-- Bytes of a partition's result buffer that the heats of its other contexts may still fill. -/
def State.bufPromised (s : State) (part c : Nat) : Nat :=
  ((List.range 64).filter fun e => e != c && s.inHeat e && s.partOf e == part).foldl (fun a e =>
    a + (((s.serve e).load).map fun d => s.heatBytes d (s.serve e).batch).getD 0) 0

/-- Has the result buffer room for every output of a heat with this batch (R389)? -/
def State.bufRoomFor (s : State) (c : Nat) (d : CtxLoad) (batch : List (Nat × Nat)) : Bool :=
  decide (s.bufHeld (s.partOf c) + s.bufPromised (s.partOf c) c + s.heatBytes d batch ≤ s.bufTotal (s.partOf c))

/-- Is a quadrant's serving loop at work (R511)? -/
def State.quadServes (s : State) (q : Nat) : Bool := s.coreOf q != 7 && !s.srv.offQuads.contains q

/-- Does a change of gangs that is due concern a Field of a context (R30)? A new heat of the context would put it off. -/
def State.gangWaits (s : State) (c : Nat) : Bool :=
  s.plane.gangDue.any fun g => (s.slotsOf c).any fun x =>
    ((s.lfieldOf x.1).map fun m => g.2.contains m || s.gangs.any fun o => o.1 == g.1 && o.2.contains m).getD false

/-- Does an IDLE context wait for a place for its next heat (R405, R421, R423, R446)? -/
def State.wantsHeat (s : State) (c : Nat) : Bool :=
  let x := s.serve c
  x.load.isSome && s.ctxState c == ctxIdle && x.held.isEmpty && (x.rerun || (!s.plane.activating.contains c && !s.gangWaits c)) && !x.groupLost &&
  !x.awaitDecision && x.undelivered.isEmpty && s.hasWork c && s.quadServes (s.homeQ c) &&
  (!x.rerun || (x.replayHold.isEmpty && (s.slotsOf c).all fun y => !s.on (Reg.FLD_MA_COLMAP_PENDING y.1 0) && !s.on (Reg.FLD_MA_COLMAP_PENDING y.1 1)))

/-- May the next heat of a context start, its place apart: the result buffer has room for its outputs (R389)? A load heat makes none. -/
def State.startable (s : State) (c : Nat) : Bool :=
  let x := s.serve c
  s.wantsHeat c && match x.load with
    | none => false
    | some d =>
      if x.rerun then x.loading.isSome || s.bufRoomFor c d x.batch else !x.loads.isEmpty || s.bufRoomFor c d (s.batchOf c ++ s.joiners c)

/-- Is a context ready (R405): it waits for a place for its next heat, or its suspended heat may go on? -/
def State.ready (s : State) (c : Nat) : Bool :=
  s.wantsHeat c || (s.ctxState c == ctxSuspended && !(s.ctx c).waitSusp && (s.serve c).held.isEmpty && s.quadServes (s.homeQ c))

/-- Virtual time of a context's partition on its home quadrant. -/
def State.vtOf (s : State) (c : Nat) : Nat := Tab.get (fun _ => 0) s.srv.vt (16 * s.homeQ c + s.partOf c)

/-- Does `a` come before `b` in the scheduler's choice: least vt, then lower partition, then round robin in increasing context number? Log entry 96 (DEDUCED, unsafe). -/
def State.before (s : State) (a b : Nat) : Bool :=
  let turn (c : Nat) : Nat := (c + 63 - Tab.get (fun _ => 63) s.srv.lastRun (16 * s.homeQ c + s.partOf c)) % 64
  let ka := (s.vtOf a, s.partOf a, turn a)
  let kb := (s.vtOf b, s.partOf b, turn b)
  decide (ka.1 < kb.1) || (ka.1 == kb.1 && (decide (ka.2.1 < kb.2.1) || (ka.2.1 == kb.2.1 && (decide (ka.2.2 < kb.2.2) ||
    (ka.2.2 == kb.2.2 && decide (a < b))))))

/-- Have two contexts a Field in common? Log entry 96 (DEDUCED, unsafe). -/
def State.shareField (s : State) (a b : Nat) : Bool := (s.slotsOf a).any fun x => (s.slotsOf b).any fun y => y.1 == x.1

/-- Is a ready context the scheduler's choice for its places: none that competes for one comes before it? Log entry 96 (DEDUCED, unsafe). -/
def State.chosen (s : State) (c : Nat) : Bool :=
  s.ready c && s.placesFree c && (List.range 64).all fun d => d == c || !(s.ready d && s.placesFree d && s.shareField c d && s.before d c)

/-- Update the virtual times of a quadrant (R406), and put weights of SET_SHARES in force (R427). Log entry 96 (DEDUCED, unsafe). -/
def State.vtUpdate (s : State) (q : Nat) : State :=
  let s := (s.srv.weights.foldl (fun t w => t.put (Reg.SCH_PART_CFG_WEIGHT (w.1 % 16)) w.2) s).modSrv fun v => { v with weights := [] }
  let vt (p : Nat) : Nat := Tab.get (fun _ => 0) s.srv.vt (16 * q + p) +
    Tab.get (fun _ => 0) s.srv.charge (16 * q + p) * 65536 / max 1 (s.get (Reg.SCH_PART_CFG_WEIGHT p))
  let ready := (List.range 64).filter fun c => s.homeQ c == q && (s.ready c || (s.placed c && s.ctxState c != ctxVoted))
  let fl := ((ready.map fun c => vt (s.partOf c)).min?).getD 0
  s.modSrv fun v =>
    (List.range 16).foldl (fun v p =>
      { v with vt := Tab.set (fun _ => 0) v.vt (16 * q + p) (vt p - fl), charge := Tab.set (fun _ => 0) v.charge (16 * q + p) 0 }) v

/-- The highest preferred point of a quadrant's scheduled contexts, DEFAULT_OP for one that gives none, in PWR_Q_PREF (R433). Log entry 98 (DESIGN CHOICE, unsafe). -/
def State.prefShow (s : State) : State :=
  (List.range 4).foldl (fun t q =>
    let cs := (List.range 64).filter fun c => t.placed c && (t.slotsOf c).any fun x => quadOfField x.1 == q
    let ps := cs.map fun c => (((t.serve c).load).bind fun d => loadPref d (t.serve c).variant).getD (t.get Reg.PWR_CTRL_DEFAULT_OP)
    match ps.max? with
    | some m => t.put (Reg.PWR_Q_PREF_PREF q) m
    | none => t) s

/-- Resume suspended heats that the scheduler chooses, `fuel` of them at most. -/
def State.resumeChosen (s : State) : Nat → State
  | 0 => s
  | n + 1 =>
    match (List.range 64).find? fun c => s.ctxState c == ctxSuspended && s.chosen c with
    | some c =>
      ((s.modSrv fun v => { v with lastRun := Tab.set (fun _ => 63) v.lastRun (16 * s.homeQ c + s.partOf c) c }).reschedule c).resumeChosen n
    | none => s

/-- A scheduling point of a quadrant's control core (R406). Log entry 96 (DEDUCED, unsafe). -/
def State.schedPoint (s : State) (q : Nat) : State := ((s.vtUpdate q).resumeChosen 64).prefShow

/-! The end of a wait. -/

/-- What a context waited for has come: one that was suspended for its waits is ready, which is a scheduling point (R141, R276, R406). -/
def State.waitOver (s : State) (c : Nat) : State :=
  if (s.ctx c).waitSusp then (s.modCtx c fun x => { x with waitSusp := false }).schedPoint (s.homeQ c) else s

end Sys2Proof.Machine
end

