-- ==== Sys2Proof/Machine/Rings.lean ====
section
/-!
DEFINITION. Slot rings (R286 to R291): their indices, their writers and readers, publication, and the release hurdle.
-/

namespace Sys2Proof.Machine

/-- A ring with every slot FREE. -/
def RingX.reset : RingX :=
  { lens := [], cons := 0, fwd := 0, consHeld := false, top := 0, landed := 0, waiting := false }

/-- What ring `n` holds beside its registers. -/
def State.ringX (s : State) (p n : Nat) : RingX := Tab.get (fun _ => RingX.reset) (s.field p).rings n

/-- Change what ring `n` holds. -/
def State.modRing (s : State) (p n : Nat) (g : RingX → RingX) : State :=
  s.modField p fun f => { f with rings := Tab.set (fun _ => RingX.reset) f.rings n (g (s.ringX p n)) }

/-- SLOTS, bytes of a slot, and the base of ring `n` (R286). -/
def State.ringSlots (s : State) (p n : Nat) : Nat := s.get (Reg.FLD_RING_CFG_SLOTS p n)
def State.ringSlotBytes (s : State) (p n : Nat) : Nat := 256 * s.get (Reg.FLD_RING_CFG_SLOT_UNITS p n)
def State.ringBase (s : State) (p n : Nat) : Nat := 256 * s.get (Reg.FLD_RING_BASE_BASE p n)

/-- FM offset of slot `k` of ring `n`. -/
def State.ringSlotAt (s : State) (p n k : Nat) : Nat := s.ringBase p n + k * s.ringSlotBytes p n

/-- The slot after slot `k`. -/
def State.ringNext (s : State) (p n k : Nat) : Nat := if s.ringSlots p n ≤ k + 1 then 0 else k + 1

/-- The slot that lies `i` slots on from TAIL. -/
def State.ringFromTail (s : State) (p n i : Nat) : Nat :=
  let t := s.get (Reg.FLD_RING_STATE_TAIL p n) + i
  if s.ringSlots p n ≤ t then t - s.ringSlots p n else t

/-- Check 3 of Table 12-1: the ring is enabled, belongs to the slot and lies in its windows, and FWD is as its use needs. -/
def State.ringUsable (s : State) (p slot n : Nat) (fwd : Option Bool) : Bool :=
  s.ringSlots p n != 0 && s.get (Reg.FLD_RING_CFG_CTX p n) == slot &&
  s.windowOk p slot (s.ringBase p n) (s.ringSlots p n * s.ringSlotBytes p n) &&
  (match fwd with
   | some b => s.on (Reg.FLD_RING_CFG_FWD p n) == b
   | none => true)

/-- Show the length of the oldest published slot. -/
def State.ringShow (s : State) (p n : Nat) : State :=
  s.put (Reg.FLD_RING_LEN_LEN p n) (Tab.get (fun _ => 0) (s.ringX p n).lens (s.get (Reg.FLD_RING_STATE_TAIL p n)))

/-! Writers. -/

/-- Is slot HEAD of an enabled ring FREE? -/
def State.ringHeadFree (s : State) (p n : Nat) : Bool :=
  !s.on (Reg.FLD_RING_STATE_FILLING p n) &&
    decide (s.get (Reg.FLD_RING_STATE_PUBLISHED p n) < s.ringSlots p n)

/-- The writer takes slot HEAD (R287). -/
def State.ringTake (s : State) (p n : Nat) : State :=
  (s.put (Reg.FLD_RING_STATE_FILLING p n) 1).modRing p n fun r => { r with top := 0, landed := 0 }

/-- Bytes land in the slot being filled (R289). -/
def State.ringLand (s : State) (p n off len : Nat) : State :=
  s.modRing p n fun r => { r with top := max r.top (off + len), landed := r.landed + len }

/-- The ring joins its WAIT of 1 to its release hurdle while it has a slot that its consumer has not freed (R290). -/
def State.ringJoin (s : State) (p n : Nat) : State :=
  let x := s.ringX p n
  if s.on (Reg.FLD_RING_HRD_REL_EN p n) && !x.waiting && decide (x.cons < s.get (Reg.FLD_RING_STATE_PUBLISHED p n)) then
    match s.waitVid p (s.get (Reg.FLD_RING_CFG_CTX p n)) (16 + n) (s.get (Reg.FLD_RING_HRD_REL_VID p n)) 1 with
    | .refused t => t
    | .done t => t
    | .queued t => t.modRing p n fun r => { r with waiting := true }
    | .held => s
  else s

/-- SLOT_PUBLISH: slot HEAD is published with a length, PUB_SEQ advances, and PUB_VID has its arrival (R289). -/
def State.ringPublish (s : State) (p n len : Nat) : State :=
  let h := s.get (Reg.FLD_RING_STATE_HEAD p n)
  let t := s.puts [(Reg.FLD_RING_STATE_FILLING p n, 0), (Reg.FLD_RING_STATE_HEAD p n, s.ringNext p n h),
    (Reg.FLD_RING_STATE_PUBLISHED p n, s.get (Reg.FLD_RING_STATE_PUBLISHED p n) + 1),
    (Reg.FLD_RING_STATE_PUB_SEQ p n, (s.get (Reg.FLD_RING_STATE_PUB_SEQ p n) + 1) % 65536)]
  let u := (t.modRing p n fun r => { r with lens := Tab.set (fun _ => 0) r.lens h (len % 2 ^ 24), top := 0, landed := 0 }).ringShow p n
  let v := if s.on (Reg.FLD_RING_HRD_PUB_EN p n) then
      u.arriveVid p (s.get (Reg.FLD_RING_CFG_CTX p n)) (s.get (Reg.FLD_RING_HRD_PUB_VID p n)) 1
    else u
  v.ringJoin p n

/-- Publish the slot being filled with the extent written into it. -/
def State.ringPublishTop (s : State) (p n : Nat) : State := s.ringPublish p n (s.ringX p n).top

/-! Readers. -/

/-- A slot returns to FREE when every reader the ring has has freed it (R290). -/
def State.ringRetire (s : State) (p n : Nat) : State :=
  let x := s.ringX p n
  if 0 < x.cons ∧ (s.on (Reg.FLD_RING_CFG_FWD p n) = false ∨ 0 < x.fwd) then
    ((s.puts [(Reg.FLD_RING_STATE_TAIL p n, s.ringNext p n (s.get (Reg.FLD_RING_STATE_TAIL p n))),
        (Reg.FLD_RING_STATE_PUBLISHED p n, s.get (Reg.FLD_RING_STATE_PUBLISHED p n) - 1)]).modRing p n fun r =>
      { r with cons := r.cons - 1, fwd := r.fwd - 1,
               lens := Tab.set (fun _ => 0) r.lens (s.get (Reg.FLD_RING_STATE_TAIL p n)) 0 }).ringShow p n
  else s

/-- Is there a PUBLISHED slot for the consumer? -/
def State.ringReady (s : State) (p n : Nat) : Bool :=
  decide ((s.ringX p n).cons < s.get (Reg.FLD_RING_STATE_PUBLISHED p n))

/-- The consumer takes the oldest PUBLISHED slot, which is READING from then on. Log entry 55 (DEDUCED, unsafe). -/
def State.ringHold (s : State) (p n : Nat) : State := s.modRing p n fun r => { r with consHeld := true }

/-- FM offset of the slot the consumer is at. -/
def State.ringReadAt (s : State) (p n : Nat) : Nat := s.ringSlotAt p n (s.ringFromTail p n (s.ringX p n).cons)

/-- The consumer frees the oldest slot it has not freed. -/
def State.ringConsume (s : State) (p n : Nat) : State :=
  (s.modRing p n fun r => { r with cons := r.cons + 1, consHeld := false }).ringRetire p n

/-- The forward reader frees the oldest slot it has not freed. -/
def State.ringForwarded (s : State) (p n : Nat) : State := (s.modRing p n fun r => { r with fwd := r.fwd + 1 }).ringRetire p n

/-- Bytes in the PUBLISHED and READING slots and those landed in the FILLING slot (R296). -/
def State.ringOccupancy (s : State) (p n : Nat) : Nat :=
  (s.ringX p n).lens.foldl (fun k e => k + e.2) (s.ringX p n).landed

/-- A ring returns to empty (R291). Its WAIT leaves the waiter queues. -/
def State.ringReset (s : State) (p n : Nat) : State :=
  let t := s.puts [(Reg.FLD_RING_STATE_HEAD p n, 0), (Reg.FLD_RING_STATE_TAIL p n, 0), (Reg.FLD_RING_STATE_PUBLISHED p n, 0),
    (Reg.FLD_RING_STATE_FILLING p n, 0), (Reg.FLD_RING_STATE_PUB_SEQ p n, 0), (Reg.FLD_RING_LEN_LEN p n, 0)]
  let u := (t.modRing p n fun _ => RingX.reset).modCh p fun x => { x with done := x.done.filter fun w => !(w.field == p && w.port == 16 + n) }
  (u.field p).ch.waiters.foldl (fun v w =>
    if w.field == p && w.port == 16 + n then
      (v.modCh p fun x => { x with waiters := dropFirst (· == w) x.waiters }).showWaiters p w.hurdle
    else v) u

/-- RING_RESET: every ring of a resident slot returns to empty (R291). -/
def State.ringsReset (s : State) (p slot : Nat) : State :=
  (List.range 16).foldl (fun t n =>
    if t.ringSlots p n != 0 && t.get (Reg.FLD_RING_CFG_CTX p n) == slot then t.ringReset p n else t) s

/-! The release hurdle and the operations of a control core. -/

/-- RING_RELEASE: the ring's WAIT on its release hurdle completes and frees the oldest published slot, and the ring joins again
while it has another (R290). A ring that found no free waiter entry joins now. A context that was suspended for the wait is scheduled again
(R276). -/
def State.ringRelease (s : State) (p n : Nat) : State :=
  let s := s.ringJoin p n
  let mine (w : Waiter) : Bool := w.field == p && w.port == 16 + n
  let t := match (s.field p).ch.waiters.find? mine with
    | some w => if (s.waitersOf p w.hurdle).head? == some w then s.waitComplete p w.hurdle else s
    | none => s
  if (t.field p).ch.done.any mine then
    let u := (((t.modCh p fun x => { x with done := dropFirst mine x.done }).modRing p n fun r => { r with waiting := false }).ringConsume p n).ringJoin p n
    match u.ctxOf p (u.get (Reg.FLD_RING_CFG_CTX p n)) with
    | some c => u.waitOver c
    | none => u
  else t

def execRingRelease (p : Fin 72) (n : Fin 16) (s : State) : Host.Outcome State Fault Refusal := answer (s.ringRelease p n)

/-- May a control core work a ring for a resident slot: the slot is the ring's CTX and the ring is enabled? Log entry 55 (DEDUCED, unsafe). -/
def State.ringOpOk (s : State) (p n slot : Nat) : Bool :=
  s.ringSlots p n != 0 && s.get (Reg.FLD_RING_CFG_CTX p n) == slot

/-- RING_PRODUCE: FLD_RING_OP takes slot HEAD and publishes it with LEN, or sets OP_ERR. -/
def State.ringProduce (s : State) (p n slot len : Nat) : State :=
  if s.ringOpOk p n slot && s.ringHeadFree p n then (s.ringTake p n).ringPublish p n len
  else s.put (Reg.FLD_RING_STATE_OP_ERR p n) 1

def execRingProduce (p : Fin 72) (n : Fin 16) (slot : Fin 4) (len : Fin 16777216) (s : State) : Host.Outcome State Fault Refusal :=
  answer (s.ringProduce p n slot len)

/-- RING_FREE: FLD_RING_OP frees the oldest published slot, or sets OP_ERR. Log entry 55 (DEDUCED, unsafe). -/
def State.ringFree (s : State) (p n slot : Nat) : State :=
  if s.ringOpOk p n slot && s.ringReady p n && !(s.ringX p n).consHeld then s.ringConsume p n
  else s.put (Reg.FLD_RING_STATE_OP_ERR p n) 1

def execRingFree (p : Fin 72) (n : Fin 16) (slot : Fin 4) (s : State) : Host.Outcome State Fault Refusal :=
  answer (s.ringFree p n slot)

end Sys2Proof.Machine
end

