-- ==== Sys2Proof/Machine/Dma.lean ====
section
/-!
DEFINITION. DMA engines, relay chains and deadline arbitration (R279 to R285, R292 to R296).
-/

namespace Sys2Proof.Machine

/-! The descriptor (Table 12-2). -/

def ddOp (d : List Byte) : Nat := fw d 0 7 0
def ddSrcKind (d : List Byte) : Nat := fw d 0 10 8
def ddDstKind (d : List Byte) : Nat := fw d 0 13 11
def ddConvert (d : List Byte) : Bool := fbit d 0 15
def ddSrcFmt (d : List Byte) : Nat := fw d 1 4 0
def ddDstFmt (d : List Byte) : Nat := fw d 1 12 8
def ddRowBytes (d : List Byte) : Nat := fw d 2 23 0
def ddRows (d : List Byte) : Nat := fw d 3 23 0
def ddSrcIdx (d : List Byte) : Nat := fw d 10 3 0
def ddDstIdx (d : List Byte) : Nat := fw d 10 7 4
def ddRate (d : List Byte) : Nat := fw d 12 15 0
/-- REPEAT, where 0 is taken as 1. -/
def ddRepeat (d : List Byte) : Nat := max 1 (fw d 10 23 8)
def ddRelay (d : List Byte) : Bool := ddOp d == 0x71
def ddFill (d : List Byte) : Bool := ddOp d == 0x72

/-- Destination bytes that `n` source bytes give (R281). -/
def ddDstBytes (d : List Byte) (n : Nat) : Nat :=
  if ddConvert d then n * (fmtWidth (ddDstFmt d) / 8) / (fmtWidth (ddSrcFmt d) / 8) else n

/-- Formats that a DMA converts (R281). -/
def ddFmtOk (c : Nat) : Bool := [fmtE4M3, fmtE5M2, fmtBF16, fmtFP16, fmtFP32].contains c

/-- Last byte plus one of a pattern of planned rows, 0 where it has none. -/
def ddExtent (base rowBytes rows stride reps repStride : Nat) : Nat :=
  if rows = 0 then 0 else base + (reps - 1) * repStride + (rows - 1) * stride + rowBytes

/-- The extents of the planned source and destination. -/
def ddSrcEnd (d : List Byte) : Nat := ddExtent (fva d 4) (ddRowBytes d) (ddRows d) (fw d 8 31 0) (ddRepeat d) (fw d 11 31 0)
def ddDstEnd (d : List Byte) : Nat := ddExtent (fva d 6) (ddDstBytes d (ddRowBytes d)) (ddRows d) (fw d 9 31 0) 1 0

/-- A base and an extent suit a kind (check 1 of Table 12-1). -/
def ddBaseOk (kind base top : Nat) : Bool :=
  match kind with
  | 0 => decide (base < 2 ^ 24 ∧ top ≤ 2 ^ 24)
  | 2 => decide (base < 2 ^ 24)
  | 4 => decide (base < 2 ^ 18 ∧ top ≤ 2 ^ 18)
  | _ => true

/-- Check 1 of Table 12-1. Log entry 56 (DEDUCED, unsafe). -/
def ddWellFormed (d : List Byte) : Bool :=
  let op := ddOp d
  let sk := ddSrcKind d
  let dk := ddDstKind d
  (op == 0x70 || op == 0x71 || op == 0x72) && decide (sk ≤ 4 ∧ dk ≤ 4) &&
  fw d 0 31 17 == 0 && fw d 1 7 5 == 0 && fw d 1 31 13 == 0 && fw d 2 31 24 == 0 && fw d 3 31 29 == 0 && fw d 5 31 16 == 0 &&
  fw d 7 31 16 == 0 && fw d 10 31 24 == 0 && fw d 12 31 16 == 0 && fw d 14 31 30 == 0 && fw d 15 31 18 == 0 &&
  (ddRelay d || fw d 15 17 0 == 0) &&
  ddBaseOk sk (fva d 4) (if ddFill d then 0 else ddSrcEnd d) && ddBaseOk dk (fva d 6) (ddDstEnd d) &&
  decide (1 ≤ ddRowBytes d) && (dk == 2 || decide (ddRepeat d ≤ 1)) && (dk == 2 || ddRate d == 0) &&
  (!ddFill d || (sk == 0 && !ddConvert d)) && (!ddRelay d || (decide (sk ≤ 1) && dk == 2)) &&
  (if ddConvert d then
     ddSrcFmt d != ddDstFmt d && ddFmtOk (ddSrcFmt d) && ddFmtOk (ddDstFmt d) && ddRowBytes d % (fmtWidth (ddSrcFmt d) / 8) == 0
   else ddSrcFmt d == 0 && ddDstFmt d == 0) &&
  (!(sk == 3 || dk == 3) || ddRowBytes d % 4 == 0)

/-- Check 4 of Table 12-1 for a ring that the descriptor reads or writes. Log entry 56 (DEDUCED, unsafe). -/
def State.ddFits (s : State) (p n top : Nat) : Bool := decide (top ≤ s.ringSlotBytes p n)

/-! Access to an engine. -/

/-- Change what DMA engine `e` holds. -/
def State.modDma (s : State) (p e : Nat) (g : DmaState → DmaState) : State :=
  s.modField p fun f => { f with dmas := Tab.set (fun _ => ⟨[], []⟩) f.dmas e (g (s.dma p e)) }

/-- Replace a transfer that has been issued. -/
def State.setDmaRun (s : State) (p e : Nat) (r : DmaRun) : State :=
  s.modDma p e fun x => { x with runs := x.runs.map fun y => if y.ctx == r.ctx then r else y }

/-- The transfer that runs on an engine: the one of a scheduled context. -/
def State.dmaRun (s : State) (p e : Nat) : Option DmaRun := (s.dma p e).runs.find? fun r => s.ctxActive r.ctx

/-- Show an engine in FLD_DMA_STATUS. -/
def State.dmaShow (s : State) (p e : Nat) : State :=
  let x := s.dma p e
  let t := s.puts [(Reg.FLD_DMA_STATUS_BUSY p e, b2n (!x.runs.isEmpty)),
    (Reg.FLD_DMA_STATUS_SUSPENDED p e, b2n (x.runs.any (·.suspended))), (Reg.FLD_DMA_STATUS_QUEUED p e, x.queue.length)]
  match (match s.dmaRun p e with
    | some r => some r
    | none => x.runs.head?) with
  | some r => t.put (Reg.FLD_DMA_STATUS_CTX_SLOT p e) r.slot
  | none => t

/-- Post a descriptor to an engine (R279). -/
def State.dmaPostTo (s : State) (p e slot off : Nat) : PostEnd :=
  s.postTo p 5 e slot off 64 (s.dma p e).queue 16 4 fun t x =>
    (t.modDma p e fun y => { y with queue := y.queue ++ [x] }).dmaShow p e

/-- DMA_ISSUE_POST: a DCS write to FLD_DMA_ISSUE. -/
def State.dmaPost (s : State) (p e v : Nat) : State :=
  s.dcsPost p 5 e (Reg.FLD_DMA_STATUS_ISSUE_OVERRUN p e) (s.dmaPostTo p e (bits v 1 0) (64 * bits v 23 6))

def execDmaIssuePost (p : Fin 72) (e : Fin 4) (value : Word) (s : State) : Host.Outcome State Fault Refusal :=
  answer (s.dmaPost p e value.toNat)

/-! Relay chains (R292, R293). -/

/-- The stations of a chain record: physical Field and ring, with the resident slot of the context on each. None: not valid. -/
def State.chainStations (s : State) (c : Nat) (d rcd : List Byte) : Option (List (Nat × Nat × Nat)) :=
  let n := leNat (rcd.take 1)
  if n = 0 ∨ 64 < n then none
  else
    let words := (List.range n).map fun k => fw rcd (4 + k) 9 0
    let lfs := words.map (· % 64)
    if lfs.eraseDups.length ≠ n then none
    else
      let st := words.zipIdx.map fun w =>
        match s.physOf (w.1 % 64) with
        | none => none
        | some q => match s.slotOf q c with
          | none => none
          | some k =>
            if s.ringUsable q k (w.1 / 64) (some (decide (w.2 + 1 < n))) && s.ddFits q (w.1 / 64) (ddDstEnd d) then some (q, w.1 / 64, k)
            else none
      if st.all Option.isSome then some (st.filterMap id) else none

/-- The bytes of a chain record, as long as its STATIONS makes it (Table 12-6). -/
def State.chainRead (s : State) (p slot a : Nat) : Acc (State × List Byte) := do
  let (t, h) ← s.fmRead p (some slot) a 16
  let (u, ws) ← t.fmRead p (some slot) (a + 16) (4 * min 64 (leNat (h.take 1)))
  .ok (u, h ++ ws)

/-- The relay entry of a Field that is not in use. -/
def State.relayFree (s : State) (q : Nat) : Option Nat :=
  (List.range 8).find? fun k => !(s.field q).relays.any (·.1 == k)

/-- Where the own station of a head, of engine `e` and a context's slot, is kept when it is not the first of its chain. -/
def ownStation (e slot : Nat) : Nat := 8 + 4 * e + slot

/-- A relay entry. -/
def State.relay (s : State) (q k : Nat) : Option RelayEntry := ((s.field q).relays.find? (·.1 == k)).map (·.2)

/-- Replace a relay entry in use. -/
def State.setRelay (s : State) (q k : Nat) (y : RelayEntry) : State :=
  s.modField q fun f => { f with relays := f.relays.map fun e => if e.1 == k then (k, y) else e }

/-- Show a field of FLD_RELAY_STATUS: the head's own station has none. -/
def State.relayPut (s : State) (k : Nat) (f : RF) (v : Nat) : State := if k < 8 then s.put f v else s

/-- A station takes a write slot of its ring before the first granule of a repeat reaches it, or shows that it waits for one (R294). -/
def State.relaySlot (s : State) (q k : Nat) : State :=
  match s.relay q k with
  | none => s
  | some y =>
    if y.held || y.left = 0 then s
    else if s.ringHeadFree q y.ring then
      ((s.ringTake q y.ring).relayPut k (Reg.FLD_RELAY_STATUS_STALLED q k) 0).setRelay q k { y with held := true, left := y.left - 1 }
    else s.relayPut k (Reg.FLD_RELAY_STATUS_STALLED q k) 1

/-- Reserve an entry at every station but the head's own (R293), and open the route from each station to the next (R55). -/
def State.relayReserve (s : State) (p e c seq reps : Nat) (sts : List (Nat × Nat × Nat)) : Option (State × List Station) :=
  let ks := sts.zipIdx.map fun x =>
    if x.1.1 = p then some (if x.2 = 0 then none else some (ownStation e x.1.2.2)) else (s.relayFree x.1.1).map some
  if ks.all Option.isSome then
    let st : List Station := (sts.zip (ks.filterMap id)).map fun x => { field := x.1.1, ring := x.1.2.1, entry := x.2 }
    let t := st.zipIdx.foldl (fun t x =>
      match x.1.entry with
      | none => t
      | some k =>
        let next := match st[x.2 + 1]? with
          | some y => y.entry.map fun j => (y.field, j)
          | none => none
        let slot := (sts.getD x.2 (0, 0, 0)).2.2
        let y : RelayEntry :=
          { slot := slot, headField := p, headEng := e, seq := seq, left := reps, ring := x.1.ring, next := next, inbox := [], held := false }
        let u := t.modField x.1.field fun f => { f with relays := Tab.insert f.relays k y }
        let v := if k < 8 then
            u.puts [(Reg.FLD_RELAY_STATUS_ACTIVE x.1.field k, 1), (Reg.FLD_RELAY_STATUS_CTX_SLOT x.1.field k, slot),
              (Reg.FLD_RELAY_STATUS_STATION x.1.field k, x.2), (Reg.FLD_RELAY_STATUS_HEAD_LFIELD x.1.field k, (s.lfieldOf p).getD 0),
              (Reg.FLD_RELAY_STATUS_STALLED x.1.field k, 0)]
          else u
        v.relaySlot x.1.field k) s
    let fs := p :: st.map (·.field)
    some ((fs.zip (fs.drop 1)).foldl (fun t x =>
      if x.1 = x.2 then t else t.routeOpen (.dma p e seq) c (nodeOfField x.1) (nodeOfField x.2)) t, st)
  else none

/-- Release the relay entries of an engine's chain (R295). -/
def State.relayRelease (s : State) (r : DmaRun) : State :=
  r.stations.foldl (fun t x => match x.entry with
    | none => t
    | some k => ((t.relayPut k (Reg.FLD_RELAY_STATUS_ACTIVE x.field k) 0).relayPut k (Reg.FLD_RELAY_STATUS_STALLED x.field k) 0).modField x.field
        fun f => { f with relays := Tab.erase f.relays k }) s

/-! Issue (R279). -/

/-- The outcome of the checks at issue. -/
inductive DmaCheck where
  | wait (s : State)
  | refused (code detail : Nat)
  | ok (s : State) (r : DmaRun) (stations : List (Nat × Nat × Nat))

/-- The checks of Table 12-1 in order. -/
def State.dmaCheck (s : State) (p c : Nat) (x : Posted) : DmaCheck :=
  let d := x.desc
  let rows := if fbit d 3 28 then s.get (Reg.FLD_CTX_SHAPE_VALUE p (16 * x.slot + fw d 3 27 24)) else ddRows d
  let r : DmaRun :=
    { slot := x.slot, ctx := c, seq := Tab.get (fun _ => 0) (s.field p).dmaSeqs c, post := x.order, desc := d, rows := rows,
      stations := [], rep := 0, row := 0, off := 0, got := none, inb := [], outb := [], sending := false, toks := [], bytesDone := 0, slotsPub := 0, srcHeld := false,
      dstHeld := false, suspended := false, waits := 0, fault := none }
  if !ddWellFormed d then .refused Flt.DMA_MALFORMED 0
  else if ddRows d < rows then .refused Flt.SHAPE_PLAN 0
  else if ddSrcKind d == 2 && !s.ringUsable p x.slot (ddSrcIdx d) none then .refused Flt.RING_STATE (ddSrcIdx d)
  else if ddDstKind d == 2 && !ddRelay d && !s.ringUsable p x.slot (ddDstIdx d) (some false) then .refused Flt.RING_STATE (ddDstIdx d)
  else if ddSrcKind d == 2 && !s.ddFits p (ddSrcIdx d) (ddSrcEnd d) then .refused Flt.DMA_RING_FIT (ddSrcIdx d)
  else if ddDstKind d == 2 && !ddRelay d && !s.ddFits p (ddDstIdx d) (ddDstEnd d) then .refused Flt.DMA_RING_FIT (ddDstIdx d)
  else if ddRelay d then
    match s.chainRead p x.slot (64 * fw d 15 17 0) with
    | .error (.bankAsleep q b w) => .wait (s.wakeBank q b w)
    | .error (.fmUncorr w) => .refused Flt.FM_UNCORR (bits w 23 0)
    | .error _ => .refused Flt.FM_PROTECT (64 * fw d 15 17 0)
    | .ok (t, rcd) => match t.chainStations c d rcd with
      | none => .refused Flt.RELAY_MALFORMED 0
      | some sts => .ok t r sts
  else .ok s r []

/-- Bind the grid ports that a transfer names, where they are free (R182). -/
def State.dmaBind (s : State) (p e slot : Nat) (d : List Byte) : Option State := do
  let t ← if ddSrcKind d = 3 then s.gpBind p (ddSrcIdx d) 2 slot e else some s
  if ddDstKind d = 3 then t.gpBind p (ddDstIdx d) 2 slot e else some t

/-- Free the grid ports of a transfer. -/
def State.dmaUnbind (s : State) (p : Nat) (d : List Byte) : State :=
  let t := if ddSrcKind d = 3 then s.gpFree p (ddSrcIdx d) else s
  if ddDstKind d = 3 then t.gpFree p (ddDstIdx d) else t

/-- The first entry of a queue that heads a scheduled context's entries. -/
def State.queueHead (s : State) (p : Nat) (q : List Posted) : Option (Posted × Nat) :=
  q.findSome? fun x => match s.ctxOf p x.slot with
    | some c => if (q.find? fun y => y.slot == x.slot) == some x && s.ctxActive c then some (x, c) else none
    | none => none

/-- The next descriptor of an engine, where the engine is free to take one. -/
def State.dmaHead (s : State) (p e : Nat) : Option (Posted × Nat) :=
  if s.fieldPowered p && (s.dmaRun p e).isNone then s.queueHead p (s.dma p e).queue else none

/-- Take a descriptor from its queue. -/
def State.dmaTake (s : State) (p e : Nat) (x : Posted) : State :=
  s.modDma p e fun y => { y with queue := dropFirst (· == x) y.queue }

/-- The source address of byte `o` of the row in work. Log entry 56 (DEDUCED, unsafe). -/
def DmaRun.srcAt (r : DmaRun) (o : Nat) : Nat :=
  fva r.desc 4 + r.rep * fw r.desc 11 31 0 + r.row * fw r.desc 8 31 0 + o

/-- The destination address, or slot offset, of destination byte `o` of the row in work. Log entry 56 (DEDUCED, unsafe). -/
def DmaRun.dstAt (r : DmaRun) (o : Nat) : Nat := fva r.desc 6 + r.row * fw r.desc 9 31 0 + o

/-- The place where the traffic of a VA of a transfer starts or ends (R25, R57). -/
def State.dmaNode (s : State) (p : Nat) (r : DmaRun) (need : Need) (va : Nat) : Option NetNode :=
  match s.translate p r.ctx false need (va % 2 ^ 48) with
  | .ok (.stack o, _) => some (nodeOfStack (o / stackSize))
  | .ok (.fm m _, _) => (s.physOf m).map nodeOfField
  | .ok (.remote rga, _) => some (s.nodeOfDev (bits rga 50 41))
  | .error _ => none

/-- The place of granule `k` of a transfer. -/
def DmaRun.place (r : DmaRun) (k : Nat) : DmaRun :=
  let n := ceilDiv (ddRowBytes r.desc) 256
  { r with rep := k / n / max 1 r.rows, row := k / n % max 1 r.rows, off := 256 * (k % n) }

/-- The routes of a granule's operands are open (R27, R55): all routes of a heat go the ways in force when the heat began. Log entry 137 (DEDUCED, unsafe). -/
def State.dmaRoutes (s : State) (p e : Nat) (r : DmaRun) : State :=
  let u : RouteUser := .dma p e r.seq
  let t := match (if ddSrcKind r.desc = 1 then s.dmaNode p r .read (r.srcAt r.off) else none) with
    | some a => s.routeNeed u r.ctx a (nodeOfField p)
    | none => s
  match (if ddDstKind r.desc = 1 then t.dmaNode p r .write (r.dstAt (ddDstBytes r.desc r.off)) else none) with
  | some b => t.routeNeed u r.ctx (nodeOfField p) b
  | none => t

/-- Open the routes of a COPY or FILL when it is issued, for every granule whose pages are present (R55). Log entry 137 (DEDUCED, unsafe). -/
def State.dmaOpen (s : State) (p e : Nat) (r : DmaRun) : State :=
  (List.range (ddRepeat r.desc * r.rows * ceilDiv (ddRowBytes r.desc) 256)).foldl (fun t k => t.dmaRoutes p e (r.place k)) s

/-- Issue or refuse the next descriptor of an engine (R279, R293). -/
def State.dmaIssue (s : State) (p e : Nat) (x : Posted) (c : Nat) : State :=
  match s.dmaCheck p c x with
  | .wait t => t
  | .refused code detail =>
    ((((s.dmaTake p e x).checkSeen p code detail).puts [(Reg.FLD_DMA_STATUS_LAST_FAULT p e, code), (Reg.FLD_DMA_STATUS_RELAY_WAIT p e, 0)]).fieldFault
      p 5 e (some c) code detail).dmaShow p e
  | .ok s' r sts =>
    match s'.dmaBind p e x.slot x.desc with
    | none => s'
    | some t =>
      let seq := r.seq + 1
      match t.relayReserve p e c seq (ddRepeat x.desc) sts with
      | none => s'.put (Reg.FLD_DMA_STATUS_RELAY_WAIT p e) 1
      | some (u, st) =>
        let v := (u.dmaTake p e x).modField p fun f => { f with dmaSeqs := Tab.set (fun _ => 0) f.dmaSeqs c seq }
        let run := { r with seq := seq, stations := st }
        (((v.dmaOpen p e run).modDma p e fun y => { y with runs := y.runs ++ [run] }).put (Reg.FLD_DMA_STATUS_RELAY_WAIT p e) 0).dmaShow p e

/-- Issue the next descriptor where its OPCODE is `op`, or is none of the three. Log entry 58 (DESIGN CHOICE, safe). -/
def State.dmaIssueOp (s : State) (p e op : Nat) : State :=
  match s.dmaHead p e with
  | none => s.dmaShow p e
  | some (x, c) =>
    if ddOp x.desc = op ∨ ddOp x.desc < 0x70 ∨ 0x72 < ddOp x.desc then s.dmaIssue p e x c else s

/-- COPY, RELAY and FILL. Log entry 58 (DESIGN CHOICE, safe). -/
def execCopy (p : Fin 72) (e : Fin 4) (s : State) : Host.Outcome State Fault Refusal := answer (s.dmaIssueOp p e 0x70)
/-- Log entry 58 (DESIGN CHOICE, safe). -/
def execRelay (p : Fin 72) (e : Fin 4) (s : State) : Host.Outcome State Fault Refusal := answer (s.dmaIssueOp p e 0x71)
/-- Log entry 58 (DESIGN CHOICE, safe). -/
def execFill (p : Fin 72) (e : Fin 4) (s : State) : Host.Outcome State Fault Refusal := answer (s.dmaIssueOp p e 0x72)

/-- RELAY_RESERVE: a relay that waits at the head of its queue reserves its entries once every station has one free (R293). -/
def execRelayReserve (p : Fin 72) (e : Fin 4) (s : State) : Host.Outcome State Fault Refusal :=
  answer (if s.on (Reg.FLD_DMA_STATUS_RELAY_WAIT p e) then s.dmaIssueOp p e 0x71 else s)

/-! Granules (R283, R284). -/

/-- Does a transfer end in a fault, or has it nothing left to do? -/
def DmaRun.finished (r : DmaRun) : Bool :=
  r.fault.isSome ||
    (decide (ddRepeat r.desc ≤ r.rep) && (!ddRelay r.desc || decide (ddRepeat r.desc ≤ r.slotsPub)))

/-- Does a transfer have granules of its own still to issue? -/
def DmaRun.working (r : DmaRun) : Bool := r.fault.isNone && decide (r.rep < ddRepeat r.desc)

/-- The transfer stops with a fault (R285). -/
def State.dmaStop (s : State) (p e : Nat) (r : DmaRun) (code : Nat) : State :=
  ((s.setDmaRun p e { r with fault := some code }).put (Reg.FLD_DMA_STATUS_LAST_FAULT p e) code).dmaShow p e

/-- What a failed access does to a transfer. -/
def State.dmaFail (s : State) (p e : Nat) (r : DmaRun) (err : AccErr) : State :=
  let t := s.accFail p 5 e r.slot err
  match t.stopCode p 5 e r.ctx with
  | some code => (t.agentEnd p 5 e r.ctx).dmaStop p e r code
  | none => t

/-- Read the source of the next granule, `n` bytes. -/
def State.dmaRead (s : State) (p e : Nat) (r : DmaRun) (n : Nat) : FarEnd (List Byte) :=
  let d := r.desc
  let a := r.srcAt r.off
  if ddFill d then .ok s ((List.range n).map fun i => BitVec.ofNat 8 (fw d 13 31 0 / 256 ^ ((r.off + i) % 4)))
  else match ddSrcKind d with
    | 0 => FarEnd.ofRead (s.fmRead p (some r.slot) a n)
    | 1 => s.farRead p 5 e r.slot false (a % 2 ^ 48) n
    | 2 => FarEnd.ofRead (s.fmRead p (some r.slot) (s.ringReadAt p (ddSrcIdx d) + a) n)
    | 3 => if r.inb.length < n then .wait s else .ok s (r.inb.take n)
    | _ => FarEnd.ofRead (s.muRead p (ddSrcIdx d) a n)

/-- Convert the elements of a granule (R77, R78, R281). -/
def ddBytes (d bs : List Byte) : List Byte :=
  if ddConvert d then
    let w := fmtWidth (ddSrcFmt d) / 8
    (List.range (bs.length / w)).flatMap fun i =>
      leBytes (fmtWidth (ddDstFmt d) / 8)
        (elemConvert (ddDstFmt d) .rne (fbit d 0 16) (elemVal (ddSrcFmt d) (leNat ((bs.drop (w * i)).take w))))
  else bs

/-- Write the destination bytes of a granule to memory. -/
def State.dmaWrite (s : State) (p e : Nat) (r : DmaRun) (bs : List Byte) : FarEnd Unit :=
  let d := r.desc
  let a := r.dstAt (ddDstBytes d r.off)
  match ddDstKind d with
  | 0 => FarEnd.ofWrite (s.fmWrite p (some r.slot) a bs)
  | 1 => s.farWrite p 5 e r.slot false (a % 2 ^ 48) bs
  | 2 =>
    let n := ddDstIdx d
    FarEnd.ofWrite ((s.fmWrite p (some r.slot) (s.ringSlotAt p n (s.get (Reg.FLD_RING_STATE_HEAD p n)) + a) bs).map
      fun t => t.ringLand p n a bs.length)
  | _ => FarEnd.ofWrite (s.muWrite p (ddDstIdx d) a bs)

/-- Granules that may wait at a station. Log entry 57 (DESIGN CHOICE, safe). -/
def relayInbox : Nat := 2

/-- May a granule go on to a relay entry: its station holds the slot of the granule's repeat and has room, and the way there carries traffic (R54, R294)? Log entry 57 (DESIGN CHOICE, safe). -/
def State.relayRoom (s : State) (from' : Nat) : Option (Nat × Nat) → Bool
  | none => true
  | some (q, k) => match s.relay q k with
    | some x => x.held && decide (x.inbox.length < relayInbox) && x.inbox.all (fun g => !g.last) &&
        s.legUp (.dma x.headField x.headEng x.seq) (nodeOfField from') (nodeOfField q)
    | none => true

/-- Hand a granule to the next station. Log entry 57 (DESIGN CHOICE, safe). -/
def State.relayPush (s : State) (g : RelayGran) : Option (Nat × Nat) → State
  | none => s
  | some (q, k) => s.modField q fun f =>
      { f with relays := f.relays.map fun e => if e.1 == k then (k, { e.2 with inbox := e.2.inbox ++ [g] }) else e }

/-- A granule lands in the slot that a station fills; the last one of a repeat publishes the slot, which its forward reader has then
forwarded (R294). The station's slot is taken. -/
def State.relayLand (s : State) (q slot n : Nat) (g : RelayGran) : Acc State := do
  let a := s.ringSlotAt q n (s.get (Reg.FLD_RING_STATE_HEAD q n)) + g.off
  let t ← s.fmWrite q (some slot) a g.data
  let u := if g.data.isEmpty then t else t.ringLand q n g.off g.data.length
  if g.last then
    let v := u.ringPublishTop q n
    .ok (if v.on (Reg.FLD_RING_CFG_FWD q n) then v.ringForwarded q n else v)
  else .ok u

/-- A granule has landed at the last station of a chain: the head counts it (R295). -/
def State.relayCount (s : State) (p e : Nat) (c : Nat) (g : RelayGran) : State :=
  (s.modDma p e fun x => { x with runs := x.runs.map fun r =>
    if r.ctx == c then { r with bytesDone := r.bytesDone + g.src, slotsPub := r.slotsPub + b2n g.last } else r }).progress p
      ((s.slotOf p c).getD 0)

/-- The place after a granule of `n` source bytes. -/
def DmaRun.after (r : DmaRun) (n : Nat) : DmaRun :=
  if r.off + n < ddRowBytes r.desc then { r with off := r.off + n, got := none }
  else if r.row + 1 < r.rows then { r with off := 0, row := r.row + 1, got := none }
  else { r with off := 0, row := 0, rep := r.rep + 1, got := none, srcHeld := false, dstHeld := false }

/-- Does a granule of `n` bytes end its repeat? -/
def DmaRun.ends (r : DmaRun) (n : Nat) : Bool := decide (r.rows ≤ r.row + 1) && decide (ddRowBytes r.desc ≤ r.off + n)

/-- Take the ring slots that the next granule needs, where they are to be had (R287). Relay stations are the head's own only. -/
def State.dmaSlots (s : State) (p e : Nat) (r : DmaRun) : State × DmaRun :=
  let d := r.desc
  let own := if ddRelay d then (match r.stations.head? with
      | some x => if x.entry.isNone then some x.ring else none
      | none => none)
    else if ddDstKind d = 2 then some (ddDstIdx d) else none
  let (s1, r1) := match own with
    | some n => if !r.dstHeld && r.working && s.ringHeadFree p n then (s.ringTake p n, { r with dstHeld := true }) else (s, r)
    | none => (s, { r with dstHeld := true })
  let (s2, r2) := if ddSrcKind d = 2 then
      (if !r1.srcHeld && r1.working && s1.ringReady p (ddSrcIdx d) && !(s1.ringX p (ddSrcIdx d)).consHeld then
        (s1.ringHold p (ddSrcIdx d), { r1 with srcHeld := true }) else (s1, r1))
    else (s1, { r1 with srcHeld := true })
  (s2.setDmaRun p e r2, r2)

/-- The end of a repeat: the destination slot is published and the source slot freed. -/
def State.dmaRepeatEnd (s : State) (p : Nat) (r : DmaRun) : State × Nat :=
  let d := r.desc
  let (t, k) := if ddDstKind d = 2 ∧ ddRelay d = false then (s.ringPublishTop p (ddDstIdx d), 1) else (s, 0)
  (if ddSrcKind d = 2 then t.ringConsume p (ddSrcIdx d) else t, k)

/-- One granule of a relay at its head: it is sent to the first station, or lands in the head's own ring and goes on from there. -/
def State.relayHead (s : State) (p e : Nat) (r : DmaRun) (g : RelayGran) (n : Nat) : State :=
  let entryOf (x : Station) : Option (Nat × Nat) := x.entry.map fun k => (x.field, k)
  match r.stations with
  | [] => s
  | x :: rest =>
    match x.entry with
    | some _ =>
      if s.relayRoom p (entryOf x) then (s.relayPush g (entryOf x)).setDmaRun p e (r.after n) else s
    | none =>
      let next := match rest with
        | y :: _ => entryOf y
        | [] => none
      if !s.relayRoom p next then s
      else match s.relayLand p r.slot x.ring g with
        | .error err => s.dmaFail p e r err
        | .ok t =>
          let u := (t.relayPush g next).setDmaRun p e (r.after n)
          if next.isNone then u.relayCount p e r.ctx g else u

/-- One repeat of a transfer without rows: its slots are taken, and published or freed, with no byte moved (R282). -/
def State.dmaEmpty (s : State) (p e : Nat) (r : DmaRun) : State :=
  if ddRelay r.desc then s.relayHead p e r { off := 0, data := [], src := 0, last := true } (ddRowBytes r.desc)
  else
    let (t, k) := s.dmaRepeatEnd p r
    let r' := r.after (ddRowBytes r.desc)
    t.setDmaRun p e { r' with slotsPub := r.slotsPub + k }

/-- A granule of `n` source bytes is done. -/
def State.dmaDone (s : State) (p e : Nat) (r : DmaRun) (n : Nat) : State :=
  let (t, k) := if r.ends n then s.dmaRepeatEnd p r else (s, 0)
  let r' := r.after n
  (t.setDmaRun p e { r' with bytesDone := r.bytesDone + n, slotsPub := r.slotsPub + k, inb := [], sending := false, toks := [] }).progress p r.slot

/-- Send the tokens of a granule to a grid port as far as its switch box has room; the granule is done once all have left (R183, R283). `u`, `q`
and `x` are the unit, queue and leg that the port leads to. -/
def State.dmaTokens (s : State) (p e : Nat) (r : DmaRun) (n u q x : Nat) : State :=
  let (t, left) := s.portBytes p (ddDstIdx r.desc) u q x 8 r.toks
  if left = [] then t.dmaDone p e { r with toks := [] } n
  else t.setDmaRun p e { r with toks := left, sending := true }

/-- The bytes of a granule towards a grid port: full tokens of its row, and at the row's end the rest, whose further lanes are not valid (Table 12-3). -/
def DmaRun.cut (r : DmaRun) (bs : List Byte) (n : Nat) : DmaRun :=
  let all := r.outb ++ bs
  if ddRowBytes r.desc ≤ r.off + n then { r with toks := tokenBytes all.length all, outb := [], sending := true }
  else
    let k := all.length / 128 * 128
    { r with toks := tokenBytes k (all.take k), outb := all.drop k, sending := true }

/-- The source bytes of the granule in work: those it has, or those it reads now, which begins its step (R46). A granule that waits for its
destination keeps what it has read and is charged for, and reads it once (R338). -/
def State.dmaSource (s : State) (p e : Nat) (r : DmaRun) (n : Nat) : FarEnd (List Byte) :=
  match r.got with
  | some bs => .ok s bs
  | none =>
    if !s.permitted p (unitDma e) then .wait s
    else match s.dmaRead p e r n with
    | .ok t bs => .ok (t.stepTaken p (unitDma e)) bs
    | x => x

/-- The tokens of a grid port that a transfer reads gather to a granule. -/
def State.dmaGather (s : State) (p e : Nat) (r : DmaRun) (n : Nat) : State × DmaRun :=
  if ddSrcKind r.desc = 3 then
    let (t, buf) := s.portGather p (ddSrcIdx r.desc) (128 * ceilDiv n 128) 64 r.inb
    (t.setDmaRun p e { r with inb := buf }, { r with inb := buf })
  else (s, r)

/-- The next granule of a transfer, its slots held. -/
def State.dmaMove (s : State) (p e : Nat) (r : DmaRun) (u q x : Nat) : State :=
  let n := min 256 (ddRowBytes r.desc - r.off)
  if r.sending then s.dmaTokens p e r n u q x
  else
    let (s, r) := (s.dmaRoutes p e r).dmaGather p e r n
    match s.dmaSource p e r n with
    | .err err => s.dmaFail p e r err
    | .wait t => t
    | .ok t bs =>
      let r := { r with got := some bs }
      let t := t.setDmaRun p e r
      let data := ddBytes r.desc bs
      if ddRelay r.desc then
        t.relayHead p e r { off := r.dstAt (ddDstBytes r.desc r.off), data := data, src := n, last := r.ends n } n
      else if ddDstKind r.desc = 3 then t.dmaTokens p e (r.cut data n) n u q x
      else match t.dmaWrite p e r data with
        | .err err => t.dmaFail p e r err
        | .wait t' => t'
        | .ok v _ => v.dmaDone p e r n

/-- RELAY_GRANULE: a station takes a slot before its first granule, lands the granule that has come, and passes it on (R294). -/
def State.relayGranule (s0 : State) (q k : Nat) : State :=
  let s := if s0.fieldPowered q then s0.relaySlot q k else s0
  match s.relay q k with
  | none => s
  | some x =>
    match x.inbox with
    | [] => s
    | g :: rest =>
      if !s.fieldPowered q || !s.permitted q (unitRelay k) || !x.held || !s.relayRoom q x.next then s
      else
        let c := (s.ctxOf q x.slot).getD 0
        match s.relayLand q x.slot x.ring g with
        | .ok t =>
          let u := (((t.stepTaken q (unitRelay k)).setRelay q k { x with inbox := rest, held := !g.last }).relayPush g x.next).relaySlot q k
          if x.next.isNone then (u.relayCount x.headField x.headEng c g).dmaShow x.headField x.headEng else u
        | .error err =>
          if err.waits then s.wakeFor err
          else
            let t := s.accFail q 5 x.headEng x.slot err
            let u := t.agentEnd q 5 x.headEng c
            match t.stopCode q 5 x.headEng c, (s.dma x.headField x.headEng).runs.find? (fun r => r.ctx == c) with
            | some code, some r => u.dmaStop x.headField x.headEng r code
            | _, _ => u

def execRelayGranule (p : Fin 72) (k : Fin 8) (s : State) : Host.Outcome State Fault Refusal := answer (s.relayGranule p k)

/-- May a transfer read its source: its FENCE (R280)? -/
def State.dmaFenced (s : State) (p : Nat) (r : DmaRun) : Bool :=
  fbit r.desc 0 14 && (s.macrosBefore p r.ctx r.post none || s.engsBefore p r.ctx r.post || s.dmasBefore p r.ctx r.post)

/-- DMA_GRANULE: the engine that has the grant moves its next granule. A transfer without rows works its slots without a grant. Where the head's
own Field is a later station of its chain, the granule that has come round lands there. Log entry 59 (DEDUCED, unsafe). -/
def State.dmaGranule (s0 : State) (p e u q x : Nat) : State :=
  let s := (s0.dma p e).runs.foldl (fun t r => t.relayGranule p (ownStation e r.slot)) s0
  match s.dmaRun p e with
  | none => s
  | some r0 =>
    match s.stopCode p 5 e r0.ctx with
    | some code => (s.agentEnd p 5 e r0.ctx).dmaStop p e r0 code
    | none =>
      if !s.fieldPowered p || s.agentWaits p 5 e r0.ctx || !r0.working || s.dmaFenced p r0 then s
      else if r0.rows = 0 then
        let (t, r) := s.dmaSlots p e { r0 with suspended := false }
        if r.dstHeld && r.srcHeld && s.permitted p (unitDma e) then ((t.stepTaken p (unitDma e)).dmaEmpty p e r).dmaShow p e else t
      else if (s.field p).dmaGrant ≠ some e then s
      else
        let (t, r) := (s.modField p fun f => { f with dmaGrant := none }).dmaSlots p e { r0 with suspended := false, waits := 0 }
        if r.dstHeld && r.srcHeld then (t.dmaMove p e r u q x).dmaShow p e else t

/-- Log entry 3 (DESIGN CHOICE, safe). -/
def execDmaGranule (p : Fin 72) (e : Fin 4) (u : Fin 32) (q : Fin 4) (leg : Fin 8) (s : State) :
    Host.Outcome State Fault Refusal := answer (s.dmaGranule p e u q leg)

/-! Suspension and completion (R284, R285). -/

/-- The completion record of Table 12-5. -/
def DmaRun.record (r : DmaRun) (code : Nat) (susp : Bool) (stamp : Nat) : List Byte :=
  leBytes 8 r.bytesDone ++ leBytes 4 r.slotsPub ++ leBytes 2 code ++ leBytes 1 (b2n susp + 2 * b2n (ddRelay r.desc)) ++
  leBytes 1 r.slot ++ leBytes 4 0 ++ leBytes 4 r.seq ++ leBytes 8 stamp

/-- FM offset of the completion record. -/
def DmaRun.recordAt (r : DmaRun) : Nat := 32 * fw r.desc 14 29 11

/-- DMA_SUSPEND: a transfer whose context is descheduled, or whose access waits on a translation fault, stops at its granule
boundary, discards what it has read beyond it, and writes a record with SUSPENDED = 1; one whose last granule is done keeps its completion for
when its context runs again. -/
def State.dmaSuspend (s : State) (p e : Nat) : State :=
  match (s.dma p e).runs.find? fun r => !r.suspended && r.fault.isNone && (!s.ctxActive r.ctx || s.agentWaits p 5 e r.ctx) with
  | none => s
  | some r =>
    let code := match s.stopOf p (agentKey 5 e r.ctx) with
      | some x => x.code
      | none => 0
    match s.recordWrite p 5 e r.slot r.recordAt (r.record code true s.stamp) with
    | (t, true) => (t.setDmaRun p e { r with suspended := true, got := none }).dmaShow p e
    | (t, false) => t

def execDmaSuspend (p : Fin 72) (e : Fin 4) (s : State) : Host.Outcome State Fault Refusal := answer (s.dmaSuspend p e)

/-- DMA_COMPLETE: a finished transfer writes its record, frees its ports and relay entries, and arrives at its hurdle, in the
order of Table 12-4. Log entry 51 (DESIGN CHOICE, unsafe). -/
def State.dmaComplete (s : State) (p e : Nat) : State :=
  match (s.dma p e).runs.find? fun r => r.finished && s.ctxActive r.ctx with
  | none => s
  | some r =>
    match s.recordWrite p 5 e r.slot r.recordAt (r.record (r.fault.getD 0) false s.stamp) with
    | (t, false) => t
    | (t, true) =>
      let u := (((t.dmaUnbind p r.desc).relayRelease r).routeClose (.dma p e r.seq)).modDma p e fun x => { x with runs := x.runs.filter fun y => y.ctx != r.ctx }
      (if fbit r.desc 14 10 then u.arriveVid p r.slot (fw r.desc 14 9 0) 1 else u).dmaShow p e

def execDmaComplete (p : Fin 72) (e : Fin 4) (s : State) : Host.Outcome State Fault Refusal := answer (s.dmaComplete p e)

/-! Deadline arbitration (R296). -/

/-- Does the bucket of a VA's target allow a granule? -/
def State.dmaBucket (s : State) (p : Nat) (r : DmaRun) (va n : Nat) (need : Need) : Bool :=
  match s.translate p r.ctx false need va with
  | .ok (.stack _, _) => s.bucketReady p r.ctx false n
  | .ok (.remote _, _) => s.bucketReady p r.ctx true n
  | _ => true

/-- Does the first station of a relay on another Field hold a slot, with room for a granule? -/
def State.relayReady (s : State) (p : Nat) (r : DmaRun) : Bool :=
  match r.stations with
  | x :: _ => match x.entry with
    | some k => s.relayRoom p (some (x.field, k))
    | none => true
  | [] => true

/-- Is the stream of an engine ready: a granule to issue, a slot for its writer, and its bucket? -/
def State.dmaReady (s : State) (p e : Nat) : Option DmaRun :=
  match s.dmaRun p e with
  | none => none
  | some r =>
    let n := min 256 (ddRowBytes r.desc - r.off)
    if r.working && decide (r.rows ≠ 0) && !s.agentWaits p 5 e r.ctx && !s.dmaFenced p r && r.dstHeld && r.srcHeld && s.relayReady p r &&
        (ddSrcKind r.desc != 1 || s.dmaBucket p r (r.srcAt r.off % 2 ^ 48) n .read) &&
        (ddDstKind r.desc != 1 || s.dmaBucket p r (r.dstAt (ddDstBytes r.desc r.off) % 2 ^ 48) (ddDstBytes r.desc n) .write)
    then some r else none

/-- The ring whose occupancy orders a deadline stream. -/
def DmaRun.paceRing (r : DmaRun) : Option (Nat × Nat) :=
  if ddRelay r.desc then r.stations.head?.map fun x => (x.field, x.ring) else none

/-- Occupancy of a deadline stream. -/
def State.dmaOccupancy (s : State) (p : Nat) (r : DmaRun) : Nat :=
  match r.paceRing with
  | some (q, n) => s.ringOccupancy q n
  | none => s.ringOccupancy p (ddDstIdx r.desc)

/-- The ready deadline stream that runs dry first: least occupancy over rate, compared exactly; ties to the lower engine. Log entry 59 (DEDUCED, unsafe). -/
def State.dmaDeadline (s : State) (p : Nat) (es : List (Nat × DmaRun)) : Option (Nat × DmaRun) :=
  es.foldl (fun best x =>
    match best with
    | none => some x
    | some b => if s.dmaOccupancy p x.2 * ddRate b.2.desc < s.dmaOccupancy p b.2 * ddRate x.2.desc then some x else some b) none

/-- Must a best-effort stream have the next grant, so that each that waits has one in every 8: of k + 1 streams that have been passed by 7 - k times
or more, one must go now? -/
def beDue (ws : List Nat) : Bool := (List.range 4).any fun k => decide (k + 1 ≤ (ws.filter fun w => decide (7 - k ≤ w)).length)

/-- The best-effort stream passed by for longest; ties to the lower engine. -/
def bePick (es : List (Nat × DmaRun)) : Option (Nat × DmaRun) :=
  es.foldl (fun best x => match best with
    | none => some x
    | some b => if b.2.waits < x.2.waits then some x else some b) none

/-- The stream that has the next grant: a best-effort stream that is due, else the deadline stream that runs dry first, else a best-effort
stream. Log entry 59 (DEDUCED, unsafe). -/
def State.streamPick (s : State) (p : Nat) (dl be : List (Nat × DmaRun)) : Option Nat :=
  match s.dmaDeadline p dl, bePick be with
  | some d, some b => some (if beDue (be.map (·.2.waits)) then b.1 else d.1)
  | some d, none => some d.1
  | none, some b => some b.1
  | none, none => none

/-- STREAM_ARBITRATE: writers take their slots, and one ready stream has the grant of the attachment. -/
def State.streamArbitrate (s : State) (p : Nat) : State :=
  let s1 := (List.range 4).foldl (fun t e => match t.dmaRun p e with
    | some r => if r.rows = 0 then t else (t.dmaSlots p e r).1
    | none => t) s
  let ready := (List.range 4).filterMap fun e => (s1.dmaReady p e).map fun r => (e, r)
  let dl := ready.filter fun x => ddRate x.2.desc != 0
  let be := ready.filter fun x => ddRate x.2.desc == 0
  let pick := s1.streamPick p dl be
  let t := be.foldl (fun t x => if pick == some x.1 then t else t.setDmaRun p x.1 { x.2 with waits := x.2.waits + 1 }) s1
  t.modField p fun f => { f with dmaGrant := pick }

def execStreamArbitrate (p : Fin 72) (s : State) : Host.Outcome State Fault Refusal := answer (s.streamArbitrate p)

end Sys2Proof.Machine
end

