-- ==== Sys2Proof/Machine/Float.lean ====
section
/-!
DEFINITION. The FP32 functions of the vector and row engines (R169): division and roots exactly rounded, and exponential,
logarithm and hyperbolic tangent rounded from a value with hundreds of bits.
-/

namespace Sys2Proof.Machine

/-- A quotient `a / b` of integers as a value of `k` bits below the point, with a sticky bit below them. -/
def stickyDiv (a b k : Nat) : Nat := 2 * (a * 2 ^ k / b) + b2n (a * 2 ^ k % b != 0)

/-- FP32 division, correctly rounded, with the special cases of IEEE 754. -/
def f32Div (x y : Nat) : Nat :=
  match f32v x, f32v y with
  | .nan, _ => f32Nan
  | _, .nan => f32Nan
  | .inf _, .inf _ => f32Nan
  | .inf a, .fin b _ _ => toF32 (.inf (a != b))
  | .fin a _ _, .inf b => toF32 (.fin (a != b) 0 0)
  | .fin a m e, .fin b n f =>
    if n = 0 then (if m = 0 then f32Nan else toF32 (.inf (a != b)))
    else toF32 (.fin (a != b) (stickyDiv m n 200) (e - f - 201))

/-- The integer square root: Newton steps from a power of two above it. -/
def isqrt (v : Nat) : Nat := isqrtFrom v 24 (2 ^ (Nat.log2 v / 2 + 1))

/-- FP32 square root, correctly rounded. -/
def f32Sqrt (x : Nat) : Nat :=
  match f32v x with
  | .nan => f32Nan
  | .inf neg => if neg then f32Nan else x
  | .fin neg m e =>
    if m = 0 then x
    else if neg then f32Nan
    else
      let (m, e) := if e % 2 = 0 then (m, e) else (2 * m, e - 1)
      let v := m * 2 ^ 200
      let r := isqrt v
      toF32 (.fin false (2 * r + b2n (r * r != v)) (e / 2 - 101))

/-- FP32 reciprocal, correctly rounded. -/
def f32Rcp (x : Nat) : Nat := f32Div 0x3F800000 x

/-- FP32 reciprocal square root, correctly rounded. -/
def f32Rsqrt (x : Nat) : Nat :=
  match f32v x with
  | .nan => f32Nan
  | .inf neg => if neg then f32Nan else 0
  | .fin neg m e =>
    if m = 0 then toF32 (.inf neg)
    else if neg then f32Nan
    else
      let (m, e) := if e % 2 = 0 then (m, e) else (2 * m, e - 1)
      let q := 2 ^ 300 / m
      let r := isqrt q
      toF32 (.fin false (2 * r + b2n (m * (r * r) != 2 ^ 300)) (-(e / 2) - 151))

/-- `e^x` for a finite `x`, as a value with far more bits than FP32 holds. -/
def expVal (neg : Bool) (m : Nat) (e : Int) : Fv :=
  let ex := fxExp (fxOf m e)
  if neg then .fin false (2 ^ (2 * fxP) / ex) (-(fxP : Nat)) else .fin false ex (-(fxP : Nat))

/-- FP32 exponential. Beyond magnitude 256 the function overflows or rounds to zero. Log entry 18 (DEDUCED, unsafe). -/
def f32Exp (x : Nat) : Nat :=
  match f32v x with
  | .nan => f32Nan
  | .inf neg => if neg then 0 else x
  | .fin neg m e =>
    if m = 0 then 0x3F800000
    else if decide (8 ≤ topExp m e) then (if neg then 0 else 0x7F800000)
    else toF32 (expVal neg m e)

/-- The series of `2 atanh z` in fixed point: `n` terms from index `i`, with `t` the power of `z` in work. Log entry 18 (DEDUCED, unsafe). -/
def fxAtanhSum (z2 : Nat) : Nat → Nat → Nat → Nat
  | 0, _, _ => 0
  | n + 1, i, t => 2 * t / (2 * i + 1) + fxAtanhSum z2 n (i + 1) (t * z2 / 2 ^ fxP)

/-- `2 atanh (a / b)` in fixed point. -/
def fxLogRatio (a b : Nat) : Nat :=
  let z := a * 2 ^ fxP / b
  fxAtanhSum (z * z / 2 ^ fxP) 110 0 z

/-- FP32 natural logarithm. Log entry 18 (DEDUCED, unsafe). -/
def f32Log (x : Nat) : Nat :=
  match f32v x with
  | .nan => f32Nan
  | .inf neg => if neg then f32Nan else x
  | .fin neg m e =>
    if m = 0 then 0xFF800000
    else if neg then f32Nan
    else
      let k := Nat.log2 m
      let t : Int := (fxLogRatio (m - 2 ^ k) (m + 2 ^ k) : Nat)
      let v := t + (e + k) * (fxLogRatio 1 3 : Nat)
      if m = 2 ^ k ∧ e + k = 0 then 0 else toF32 (Fv.ofInt v (-(fxP : Nat)))

/-- FP32 hyperbolic tangent. Beyond magnitude 32 it rounds to one. Log entry 18 (DEDUCED, unsafe). -/
def f32Tanh (x : Nat) : Nat :=
  match f32v x with
  | .nan => f32Nan
  | .inf neg => if neg then 0xBF800000 else 0x3F800000
  | .fin neg m e =>
    if m = 0 then x
    else if decide (5 ≤ topExp m e) then (if neg then 0xBF800000 else 0x3F800000)
    else if topExp m e < -100 then x
    else
      let ex := fxExp (2 * fxOf m e)
      toF32 (.fin neg ((ex - 2 ^ fxP) * 2 ^ (2 * fxP) / (ex + 2 ^ fxP)) (-(2 * fxP : Nat)))

/-- Are both zeros, with the first negative? -/
def zeroBelow (a b : Nat) : Bool := (f32v a).isNegZero && (f32v b).isZero && !(f32v b).isNegZero

/-- FP32 minimum and maximum: NaN if either is NaN, and -0 below +0 (Table 7-6). -/
def f32MinOf (a b : Nat) : Nat :=
  if (f32v a).isNan || (f32v b).isNan then f32Nan else if f32Lt b a || zeroBelow b a then b else a
def f32MaxOf (a b : Nat) : Nat :=
  if (f32v a).isNan || (f32v b).isNan then f32Nan else if f32Lt a b || zeroBelow a b then b else a

/-- The default NaN for a NaN (R64). -/
def f32Canon (a : Nat) : Nat := if (f32v a).isNan then f32Nan else a

/-- `exp(a - b)`, taken as 0 where both are minus infinity (R174). -/
def f32ExpDiff (a b : Nat) : Nat := if a = 0xFF800000 ∧ b = 0xFF800000 then 0 else f32Exp (f32Sub a b)

/-- A number as FP32. -/
def f32OfNat (n : Nat) : Nat := toF32 (.fin false n 0)

end Sys2Proof.Machine
end

