-- ==== Sys2Proof/Machine/Engines.lean ====
section
/-!
DEFINITION. The vector engine and the row engine (chapter 7): posting, issue, vectors, segments, suspension and completion.
-/

namespace Sys2Proof.Machine

/-! Access to an engine. -/

/-- Agent number of an engine (Table 22-3). -/
def engAgent (e : Nat) : Nat := 2 + e

/-- Change what engine `e` holds. -/
def State.modEng (s : State) (p e : Nat) (g : EngState → EngState) : State :=
  s.modField p fun f => if e = 0 then { f with ve := g f.ve } else { f with re := g f.re }

/-- Replace an operation that has been issued. -/
def State.setEngRun (s : State) (p e : Nat) (r : EngRun) : State :=
  s.modEng p e fun x => { x with runs := x.runs.map fun y => if y.ctx == r.ctx then r else y }

/-- The operation that holds an engine: the one that has not been suspended and has not stopped (R160). -/
def State.engHolder (s : State) (p e : Nat) : Option EngRun := (s.eng p e).runs.find? fun r => !r.suspended && r.fault.isNone

/-- The operation that runs on an engine: the one that holds it where its context is scheduled; where none holds it, a suspended one of a
scheduled context goes on. On the row engine the one in the working region comes first, and one in its save area waits until no other is there
(R160, R179). -/
def State.engRun (s : State) (p e : Nat) : Option EngRun :=
  match s.engHolder p e with
  | some r => if s.ctxActive r.ctx then some r else none
  | none =>
    let rs := (s.eng p e).runs.filter (·.fault.isNone)
    let inside (r : EngRun) : Bool := e == 1 && !r.outside
    match rs.find? fun r => s.ctxActive r.ctx && inside r with
    | some r => some r
    | none => if rs.any inside then none else rs.find? fun r => s.ctxActive r.ctx

/-- Show an engine in FLD_ENG_STATUS. -/
def State.engShow (s : State) (p e : Nat) : State :=
  let x := s.eng p e
  let t := s.puts [(Reg.FLD_ENG_STATUS_QUEUED p e, x.queue.length), (Reg.FLD_ENG_STATUS_BUSY p e, b2n (!x.runs.isEmpty)),
    (Reg.FLD_ENG_STATUS_SUSPENDED p e, b2n (x.runs.any (·.suspended))),
    (Reg.FLD_ENG_STATUS_WORK_SPILLED p e, b2n (x.runs.any (·.outside)))]
  match (match s.engRun p e with
    | some r => some r
    | none => x.runs.head?) with
  | some r => t.put (Reg.FLD_ENG_STATUS_CTX_SLOT p e) r.slot
  | none => t

/-- Post a descriptor: 64 bytes to the VE, 128 to the RE (R159). -/
def State.engPostTo (s : State) (p e slot off : Nat) : PostEnd :=
  s.postTo p (engAgent e) 0 slot off (64 * (e + 1)) (s.eng p e).queue 16 4 fun t x =>
    (t.modEng p e fun y => { y with queue := y.queue ++ [x] }).engShow p e

/-- ENG_ISSUE_POST: a DCS write to FLD_ENG_ISSUE. Bit 6 set in a post to the RE makes it an overrun. -/
def State.engPost (s : State) (p e v : Nat) : State :=
  if e = 1 ∧ bit v 6 = true then s.put (Reg.FLD_ENG_STATUS_ISSUE_OVERRUN p e) 1
  else s.dcsPost p (engAgent e) 0 (Reg.FLD_ENG_STATUS_ISSUE_OVERRUN p e) (s.engPostTo p e (bits v 1 0) (64 * bits v 23 6))

def execEngIssuePost (p : Fin 72) (e : Fin 2) (value : Word) (s : State) : Host.Outcome State Fault Refusal :=
  answer (s.engPost p e value.toNat)

/-! The vector-engine descriptor (Tables 7-3 to 7-6). -/

def veA (d : List Byte) : Nat := fw d 0 14 12
def veB (d : List Byte) : Nat := fw d 0 17 15
def veSink (d : List Byte) : Nat := fw d 0 20 18
def veAFmt (d : List Byte) : Nat := fw d 1 4 0
def veBFmt (d : List Byte) : Nat := fw d 1 12 8
def veOutFmt (d : List Byte) : Nat := fw d 1 20 16
def veLen (d : List Byte) : Nat := fw d 3 23 0

/-- A stream format (R167). -/
def streamFmt (c : Nat) : Bool := [fmtINT8, fmtINT32, fmtE4M3, fmtE5M2, fmtBF16, fmtFP16, fmtFP32].contains c

/-- Bits of stage word `i` of a stage block. -/
def stg (b : List Byte) (i hi lo : Nat) : Nat := bits (leNat ((b.drop (8 * i)).take 8)) hi lo

/-- Is an operation code defined? Log entry 53 (DESIGN CHOICE, safe). -/
def veOpOk (o : Nat) : Bool :=
  decide (o ≤ 0x0A) || decide (0x10 ≤ o ∧ o ≤ 0x18) || decide (0x20 ≤ o ∧ o ≤ 0x2B) || decide (0x30 ≤ o ∧ o ≤ 0x32)

/-- Does an operation read y? -/
def veTakesY (o : Nat) : Bool :=
  decide (1 ≤ o ∧ o ≤ 6) || o == 0x09 || o == 0x0A || o == 0x10 || decide (0x20 ≤ o ∧ o ≤ 0x2B)

/-- Positions of an operation. -/
def vePositions (o : Nat) : Nat := if 0x10 ≤ o ∧ o ≤ 0x18 then 2 else 1

/-- A stage word meets Table 7-5. Log entry 53 (DESIGN CHOICE, safe). -/
def stageOk (d b : List Byte) (i : Nat) : Bool :=
  let o := stg b i 7 0
  let y := stg b i 10 8
  let f := stg b i 27 23
  veOpOk o && decide (y ≤ 5) && (!veTakesY o || y != 0) && (y != 1 || veB d != 0) && (y != 5 || decide (stg b i 16 11 < i)) &&
  (o == 0x04 || stg b i 22 17 == 0) &&
  (if o = 0x30 then f == fmtE4M3 || f == fmtE5M2 || f == fmtBF16 || f == fmtFP16 else f == 0) &&
  stg b i 29 28 != 3 && stg b i 31 31 == 0 && stg b i 63 56 == 0

/-- Check 1 of Table 7-1 for the VE, on the descriptor alone. Log entry 53 (DESIGN CHOICE, safe). -/
def veWellFormed (d : List Byte) : Bool :=
  fw d 0 7 0 == 0x20 && decide (1 ≤ fw d 0 11 8 ∧ fw d 0 11 8 ≤ 8) && decide (1 ≤ veA d ∧ veA d ≤ 4 ∧ veB d ≤ 4 ∧ veSink d ≤ 4) &&
  fw d 0 31 22 == 0 && fw d 1 7 5 == 0 && fw d 1 15 13 == 0 && fw d 1 31 24 == 0 && fw d 1 22 21 != 3 &&
  streamFmt (veAFmt d) && (if veB d = 0 then veBFmt d == 0 else streamFmt (veBFmt d)) && streamFmt (veOutFmt d) &&
  (veSink d != 4 || veOutFmt d == fmtFP32) && decide (1 ≤ veLen d) && fw d 3 31 29 == 0 && fw d 7 31 16 == 0 && fw d 9 31 16 == 0 &&
  fw d 13 7 6 == 0 && fw d 13 15 14 == 0 && fw d 13 31 22 == 0 && fw d 15 31 30 == 0 &&
  (!(veA d == 4 || veB d == 4 || veSink d == 3) || decide (fw d 2 31 0 ≤ 256)) &&
  (veA d != 3 || decide (fw d 13 5 0 < 16)) && (veB d != 3 || decide (fw d 13 13 8 < 16)) && (veSink d != 2 || decide (fw d 13 21 16 < 16))

/-- Check 1 on the stage block: each word, and at most 8 positions in all. -/
def veStagesOk (d b : List Byte) : Bool :=
  ((List.range (fw d 0 11 8)).all fun i => stageOk d b i) &&
  decide (((List.range (fw d 0 11 8)).map fun i => vePositions (stg b i 7 0)).sum ≤ 8)

/-! The row-engine descriptor (Tables 7-8 and 7-9). -/

def reOp (d : List Byte) : Nat := fw d 0 7 0
def reMask (d : List Byte) : Bool := fw d 0 9 8 == 1
def reSaveMem (d : List Byte) : Bool := fbit d 0 10
def reAffine (d : List Byte) : Bool := fbit d 0 12
def reInFmt (d : List Byte) : Nat := fw d 0 17 13
def reOutFmt (d : List Byte) : Nat := fw d 0 22 18
def reGradFmt (d : List Byte) : Nat := fw d 0 27 23
def reBack (d : List Byte) : Bool := reOp d == 0x41 || reOp d == 0x43 || reOp d == 0x45
def reNorm (d : List Byte) : Bool := decide (0x42 ≤ reOp d ∧ reOp d ≤ 0x45)
/-- The operation has a pass 1, and a pass 2 (Table 7-8). -/
def rePass1 (d : List Byte) : Bool := reOp d != 0x47
def rePass2 (d : List Byte) : Bool := reOp d != 0x46
/-- The operation writes its records; otherwise it reads them. -/
def reWrites (d : List Byte) : Bool := !reBack d && reOp d != 0x47

/-- A float stream format of the RE. -/
def rowFmt (c : Nat) : Bool := [fmtE4M3, fmtE5M2, fmtBF16, fmtFP16, fmtFP32].contains c

/-- Check 1 of Table 7-1 for the RE. SMAX_STATS has no output: its OUT_FMT may be 0 or one of the formats of Table 7-9. Log entry 155 (DESIGN
CHOICE, unsafe). -/
def reWellFormed (d : List Byte) : Bool :=
  let o := reOp d
  let base (k : Nat) (used : Bool) : Bool := fw d (k + 1) 31 16 == 0 && (used || fva d k == 0)
  decide (0x40 ≤ o ∧ o ≤ 0x47) && decide (fw d 0 9 8 ≤ 1) && (!reMask d || !reNorm d) && (!reAffine d || reNorm d) &&
  rowFmt (reInFmt d) && (rowFmt (reOutFmt d) || (o == 0x46 && reOutFmt d == 0)) &&
  (if reBack d then rowFmt (reGradFmt d) else reGradFmt d == 0) && fw d 0 31 29 == 0 && fw d 2 31 29 == 0 &&
  decide (1 ≤ fw d 1 31 0) && decide (1 ≤ fw d 2 18 0) &&
  base 4 true && base 6 (reBack d) && base 8 (o != 0x46) && base 10 (reAffine d) && base 12 (reAffine d && o == 0x42) &&
  base 14 (reAffine d && (o == 0x43 || o == 0x45)) && base 16 (reAffine d && o == 0x43) &&
  (if reSaveMem d then fva d 21 % 8 == 0 && fw d 22 31 16 == 0 else fw d 21 31 14 == 0 && fw d 22 31 0 == 0) &&
  fw d 24 31 30 == 0 && ((List.range 7).all fun i => fw d (25 + i) 31 0 == 0)

/-- The records of an operation lie in its context's range (check 4, R177). -/
def State.reSaveOk (s : State) (p slot : Nat) (d : List Byte) (rows : Nat) : Bool :=
  reSaveMem d ||
  (let b := s.get (Reg.FLD_RE_SAVE_RANGE_BASE p slot)
   let n := s.get (Reg.FLD_RE_SAVE_RANGE_COUNT p slot)
   decide (b + n ≤ 16384) && (rows == 0 || decide (b ≤ fw d 21 13 0 ∧ fw d 21 13 0 + rows ≤ b + n)))

/-! Issue (R160). -/

/-- The outcome of the checks at issue: `wait` for a bank or a port, refused, issued but stopped with a fault, or the operation. -/
inductive EngCheck where
  | wait (s : State)
  | refused (code detail : Nat)
  | stopped (r : EngRun) (code detail : Nat)
  | ok (s : State) (r : EngRun)

/-- An operation as it is issued. -/
def EngRun.fresh (slot c seq post : Nat) (d stages : List Byte) (count len : Nat) : EngRun :=
  { slot := slot, ctx := c, seq := seq, post := post, desc := d, stages := stages, count := count, len := len, pos := 0,
    pass2 := false, seg := 0, sums := [], pairs := [], items := 0, nan := 0, sat := 0, inA := [], inB := [], out := [],
    outside := false, spilled := false, suspended := false, rateDist := false, fault := none }

/-- The effective value of a count: its shape register, or the plan. -/
def State.engCount (s : State) (p slot reg plan : Nat) (use : Bool) : Nat :=
  if use then s.get (Reg.FLD_CTX_SHAPE_VALUE p (16 * slot + reg)) else plan

/-- The checks of Table 7-1 on a VE chain. A stage block that cannot be read is none of them: the chain issues and stops with the fault (R163, R237,
R244). -/
def State.veCheck (s : State) (p slot c seq post : Nat) (d : List Byte) : EngCheck :=
  let n := s.engCount p slot (fw d 3 27 24) (fw d 2 31 0) (fbit d 3 28)
  let stop (code detail : Nat) : EngCheck :=
    if fw d 2 31 0 < n then .refused Flt.SHAPE_PLAN 0
    else .stopped { EngRun.fresh slot c seq post d [] n 0 with fault := some code } code detail
  if !veWellFormed d then .refused Flt.VE_MALFORMED 0
  else match s.fmRead p (some slot) (256 * fw d 5 31 16) (8 * fw d 0 11 8) with
  | .error (.bankAsleep q b w) => .wait (s.wakeBank q b w)
  | .error (.fmUncorr w) => stop Flt.FM_UNCORR (bits w 23 0)
  | .error _ => stop Flt.FM_PROTECT (256 * fw d 5 31 16)
  | .ok (t, b) =>
    if !veStagesOk d b then .refused Flt.VE_MALFORMED 0
    else if fw d 2 31 0 < n then .refused Flt.SHAPE_PLAN 0
    else .ok t (EngRun.fresh slot c seq post d b n 0)

/-- The checks of Table 7-1 on a row operation. -/
def State.reCheck (s : State) (p slot c seq post : Nat) (d : List Byte) : EngCheck :=
  let rows := s.engCount p slot (fw d 2 22 19) (fw d 1 31 0) (fbit d 2 27)
  let len := s.engCount p slot (fw d 2 26 23) (fw d 2 18 0) (fbit d 2 28)
  if !reWellFormed d then .refused Flt.RE_MALFORMED 0
  else if 262144 < fw d 2 18 0 then .refused Flt.ROW_TOO_LONG 0
  else if fw d 1 31 0 < rows ∨ fw d 2 18 0 < len then .refused Flt.SHAPE_PLAN 0
  else if !s.reSaveOk p slot d (if len = 0 then 0 else rows) then .refused Flt.RE_SAVE_RANGE 0
  else .ok s { EngRun.fresh slot c seq post d [] (if len = 0 then 0 else rows) len with pass2 := !rePass1 d }

/-- Bind the grid ports of a chain: streams 0, 1 and 2 are A, B and the sink (R182). -/
def State.veBind (s : State) (p slot : Nat) (d : List Byte) : Option State := do
  let t ← if veA d = 3 then s.gpBind p (fw d 13 5 0) 1 slot 0 else some s
  let u ← if veB d = 3 then t.gpBind p (fw d 13 13 8) 1 slot 1 else some t
  if veSink d = 2 then u.gpBind p (fw d 13 21 16) 1 slot 2 else some u

/-- Free the grid ports of a chain. -/
def State.veUnbind (s : State) (p : Nat) (d : List Byte) : State :=
  let t := if veA d = 3 then s.gpFree p (fw d 13 5 0) else s
  let u := if veB d = 3 then t.gpFree p (fw d 13 13 8) else t
  if veSink d = 2 then u.gpFree p (fw d 13 21 16) else u

/-- The first entry of an engine's queue that heads a scheduled context's entries. -/
def State.engHead (s : State) (p : Nat) (q : List Posted) : Option (Posted × Nat) :=
  q.findSome? fun x => match s.ctxOf p x.slot with
    | some c => if (q.find? fun y => y.slot == x.slot) == some x && s.ctxActive c then some (x, c) else none
    | none => none

/-- Is an engine enabled and free to take a descriptor: no operation holds it, and none of a scheduled context waits to go on? The RE's working region must not be held by a suspended operation: it has gone to its save
area (R179). Log entry 54 (DESIGN CHOICE, safe). -/
def State.engFree (s : State) (p e : Nat) : Bool :=
  s.on (if e = 0 then Reg.FLD_ENG_CTRL_VE_RUN p else Reg.FLD_ENG_CTRL_RE_RUN p) && s.gridRuns p && (s.engHolder p e).isNone && (s.engRun p e).isNone &&
    (e == 0 || (s.eng p e).runs.all fun r => r.outside || r.fault.isSome)

/-- ENG_OP_ISSUE: an engine takes a descriptor, makes its checks, and issues or refuses it. -/
def State.engIssue (s : State) (p e : Nat) : State :=
  if !s.engFree p e then s
  else match s.engHead p (s.eng p e).queue with
  | none => s.engShow p e
  | some (x, c) =>
    let seq := Tab.get (fun _ => 0) (s.eng p e).seqs c + 1
    let take (t : State) : State := t.modEng p e fun y => { y with queue := dropFirst (· == x) y.queue }
    let fault (t : State) (code detail : Nat) : State :=
      (((t.checkSeen p code detail).put (Reg.FLD_ENG_STATUS_LAST_FAULT p e) code).fieldFault p (engAgent e) 0 (some c) code detail).engShow p e
    let issue (t : State) (r : EngRun) : State :=
      (take t).modEng p e fun y => { y with runs := y.runs ++ [r], seqs := Tab.set (fun _ => 0) y.seqs c seq }
    match (if e = 0 then s.veCheck p x.slot c seq x.order x.desc else s.reCheck p x.slot c seq x.order x.desc) with
    | .wait t => t
    | .refused code detail => fault (take s) code detail
    | .stopped r code detail =>
      match s.veBind p x.slot x.desc with
      | none => s
      | some t => fault (issue t r) code detail
    | .ok s' r =>
      match (if e = 0 then s'.veBind p x.slot x.desc else some s') with
      | none => s'
      | some t => (issue t r).engShow p e

def execEngOpIssue (p : Fin 72) (e : Fin 2) (s : State) : Host.Outcome State Fault Refusal := answer (s.engIssue p e)

/-! Stops. -/

/-- An operation stops with a fault (R163). -/
def State.engStop (s : State) (p e : Nat) (r : EngRun) (code : Nat) : State :=
  ((s.setEngRun p e { r with fault := some code }).put (Reg.FLD_ENG_STATUS_LAST_FAULT p e) code).engShow p e

/-- What a failed access does to an operation: it waits, it is suspended at its restart point by a translation fault (R173, R179), or it stops with
the code. -/
def State.engFail (s : State) (p e : Nat) (r : EngRun) (err : AccErr) : State :=
  let t := s.accFail p (engAgent e) 0 r.slot err
  match t.stopCode p (engAgent e) 0 r.ctx with
  | some code => (t.clearStop p (agentKey (engAgent e) 0 r.ctx)).engStop p e r code
  | none => if t.agentWaits p (engAgent e) 0 r.ctx then (t.setEngRun p e { r with suspended := true }).engShow p e else t

/-- ENG_UNCORR: an uncorrectable error of a register, the side memory or working state stops the operation (R164). -/
def State.engUncorr (s : State) (p e : Nat) (r : EngRun) : State :=
  (s.fieldFault p (engAgent e) 0 (some r.ctx) Flt.ENG_UNCORR 0).engStop p e r Flt.ENG_UNCORR

/-- Must an operation wait before it reads (R161)? -/
def State.engFenced (s : State) (p : Nat) (r : EngRun) (fence : Bool) : Bool :=
  fence && (s.macrosBefore p r.ctx r.post none || s.engsBefore p r.ctx r.post)

/-- The operation of an engine that may take a step: it runs, has not stopped, its agent waits for nothing, and the pacer permits it (R46). -/
inductive EngTurn where
  | none
  | stopped (s : State)
  | go (r : EngRun)

/-- What an engine's turn finds. -/
def State.engTurn (s : State) (p e : Nat) (fence : EngRun → Bool) : EngTurn :=
  match s.engRun p e with
  | none => .none
  | some r =>
    if r.fault.isSome then .none
    else match s.stopCode p (engAgent e) 0 r.ctx with
    | some code => .stopped ((s.clearStop p (agentKey (engAgent e) 0 r.ctx)).engStop p e r code)
    | none => if !s.mayStep p (32 + e) || s.agentWaits p (engAgent e) 0 r.ctx || s.engFenced p r (fence r) then .none else .go r

/-! Vectors (R166 to R172). -/

/-- Key of lane `l` of vector register `v` of a resident slot. -/
def vregKey (slot v l : Nat) : Nat := (64 * slot + v) * 256 + l

/-- A lane of a vector register. Log entry 53 (DESIGN CHOICE, safe). -/
def State.vreg (s : State) (p slot v l : Nat) : Nat := Tab.get (fun _ => 0) (s.field p).vregs (vregKey slot v l)

/-- The runs of consecutive elements of a row-major view: row, column and number. The fuel bounds them. -/
def rowRuns (len : Nat) : Nat → Nat → Nat → List (Nat × Nat × Nat)
  | 0, _, _ => []
  | fuel + 1, e, n =>
    if n = 0 then []
    else
      let k := min n (len - e % len)
      (e / len, e % len, k) :: rowRuns len fuel (e + k) (n - k)

/-- Element codes of bytes. Log entry 53 (DESIGN CHOICE, safe). -/
def codesOf (fmt : Nat) (bs : List Byte) : List Nat :=
  let w := fmtWidth fmt / 8
  (List.range (bs.length / w)).map fun i => leNat ((bs.drop (w * i)).take w)

/-- Read runs of a stream. -/
def State.readRuns (s : State) (p slot : Nat) (isVa : Bool) (base stride w : Nat) : List (Nat × Nat × Nat) → Acc (State × List Byte)
  | [] => .ok (s, [])
  | (r, c, k) :: rs => do
    let (t, a) ← s.opRead p slot isVa ((base + r * stride + c * w) % 2 ^ 48) (k * w)
    let (u, b) ← State.readRuns t p slot isVa base stride w rs
    .ok (u, a ++ b)

/-- Write runs of a stream. -/
def State.writeRuns (s : State) (p slot : Nat) (isVa : Bool) (base stride w : Nat) : List (Nat × Nat × Nat) → List Byte → Acc State
  | [], _ => .ok s
  | (r, c, k) :: rs, bs => do
    let t ← s.opWrite p slot isVa ((base + r * stride + c * w) % 2 ^ 48) (bs.take (k * w))
    State.writeRuns t p slot isVa base stride w rs (bs.drop (k * w))

/-- A stream element as the word a stage sees: INT32 of an integer, FP32 of a float (R167). -/
def widen (fmt code : Nat) : Nat :=
  if fmt = fmtFP32 ∨ fmt = fmtINT32 then code
  else if fmtIsInt fmt then wrapInt 32 (signed (fmtWidth fmt) code)
  else toF32 (elemVal fmt code)

/-- The byte base of a stream: an offset of 24 bits in Field memory. Log entry 56 (DEDUCED, unsafe). -/
def veBase (d : List Byte) (isVa : Bool) (k : Nat) : Nat := if isVa then fva d k else fva d k % 2 ^ 24

/-- Read the `n` elements of a source stream from element `e0`. `kind` is its source kind; `buf` the bytes that have come from
its grid port. -/
def State.veSource (s : State) (p : Nat) (r : EngRun) (kind fmt base stride reg e0 n : Nat) (buf : List Byte) :
    Acc (State × List Nat) :=
  let w := fmtWidth fmt / 8
  let d := r.desc
  match kind with
  | 1 => do
    let (t, bs) ← s.readRuns p r.slot false (veBase d false base) (fw d stride 31 0) w (rowRuns (veLen d) n e0 n)
    .ok (t, codesOf fmt bs)
  | 2 => do
    let (t, bs) ← s.readRuns p r.slot true (veBase d true base) (fw d stride 31 0) w (rowRuns (veLen d) n e0 n)
    .ok (t, codesOf fmt bs)
  | 3 => .ok (s, codesOf fmt (buf.take (n * w)))
  | 4 => .ok (s, (List.range n).map fun l => s.vreg p r.slot reg l % 2 ^ fmtWidth fmt)
  | _ => .ok (s, List.replicate n 0)

/-- The result of an operation on words x, y and z, and whether it clamped (Table 7-6). CVT is apart. -/
def veOp (o x y z : Nat) : Nat × Bool :=
  let w := 2 ^ 32
  let sx := signed 32 x
  let sy := signed 32 y
  match o with
  | 0x00 => (x, false)
  | 0x01 => (f32Add x y, false)
  | 0x02 => (f32Sub x y, false)
  | 0x03 => (f32Mul x y, false)
  | 0x04 => (f32Fma x y z, false)
  | 0x05 => (f32MinOf x y, false)
  | 0x06 => (f32MaxOf x y, false)
  | 0x07 => (f32Canon (x % 2 ^ 31), false)
  | 0x08 => (f32Canon (x ^^^ 2 ^ 31), false)
  | 0x09 => (if (f32v y).isZero || (f32v y).isNan then 0 else f32Canon x, false)
  | 0x0A => (if f32Lt y x then 0x3F800000 else 0, false)
  | 0x10 => (f32Div x y, false)
  | 0x11 => (f32Sqrt x, false)
  | 0x12 => (f32Rcp x, false)
  | 0x13 => (f32Rsqrt x, false)
  | 0x14 => (f32Exp x, false)
  | 0x15 => (f32Log x, false)
  | 0x16 => (f32Tanh x, false)
  | 0x17 => (f32Gelu x, false)
  | 0x18 => (f32Silu x, false)
  | 0x20 => ((x + y) % w, false)
  | 0x21 => ((x + w - y % w) % w, false)
  | 0x22 => (x * y % w, false)
  | 0x23 => (if sy < sx then y else x, false)
  | 0x24 => (if sx < sy then y else x, false)
  | 0x25 => (x &&& y, false)
  | 0x26 => (x ||| y, false)
  | 0x27 => (x ^^^ y, false)
  | 0x28 => (x * 2 ^ (y % 32) % w, false)
  | 0x29 => (x / 2 ^ (y % 32), false)
  | 0x2A => (wrapInt 32 (sx.shiftRight (y % 32)), false)
  | 0x2B => i32SatAdd x y
  | 0x31 => (i32ToF32 x, false)
  | 0x32 => match f32v x with
    | .nan => (0, false)
    | .inf neg => (if neg then wrapInt 32 (-2147483647) else 2147483647, true)
    | .fin neg m e =>
      let q := roundAt .rne m e 0
      i32Clamp (if neg then -(q : Int) else q)
  | _ => (x, false)

/-- What an element carries through the stages: its word, the x of each stage so far, its generator, and its clamps. -/
structure VeElem where
  x : Nat
  xs : List Nat
  rng : Nat
  sat : Nat

/-- The rounding that a ROUND code asks for, with the element's generator after its draw (R170). -/
def veRound (code rng : Nat) : RMode × Nat :=
  match code with
  | 1 => (.sr 8 (srNext rng / 2 ^ 24), srNext rng)
  | 2 => (.sr 16 (srNext rng / 2 ^ 16), srNext rng)
  | _ => (.rne, rng)

/-- One stage of an element. `col` gives the per-column word of the stage and `b` the element of stream B. -/
def State.veStage (s : State) (p slot : Nat) (st : List Byte) (l b : Nat) (col : Nat → Nat) (v : VeElem) (i : Nat) : VeElem :=
  let o := stg st i 7 0
  let k := stg st i 16 11
  let y := match stg st i 10 8 with
    | 1 => b
    | 2 => s.vreg p slot k l
    | 3 => s.vreg p slot k 0
    | 4 => col i
    | 5 => v.xs.getD k 0
    | _ => 0
  if o = 0x30 then
    let (md, rng) := veRound (stg st i 29 28) v.rng
    let f := stg st i 27 23
    let c := elemConvert f md (stg st i 30 30 == 1) (f32v v.x)
    { x := toF32 (elemVal f c), xs := v.xs ++ [v.x], rng := rng, sat := v.sat }
  else
    let (x, sat) := veOp o v.x y (s.vreg p slot (stg st i 22 17) l)
    { x := x, xs := v.xs ++ [v.x], rng := v.rng, sat := max v.sat (b2n sat) }

/-- The element code that the sink writes (R167, R170). -/
def veSinkCode (d : List Byte) (v : VeElem) : Nat :=
  let f := veOutFmt d
  let (md, _) := veRound (fw d 1 22 21) v.rng
  if f = fmtINT32 then v.x
  else if fmtIsInt f then elemConvert f md true (Fv.ofInt (signed 32 v.x) 0)
  else elemConvert f md (fbit d 1 23) (f32v v.x)

/-- The per-column words of a stage for the columns of a vector (OPND 4). -/
def State.veColumns (s : State) (p : Nat) (r : EngRun) (e0 n : Nat) : Nat → Acc (State × List (List Nat))
  | 0 => .ok (s, [])
  | i + 1 => do
    let (t, rest) ← State.veColumns s p r e0 n i
    if stg r.stages i 10 8 = 4 then
      let (u, bs) ← t.readRuns p r.slot false (stg r.stages i 55 32) 0 4 (rowRuns (veLen r.desc) n e0 n)
      .ok (u, rest ++ [codesOf fmtFP32 bs])
    else .ok (t, rest ++ [[]])

/-- The elements of a vector, as they leave the last stage. -/
def State.veElems (s : State) (p : Nat) (r : EngRun) (as bs : List Nat) (cols : List (List Nat)) : List VeElem :=
  (List.range as.length).map fun l =>
    let x0 : VeElem :=
      { x := widen (veAFmt r.desc) (as.getD l 0), xs := [], rng := srSeed (fw r.desc 14 31 0) r.pos l, sat := 0 }
    (List.range (fw r.desc 0 11 8)).foldl (fun v i =>
      s.veStage p r.slot r.stages l (widen (veBFmt r.desc) (bs.getD l 0)) (fun i => (cols.getD i []).getD l 0) v i) x0

/-- Is an element code of a format a NaN? -/
def codeNan (fmt c : Nat) : Bool := !fmtIsInt fmt && (elemVal fmt c).isNan

/-- Write the codes of a vector to the sink. Tokens for a grid port wait in the operation. -/
def State.veDeliver (s : State) (p : Nat) (r : EngRun) (e0 : Nat) (codes : List Nat) : Acc (State × EngRun) :=
  let d := r.desc
  let w := fmtWidth (veOutFmt d) / 8
  let bs := codes.flatMap fun c => leBytes w c
  let n := codes.length
  match veSink d with
  | 0 => do
    let t ← s.writeRuns p r.slot false (veBase d false 8) (fw d 12 31 0) w (rowRuns (veLen d) n e0 n) bs
    .ok (t, r)
  | 1 => do
    let t ← s.writeRuns p r.slot true (veBase d true 8) (fw d 12 31 0) w (rowRuns (veLen d) n e0 n) bs
    .ok (t, r)
  | 2 => .ok (s, { r with out := r.out ++ tokenBytes bs.length bs })
  | 3 => .ok (codes.zipIdx.foldl (fun t c => t.modField p fun f =>
      { f with vregs := Tab.set (fun _ => 0) f.vregs (vregKey r.slot (fw d 13 21 16) c.2) c.1 }) s, r)
  | _ => .ok (s, { r with sums := codes.zipIdx.foldl (fun q c =>
      Tab.set (fun _ => 2 ^ 31) q c.2 (f32Add (Tab.get (fun _ => 2 ^ 31) q c.2) c.1)) r.sums })

/-- Let the waiting tokens of a chain leave by its port, to a queue and leg of a unit. -/
def State.veFlush (s : State) (p : Nat) (r : EngRun) (u q x : Nat) : State × EngRun :=
  if r.out.isEmpty then (s, r)
  else
    let (t, out) := s.portBytes p (fw r.desc 13 21 16) u q x 64 r.out
    (t.setEngRun p 0 { r with out := out }, { r with out := out })

/-- Gather what has come to the grid ports of a chain's sources for a vector of `n` elements; the answer tells whether all has. -/
def State.veGather (s : State) (p : Nat) (r : EngRun) (n : Nat) : State × EngRun × Bool :=
  let need (fmt : Nat) : Nat := 128 * ceilDiv (n * (fmtWidth fmt / 8)) 128
  let d := r.desc
  let (s1, a) := if veA d = 3 then s.portGather p (fw d 13 5 0) (need (veAFmt d)) 64 r.inA else (s, r.inA)
  let (s2, b) := if veB d = 3 then s1.portGather p (fw d 13 13 8) (need (veBFmt d)) 64 r.inB else (s1, r.inB)
  let r' := { r with inA := a, inB := b }
  (s2.setEngRun p 0 r', r', (veA d != 3 || decide (need (veAFmt d) ≤ a.length)) && (veB d != 3 || decide (need (veBFmt d) ≤ b.length)))

/-- The next vector of a chain, its port sources gathered. -/
def State.veVector (s : State) (p : Nat) (r : EngRun) (e0 n : Nat) : Acc (State × EngRun) := do
  let d := r.desc
  let (s1, as) ← s.veSource p r (veA d) (veAFmt d) 4 10 (fw d 13 5 0) e0 n r.inA
  let (s2, bs) ← s1.veSource p r (veB d) (veBFmt d) 6 11 (fw d 13 13 8) e0 n r.inB
  let (s2', cols) ← s2.veColumns p r e0 n (fw d 0 11 8)
  let vs := s2'.veElems p r as bs cols
  let codes := vs.map (veSinkCode d)
  let (s3, r3) ← s2'.veDeliver p r e0 codes
  let nan := if veSink d = 4 then 0 else (codes.filter (codeNan (veOutFmt d))).length
  let r4 := { r3 with pos := r.pos + 1, items := r.items + 1, inA := [], inB := [], suspended := false,
                      rateDist := r.rateDist || (s.field p).pacer.disturbed,
                      nan := satAdd 32 r.nan nan, sat := satAdd 32 r.sat ((vs.map (·.sat)).sum) }
  .ok ((s3.setEngRun p 0 r4).progress p r.slot, r4)

/-- VE_CHAIN_VECTOR: the chain passes its next vector through its stages to its sink. `u`, `q` and `x` are the unit, queue and leg
that a grid-port sink leads to. -/
def State.veChain (s : State) (p : Nat) (ecc : Ecc) (u q x : Nat) : State :=
  match s.engTurn p 0 fun r => fbit r.desc 0 21 with
  | .none => s
  | .stopped t => t
  | .go r =>
    if ecc = .uncorrectable then s.engUncorr p 0 r
    else
      let (s1, r1) := s.veFlush p r u q x
      if !r1.out.isEmpty || decide (r1.count ≤ 256 * r1.pos) then s1.engShow p 0
      else
        let e0 := 256 * r1.pos
        let n := min 256 (r1.count - e0)
        let (s2, r2, have') := s1.veGather p r1 n
        if !have' then s2
        else match (s2.stepTaken p unitVe).veVector p r2 e0 n with
        | .error err => s2.engFail p 0 r2 err
        | .ok (t, r3) => ((t.veFlush p r3 u q x).1).engShow p 0

def execVeChainVector (p : Fin 72) (ecc : Ecc) (u : Fin 32) (q : Fin 4) (leg : Fin 8) (s : State) :
    Host.Outcome State Fault Refusal := answer ((if ecc = .corrected then s.wearNote (wearField p) else s).veChain p ecc u q leg)

/-- Values combined in the pairwise shape of R102. The fuel bounds the levels. -/
def pairwise {α : Type} (f : α → α → α) : Nat → List α → List α
  | 0, l => l
  | fuel + 1, l =>
    let rec level : List α → List α
      | a :: b :: rest => f a b :: level rest
      | l => l
    if l.length ≤ 1 then l else pairwise f fuel (level l)

/-! Rows (R174 to R178). -/

/-- One part of a row's statistic: the pair and the elements it covers. -/
structure RePart where
  a : Nat
  b : Nat
  count : Nat

/-- The pair a segment starts from. -/
def reInit (o : Nat) : Nat × Nat := if o = 0x40 ∨ o = 0x46 then (0xFF800000, 0) else (0, 0)

/-- y of a softmax element from its record (m, rz). -/
def smaxY (scale x m rz : Nat) : Nat := f32Mul (f32ExpDiff (f32Mul scale x) m) rz

/-- x̂ of a norm element from its record. -/
def xHat (o x w0 w1 : Nat) : Nat := if o = 0x42 ∨ o = 0x43 then f32Mul (f32Sub x w0) w1 else f32Mul x w1

/-- One element's step of a segment pair (Table 7-8). `k` is its number among the elements of the segment, from 1; `w0` and `w1`
are the record's words and `g` is γ. -/
def reStep (o scale : Nat) (t : Nat × Nat) (k x dy w0 w1 g : Nat) : Nat × Nat :=
  let (a, b) := t
  match o with
  | 0x40 | 0x46 =>
    let u := f32Mul scale x
    let m := f32MaxOf a u
    (m, f32Add (f32Mul b (f32ExpDiff a m)) (f32ExpDiff u m))
  | 0x41 => (f32Add a (f32Mul dy (smaxY scale x w0 w1)), 0)
  | 0x42 =>
    let δ := f32Sub x a
    let μ := f32Add a (f32Div δ (f32OfNat k))
    (μ, f32Add b (f32Mul δ (f32Sub x μ)))
  | 0x43 =>
    let gg := f32Mul dy g
    (f32Add a gg, f32Add b (f32Mul gg (xHat o x w0 w1)))
  | 0x44 => (f32Add a (f32Mul x x), 0)
  | _ =>
    let gg := f32Mul dy g
    (0, f32Add b (f32Mul gg (xHat o x w0 w1)))

/-- Two parts combined (Table 7-8). -/
def reCombine (o : Nat) (p q : RePart) : RePart :=
  let c := p.count + q.count
  match o with
  | 0x40 | 0x46 =>
    let m := f32MaxOf p.a q.a
    { a := m, b := f32Add (f32Mul p.b (f32ExpDiff p.a m)) (f32Mul q.b (f32ExpDiff q.a m)), count := c }
  | 0x42 =>
    let δ := f32Sub q.a p.a
    let fc := f32OfNat c
    { a := f32Add p.a (f32Mul δ (f32Div (f32OfNat q.count) fc)),
      b := f32Add (f32Add p.b q.b) (f32Mul (f32Mul δ δ) (f32Div (f32Mul (f32OfNat p.count) (f32OfNat q.count)) fc)), count := c }
  | _ => { a := f32Add p.a q.a, b := f32Add p.b q.b, count := c }

/-- The record that a forward operation writes (Table 7-8, R175). -/
def reRecord (d : List Byte) (len : Nat) (t : RePart) (present : Bool) : Nat × Nat :=
  let eps := fw d 3 31 0
  let fl := f32OfNat len
  if !present then (0xFF800000, 0)
  else match reOp d with
  | 0x40 => (t.a, f32Rcp t.b)
  | 0x42 => (t.a, f32Rsqrt (f32Add (f32Div t.b fl) eps))
  | 0x44 => (f32Div t.a fl, f32Rsqrt (f32Add (f32Div t.a fl) eps))
  | _ => (t.a, t.b)

/-- The output of an element in pass 2 (Table 7-8). `a` and `b` are the statistic of a backward operation. -/
def rePass2Val (d : List Byte) (len x dy w0 w1 g be a b : Nat) : Nat :=
  let o := reOp d
  let scale := fw d 3 31 0
  let fl := f32OfNat len
  match o with
  | 0x40 | 0x47 => smaxY scale x w0 w1
  | 0x41 =>
    let y := smaxY scale x w0 w1
    f32Mul (f32Mul y (f32Sub dy a)) scale
  | 0x42 => f32Fma (xHat o x w0 w1) g be
  | 0x43 =>
    let gg := f32Mul dy g
    f32Mul w1 (f32Sub (f32Sub gg (f32Div a fl)) (f32Mul (xHat o x w0 w1) (f32Div b fl)))
  | 0x44 => f32Mul (xHat o x w0 w1) g
  | _ =>
    let gg := f32Mul dy g
    f32Mul w1 (f32Sub gg (f32Mul (xHat o x w0 w1) (f32Div b fl)))

/-- Is element `n` of row `r` present (R175)? -/
def rePresent (d : List Byte) (r n : Nat) : Bool := !reMask d || decide ((n : Int) ≤ (r : Int) + signed 32 (fw d 23 31 0))

/-- Read `n` elements of row `r` of an operand from column `c`. -/
def State.reRow (s : State) (p slot : Nat) (d : List Byte) (base stride fmt r c n : Nat) : Acc (State × List Nat) := do
  let w := fmtWidth fmt / 8
  let (t, bs) ← s.opRead p slot true ((fva d base + r * fw d stride 31 0 + c * w) % 2 ^ 48) (n * w)
  .ok (t, (codesOf fmt bs).map (widen fmt))

/-- Read `n` words of an FP32 vector from index `c`, or `dflt` where it is not used. -/
def State.reVec (s : State) (p slot : Nat) (d : List Byte) (base : Nat) (used : Bool) (dflt c n : Nat) : Acc (State × List Nat) :=
  if used then do
    let (t, bs) ← s.opRead p slot true ((fva d base + 4 * c) % 2 ^ 48) (4 * n)
    .ok (t, codesOf fmtFP32 bs)
  else .ok (s, List.replicate n dflt)

/-- The record of row `r` (R177). -/
def State.reRecRead (s : State) (p slot : Nat) (d : List Byte) (r : Nat) : Acc (State × (Nat × Nat)) :=
  if reSaveMem d then do
    let (t, bs) ← s.opRead p slot true ((fva d 21 + 8 * r) % 2 ^ 48) 8
    .ok (t, (leNat (bs.take 4), leNat (bs.drop 4)))
  else
    let v := Tab.get (fun _ => 0) (s.field p).reSave (fw d 21 13 0 + r)
    .ok (s, (v % 2 ^ 32, v / 2 ^ 32))

/-- Write the record of row `r`. -/
def State.reRecWrite (s : State) (p slot : Nat) (d : List Byte) (r : Nat) (w : Nat × Nat) : Acc State :=
  if reSaveMem d then s.opWrite p slot true ((fva d 21 + 8 * r) % 2 ^ 48) (leBytes 4 w.1 ++ leBytes 4 w.2)
  else .ok (s.modField p fun f => { f with reSave := Tab.set (fun _ => 0) f.reSave (fw d 21 13 0 + r) (w.1 + 2 ^ 32 * w.2) })

/-- The key of a lane and segment in the working region. -/
def workKey (lane seg : Nat) : Nat := 128 * lane + seg

/-- A pair of the working region. -/
def EngRun.work (r : EngRun) (lane seg : Nat) : Nat × Nat := Tab.get (fun _ => (0, 0)) r.pairs (workKey lane seg)

/-- The elements of segment `r.seg`: first column and number. -/
def EngRun.segRange (r : EngRun) : Nat × Nat := (2048 * r.seg, min 2048 (r.len - 2048 * r.seg))

/-- Rows of the group in work. -/
def EngRun.groupRows (r : EngRun) : Nat := min 128 (r.count - 128 * r.pos)

/-- Segments of a row. -/
def EngRun.segs (r : EngRun) : Nat := ceilDiv r.len 2048

/-- A row's segment of pass 1: its pair. -/
def State.rePass1Lane (s : State) (p : Nat) (r : EngRun) (g : List Nat) (lane : Nat) : Acc (State × (Nat × Nat)) := do
  let d := r.desc
  let row := 128 * r.pos + lane
  let (c, n) := r.segRange
  let (s1, xs) ← s.reRow p r.slot d 4 18 (reInFmt d) row c n
  let (s2, dys) ← (if reBack d then s1.reRow p r.slot d 6 19 (reGradFmt d) row c n else .ok (s1, []))
  let (s3, w) ← (if reBack d then s2.reRecRead p r.slot d row else .ok (s2, (0, 0)))
  .ok (s3, (List.range n).foldl (fun t i =>
    if rePresent d row (c + i) then
      reStep (reOp d) (fw d 3 31 0) t (i + 1) (xs.getD i 0) (dys.getD i 0) w.1 w.2 (g.getD i 0)
    else t) (reInit (reOp d)))

/-- Pass 1 of a segment over the lanes of the group. -/
def State.rePass1Lanes (s : State) (p : Nat) (r : EngRun) (g : List Nat) : Nat → Acc (State × List (Nat × (Nat × Nat)))
  | 0 => .ok (s, r.pairs)
  | lane + 1 => do
    let (t, ps) ← State.rePass1Lanes s p r g lane
    let (u, x) ← t.rePass1Lane p r g lane
    .ok (u, Tab.set (fun _ => (0, 0)) ps (workKey lane r.seg) x)

/-- The end of pass 1 of a lane: its segments combine in the pairwise shape, and its record is written, or its statistic kept for
pass 2. -/
def State.reFinish (s : State) (p : Nat) (r : EngRun) : Nat → Acc (State × List (Nat × (Nat × Nat)))
  | 0 => .ok (s, r.pairs)
  | lane + 1 => do
    let (t, ps) ← State.reFinish s p r lane
    let d := r.desc
    let row := 128 * r.pos + lane
    let parts : List RePart := (List.range r.segs).map fun g =>
      { a := (r.work lane g).1, b := (r.work lane g).2, count := min 2048 (r.len - 2048 * g) }
    let whole := (pairwise (reCombine (reOp d)) 8 parts).headD { a := 0, b := 0, count := 0 }
    let clear := (List.range r.segs).foldl (fun q g => Tab.set (fun _ => (0, 0)) q (workKey lane g) (0, 0)) ps
    if reWrites d then
      let u ← t.reRecWrite p r.slot d row (reRecord d r.len whole (rePresent d row 0))
      .ok (u, clear)
    else .ok (t, Tab.set (fun _ => (0, 0)) clear (workKey lane 0) (whole.a, whole.b))

/-- A row's segment of pass 2: its output, and what it adds to dγ and dβ. -/
def State.rePass2Lane (s : State) (p : Nat) (r : EngRun) (g be : List Nat) (lane : Nat) :
    Acc (State × Nat × List Nat × List Nat) := do
  let d := r.desc
  let row := 128 * r.pos + lane
  let (c, n) := r.segRange
  let (s1, xs) ← s.reRow p r.slot d 4 18 (reInFmt d) row c n
  let (s2, dys) ← (if reBack d then s1.reRow p r.slot d 6 19 (reGradFmt d) row c n else .ok (s1, []))
  let (s3, w) ← s2.reRecRead p r.slot d row
  let st := r.work lane 0
  let codes := (List.range n).map fun i =>
    if rePresent d row (c + i) then
      elemConvert (reOutFmt d) .rne (fbit d 0 28)
        (f32v (rePass2Val d r.len (xs.getD i 0) (dys.getD i 0) w.1 w.2 (g.getD i 0) (be.getD i 0) st.1 st.2))
    else 0
  let wd := fmtWidth (reOutFmt d) / 8
  let s4 ← s3.opWrite p r.slot true ((fva d 8 + row * fw d 20 31 0 + c * wd) % 2 ^ 48) (codes.flatMap fun k => leBytes wd k)
  .ok (s4, (codes.filter (codeNan (reOutFmt d))).length,
    (List.range n).map (fun i => f32Mul (dys.getD i 0) (xHat (reOp d) (xs.getD i 0) w.1 w.2)), dys)

/-- Pass 2 of a segment over the lanes of the group, in increasing row: NaN count, dγ and dβ. NAN_COUNT counts the outputs of pass 2 and neither dγ, dβ
nor save records (R163). Log entry 155 (DESIGN CHOICE, unsafe). -/
def State.rePass2Lanes (s : State) (p : Nat) (r : EngRun) (g be dg db : List Nat) : Nat → Acc (State × Nat × List Nat × List Nat)
  | 0 => .ok (s, 0, dg, db)
  | lane + 1 => do
    let (t, k, dg1, db1) ← State.rePass2Lanes s p r g be dg db lane
    let (u, j, cg, cb) ← t.rePass2Lane p r g be lane
    .ok (u, k + j, (dg1.zip cg).map (fun x => f32Add x.1 x.2), (db1.zip cb).map (fun x => f32Add x.1 x.2))

/-- Does the operation accumulate dγ, and dβ (R178)? -/
def reDGamma (d : List Byte) : Bool := reAffine d && (reOp d == 0x43 || reOp d == 0x45)
def reDBeta (d : List Byte) : Bool := reAffine d && reOp d == 0x43

/-- Write an FP32 vector that the operation accumulates. -/
def State.reVecWrite (s : State) (p slot : Nat) (d : List Byte) (base : Nat) (used : Bool) (c : Nat) (vs : List Nat) : Acc State :=
  if used then s.opWrite p slot true ((fva d base + 4 * c) % 2 ^ 48) (vs.flatMap fun v => leBytes 4 v) else .ok s

/-- The place after the last segment of a pass. -/
def EngRun.nextPass (r : EngRun) : EngRun :=
  if !r.pass2 && rePass2 r.desc then { r with pass2 := true, seg := 0 }
  else { r with pass2 := !rePass1 r.desc, seg := 0, pos := r.pos + 1, items := r.items + r.groupRows, pairs := [] }

/-- One segment of the pass in work. -/
def State.reSegment (s : State) (p : Nat) (r : EngRun) : Acc State := do
  let d := r.desc
  let (c, n) := r.segRange
  let (s1, g) ← s.reVec p r.slot d 10 (reAffine d) 0x3F800000 c n
  if r.pass2 then
    let (s2, be) ← s1.reVec p r.slot d 12 (reAffine d && reOp d == 0x42) 0 c n
    let (s3, dg) ← s2.reVec p r.slot d 14 (reDGamma d) 0 c n
    let (s4, db) ← s3.reVec p r.slot d 16 (reDBeta d) 0 c n
    let (s5, nan, dg', db') ← s4.rePass2Lanes p r g be dg db r.groupRows
    let s6 ← s5.reVecWrite p r.slot d 14 (reDGamma d) c dg'
    let s7 ← s6.reVecWrite p r.slot d 16 (reDBeta d) c db'
    let r' := { r with nan := satAdd 32 r.nan nan, suspended := false, rateDist := r.rateDist || (s.field p).pacer.disturbed }
    .ok ((s7.setEngRun p 1 (if r.seg + 1 < r.segs then { r' with seg := r.seg + 1 } else r'.nextPass)).progress p r.slot)
  else
    let (s2, ps) ← s1.rePass1Lanes p r g r.groupRows
    let r' := { r with pairs := ps, suspended := false, rateDist := r.rateDist || (s.field p).pacer.disturbed }
    if r.seg + 1 < r.segs then .ok ((s2.setEngRun p 1 { r' with seg := r.seg + 1 }).progress p r.slot)
    else
      let (s3, ps') ← s2.reFinish p r' r.groupRows
      .ok ((s3.setEngRun p 1 ({ r' with pairs := ps' }).nextPass).progress p r.slot)

/-! The working region in the save area (R179, R428). -/

/-- Part offset of the working region's place in a slot's save area. -/
def State.workAt (s : State) (p slot : Nat) : Nat := s.get (Reg.FLD_CTX_SAVE_BASE p slot) * 4096

/-- Write the working region to the save area. Log entry 54 (DESIGN CHOICE, safe). -/
def State.workOut (s : State) (p slot : Nat) : List (Nat × (Nat × Nat)) → Acc State
  | [] => .ok s
  | (k, w) :: ps => do
    let t ← s.stackWrite (s.workAt p slot + 8 * k) (leBytes 4 w.1 ++ leBytes 4 w.2)
    State.workOut t p slot ps

/-- Read the working region back from the save area. -/
def State.workIn (s : State) (p slot : Nat) : List (Nat × (Nat × Nat)) → Acc (List (Nat × (Nat × Nat)))
  | [] => .ok []
  | (k, _) :: ps => do
    let bs ← s.stackRead (s.workAt p slot + 8 * k) 8
    let rest ← State.workIn s p slot ps
    .ok ((k, (leNat (bs.take 4), leNat (bs.drop 4))) :: rest)

/-- Why the working region's place in the save area cannot be reached now (R54, R308, R317, R318). -/
def State.workWay? (s : State) (p : Nat) (r : EngRun) : Option AccErr := s.stackWay? p r.ctx (s.workAt p r.slot) 131072

/-- The working region goes to the save area of its slot. -/
def State.workAway (s : State) (p : Nat) (r : EngRun) : Acc State :=
  match s.workWay? p r with
  | some e => .error e
  | none => s.workOut p r.slot r.pairs

/-- The working region comes back. -/
def State.workBack (s : State) (p : Nat) (r : EngRun) : Acc (List (Nat × (Nat × Nat))) :=
  match s.workWay? p r with
  | some e => .error e
  | none => s.workIn p r.slot r.pairs

/-- RE_SEGMENT: the row engine processes one segment of one pass of a row group. A working region in the save area comes back
first. -/
def State.reSegmentStep (s : State) (p : Nat) (ecc : Ecc) : State :=
  match s.engTurn p 1 fun r => fbit r.desc 0 11 with
  | .none => s
  | .stopped t => t
  | .go r =>
    if ecc = .uncorrectable then s.engUncorr p 1 r
    else if r.outside then
      match s.workBack p r with
      | .error err => s.engFail p 1 r err
      | .ok ps => (s.setEngRun p 1 { r with pairs := ps, outside := false }).engShow p 1
    else if r.count ≤ 128 * r.pos then s.engShow p 1
    else match (s.stepTaken p unitRe).reSegment p r with
    | .error err => s.engFail p 1 r err
    | .ok t => t.engShow p 1

def execReSegment (p : Fin 72) (ecc : Ecc) (s : State) : Host.Outcome State Fault Refusal :=
  answer ((if ecc = .corrected then s.wearNote (wearField p) else s).reSegmentStep p ecc)

/-! Suspension and completion. -/

/-- ENG_SUSPEND: the operation of a descheduled context stops at its vector or segment boundary. Where another context needs the
row engine, `spill` writes its working region to its save area (R173, R179), and so does a migration of the Field (Table 21-3). Tokens of a chain's last
vector that its grid-port sink has not taken stay with the chain and leave after it has resumed. Log entry 54 (DESIGN CHOICE, safe). Log entry 155
(DESIGN CHOICE, unsafe). -/
def State.engSuspend (s : State) (p e : Nat) (spill : Bool) : State :=
  let spill := spill || s.movesAway p
  match (s.eng p e).runs.find? fun r => r.fault.isNone && !s.ctxActive r.ctx && (!r.suspended || (spill && !r.outside)) with
  | none => s
  | some r =>
    if e = 1 ∧ spill = true ∧ r.outside = false then
      match s.workAway p r with
      | .error err => s.engFail p e r err
      | .ok t =>
        (t.setEngRun p e { r with suspended := true, outside := true, spilled := true,
                                  pairs := r.pairs.map fun x => (x.1, (0, 0)) }).engShow p e
    else (s.setEngRun p e { r with suspended := true }).engShow p e

def execEngSuspend (p : Fin 72) (e : Fin 2) (spill : Bool) (s : State) : Host.Outcome State Fault Refusal :=
  answer (s.engSuspend p e spill)

/-- Has an operation nothing left to process? -/
def EngRun.finished (r : EngRun) (e : Nat) : Bool :=
  r.fault.isSome || (r.out.isEmpty && decide (r.count ≤ (if e = 0 then 256 else 128) * r.pos))

/-- The completion record of Table 7-2. -/
def EngRun.record (r : EngRun) (stamp : Nat) : List Byte :=
  leBytes 4 r.items ++ leBytes 4 r.nan ++ leBytes 4 r.sat ++ leBytes 2 (r.fault.getD 0) ++
  leBytes 1 (b2n r.rateDist + 2 * b2n r.spilled) ++ leBytes 1 r.slot ++ leBytes 4 0 ++ leBytes 4 r.seq ++ leBytes 8 stamp

/-- The result of a reduction sink, written as the chain ends (R172). -/
def State.veReduce (s : State) (p : Nat) (r : EngRun) : Acc (State × EngRun) :=
  if veSink r.desc = 4 ∧ r.fault = none ∧ r.count ≠ 0 then do
    let v := (pairwise f32Add 8 ((List.range 256).map fun l => Tab.get (fun _ => 2 ^ 31) r.sums l)).headD 0
    let t ← s.opWrite p r.slot false (veBase r.desc false 8) (leBytes 4 v)
    .ok (t, { r with nan := satAdd 32 r.nan (b2n (f32v v).isNan) })
  else .ok (s, r)

/-- ENG_COMPLETE: an operation that has finished or stopped writes its record once its writes are accepted, and arrives at its
hurdle (R163). Log entry 51 (DESIGN CHOICE, unsafe). -/
def State.engComplete (s : State) (p e : Nat) : State :=
  match (s.eng p e).runs.find? fun r => r.finished e && s.ctxActive r.ctx with
  | none => s
  | some r0 =>
    match (if e = 0 then s.veReduce p r0 else .ok (s, r0)) with
    | .error err => s.engFail p e r0 err
    | .ok (s1, r) =>
      let k := if e = 0 then 15 else 24
      match s1.recordWrite p (engAgent e) 0 r.slot (32 * fw r.desc k 29 11) (r.record s1.stamp) with
      | (t, false) => (t.setEngRun p e r0)
      | (t, true) =>
        let u := (if e = 0 then t.veUnbind p r.desc else t).modEng p e fun x => { x with runs := x.runs.filter fun y => y.ctx != r.ctx }
        (if fbit r.desc k 10 then u.arriveVid p r.slot (fw r.desc k 9 0) 1 else u).engShow p e

def execEngComplete (p : Fin 72) (e : Fin 2) (s : State) : Host.Outcome State Fault Refusal := answer (s.engComplete p e)

end Sys2Proof.Machine
end

