-- ==== Sys2Proof/Machine/Matrix.lean ====
section
/-!
DEFINITION. The matrix arrays and their tile sequencers (chapters 4 and 5): posting, issue, K-tiles, spill and resume, drain,
reduction trees, suspension, halo exchange and completion.
-/

namespace Sys2Proof.Machine

/-! Access to an array's state. -/

/-- State of slot `n`, codes of Table 4-1. -/
def State.slotSt (s : State) (p a n : Nat) : Nat := s.get (Reg.FLD_MA_SLOTS_SLOT_STATE p a n)

/-- Set the state of slot `n`. -/
def State.setSlot (s : State) (p a n v : Nat) : State := s.put (Reg.FLD_MA_SLOTS_SLOT_STATE p a n) v

/-- The tile in slot `n`. -/
def State.tileOf (s : State) (p a n : Nat) : Option Tile := ((s.ma p a).tiles.find? fun e => e.1 == n).map (·.2)

/-- Put a tile in slot `n`. -/
def State.putTile (s : State) (p a n : Nat) (t : Tile) : State :=
  s.modMa p a fun m => { m with tiles := m.tiles.filter (·.1 != n) ++ [(n, t)] }

/-- Make slot `n` FREE. -/
def State.freeSlot (s : State) (p a n : Nat) : State :=
  (s.modMa p a fun m => { m with tiles := m.tiles.filter (·.1 != n) }).setSlot p a n 0

/-- Replace a macro that has been issued. -/
def State.setRun (s : State) (p a : Nat) (r : MacroRun) : State :=
  s.modMa p a fun m => { m with runs := m.runs.map fun x => if x.ctx == r.ctx && x.seq == r.seq then r else x }

/-- The macro a tile belongs to. -/
def State.runOf (s : State) (p a : Nat) (t : Tile) : Option MacroRun :=
  (s.ma p a).runs.find? fun r => r.ctx == t.ctx && r.seq == t.seq

/-- The run of a context with a sequence number on an array. -/
def State.runAt (s : State) (p a c seq : Nat) : Option MacroRun := (s.ma p a).runs.find? fun r => r.ctx == c && r.seq == seq

/-- Is a visit in the pair buffer of the pair of a run on array `a`? -/
def PairVisit.isOf (v : PairVisit) (a : Nat) (r : MacroRun) : Bool := v.ctx == r.ctx && v.seq == if a = 0 then r.seq else r.mate

/-- Does a run of array `a` stand in the middle of a visit that the other array has finished (R146)? -/
def State.midVisit (s : State) (p a : Nat) (r : MacroRun) : Bool :=
  (s.field p).pairBuf.any fun v => v.isOf a r && if a = 0 then v.done1 && !v.done0 else v.done0 && !v.done1

/-- Discard the visits of a run's pair (R146, R147). -/
def State.pairDrop (s : State) (p a : Nat) (r : MacroRun) : State :=
  s.modField p fun f => { f with pairBuf := f.pairBuf.filter fun v => !v.isOf a r }

/-- Is the macro in progress on its array: issued, scheduled, not suspended, not stopped, its walk not at its end? A paired macro finishes the
visit in progress before its context stops (R146). -/
def State.runActive (s : State) (p a : Nat) (r : MacroRun) : Bool :=
  !r.walkDone && r.fault.isNone && !r.suspended && (s.ctxActive r.ctx || (r.paired && s.midVisit p a r))

/-- The macro that walks on array `a`. -/
def State.maCurrent (s : State) (p a : Nat) : Option MacroRun := (s.ma p a).runs.find? (s.runActive p a)

/-- The halo entries of a macro that name a neighbour, as a mask. -/
def MacroRun.haloMask (r : MacroRun) : Nat :=
  (List.range 4).foldl (fun m i => if fw (r.halo.drop (16 * i)) 0 15 0 = 0xFFFF then m else m + 2 ^ i) 0

/-- Has the macro sent and received every halo? -/
def MacroRun.haloDone (r : MacroRun) : Bool := r.haloSent == r.haloMask && r.haloRecv == r.haloMask

/-- Show the array and sequencer in FLD_MA_STATUS and FLD_SEQ_STATUS. -/
def State.maShow (s : State) (p a : Nat) : State :=
  let m := s.ma p a
  let cur := match s.maCurrent p a with
    | some r => some r
    | none => m.runs.head?
  let t := s.puts [(Reg.FLD_SEQ_STATUS_QUEUED p a, m.queue.length),
    (Reg.FLD_MA_STATUS_BUSY p a, b2n (!m.runs.isEmpty)),
    (Reg.FLD_MA_STATUS_SUSPENDED p a, b2n (m.runs.any (·.suspended)))]
  match cur with
  | none => t.puts [(Reg.FLD_SEQ_STATUS_SPILL_MODE p a, 0), (Reg.FLD_SEQ_STATUS_HALO_WAIT p a, 0)]
  | some r => t.puts [(Reg.FLD_MA_STATUS_CTX_SLOT p a, r.slot), (Reg.FLD_SEQ_STATUS_SPILL_MODE p a, b2n r.spilled),
      (Reg.FLD_SEQ_STATUS_HALO_WAIT p a, b2n (r.haloRecv != r.haloMask))]

/-- The oldest unissued entry of a slot on an array. -/
def State.headOf (s : State) (p a slot : Nat) : Option Posted := (s.ma p a).queue.find? fun e => e.slot == slot

/-- Does a slot's head with PAIR = 1 wait for a partner that has not been posted (R141)? -/
def State.pairHeld (s : State) (p slot : Nat) : Option Posted :=
  match s.headOf p 0 slot, s.headOf p 1 slot with
  | some x, none => if mdPair x.desc then some x else none
  | none, some w => if mdPair w.desc then some w else none
  | _, _ => none

/-- A head that waits for its partner on a Field (R141). Log entry 50 (DESIGN CHOICE, unsafe). -/
def State.pairWaits (s : State) (p : Nat) : Option Posted := (List.range 4).findSome? fun c => s.pairHeld p c

/-- Show the pair in FLD_PAIR_STATUS. -/
def State.pairShow (s : State) (p : Nat) : State :=
  let paired := [0, 1].flatMap fun a => (s.ma p a).runs.filter (·.paired)
  let run := (paired.find? fun r => !r.suspended).or paired.head?
  let buf := (s.field p).pairBuf
  let slot := match run with
    | some r => some r.slot
    | none => (s.pairWaits p).map (·.slot)
  let t := s.puts [(Reg.FLD_PAIR_STATUS_PAIR_ACTIVE p, b2n run.isSome),
    (Reg.FLD_PAIR_STATUS_PAIR_WAIT p, b2n (s.pairWaits p).isSome),
    (Reg.FLD_PAIR_STATUS_BUF_FULL p, buf.length),
    (Reg.FLD_PAIR_STATUS_LEAD p, b2n (buf.any fun v => v.done1 && !v.done0))]
  match slot with
  | some c => t.put (Reg.FLD_PAIR_STATUS_CTX_SLOT p) c
  | none => t

/-- Show both arrays and the pair. -/
def State.seqShow (s : State) (p : Nat) : State := ((s.maShow p 0).maShow p 1).pairShow p

/-! Posting (R111, R112, R404). -/

/-- Which split of its tree a part posted by a context belongs to: the n-th posted with that tree and part is part of the n-th split (R132). Log
entry 148 (DESIGN CHOICE, unsafe). -/
def State.splitOf (s : State) (c : Nat) (d : List Byte) : Nat :=
  Tab.get (fun _ => 0) (s.ctx c).splits (32 * fw d 28 30 23 + mdPart d)

/-- Count a part of a split that a context posts. -/
def State.splitPosted (s : State) (c : Nat) (d : List Byte) : State :=
  if mdP d = 0 then s
  else s.modCtx c fun x => { x with splits := Tab.set (fun _ => 0) x.splits (32 * fw d 28 30 23 + mdPart d) (s.splitOf c d + 1) }

/-- Post a macro descriptor to array `a`: 16 entries, 4 for one slot. A context that was suspended while a head waited for this partner is
scheduled again (R141). -/
def State.seqPostTo (s : State) (p a slot off : Nat) : PostEnd :=
  s.postTo p a 0 slot off 128 (s.ma p a).queue 16 4 fun t e =>
    let put (u : State) (x : Posted) : State := (u.modMa p a fun m => { m with queue := m.queue ++ [x] }).seqShow p
    match s.ctxOf p slot with
    | none => put t e
    | some c =>
      let u := put (t.splitPosted c e.desc) { e with split := t.splitOf c e.desc }
      if (t.pairHeld p slot).isSome ∧ (u.pairHeld p slot).isNone then u.waitOver c else u

/-- SEQ_ISSUE_POST: a DCS write to FLD_SEQ_ISSUE posts a descriptor, or sets ISSUE_OVERRUN where the queue or the context's share
is full. -/
def State.seqPost (s : State) (p a v : Nat) : State :=
  s.dcsPost p a 0 (Reg.FLD_SEQ_STATUS_ISSUE_OVERRUN p a) (s.seqPostTo p a (bits v 1 0) (128 * bits v 23 7))

def execSeqIssuePost (p : Fin 72) (a : Fin 2) (value : Word) (s : State) : Host.Outcome State Fault Refusal :=
  answer (s.seqPost p a value.toNat)

/-! Issue (R113, R115, R122, R128, R131). -/

/-- The outcome of the checks at issue. -/
inductive IssueEnd (α : Type) where
  | wait (s : State)
  | refused (code detail : Nat)
  | ok (r : α)

/-- The effective value of a dimension: its shape register where USE is 1, otherwise the plan (R122). `i` is 0 M, 1 N, 2 K, 3 B. -/
def State.effDim (s : State) (p slot : Nat) (d : List Byte) (i plan : Nat) : Nat :=
  if fbit d 6 (16 + i) then s.get (Reg.FLD_CTX_SHAPE_VALUE p (16 * slot + fw d 6 (4 * i + 3) (4 * i))) else plan

/-- The records a macro copies at issue: pointer list, halo, occupancy map and chain. A record that is not used reads as one
that does nothing. Log entry 47 (DESIGN CHOICE, unsafe). -/
def State.issueRecords (s : State) (p slot : Nat) (d : List Byte) : Acc (State × List Byte × List Byte × List Byte × List Byte) := do
  let (s1, ptrs) ← (if mdPtr d then s.fmRead p (some slot) (32 * fw d 21 18 0) (32 * mdBatch d) else .ok (s, []))
  let (s2, halo) ← (if fbit d 0 22 then s1.fmRead p (some slot) (256 * fw d 25 31 16) 64 else .ok (s1, List.replicate 64 255))
  let (s3, occ) ← (if fbit d 0 21 then s2.fmRead p (some slot) (256 * fw d 25 15 0) ((mdBatch d * mdMt d * mdNt d + 7) / 8) else .ok (s2, []))
  let (s4, chain) ← (if mdRaw d then .ok (s3, List.replicate 64 0) else s3.fmRead p (some slot) (64 * fw d 31 17 0) 64)
  .ok (s4, ptrs, halo, occ, chain)

/-- The Fields among which a macro of a context posted to Field `p` is divided, the posting one first; none outside a gang, and none for a
paired macro (R29, R148). -/
def State.gangOf (s : State) (p c : Nat) (d : List Byte) : List Nat :=
  match s.gangs.find? fun g => g.1 == c, s.lfieldOf p with
  | some (_, ms), some m => if mdPair d || !ms.contains m then [] else m :: ms.filter (· != m)
  | _, _ => []

/-- A macro as it is issued, its walk not yet placed. -/
def State.mkRun (s : State) (p slot c seq : Nat) (e : Posted) (rs : List Byte × List Byte × List Byte × List Byte) : MacroRun :=
  let d := e.desc
  { slot := slot, ctx := c, seq := seq, post := e.order, desc := d, ptrs := rs.1, halo := rs.2.1, occ := rs.2.2.1, chain := rs.2.2.2,
    mEff := s.effDim p slot d 0 (mdM d), nEff := s.effDim p slot d 1 (mdN d), kEff := s.effDim p slot d 2 (mdKLo d + mdK d),
    bEff := s.effDim p slot d 3 (mdBatch d), b := 0, q := 0, walkDone := true, bTile := none, bNext := none,
    frames := [], order := 0, tilesRun := 0, satCount := 0, spillWrites := 0, spilled := false, rateDist := false, haloSent := 0,
    haloRecv := 0, released := false, suspended := false, paired := mdPair d, mate := 0,
    split := e.split, gang := s.gangOf p c d, rank := 0, fault := none }

/-- Is slot `n` pinned by a context, in the buffer or in its save area (R131)? -/
def State.pinnedBy (s : State) (p a c n : Nat) : Bool :=
  (match s.tileOf p a n with
   | some t => t.pinned && t.ctx == c && (s.slotSt p a n == 4 || s.slotSt p a n == 5)
   | none => false) ||
  (s.ma p a).saved.any fun e => e.1 == n && e.2.pinned && e.2.ctx == c

/-- A_s of R128. -/
def State.slotsFor (s : State) (p a c : Nat) : Nat := 8 - ((List.range 8).filter fun n => s.pinnedBy p a c n).length

/-- Does pinned mode find its slots as it needs them, on every Field among which the macro is divided (R29, R131)? -/
def State.pinsOk (s : State) (p a c : Nat) (d : List Byte) : Bool :=
  mdAcc d != 2 || (p :: (s.gangOf p c d).filterMap s.physOf).all fun q =>
    if fbit d 20 24 then (mdPins d).all fun n => s.slotSt q a n == 0 && !s.pinnedBy q a c n
    else (mdPins d).all fun n => s.pinnedBy q a c n

/-- The checks of Table 5-1 in order, on a macro that takes sequence number `seq`. -/
def State.issueCheck (s : State) (p a c seq : Nat) (e : Posted) : IssueEnd (State × MacroRun) :=
  let slot := e.slot
  let d := e.desc
  if !mdWellFormed d then .refused Flt.DESC_MALFORMED 0
  else match (mdRecords d).find? fun x => !s.windowOk p slot x.1 x.2 with
  | some x => .refused Flt.FM_PROTECT x.1
  | none =>
    match s.issueRecords p slot d with
    | .error (.bankAsleep q b w) => .wait (s.wakeBank q b w)
    | .error (.fmUncorr w) => .refused Flt.FM_UNCORR (bits w 23 0)
    | .error _ => .refused Flt.FM_PROTECT 0
    | .ok (s, rs) =>
      let r := s.mkRun p slot c seq e rs
      let ptrOk := !mdPtr d || ((List.range (mdBatch d)).all fun b => [0, 1, 2].all fun k => fw (r.ptrs.drop (32 * b)) (2 * k + 1) 31 16 == 0)
      if !(ptrOk && haloOk d r.halo && chainOk d r.chain && addressesOk r) then .refused Flt.DESC_MALFORMED 0
      else if (pairAcc (mdAFmt d) (mdBFmt d)).isNone || (mdRaw d && mdF32 d) then .refused Flt.FMT_PAIR 0
      else if !splitAligned d then .refused Flt.SPLIT_ALIGN 0
      else if !shapeInPlan r then .refused Flt.SHAPE_PLAN 0
      else if !s.pinsOk p a c d then .refused Flt.PIN_STATE 0
      else if mdAcc d = 2 then
        if (mdPins d).length < r.effCount then .refused Flt.ACC_CAPACITY 0 else .ok (s, r.goTo 0 0)
      else if r.live ≤ s.slotsFor p a c then .ok (s, r.goTo 0 0)
      else if r.live ≤ fw d 27 31 16 then .ok (s, { r.goTo 0 0 with spilled := true })
      else .refused Flt.ACC_CAPACITY 0

/-- Record a fault of a macro in FLD_SEQ_STATUS and the fault record. Log entry 47 (DESIGN CHOICE, unsafe). -/
def State.seqFault (s : State) (p a c code detail : Nat) : State :=
  ((s.checkSeen p code detail).put (Reg.FLD_SEQ_STATUS_LAST_FAULT p a) code).fieldFault p a 0 (some c) code detail

/-- Drop an entry of a queue. -/
def State.dropPosted (s : State) (p a : Nat) (e : Posted) : State :=
  s.modMa p a fun m => { m with queue := dropFirst (· == e) m.queue }

/-- The value that a tile of a run on logical Field `home` gives to its tree. -/
def Tile.treeVal (t : Tile) (r : MacroRun) (home : Nat) : TreeVal :=
  let d := r.desc
  { ctx := t.ctx, tree := fw d 28 30 23, split := r.split, home := home, tidx := t.tidx, level := 0, pos := mdPart d, chain := fbit d 0 26, parts := mdP d,
    f32 := t.f32, init := t.init, elems := t.elems, clamps := t.clamps }

/-- The accumulation of slot `n` is complete: it is FULL, and the root of a split gives its own value to the tree (R96, R132). Log entry 49 (DESIGN CHOICE, safe). -/
def State.slotFull (s : State) (p a n : Nat) (r : MacroRun) (t : Tile) : State :=
  let u := s.setSlot p a n 2
  if mdP r.desc ≠ 0 ∧ mdPart r.desc = 0 then { u with trees := u.trees ++ [t.treeVal r ((s.lfieldOf p).getD 0)] } else u

/-- The slots of a pinned macro and its effective tiles, in order (R131). -/
def MacroRun.pinTiles (r : MacroRun) : List (Nat × (Nat × Nat × Nat)) := (mdPins r.desc).zip r.effTiles

/-- Does slot `n` hold a pinned tile of a context? -/
def State.pinHere (s : State) (p a c n : Nat) : Option Tile := (s.tileOf p a n).filter fun x => x.pinned && x.ctx == c

/-- The end of the walk of a macro that releases its pins: slots whose tiles ran are FULL, the others FREE; a sum in the save area whose tile
did not run is discarded (R131). -/
def State.pinEnd (s : State) (p a : Nat) (r : MacroRun) : State :=
  if mdAcc r.desc = 2 ∧ fbit r.desc 20 25 = true ∧ r.effCount ≠ 0 ∧ r.walkDone = true then
    let ran := r.pinTiles.filter fun e => !r.skips e.2.1 e.2.2.1 e.2.2.2
    let t := (mdPins r.desc).foldl (fun t n =>
      match t.pinHere p a r.ctx n with
      | some x =>
        if ran.any fun e => e.1 == n then
          let x := { x with pinned := false }
          (t.putTile p a n x).slotFull p a n r x
        else t.freeSlot p a n
      | none => t.modMa p a fun m => { m with saved := m.saved.filter fun e => !(e.1 == n && e.2.pinned && e.2.ctx == r.ctx) }) s
    t.setRun p a { r with released := true }
  else s

/-- A pinned tile as the macro takes it: its place among the macro's tiles, its sum as it stands (R131). -/
def MacroRun.pinPlace (r : MacroRun) (n : Nat) (x : Tile) : Tile :=
  match (r.pinTiles.find? fun e => e.1 == n).map (·.2) with
  | some (b, i, j) =>
    { x with seq := r.seq, b := b, i := i, j := j, tidx := mdTile r.desc b i j, kDone := 0, nextG := mdKLo r.desc / mdG r.desc,
             g := mdG r.desc, part := mdPart r.desc }
  | none => { x with seq := r.seq }

/-- Take the pinned slots for a macro: new ones start from the initial value, and each takes its tile of this macro. A sum in the save area
keeps the label its frame was written with, and takes its tile when it is loaded (R100, R131). -/
def State.pinStart (s : State) (p a : Nat) (r : MacroRun) : State :=
  if mdAcc r.desc = 2 ∧ r.effCount ≠ 0 then
    (mdPins r.desc).foldl (fun t n =>
      if fbit r.desc 20 24 then
        let blank : Tile :=
          { ctx := r.ctx, seq := r.seq, b := 0, i := 0, j := 0, tidx := 0, live := 0, kDone := 0, nextG := 0, f32 := mdF32 r.desc,
            init := mdInit r.desc, elems := [], clamps := [], order := 0, row := 0, pinned := true, g := mdG r.desc, part := mdPart r.desc }
        (t.putTile p a n (r.pinPlace n blank)).setSlot p a n 4
      else match t.pinHere p a r.ctx n with
        | some x => t.putTile p a n (r.pinPlace n x)
        | none => t) s
  else s

/-- The part of a run that a member of its gang executes: its tiles, in its own slots. The halos are those of the posting Field. Log entry 147
(DESIGN CHOICE, unsafe). -/
def MacroRun.member (r : MacroRun) (rank slot : Nat) : MacroRun :=
  let x := { r with rank := rank, slot := slot, halo := if rank = 0 then r.halo else List.replicate 64 255 }
  x.goTo 0 0

/-- The physical Fields and slots on which a run is executed, in the order of their ranks. -/
def State.runPlaces (s : State) (p : Nat) (r : MacroRun) : List (Nat × Nat × Nat) :=
  if r.gang.isEmpty then [(p, 0, r.slot)]
  else ((r.gang.zipIdx).filterMap fun g => (s.physOf g.1).bind fun q =>
    ((List.range 4).find? fun k => s.ctxOf q k == some r.ctx).map fun k => (q, g.2, k))

/-- The part of a split at whose Field the operand of part `y` is added: part 0 in a chain, in a pairwise tree the part without the lowest set
bit of `y` (R101). -/
def treeParent (chain : Bool) (y : Nat) : Nat := if chain then 0 else y &&& (y - 1)

/-- Open the routes of a reduction tree between a part that is issued on Field `p` and those already issued (R55). -/
def State.treeOpen (s : State) (p : Nat) (m : MacroRun) : State :=
  if mdP m.desc = 0 then s
  else
    let tree (x : MacroRun) : Nat := fw x.desc 28 30 23
    let chain := fbit m.desc 0 26
    let part (x : MacroRun) : Nat := mdPart x.desc
    let adds (x y : MacroRun) : Bool := part y != 0 && part x == treeParent chain (part y)
    let way (t : State) (a b : Nat) : State :=
      if a = b then t else t.routeNeed (.tree ((t.lfieldOf a).getD 0) m.ctx (tree m)) m.ctx (nodeOfField a) (nodeOfField b)
    let others := (List.range 72).flatMap fun q => [0, 1].flatMap fun a =>
      ((s.ma q a).runs.filter fun x => x.ctx == m.ctx && x.split == m.split && tree x == tree m && x.rank == m.rank && mdP x.desc == mdP m.desc).map
        fun x => (q, x)
    others.foldl (fun t x => if adds x.2 m then way t p x.1 else if adds m x.2 then way t x.1 p else t) s

/-- A macro that has passed its checks takes its sequence number and the array, on every Field among which it is divided (R29, R31, R115). -/
def State.macroStart (s : State) (p a : Nat) (r : MacroRun) : State :=
  (s.runPlaces p r).foldl (fun t x =>
    let m := r.member x.2.1 x.2.2
    ((((t.treeOpen x.1 m).modMa x.1 a fun y => { y with runs := y.runs ++ [m] }).pinStart x.1 a m).pinEnd x.1 a m).seqShow x.1)
    (s.modCtx r.ctx fun x => { x with macroSeq := r.seq })

/-- May array `a` issue a macro: enabled, handshaking, and no scheduled macro still walks on it (R114)? -/
def State.maFree (s : State) (p a : Nat) : Bool :=
  s.on (if a = 0 then Reg.FLD_SEQ_CTRL_MA0_RUN p else Reg.FLD_SEQ_CTRL_MA1_RUN p) && s.gridRuns p && (s.maCurrent p a).isNone

/-- Is the oldest unissued entry of a slot a paired macro? -/
def State.headPaired (s : State) (p a slot : Nat) : Bool := ((s.headOf p a slot).map fun e => mdPair e.desc).getD false

/-- May a macro issue on every Field among which it is divided (R31)? -/
def State.gangFree (s : State) (p a c : Nat) (d : List Byte) : Bool := ((s.gangOf p c d).filterMap s.physOf).all fun q => s.maFree q a

/-- The first entry of a queue that heads a scheduled context's entries, and is neither a paired macro nor the partner of one
(R114, R141). A gang macro needs its array on every member (R31). -/
def State.seqHead (s : State) (p a : Nat) : Option (Posted × Nat) :=
  (s.ma p a).queue.findSome? fun e =>
    match s.ctxOf p e.slot with
    | some c =>
      if s.headOf p a e.slot == some e && s.ctxActive c && !s.headPaired p 0 e.slot && !s.headPaired p 1 e.slot &&
          s.gangFree p a c e.desc then some (e, c)
      else none
    | none => none

/-- MACRO_ISSUE: the sequencer takes a macro, makes the checks at issue, and issues or refuses it. Log entry 47 (DESIGN CHOICE, unsafe). -/
def State.macroIssue (s : State) (p a : Nat) : State :=
  if s.maFree p a then
    match s.seqHead p a with
    | none => s.seqShow p
    | some (e, c) =>
      match s.issueCheck p a c ((s.ctx c).macroSeq + 1) e with
      | .wait t => t
      | .refused code detail => ((s.dropPosted p a e).seqFault p a c code detail).seqShow p
      | .ok (t, r) => (t.dropPosted p a e).macroStart p a r
  else s

/-- Log entry 3 (DESIGN CHOICE, safe). -/
def execMacroIssue (p : Fin 72) (a : Fin 2) (s : State) : Host.Outcome State Fault Refusal := answer (s.macroIssue p a)

/-! Stops after issue (R106, R107, R139). -/

/-- A macro stops with a fault on one Field: it uses the array no more, its unpinned slots are FREE, and its record will carry the code. -/
def State.runStop (s : State) (p a : Nat) (r : MacroRun) (code : Nat) : State :=
  let mine := (s.ma p a).tiles.filter fun e => e.2.ctx == r.ctx && e.2.seq == r.seq && !e.2.pinned
  let t := mine.foldl (fun t e => t.freeSlot p a e.1) s
  let u := t.modMa p a fun m =>
    { m with runs := m.runs.map (fun x => if x.ctx == r.ctx && x.seq == r.seq then { x with fault := some code, bTile := none, bNext := none } else x),
             saved := m.saved.filter fun e => !(e.2.ctx == r.ctx && e.2.seq == r.seq && !e.2.pinned) }
  (u.put (Reg.FLD_SEQ_STATUS_LAST_FAULT p a) code).seqShow p

/-- The runs of a macro on the members of its gang other than Field `p`, each with its Field. -/
def State.memberRuns (s : State) (p a : Nat) (r : MacroRun) : List (Nat × MacroRun) :=
  r.gang.filterMap fun m => (s.physOf m).bind fun q => if q = p then none else (s.runAt q a r.ctx r.seq).map fun x => (q, x)

/-- A macro stops with a fault, on every member of its gang (R138, R139). -/
def State.macroStop (s : State) (p a : Nat) (r : MacroRun) (code : Nat) : State :=
  (s.memberRuns p a r).foldl (fun t x => if x.2.fault.isNone then t.runStop x.1 a x.2 code else t) (s.runStop p a r code)

/-- What a failed access does to a macro (R237, R244, R333): it waits, or it stops with the code of its agent. -/
def State.macroFail (s : State) (p a : Nat) (r : MacroRun) (e : AccErr) : State :=
  let t := s.accFail p a 0 r.slot e
  match t.stopCode p a 0 r.ctx with
  | some code => (t.clearStop p (agentKey a 0 r.ctx)).macroStop p a r code
  | none => t

/-- Has an answer to a translation fault stopped the macro's sequencer (R335)? Then the macro stops. -/
def State.macroResolve (s : State) (p a : Nat) (r : MacroRun) : Option State :=
  match s.stopCode p a 0 r.ctx with
  | some code => some ((s.clearStop p (agentKey a 0 r.ctx)).macroStop p a r code)
  | none => none

/-- A corrected or uncorrectable error of the accumulators or B registers (R107). -/
def State.accEcc (s : State) (p a : Nat) : Ecc → State
  | .corrected => (s.wearNote (wearField p)).count48 (Reg.aFLD_MA_ECC_CORR_LO p a) 1
  | _ => s

/-- An uncorrectable error stops the macro (R107). -/
def State.accUncorr (s : State) (p a : Nat) (r : MacroRun) : State :=
  ((s.put (Reg.FLD_MA_STATUS_ACC_UNCORR p a) 1).fieldFault p a 0 (some r.ctx) Flt.ACC_UNCORR 0).macroStop p a r Flt.ACC_UNCORR

/-- The run on the posting Field of a macro, with its halos. -/
def State.homeRun (s : State) (a : Nat) (r : MacroRun) : MacroRun :=
  match (r.gang.head?).bind s.physOf with
  | some q => (s.runAt q a r.ctx r.seq).getD r
  | none => r

/-- Is an earlier macro of a macro's context unfinished on its Field or on a Field among which it is divided (R114)? -/
def State.fencedOff (s : State) (p : Nat) (r : MacroRun) : Bool :=
  (p :: r.gang.filterMap s.physOf).any fun q => s.macrosBefore q r.ctx r.post (if r.paired then some r.mate else none)

/-- May the macro read operands: its FENCE and its halos (R114, R134)? -/
def State.mayRead (s : State) (p a : Nat) (r : MacroRun) : Bool :=
  (!fbit r.desc 0 23 || !s.fencedOff p r) &&
  (s.homeRun a r).haloRecv == (s.homeRun a r).haloMask

/-- First k and number of present k of K-tile `kk` (R121). -/
def MacroRun.kRange (r : MacroRun) (kk : Nat) : Nat × Nat :=
  let k0 := mdKLo r.desc + kk * mdTK r.desc
  (k0, min (mdTK r.desc) (r.kEnd - k0))

/-- Present rows and columns of a tile (R121). -/
def MacroRun.rowsIn (r : MacroRun) (b i : Nat) : Nat := min (mdTM r.desc) (r.rows b - i * mdTM r.desc)
def MacroRun.colsIn (r : MacroRun) (b j : Nat) : Nat := min (mdTN r.desc) (r.colsN b - j * mdTN r.desc)

/-! B tiles (R88). -/

/-- Does a B tile serve a place of the walk? -/
def BTile.serves (t : BTile) (b j kk : Nat) : Bool := t.b == b && t.j == j && t.kk == kk

/-- The place whose B tile is to be loaded next: the present one where neither register set holds its tile, otherwise the next one that needs
another tile. -/
def MacroRun.bWanted (r : MacroRun) : Option MacroRun :=
  let (_, j, kk) := r.place
  let held (x : Option BTile) : Bool := (x.map fun t => t.serves r.b j kk).getD false
  if held r.bTile then r.nextB j kk r.fuel r else if held r.bNext then none else some r

/-- B_TILE_LOAD: the cells' second registers take the stationary B that the walk needs next, with its scales, while the tile in use stays. A
paired macro on MA1 takes its B from the pair buffer instead. Log entry 48 (DESIGN CHOICE, safe). -/
def State.bTileLoad (s : State) (p a : Nat) (ecc : Ecc) : State :=
  match s.maCurrent p a with
  | none => s
  | some r =>
    if !(s.mayStep p (unitLoad a)) || !(s.mayRead p a r) || s.agentWaits p a 0 r.ctx then s
    else match s.macroResolve p a r with
    | some t => t
    | none =>
      match r.bWanted with
      | none => s
      | some x =>
        let d := r.desc
        let (_, j, kk) := x.place
        let (k0, kn) := x.kRange kk
        if (r.bNext.map fun t => t.serves x.b j kk).getD false then s
        else
          let go : Acc (State × List (List Nat) × List (List Nat)) := do
            let (t, cols) ← (if r.paired && a == 1 then .ok (s, [])
              else (s.bucketLend p r.ctx).readBlock p a 1 r.slot (mdBFmt d) (r.base 1 x.b) (mdStride d 1) (fbit d 0 16) (!fbit d 0 16) (j * mdTN d) (x.colsIn x.b j) k0 kn)
            let (u, sc) ← t.readScales p r 1 x.b (j * mdTN d) (x.colsIn x.b j) k0 kn
            .ok (u.bucketRepay p r.ctx, cols, sc)
          match go with
          | .error e => s.macroFail p a r e
          | .ok (t, cols, sc) =>
            match ecc with
            | .uncorrectable => t.accUncorr p a r
            | e => ((t.accEcc p a e).stepTaken p (unitLoad a)).setRun p a { r with bNext := some { b := x.b, j := j, kk := kk, cols := cols, scales := sc } }

/-- Log entry 48 (DESIGN CHOICE, safe). -/
def execBTileLoad (p : Fin 72) (a : Fin 2) (ecc : Ecc) (s : State) : Host.Outcome State Fault Refusal :=
  answer (s.bTileLoad p a ecc)

/-! Slots of the walk. -/

/-- The slot that holds the tile of the walk's position and accumulates it. -/
def State.slotOfTile (s : State) (p a : Nat) (r : MacroRun) : Option (Nat × Tile) :=
  let (i, j, _) := r.place
  (s.ma p a).tiles.find? fun e =>
    e.2.ctx == r.ctx && e.2.seq == r.seq && e.2.b == r.b && e.2.i == i && e.2.j == j &&
    (s.slotSt p a e.1 == 1 || s.slotSt p a e.1 == 4)

/-- Is slot `n` the place of a tile of a context that lies in its save area (R130, R131)? -/
def State.slotAwaits (s : State) (p a c n : Nat) : Bool := (s.ma p a).saved.any fun e => e.1 == n && e.2.ctx == c

/-- The first FREE slot that no tile of the context in its save area comes back to. -/
def State.freeSlot? (s : State) (p a c : Nat) : Option Nat := (List.range 8).find? fun n => s.slotSt p a n == 0 && !s.slotAwaits p a c n

/-- The FILLING slot of a macro whose tile was loaded earliest (R129). Log entry 49 (DESIGN CHOICE, safe). -/
def State.victimSlot (s : State) (p a : Nat) (r : MacroRun) : Option (Nat × Tile) :=
  ((s.ma p a).tiles.filter fun e => e.2.ctx == r.ctx && e.2.seq == r.seq && s.slotSt p a e.1 == 1).foldl
    (fun best e => match best with
      | none => some e
      | some b => if e.2.order < b.2.order then some e else some b) none

/-- Write a tile's frame to its place in the macro's spill area and note it (R99, R100, R129). Log entry 49 (DESIGN CHOICE, safe). -/
def State.frameOut (s : State) (p a : Nat) (r : MacroRun) (t : Tile) : Acc State := do
  let u ← s.vaWrite p r.slot true false (s.spillFrame p r t.live) (t.frame 1)
  .ok (u.setRun p a { r with frames := (r.frames.filter (·.tidx != t.tidx)) ++ [{ tidx := t.tidx, kDone := t.kDone }],
                             spillWrites := satAdd 32 r.spillWrites 1 })

/-- A slot for the tile of the walk's position: a FREE one, or in spill mode the one evicted (R129). -/
def State.takeSlot (s : State) (p a : Nat) (r : MacroRun) : Acc (State × Option Nat) := do
  match s.freeSlot? p a r.ctx with
  | some n => .ok (s, some n)
  | none =>
    if r.spilled then
      match s.victimSlot p a r with
      | none => .ok (s, none)
      | some (n, t) => do
        let u ← s.frameOut p a r t
        .ok (u.freeSlot p a n, some n)
    else .ok (s, none)

/-- A fresh tile of the walk's position: initial values, or C in accumulate mode for unsplit macros and roots (R93, R132). -/
def State.freshTile (s : State) (p : Nat) (r : MacroRun) : Acc (State × Tile) := do
  let d := r.desc
  let (i, j, _) := r.place
  let t0 : Tile :=
    { ctx := r.ctx, seq := r.seq, b := r.b, i := i, j := j, tidx := mdTile d r.b i j, live := liveIndex (mdLoop d) (r.nt r.b) i j,
      kDone := 0, nextG := mdKLo d / mdG d, f32 := mdF32 d, init := mdInit d, elems := [], clamps := [], order := r.order, row := 0,
      pinned := false, g := mdG d, part := mdPart d }
  if mdAcc d = 1 ∧ mdRoot d = true then
    let n0 := j * mdTN d
    let (u, rows) ← s.readRows p r.slot true fmtINT32
      ((List.range (r.rowsIn r.b i)).map fun m => (r.base 2 r.b + (i * mdTM d + m) * mdStride d 2, n0, r.colsIn r.b j))
    .ok (u, (List.range rows.length).foldl (fun t m => (List.range (r.colsIn r.b j)).foldl (fun t n =>
      t.put (128 * m + n) ((rows.getD m []).getD n 0, false)) t) t0)
  else .ok (s, t0)

/-! The pair buffer (R144, R145). -/

/-- The entry of the pair buffer that a run of array `a` uses next, where it may run that far ahead. -/
def State.pairTile (s : State) (p a : Nat) (r : MacroRun) : Option PairVisit :=
  let buf := (s.field p).pairBuf.filter fun v => v.isOf a r
  let mine (v : PairVisit) : Bool := if a = 0 then v.done0 else v.done1
  if buf.any fun v => mine v then none else buf.find? fun v => !mine v

/-- A run of array `a` has consumed the oldest entry of its pair; an entry that both have consumed is freed. -/
def State.pairUse (s : State) (p a : Nat) (r : MacroRun) : State :=
  s.modField p fun f =>
    match f.pairBuf.find? fun v => v.isOf a r with
    | none => f
    | some v =>
      let v' := if a = 0 then { v with done0 := true } else { v with done1 := true }
      let rest := dropFirst (· == v) f.pairBuf
      { f with pairBuf := if v'.done0 && v'.done1 then rest else v' :: rest }

/-! K-tiles (R90 to R94, R120, R121, R129, R130). -/

/-- The tile after a K-tile, its checkpoint copy, and the step of the walk. -/
def State.ktileEnd (s : State) (p a n : Nat) (r : MacroRun) (t : Tile) (used : Bool) : Acc State := do
  let d := r.desc
  let done := decide (t.kDone = r.kt)
  let s1 := s.putTile p a n t
  let interval := fw d 28 11 0
  let s2 ← (if interval ≠ 0 ∧ t.kDone % interval = 0 ∧ !done ∧ !t.pinned ∧ t.live < fw d 27 31 16
    then s1.frameOut p a r t else .ok s1)
  let r2 := ((s2.ma p a).runs.find? fun x => x.ctx == r.ctx && x.seq == r.seq).getD r
  let r3 :=
    { (r2.goTo r.b (r.q + 1)) with
      order := r.order + 1
      frames := if done then r2.frames.filter (·.tidx != t.tidx) else r2.frames
      tilesRun := if t.kDone = 1 ∧ used then r2.tilesRun + 1 else r2.tilesRun
      rateDist := r2.rateDist || (used && (s.field p).pacer.disturbed) }
  let s3 := s2.setRun p a r3
  let s4 := if done && !t.pinned then s3.slotFull p a n r3 t else s3
  .ok (((s4.pinEnd p a r3).seqShow p).progress p r.slot)

/-- The operands of a K-tile: rows of A, columns of B and their scales. A paired macro takes dY from the pair buffer. -/
def State.ktileOperands (s : State) (p a : Nat) (r : MacroRun) (bt : BTile) (pv : PairVisit) :
    Acc (State × List (List Nat) × List (List Nat) × List (List Nat)) := do
  let d := r.desc
  let (i, j, kk) := r.place
  let (k0, kn) := r.kRange kk
  let cols := if r.paired && a == 1 then transposeL (r.colsIn r.b j) pv.rows else bt.cols
  let (t, rows) ← (if r.paired && a == 0 then .ok (s, pv.rows)
    else s.readBlock p a 0 r.slot (mdAFmt d) (r.base 0 r.b) (mdStride d 0) (fbit d 0 15) (fbit d 0 15) (i * mdTM d) (r.rowsIn r.b i) k0 kn)
  let (u, sc) ← t.readScales p r 0 r.b (i * mdTM d) (r.rowsIn r.b i) k0 kn
  .ok (u, rows, cols, sc)

/-- Run the K-tile of the walk's position. A tile that reads a C which the batch shares waits until the tile of the element before it has drained,
so that the time of a drain changes no result (R104, R126). -/
def State.ktileGo (s : State) (p a : Nat) (r : MacroRun) (bt : BTile) (pv : PairVisit) : Acc (Option State) := do
  let d := r.desc
  let (_, _, kk) := r.place
  let (k0, kn) := r.kRange kk
  let (s1, found) ← (match s.slotOfTile p a r with
    | some (n, t) => .ok (s, some (n, t))
    | none =>
      if kk ≠ 0 ∨ mdAcc d = 2 ∨ r.sharedBusy (s.ma p a) = true then .ok (s, none)
      else do
        let (u, slot) ← s.takeSlot p a r
        match slot with
        | none => .ok (u, none)
        | some n => do
          let (v, t) ← u.freshTile p r
          .ok ((v.putTile p a n t).setSlot p a n 1, some (n, t)))
  match found with
  | none => .ok none
  | some (n, t) =>
    if (s1.ma p a).saved.any fun e => e.2.ctx == r.ctx && e.2.pinned then .ok none
    else
      let (s2, rows, cols, sc) ← (if kn = 0 then .ok (s1, [], [], []) else s1.ktileOperands p a r bt pv)
      let t' := (t.addBlock d k0 rows cols sc bt.scales)
      let t' := { t' with kDone := t.kDone + 1, nextG := ceilDiv (k0 + kn) (mdG d), row := 0 }
      let r' := ((s2.ma p a).runs.find? fun x => x.ctx == r.ctx && x.seq == r.seq).getD r
      let s3 ← s2.ktileEnd p a n r' t' (decide (kn ≠ 0) || (mdRoot d && decide (mdP d ≠ 0)))
      .ok (some s3)

/-- The cells switch to the tile in their second registers where it is the one that the walk needs (R88). -/
def MacroRun.bSwitch (r : MacroRun) : MacroRun :=
  let (_, j, kk) := r.place
  match r.bNext with
  | some x => if x.serves r.b j kk then { r with bTile := some x, bNext := none } else r
  | none => r

/-- The physical columns in service of an array, in increasing order: logical columns 0 to 127 (R109). -/
def State.serviceCols (s : State) (p a : Nat) : List Nat :=
  ((List.range 130).filter fun n => n != s.get (Reg.FLD_MA_COLMAP_RETIRED_A p a) && n != s.get (Reg.FLD_MA_COLMAP_RETIRED_B p a)).take 128

/-- KTILE_RUN: the passes of the walk's next K-tile run through the array (R87, R120). `residue` is a column whose residue check fails, by physical
number: a column out of service carries no products and stops nothing (R109). `ecc` is what the accumulator and B registers show. -/
def State.ktileRun (s : State) (p a : Nat) (residue : Option Nat) (ecc : Ecc) : State :=
  match s.maCurrent p a with
  | none => s
  | some r =>
    if !(s.mayStep p (unitMa a)) || !(s.mayRead p a r) || s.agentWaits p a 0 r.ctx then s
    else match s.macroResolve p a r with
    | some t => t
    | none =>
      let (_, j, kk) := r.place
      let (_, kn) := r.kRange kk
      let r := r.bSwitch
      let s := s.setRun p a r
      let bt := r.bTile.filter fun x => x.serves r.b j kk
      let pv := if r.paired then s.pairTile p a r else some { ctx := r.ctx, seq := r.seq, rows := [], done0 := false, done1 := false }
      let blank : BTile := { b := r.b, j := j, kk := kk, cols := [], scales := [] }
      match (if kn = 0 ∨ (r.paired = true ∧ a = 1) then some (bt.getD blank) else bt), pv with
      | some bt, some pv =>
        match (s.bucketLend p r.ctx).ktileGo p a r bt pv with
        | .error e => s.macroFail p a r e
        | .ok none => s
        | .ok (some t) =>
          let t := t.bucketRepay p r.ctx
          match residue.filter (s.serviceCols p a).contains, ecc with
          | some col, _ =>
            ((s.put (Reg.FLD_MA_STATUS_RESIDUE_ERR p a) 1).fieldFault p a 0 (some r.ctx) Flt.ARRAY_RESIDUE col).macroStop p a r
              Flt.ARRAY_RESIDUE
          | none, .uncorrectable => s.accUncorr p a r
          | none, e => ((if r.paired then t.pairUse p a r else t).accEcc p a e |>.stepTaken p (unitMa a)).seqShow p
      | _, _ => s

def execKtileRun (p : Fin 72) (a : Fin 2) (residue : Option (Fin 130)) (ecc : Ecc) (s : State) :
    Host.Outcome State Fault Refusal :=
  answer (s.ktileRun p a (residue.map (·.val)) ecc)

/-! Resume (R99, R100, R129, R130). -/

/-- A tile loaded back into slot `n`; a pinned one takes its tile of a macro that came after its frame was written. Log entry 49 (DESIGN CHOICE,
safe). -/
def State.resumeInto (s : State) (p a n : Nat) (r : MacroRun) (t : Tile) (bs : List Byte) : State :=
  let x := { t.load bs with order := r.order }
  let t' := if t.pinned && mdAcc r.desc == 2 && (mdPins r.desc).contains n && t.seq != r.seq then r.pinPlace n x else x
  (((s.putTile p a n t').setSlot p a n (if t.pinned then 4 else 1)).setRun p a
    { r with order := r.order + 1, frames := r.frames.filter (·.tidx != t.tidx) }).seqShow p

/-- A tile in the save area that the macro needs: one of its context's pinned tiles, or the tile that its walk reaches. -/
def MacroRun.needsSaved (r : MacroRun) (e : Nat × Tile) : Bool :=
  let (i, j, _) := r.place
  e.2.ctx == r.ctx && (e.2.pinned || (e.2.seq == r.seq && e.2.tidx == mdTile r.desc r.b i j))

/-- The slot into which a saved tile comes back: its own where that is FREE; a tile that is not pinned may take another (R99, R131). -/
def State.slotBack (s : State) (p a : Nat) (e : Nat × Tile) : Option Nat :=
  if s.slotSt p a e.1 = 0 then some e.1 else if e.2.pinned then none else s.freeSlot? p a e.2.ctx

/-- The saved tile that can come back next, with its slot. -/
def State.savedNext (s : State) (p a : Nat) (r : MacroRun) : Option (Nat × (Nat × Tile)) :=
  (s.ma p a).saved.findSome? fun e => if r.needsSaved e then (s.slotBack p a e).map fun m => (m, e) else none

/-- Load a saved tile of a context from its save area into slot `m`; a frame that does not match stops the macro (R100). -/
def State.savedIn (s : State) (p a : Nat) (r : MacroRun) (m : Nat) (e : Nat × Tile) : State :=
  match s.areaRead p r.ctx (s.saveFrame p r.slot a e.1) frameSize with
  | .error x => s.macroFail p a r x
  | .ok bs =>
    if e.2.matchesFrame (if e.2.pinned then 2 else 1) bs then
      (s.modMa p a fun x => { x with saved := x.saved.filter (· != e) }).resumeInto p a m r e.2 bs
    else (s.fieldFault p a 0 (some r.ctx) Flt.SPILL_MISMATCH e.2.tidx).macroStop p a r Flt.SPILL_MISMATCH

/-- The tile of the walk's position as its frame in the macro's spill area must hold it. -/
def MacroRun.frameTile (r : MacroRun) (f : FrameRef) : Tile :=
  let d := r.desc
  let (i, j, _) := r.place
  { ctx := r.ctx, seq := r.seq, b := r.b, i := i, j := j, tidx := mdTile d r.b i j, live := liveIndex (mdLoop d) (r.nt r.b) i j,
    kDone := f.kDone, nextG := ceilDiv (min (mdKLo d + f.kDone * mdTK d) r.kEnd) (mdG d), f32 := mdF32 d, init := mdInit d,
    elems := [], clamps := [], order := r.order, row := 0, pinned := false, g := mdG d, part := mdPart d }

/-- Load the tile of the walk's position from its frame in the macro's spill area, in spill mode into the slot of the tile evicted. Only an
eviction reads the buffer, so only it meets what `ecc` says (R107, R129). -/
def State.frameIn (s : State) (p a : Nat) (r : MacroRun) (f : FrameRef) (ecc : Ecc) : State :=
  let evicts := (s.freeSlot? p a r.ctx).isNone && r.spilled && (s.victimSlot p a r).isSome
  if evicts && ecc == .uncorrectable then s.accUncorr p a r
  else
    let blank := r.frameTile f
    let go : Acc (State × Option Nat × List Byte) := do
      let (u, slot) ← (s.bucketLend p r.ctx).takeSlot p a r
      let (v, bs) ← u.vaRead p r.slot true false (u.spillFrame p r blank.live) frameSize
      .ok (v.bucketRepay p r.ctx, slot, bs)
    match go with
    | .error e => s.macroFail p a r e
    | .ok (_, none, _) => s
    | .ok (u, some n, bs) =>
      if blank.matchesFrame 1 bs then
        (if evicts then u.accEcc p a ecc else u).resumeInto p a n ((u.runAt p a r.ctx r.seq).getD r) blank bs
      else (s.fieldFault p a 0 (some r.ctx) Flt.SPILL_MISMATCH blank.tidx).macroStop p a r Flt.SPILL_MISMATCH

/-- SLOT_RESUME: the tile the walk reaches is loaded from its completed frame, in the macro's spill area or in the context's save area (R100).
`ecc` is what the buffer shows where a tile is evicted for it. -/
def State.slotResume (s : State) (p a : Nat) (ecc : Ecc) : State :=
  match s.maCurrent p a with
  | none => s
  | some r =>
    if !(s.gridRuns p) || s.agentWaits p a 0 r.ctx then s
    else match s.macroResolve p a r with
    | some t => t
    | none =>
      match s.savedNext p a r with
      | some (m, e) => s.savedIn p a r m e
      | none =>
        if (s.ma p a).saved.any r.needsSaved then s
        else
          let (i, j, _) := r.place
          match r.frames.find? (·.tidx == mdTile r.desc r.b i j), s.slotOfTile p a r with
          | some f, none => s.frameIn p a r f ecc
          | _, _ => s

def execSlotResume (p : Fin 72) (a : Fin 2) (ecc : Ecc) (s : State) : Host.Outcome State Fault Refusal := answer (s.slotResume p a ecc)

/-! Drain (R97, R98, R105, R132). -/

/-- Clamped elements of a tile's present rows and columns. -/
def MacroRun.clampCount (r : MacroRun) (t : Tile) : Nat :=
  (t.clamps.filter fun e => e.2 && decide (e.1 / 128 < r.rowsIn t.b t.i ∧ e.1 % 128 < r.colsIn t.b t.j)).length

/-- Drain rows from the tile's next one on, as far as memory accepts them. The fuel is the rows left. -/
def State.drainRows (s : State) (p a n : Nat) (r : MacroRun) : Nat → Tile → State × Option AccErr
  | 0, _ => (s, none)
  | fuel + 1, t =>
    if r.rowsIn t.b t.i ≤ t.row then (s, none)
    else match s.drainRow p r t t.row with
    | .error e => (s, some e)
    | .ok u =>
      let t' := { t with row := t.row + 1 }
      State.drainRows ((u.putTile p a n t').progress p r.slot) p a n r fuel t'

/-- The level at which the tree of a split holds its result. -/
def treeTop (chain : Bool) (parts : Nat) : Nat := if chain then parts - 1 else ((List.range 6).find? fun l => decide (parts ≤ 2 ^ l)).getD 6

/-- The value of a split of a tree of a context at a level and position for a tile. -/
def State.treeAt (s : State) (c tree split tidx level pos : Nat) : Option TreeVal :=
  s.trees.find? fun v => v.ctx == c && v.tree == tree && v.split == split && v.tidx == tidx && v.level == level && v.pos == pos

/-- Where the parcel `i` of 1,024 elements of a tile lies among the elements of its tree (R357). Log entry 84 (DESIGN CHOICE, unsafe). -/
def parcelOff (tidx i : Nat) : Nat := 16384 * tidx + 1024 * i

/-- The parcel that came for a root Field from other parts (R356). -/
def State.parcelAt (s : State) (p key off : Nat) : Option QResp :=
  (s.field p).resps.find? fun r => r.agent == 0 && r.index == 63 && r.va == key * 2 ^ 32 + off && r.value == 1024

/-- The elements and clamp flags of a tile as its 16 parcels bring them, which they leave. -/
def State.parcelsTake (s : State) (p key : Nat) (t : Tile) : Option (State × List (Nat × Nat) × List (Nat × Bool)) :=
  let rs := (List.range 16).filterMap fun i => s.parcelAt p key (parcelOff t.tidx i)
  if rs.length < 16 then none
  else
    let all (g : QResp → Nat → Nat × Nat × Bool) := rs.zipIdx.flatMap fun x => (List.range 1024).map fun j => (1024 * x.2 + j, (g x.1 j).2)
    let es := all fun r j => (j, redGet fmtFP32 r.data j, !t.f32 && redClamp r.data 1024 j)
    some (s.modField p fun f => { f with resps := f.resps.filter fun r => !rs.contains r },
      (es.filter fun e => e.2.1 != t.init).map (fun e => (e.1, e.2.1)), (es.filter fun e => e.2.2).map fun e => (e.1, true))

/-- The result of a run's tree for a tile, once it is there: the value at its top, or what nodes of other parts send to the root Field (R102, R356). -/
def State.treeResult (s : State) (p : Nat) (t : Tile) (r : MacroRun) : Option (State × List (Nat × Nat) × List (Nat × Bool)) :=
  match s.treeAt t.ctx (fw r.desc 28 30 23) r.split t.tidx (treeTop (fbit r.desc 0 26) (mdP r.desc)) 0 with
  | some v => some ({ s with trees := dropFirst (· == v) s.trees }, v.elems, v.clamps)
  | none =>
    match (s.ctx t.ctx).trees.find? fun e => e.tree.val == fw r.desc 28 30 23 with
    | some e => s.parcelsTake p e.key t
    | none => none

/-- TILE_DRAIN: slot `n` drains through the output chain to C and the stash, and becomes FREE. A part of a split other than the
root sends its tile into the tree; the root drains the tree's result. Every page of the drain translates before it starts (R329), and a slot
whose first row is not accepted stays FULL (R98). -/
def State.tileDrain (s : State) (p a n : Nat) (ecc : Ecc) : State :=
  match s.tileOf p a n with
  | none => s
  | some t =>
    match s.runOf p a t with
    | none => s
    | some r =>
      let st := s.slotSt p a n
      let other := (List.range 8).any fun m => m != n && s.slotSt p a m == 3
      if !(s.mayStep p (unitDrain a)) || s.agentWaits p a 0 r.ctx || r.fault.isSome || other ||
          !(st == 3 || (st == 2 && s.ctxActive r.ctx)) then s
      else match s.macroResolve p a r with
      | some t => t
      | none =>
        if ecc = .uncorrectable then s.accUncorr p a r
        else
          let s := (s.accEcc p a ecc).stepTaken p (unitDrain a)
          let dist := r.rateDist || (s.field p).pacer.disturbed
          if mdP r.desc ≠ 0 ∧ mdPart r.desc ≠ 0 then
            (({ s with trees := s.trees ++ [t.treeVal r ((s.lfieldOf p).getD 0)] }.freeSlot p a n).setRun p a { r with rateDist := dist }).seqShow p
          else
            let ready : Option (State × Tile) :=
              if mdP r.desc = 0 ∨ st = 3 then some (s, t)
              else (s.treeResult p t r).map fun x => (x.1, { t with elems := x.2.1, clamps := x.2.2 })
            match ready with
            | none => s
            | some (u, t) =>
              match (if st = 2 then s.pagesReady p r.ctx .write (r.drainSpans t) else .ok ()) with
              | .error e => s.macroFail p a r e
              | .ok _ =>
                match ((u.setSlot p a n 3).putTile p a n t).drainRows p a n r 128 t with
                | (v, some e) => if st = 2 ∧ (v.tileOf p a n).map (·.row) = some 0 then s.macroFail p a r e else v.macroFail p a r e
                | (v, none) =>
                  ((v.freeSlot p a n).setRun p a { r with satCount := satAdd 32 r.satCount (r.clampCount t), rateDist := dist }).seqShow p

def execTileDrain (p : Fin 72) (a : Fin 2) (n : Fin 8) (ecc : Ecc) (s : State) : Host.Outcome State Fault Refusal :=
  answer (s.tileDrain p a n ecc)

/-! Reduction trees (R102, R103, R105). -/

/-- The sum of two values at a node: every element added in its format, clamp flags combined by OR. -/
def TreeVal.add (x y : TreeVal) (level pos : Nat) : TreeVal :=
  let keys := ((x.elems.map (·.1)) ++ (y.elems.map (·.1)) ++ (x.clamps.map (·.1)) ++ (y.clamps.map (·.1))).eraseDups
  keys.foldl (fun v k =>
    let a := Tab.get (fun _ => x.init) x.elems k
    let b := Tab.get (fun _ => y.init) y.elems k
    let c := Tab.get (fun _ => false) x.clamps k || Tab.get (fun _ => false) y.clamps k
    let (w, f) := if x.f32 then (f32Add a b, false) else i32SatAdd a b
    { v with elems := Tab.set (fun _ => v.init) v.elems k w, clamps := Tab.set (fun _ => false) v.clamps k (c || f) })
    { x with level := level, pos := pos, elems := [], clamps := [] }

/-- Values of a level of a pairwise tree over `p` parts. -/
def treeWidth (p : Nat) : Nat → Nat
  | 0 => p
  | l + 1 => (treeWidth p l + 1) / 2

/-- Put the sum of two operands in their place. -/
def State.treeSum (s : State) (x y : TreeVal) (level pos : Nat) : State :=
  { s with trees := dropFirst (· == y) (dropFirst (· == x) s.trees) ++ [x.add y (level + 1) pos] }

/-- The user of the route by which operands of a tree leave a Field. -/
def TreeVal.route (v : TreeVal) : RouteUser := .tree v.home v.ctx v.tree

/-- The operand `y` reaches the node, which lies at the Field of `x`, by the route that was opened when both parts were issued, or is opened now, and stays (R27, R55). Log
entry 148 (DESIGN CHOICE, unsafe). -/
def State.treeWay (s : State) (x y : TreeVal) : State :=
  match s.physOf y.home, s.physOf x.home with
  | some a, some b =>
    if a = b ∨ (s.routes.any fun r => r.user == y.route && r.dst == nodeOfField b) then s
    else s.routeOpen y.route y.ctx (nodeOfField a) (nodeOfField b)
  | _, _ => s

/-- The node adds its two operands, once both are there and the way between them is open (R54). -/
def State.treeNode (s : State) (x y : TreeVal) (level pos : Nat) : State :=
  let t := s.treeWay x y
  if t.routeUp y.route then t.treeSum x y level pos else t

/-- The node of one split that forms position `pos` of level `level + 1`: in a chain, level k holds the sum of parts 0 to k; in a pairwise tree
a value without a partner passes up. None where nothing can be done. -/
def State.treeStep (s : State) (w : TreeVal) (level pos : Nat) : Option State :=
  let look := s.treeAt w.ctx w.tree w.split w.tidx
  if w.chain then
    match look level 0, look 0 (level + 1) with
    | some x, some y => if level + 1 < w.parts then some (s.treeNode x y level 0) else none
    | _, _ => none
  else
    let n := treeWidth w.parts level
    if n ≤ 1 then none
    else if 2 * pos + 1 < n then
      match look level (2 * pos), look level (2 * pos + 1) with
      | some x, some y => some (s.treeNode x y level pos)
      | _, _ => none
    else (look level (2 * pos)).map fun x =>
      { s with trees := dropFirst (· == x) s.trees ++ [{ x with level := level + 1, pos := pos }] }

/-- The end of a context's tree at which a value leaves the part (R356). -/
def State.treeEnd (s : State) (v : TreeVal) : Option TreeEnd :=
  (s.ctx v.ctx).trees.find? fun e => e.tree.val == v.tree && e.level == v.level && e.pos == v.pos

/-- The data of parcel `i` of a value: its words, and the clamp map of INT32 (R357). -/
def TreeVal.parcel (v : TreeVal) (i : Nat) : List Byte :=
  let data := (List.range 1024).flatMap fun j => leBytes 4 (Tab.get (fun _ => v.init) v.elems (1024 * i + j))
  if v.f32 then data else data ++ clampMapBytes ((List.range 1024).map fun j => Tab.get (fun _ => false) v.clamps (1024 * i + j))

/-- The REDUCE messages that carry a value to the node of an end (R356, R357). -/
def State.parcels (s : State) (v : TreeVal) (e : TreeEnd) : List QMsg :=
  (List.range 16).map fun i => QMsg.reduce s.deviceId e.dev 0 e.key e.node e.side e.gen (if v.f32 then fmtFP32 else fmtINT32) (parcelOff v.tidx i) 1024
    (v.parcel i)

/-- A value leaves for a node at a Quipel port, of this part or of another (R356), once the way to the port is open (R54). Without a route its heat
does not commit (R369). Log entry 84 (DESIGN CHOICE, unsafe). -/
def State.treeLeave (s : State) (v : TreeVal) (e : TreeEnd) : State :=
  let t := { s with trees := dropFirst (· == v) s.trees }
  let home := quadOfField ((s.physOf v.home).getD 0)
  if e.dev.val = s.deviceId then
    let q := s.portOfNode 0 e.key e.node
    if s.portWayOpen home q then t.modPort q fun x => { x with nodeIn := x.nodeIn ++ s.parcels v e } else s
  else if !s.on (Reg.QPL_ROUTE_VALID 0 e.dev) then t.uncommit v.ctx Flt.QPL_UNROUTABLE
  else if s.portWayOpen home (s.get (Reg.QPL_ROUTE_PORT 0 e.dev)) then (s.parcels v e).foldl State.qplPost t
  else s

/-- Does a value feed the node that forms position `pos` of level `level + 1`? -/
def TreeVal.feeds (v : TreeVal) (level pos : Nat) : Bool :=
  if v.chain then (v.level == level && v.pos == 0) || (v.level == 0 && v.pos == level + 1) else v.level == level && v.pos / 2 == pos

/-- TREE_COMBINE: a node adds its two operands once both have arrived, for the first split of the tree at which they have; an operand of a node
that lies at a Quipel port goes there. -/
def State.treeCombine (s : State) (c tree tidx level pos : Nat) : State :=
  let here := s.trees.filter fun v => v.ctx == c && v.tree == tree && v.tidx == tidx
  match here.findSome? fun v => if v.feeds level pos then (s.treeEnd v).map fun e => (v, e) else none with
  | some x => s.treeLeave x.1 x.2
  | none =>
  (((s.trees.filter fun v => v.ctx == c && v.tree == tree && v.tidx == tidx).findSome? fun w => s.treeStep w level pos)).getD s

def execTreeCombine (c : Fin 64) (tree : Fin 256) (tidx level pos : Nat) (s : State) : Host.Outcome State Fault Refusal :=
  answer (s.treeCombine c tree tidx level pos)

/-! Suspension (R108, R130, R131). -/

/-- Is a tile's frame in its macro's spill area current (R130)? -/
def State.frameCurrent (s : State) (p a : Nat) (t : Tile) : Bool :=
  !t.pinned && ((s.runOf p a t).map fun r => r.frames.any fun f => f.tidx == t.tidx && f.kDone == t.kDone).getD false

/-- Spill one slot of a context that does not run: to its own frame where its macro has one for every tile, otherwise to the slot's frame in
the save area. -/
def State.slotOut (s : State) (p a slot n : Nat) (t : Tile) : Acc State := do
  let own := (s.runOf p a t).filter fun r => !t.pinned && decide (r.live ≤ fw r.desc 27 31 16)
  match own with
  | some r =>
    let u ← (s.bucketLend p t.ctx).frameOut p a r t
    .ok ((u.bucketRepay p t.ctx).freeSlot p a n)
  | none => do
    let u ← s.areaWrite p t.ctx (s.saveFrame p slot a n) (t.frame (if t.pinned then 2 else 1))
    let v := (u.freeSlot p a n).modMa p a fun m => { m with saved := m.saved ++ [(n, { t with elems := [], clamps := [] })] }
    .ok (match s.runOf p a t with
      | some r => v.setRun p a { r with spillWrites := satAdd 32 r.spillWrites 1 }
      | none => v)

/-- Spill slot `n`, which reads it (R107): an uncorrectable error stops its macro. -/
def State.slotSpill (s : State) (p a slot n : Nat) (ecc : Ecc) (t : Tile) : State :=
  match s.slotOut p a slot n t with
  | .error err => (s.setSlot p a n 5).accFail p a 0 slot err
  | .ok v =>
    if ecc = .uncorrectable then
      match s.runOf p a t with
      | some r => (s.setSlot p a n 5).accUncorr p a r
      | none => ((s.setSlot p a n 5).put (Reg.FLD_MA_STATUS_ACC_UNCORR p a) 1).fieldFault p a 0 (some t.ctx) Flt.ACC_UNCORR 0
    else v.accEcc p a ecc

/-- A slot of a context that stops: free where its frame is current, spilled where `lend` says that another context needs it, and otherwise
HELD (R108, R130). -/
def State.slotStop (s : State) (p a slot n : Nat) (lend : Bool) (ecc : Ecc) (t : Tile) : State :=
  if s.frameCurrent p a t then s.freeSlot p a n
  else if lend then s.slotSpill p a slot n ecc t
  else s.setSlot p a n 5

/-- What a slot shows where it is read: `eccs` names the slots at which the code finds something. -/
def eccAt (eccs : List (Fin 8 × Ecc)) (n : Nat) : Ecc := ((eccs.find? fun e => e.1 == n).map (·.2)).getD .good

/-- Does a drain of a context go on on an array (R108)? -/
def State.draining (s : State) (p a c : Nat) : Bool := (s.ma p a).tiles.any fun e => e.2.ctx == c && s.slotSt p a e.1 == 3

/-- The slots of a context that stops on an array, each FILLING, PINNED or HELD. -/
def State.slotsStop (s : State) (p a slot c mask : Nat) (eccs : List (Fin 8 × Ecc)) : State :=
  ((s.ma p a).tiles.foldl (fun u e =>
    let st := u.slotSt p a e.1
    if e.2.ctx == c && (st == 1 || st == 4 || st == 5) then u.slotStop p a slot e.1 (bit mask e.1 || s.movesAway p) (eccAt eccs e.1) e.2
    else u) s).seqShow p

/-- ARRAY_SUSPEND: the array stops the macro of a descheduled context at a K-tile boundary, once no drain of the context is in progress. Each of
its FILLING or PINNED slots stays HELD, or is spilled where `mask` names it because the context that runs next needs it, or where the Field
migrates. Log entry 49 (DESIGN CHOICE, safe). -/
def State.arraySuspend (s : State) (p a slot mask : Nat) (eccs : List (Fin 8 × Ecc)) : State :=
  match s.ctxOf p slot with
  | none => s
  | some c =>
    if s.ctxActive c || s.draining p a c || (s.ma p a).runs.any (fun r => r.ctx == c && r.paired && !r.suspended && !r.walkDone) then s
    else
      (s.modMa p a fun m =>
        { m with runs := m.runs.map fun r => if r.ctx == c && !r.walkDone then { r with suspended := true, bTile := none, bNext := none } else r }).slotsStop
        p a slot c mask eccs

def execArraySuspend (p : Fin 72) (a : Fin 2) (slot : Fin 4) (mask : Fin 256) (eccs : List (Fin 8 × Ecc)) (s : State) :
    Host.Outcome State Fault Refusal :=
  answer (s.arraySuspend p a slot mask eccs)

/-- A context that runs again on a Field: its macros go on, and its HELD slots fill or stay pinned as before (R96, R108). -/
def State.maResume (s : State) (p a c : Nat) : State :=
  let t := s.modMa p a fun m => { m with runs := m.runs.map fun r => if r.ctx == c then { r with suspended := false } else r }
  ((t.ma p a).tiles.foldl (fun u e =>
    if e.2.ctx == c && u.slotSt p a e.1 == 5 then u.setSlot p a e.1 (if e.2.pinned then 4 else 1) else u) t).seqShow p

/-! Halo exchange (R133, R134). -/

/-- The opposite of a halo entry: north and south, east and west. -/
def haloOpp (i : Nat) : Nat := if i % 2 = 0 then i + 1 else i - 1

/-- Entry `i` of a macro's halo record. -/
def MacroRun.haloEntry (r : MacroRun) (i : Nat) : List Byte := (r.halo.drop (16 * i)).take 16

/-- The neighbour's issued macro whose opposite entry names this Field with the same tag. -/
def State.haloPartner (s : State) (q : Nat) (me : Option Nat) (c i : Nat) (e : List Byte) : Option (Nat × MacroRun) :=
  [0, 1].findSome? fun a => ((s.ma q a).runs.find? fun r =>
    let o := r.haloEntry (haloOpp i)
    r.ctx == c && r.fault.isNone && fbit r.desc 0 22 && some (fw o 0 15 0) == me && fw o 0 31 24 == fw e 0 31 24 &&
    !bit r.haloRecv (haloOpp i)).map fun r => (a, r)

/-- Copy halo lines from Field `p` to Field `q`, each at its own macro's A stride. -/
def State.haloLines (s : State) (p pslot q qslot so ro sstr rstr len : Nat) : Nat → Acc State
  | 0 => .ok s
  | k + 1 => do
    let t ← State.haloLines s p pslot q qslot so ro sstr rstr len k
    let (u, bs) ← t.fmRead p (some pslot) (so + k * sstr) len
    u.fmWrite q (some qslot) (ro + k * rstr) bs

/-- Lines received: a context that was suspended while it waited for them is scheduled again (R134). -/
def State.haloGot (s : State) (q a i : Nat) (r : MacroRun) : State :=
  let x := { r with haloRecv := r.haloRecv ||| 2 ^ i }
  let t := s.setRun q a x
  if x.haloRecv = x.haloMask then t.waitOver r.ctx else t

/-- Send the lines of entry `i` of a run to the run on Field `q` whose opposite entry matches; sizes that differ stop both (R134). -/
def State.haloSend (s : State) (p a i : Nat) (r : MacroRun) (q a' : Nat) (r' : MacroRun) : State :=
  let e := r.haloEntry i
  let o := r'.haloEntry (haloOpp i)
  if fw o 0 23 16 ≠ fw e 0 23 16 ∨ fw o 3 15 0 ≠ fw e 3 15 0 then
    let t := (s.fieldFault p a 0 (some r.ctx) Flt.HALO_MISMATCH i).macroStop p a r Flt.HALO_MISMATCH
    (t.fieldFault q a' 0 (some r'.ctx) Flt.HALO_MISMATCH (haloOpp i)).macroStop q a' r' Flt.HALO_MISMATCH
  else match s.haloLines p r.slot q r'.slot (fw e 1 31 0) (fw o 2 31 0) (mdStride r.desc 0) (mdStride r'.desc 0) (fw e 3 15 0)
      (fw e 0 23 16) with
  | .error err => s.macroFail p a r err
  | .ok t =>
    let u := t.setRun p a { r with haloSent := r.haloSent ||| 2 ^ i }
    ((u.haloGot q a' (haloOpp i) ((u.runAt q a' r'.ctx r'.seq).getD r')).seqShow p).seqShow q

/-- A run of array `a` with entry `i` to send whose neighbour has issued its macro, and that macro. -/
def State.haloReady (s : State) (p a i : Nat) (r : MacroRun) : Option (Nat × Nat × MacroRun) :=
  if fbit r.desc 0 22 && r.fault.isNone && bit r.haloMask i && !bit r.haloSent i && !s.agentWaits p a 0 r.ctx then
    (s.physOf (fw (r.haloEntry i) 0 15 0)).bind fun q =>
      if s.wayOpen r.ctx (quadOfField p) (quadOfField q) then
        (s.haloPartner q (s.lfieldOf p) r.ctx i (r.haloEntry i)).map fun x => (q, x.1, x.2)
      else none
  else none

/-- HALO_EXCHANGE: once the neighbour of entry `i` has issued a matching macro, this Field's lines are sent to it. Among the array's macros with
that entry to send, the first whose neighbour has issued sends; FENCE, which R114 puts before operand reads, does not hold the lines back. Log
entry 149 (DESIGN CHOICE, unsafe). -/
def State.haloExchange (s : State) (p a i : Nat) : State :=
  if !(s.gridRuns p) then s
  else match (s.ma p a).runs.findSome? fun r => (s.macroResolve p a r) with
  | some t => t
  | none =>
    match (s.ma p a).runs.findSome? fun r => (s.haloReady p a i r).map fun x => (r, x) with
    | none => s
    | some (r, q, a', r') => s.haloSend p a i r q a' r'

def execHaloExchange (p : Fin 72) (a : Fin 2) (i : Fin 4) (s : State) : Host.Outcome State Fault Refusal :=
  answer (s.haloExchange p a i)

/-! Completion (R138, R139). -/

/-- The completion record of Table 5-7. SPILLED is set by a macro in spill mode and by one that has written any frame, HALO by one with
HALO_EN. Log entry 149 (DESIGN CHOICE, unsafe). -/
def MacroRun.record (r : MacroRun) (stamp : Nat) : List Byte :=
  let d := r.desc
  leBytes 4 r.tilesRun ++ leBytes 4 (mdBatch d * mdMt d * mdNt d - r.tilesRun) ++ leBytes 4 (if mdRoot d then r.satCount else 0) ++
  leBytes 2 (r.fault.getD 0) ++
  leBytes 1 (b2n r.rateDist + 2 * b2n (r.spilled || decide (r.spillWrites ≠ 0)) + 4 * b2n (fbit d 0 22) + 8 * b2n r.released) ++
  leBytes 1 r.slot ++ leBytes 4 r.spillWrites ++ leBytes 4 r.seq ++ leBytes 8 stamp

/-- Is the run on an array at its end: stopped by a fault, or walked and drained with its halos exchanged? A paired member that stopped
waits for its partner to stop (R147). -/
def State.runEnded (s : State) (p a : Nat) (r : MacroRun) : Bool :=
  if r.fault.isSome then
    !r.paired || ((s.runAt p (1 - a) r.ctx r.mate).map fun x => x.fault.isSome).getD true
  else r.walkDone && r.haloDone &&
    (s.ma p a).tiles.all (fun e => !(e.2.ctx == r.ctx && e.2.seq == r.seq) || e.2.pinned)

/-- Is a macro at its end: its run on the posting Field, and those of every other member (R138)? -/
def State.macroEnded (s : State) (p a : Nat) (r : MacroRun) : Bool :=
  r.rank == 0 && s.runEnded p a r && (s.memberRuns p a r).all fun x => s.runEnded x.1 a x.2

/-- The run of a macro with the sums of its members' counts, the OR of their flags and the first fault among them (R138). -/
def MacroRun.total (r : MacroRun) (ms : List MacroRun) : MacroRun :=
  ms.foldl (fun t x =>
    { t with tilesRun := t.tilesRun + x.tilesRun, satCount := satAdd 32 t.satCount x.satCount,
             spillWrites := satAdd 32 t.spillWrites x.spillWrites, rateDist := t.rateDist || x.rateDist, spilled := t.spilled || x.spilled,
             released := t.released || x.released, fault := t.fault.or x.fault }) r

/-- Remove a run from its array. -/
def State.dropRun (s : State) (p a : Nat) (r : MacroRun) : State :=
  s.modMa p a fun m => { m with runs := m.runs.filter fun x => !(x.ctx == r.ctx && x.seq == r.seq) }

/-- MACRO_COMPLETE: the oldest macro at its end writes its completion record and arrives at its hurdle. Log entry 51 (DESIGN CHOICE, unsafe). -/
def State.macroComplete (s : State) (p a : Nat) : State :=
  match (s.ma p a).runs.find? fun r => s.macroEnded p a r with
  | none => s
  | some r =>
    let ms := s.memberRuns p a r
    match s.recordWrite p a 0 r.slot (32 * fw r.desc 30 29 11) ((r.total (ms.map (·.2))).record s.stamp) with
    | (t, false) => t
    | (t, true) =>
      let u := ms.foldl (fun t x => (t.dropRun x.1 a x.2).seqShow x.1) (t.dropRun p a r)
      (if fbit r.desc 30 10 then u.arriveVid p r.slot (fw r.desc 30 9 0) 1 else u).seqShow p

def execMacroComplete (p : Fin 72) (a : Fin 2) (s : State) : Host.Outcome State Fault Refusal := answer (s.macroComplete p a)

end Sys2Proof.Machine
end

