-- ==== Sys2Proof/Machine/Grid.lean ====
section
/-!
DEFINITION. Compute units, memory units, batons, laps, grid ports that post, and stall counters (chapter 8).
-/

namespace Sys2Proof.Machine

/-! Legs: their configuration and whether they run. -/

def Leg.ctrLimit (l : Leg) (k : Nat) : Nat := l.counter k 23 0
def Leg.ctrLsrc (l : Leg) (k : Nat) : Nat := l.counter k 25 24
def Leg.ctrSrc (l : Leg) (k : Nat) : Nat := l.counter k 29 26
def Leg.ctrLane (l : Leg) (k : Nat) : Nat := l.counter k 36 32
def Leg.ctrEvent (l : Leg) (k : Nat) : Nat := l.counter k 39 37
def Leg.ctrEn (l : Leg) (k : Nat) : Bool := l.counter k 40 40 == 1
def Leg.ctrDone (l : Leg) (k : Nat) : Bool := l.counter k 41 41 == 1
def Leg.ctrPorts (l : Leg) (k : Nat) : Nat := l.counter k 43 42
def Leg.ctrOnce (l : Leg) (k : Nat) : Bool := l.counter k 44 44 == 1

/-- Enabled levels of a chain, contiguous from level 0. -/
def Leg.levels (l : Leg) (c : Nat) : Nat := ((List.range 4).takeWhile fun v => l.ctrEn (4 * c + v)).length

/-- Has every enabled chain of the leg halted, and has it one (R197)? -/
def Leg.allHalted (l : Leg) : Bool :=
  let on := (List.range 4).filter fun c => decide (0 < l.levels c)
  l.kind == 1 && !on.isEmpty && on.all fun c => l.halted.contains c

/-- Is a leg stopped by a fault (R209)? -/
def State.legFaulted (s : State) (p u x : Nat) : Bool := bit (s.get (Reg.FLD_UNIT_STATE_FAULTED_LEGS p u)) x

/-- May a leg work at all: valid, not stopped, its context scheduled and within a heat (R207)? -/
def State.legLive (s : State) (p u x : Nat) (l : Leg) : Bool :=
  l.valid && !s.legFaulted p u x && (match s.ctxOf p l.slot with
    | some c => s.ctxActive c && s.inHeat c
    | none => false)

/-- May a leg send what is in its stages: valid, not stopped, its context within a heat? A CU stops only between tokens (R204). -/
def State.legSends (s : State) (p u x : Nat) (l : Leg) : Bool :=
  l.valid && !s.legFaulted p u x && (match s.ctxOf p l.slot with
    | some c => s.inHeat c
    | none => false)

/-- Has a leg nothing more to do: its chains have halted, or it is sealed, and nothing is left to send? -/
def Leg.over (l : Leg) : Bool := (l.allHalted || l.sealDone) && l.due.isEmpty

/-- The queue at whose head a SEAL of its region waits for a leg that is not sealed (R224). -/
def State.sealAt (s : State) (p u x : Nat) (l : Leg) : Option Nat :=
  if s.inRegion p u x && !l.sealDone then
    (List.range 4).find? fun q => match s.headOfLeg p u q x with
      | some e => e.baton && e.lanes.headD 0 / 4096 % 16 == 4
      | none => false
  else none

/-- May the lap stop at a leg? One whose chains have halted stops there for its SEAL only (R224). -/
def State.legRuns (s : State) (p u x : Nat) : Bool :=
  match s.leg p u x with
  | some l => s.legLive p u x l && (!l.over || (s.sealAt p u x l).isSome)
  | none => false

/-- Show which legs of a unit are valid. -/
def State.unitShow (s : State) (p u : Nat) : State :=
  s.put (Reg.FLD_UNIT_STATE_VALID_LEGS p u)
    ((s.unit p u).legs.foldl (fun m e => if e.2.valid then m + 2 ^ (e.1 % 8) else m) 0)

/-- A leg is stopped: its bit and the code are shown. -/
def State.legMark (s : State) (p u x code : Nat) : State :=
  s.puts [(Reg.FLD_UNIT_STATE_FAULTED_LEGS p u, s.get (Reg.FLD_UNIT_STATE_FAULTED_LEGS p u) ||| 2 ^ x),
    (Reg.FLD_UNIT_STATE_LAST_FAULT p u, code)]

/-- A fault stops a leg (R209). -/
def State.legFault (s : State) (p u x agent index : Nat) (l : Leg) (code : Nat) : State :=
  (s.fieldFault p agent index (s.ctxOf p l.slot) code 0).legMark p u x code

/-! Stages (R191 to R193). -/

/-- Does an operation read y, and P? -/
def cuTakesY (o : Nat) : Bool :=
  decide (0x01 ≤ o ∧ o ≤ 0x06) || decide (0x08 ≤ o ∧ o ≤ 0x0D) || decide (0x10 ≤ o ∧ o ≤ 0x13) || decide (0x18 ≤ o ∧ o ≤ 0x1A) || o == 0x21
def cuTakesP (o : Nat) : Bool := o == 0x13
/-- Is it a carry operation? -/
def cuCarry (o : Nat) : Bool := decide (0x30 ≤ o ∧ o ≤ 0x32)
/-- Is a code defined (Table 8-4)? -/
def cuOpOk (o : Nat) : Bool := decide (o ≤ 0x06) || decide (0x08 ≤ o ∧ o ≤ 0x0D) || decide (0x10 ≤ o ∧ o ≤ 0x13) ||
  decide (0x18 ≤ o ∧ o ≤ 0x1A) || decide (0x20 ≤ o ∧ o ≤ 0x22) || cuCarry o

def Leg.stOp (l : Leg) (i : Nat) : Nat := l.stage i 7 0
def Leg.stX (l : Leg) (i : Nat) : Nat := l.stage i 11 8
def Leg.stY (l : Leg) (i : Nat) : Nat := l.stage i 15 12
def Leg.stP (l : Leg) (i : Nat) : Nat := l.stage i 19 16
def Leg.stCnt (l : Leg) (i : Nat) : Nat := l.stage i 23 20
def Leg.stImm (l : Leg) (i : Nat) : Nat := l.stage i 63 32

/-- Queues that a stage reads. Log entry 62 (DESIGN CHOICE, unsafe). -/
def Leg.stageReads (l : Leg) (i : Nat) : List Nat :=
  ([l.stX i] ++ (if cuTakesY (l.stOp i) then [l.stY i] else []) ++ (if cuTakesP (l.stOp i) then [l.stP i] else [])).filter
    fun c => decide (c < 4)

/-- The queue of the predicate of ROUTE 4 (R194). Log entry 62 (DESIGN CHOICE, unsafe). -/
def Leg.routeReads (l : Leg) : List Nat := if l.route = 4 ∧ l.stP (l.stages - 1) < 4 then [l.stP (l.stages - 1)] else []

/-- Queues read on the way from stage `i` to the next carry stage or the output. The fuel bounds the stages. -/
def Leg.segReads (l : Leg) : Nat → Nat → List Nat
  | 0, _ => l.routeReads
  | fuel + 1, i =>
    if l.stages ≤ i then l.routeReads
    else if cuCarry (l.stOp i) then l.stageReads i
    else (l.stageReads i ++ Leg.segReads l fuel (i + 1)).eraseDups

/-- Queues a leg reads at all. Log entry 62 (DESIGN CHOICE, unsafe). -/
def Leg.reads (l : Leg) : List Nat :=
  if l.kind = 1 then
    ((List.range l.stages).flatMap l.stageReads ++ l.routeReads ++
      ((List.range 16).filter fun k => decide (k % 4 < l.levels (k / 4)) && l.ctrLsrc k == 2).map fun k => l.ctrSrc k % 4).eraseDups
  else
    ((List.range 4).flatMap fun g => match l.ag g 0 3 0 with
      | 2 => [l.ag g 1 1 0]
      | 3 | 5 => [l.ag g 1 3 2]
      | 4 | 6 => [l.ag g 1 1 0, l.ag g 1 3 2]
      | _ => []).eraseDups

/-- A word built from its four signed bytes. -/
def byteWise (f : Int → Int → Int) (x y : Nat) : Nat :=
  (List.range 4).foldl (fun w b => w + wrapInt 8 (f (signed 8 (x / 256 ^ b)) (signed 8 (y / 256 ^ b))) * 256 ^ b) 0

/-- One lane of an operation that works lane by lane (Table 8-4). Log entry 15 (DESIGN CHOICE, safe). -/
def cuLane (o x y p : Nat) : Nat :=
  let w := 2 ^ 32
  let sx := signed 32 x
  let sy := signed 32 y
  match o with
  | 0x01 => (x + y) % w
  | 0x02 => (x + (w - y % w)) % w
  | 0x03 => x * y % w
  | 0x04 => if sy < sx then y else x
  | 0x05 => if sx < sy then y else x
  | 0x06 => (i32SatAdd x y).1
  | 0x08 => x &&& y
  | 0x09 => x ||| y
  | 0x0A => x ^^^ y
  | 0x0B => x * 2 ^ (y % 32) % w
  | 0x0C => x / 2 ^ (y % 32)
  | 0x0D => wrapInt 32 (sx.shiftRight (y % 32))
  | 0x10 => b2n (x == y)
  | 0x11 => b2n (decide (sx < sy))
  | 0x12 => b2n (decide (x < y))
  | 0x13 => if p = 0 then y else x
  | 0x18 => byteWise max x y
  | 0x19 => byteWise min x y
  | 0x1A => byteWise (fun a b => max (-128) (min 127 (a + b))) x y
  | _ => x

/-- The sum of the valid lanes up to a lane. Log entry 15 (DESIGN CHOICE, safe). -/
def scanAdd (mask : Nat) (x : Nat → Nat) (l : Nat) : Nat :=
  (List.range (l + 1)).foldl (fun t i => if bit mask i then (t + x i) % 2 ^ 32 else t) 0

/-- The reset value of a carry, and its update by one lane. -/
def carryReset (o : Nat) : Nat := if o = 0x30 then 0x80808080 else 0
def carryLane (o c x : Nat) : Nat :=
  match o with
  | 0x30 => byteWise max c x
  | 0x31 => (i32SatAdd c x).1
  | _ => c ||| x

/-- What a token meets as it goes through stages: the heads of the queues, the counter values, its mask and the lanes that are not
valid. -/
structure CuEnv where
  heads : Nat → List Nat
  vals : Nat → Nat
  mask : Nat
  idle : Nat → Nat

/-- A source operand of a stage (Table 8-3). -/
def Leg.source (l : Leg) (e : CuEnv) (prev : List Nat) (i c lane : Nat) : Nat :=
  if c < 4 then (if bit e.mask lane then (e.heads c).getD lane 0 else e.idle lane)
  else match c with
    | 4 => prev.getD lane 0
    | 5 => l.stImm i
    | 6 => lane
    | 7 => e.vals (l.stCnt i) % 2 ^ 32
    | _ => (e.vals (l.stCnt i) * 32 + lane) % 2 ^ 32

/-- The result of stage `i`: lanes that are not valid are not computed. -/
def Leg.stageOut (l : Leg) (e : CuEnv) (prev : List Nat) (i : Nat) : List Nat :=
  let o := l.stOp i
  let x := l.source e prev i (l.stX i)
  let y := l.source e prev i (l.stY i)
  let p := l.source e prev i (l.stP i)
  (List.range 32).map fun n =>
    if !bit e.mask n then e.idle n
    else match o with
    | 0x20 => x 0
    | 0x21 => x (y n % 32)
    | 0x22 => scanAdd e.mask x n
    | _ => cuLane o (x n) (y n) (p n)

/-- Where a token ends: at the output with its predicate, or in a carry stage. -/
inductive CuOut where
  | out (lanes : List Nat) (pred : Bool)
  | carry (i : Nat) (x : List Nat)

/-- Pass a token through the stages from `i`. The fuel bounds the stages. Where the last stage is a carry stage the predicate of ROUTE 4 is read as
its carry is delivered. Log entry 61 (DEDUCED, unsafe). Log entry 155 (DESIGN CHOICE, unsafe). -/
def Leg.pass (l : Leg) (e : CuEnv) : Nat → Nat → List Nat → CuOut
  | 0, _, prev => .out prev false
  | fuel + 1, i, prev =>
    if l.stages ≤ i then .out prev (bit (l.source e prev (l.stages - 1) (l.stP (l.stages - 1)) 0) 0)
    else if cuCarry (l.stOp i) then .carry i ((List.range 32).map fun n => l.source e prev i (l.stX i) n)
    else
      let r := l.stageOut e prev i
      if i + 1 = l.stages then .out r (bit (l.source e prev i (l.stP i) 0) 0)
      else Leg.pass l e fuel (i + 1) r

/-- The output ports a token takes (R194). -/
def Leg.outPorts (l : Leg) (pred : Bool) : Nat :=
  match l.route with
  | 0 => 1
  | 1 => 2
  | 2 => 3
  | 3 => l.sel % 4
  | _ => if pred then 2 else 1

/-! Counter chains (R195 to R197). -/

/-- What the wrap of counter `k` sends: the carries that name it, then its DONE. -/
def Leg.wrapItems (l : Leg) (k : Nat) (snap : List (Nat × Nat)) : List Due :=
  (((List.range l.stages).filter fun i => cuCarry (l.stOp i) && l.stCnt i == k).map fun i => .carry i snap) ++
  (if l.ctrDone k then [.entry (l.ctrPorts k) true (batonLanes (batonWord 1 k 0)) 0] else [])

/-- Counter `k` advances, or completes its series where `force` is set; a wrap advances the next level or may halt the chain. The
answer is the leg and what it sends. Log entry 61 (DEDUCED, unsafe). -/
def Leg.count (snap : List (Nat × Nat)) : Nat → Nat → Bool → Leg → Leg × List Due
  | 0, _, _, l => (l, [])
  | fuel + 1, k, force, l =>
    let v := Tab.get (fun _ => 0) l.values k + 1
    let full := match l.limits.find? (·.1 == k) with
      | some (_, some n) => decide (n ≤ v)
      | _ => false
    if force || full then
      let l1 := { l with values := Tab.set (fun _ => 0) l.values k 0, limits := Tab.erase l.limits k }
      let (l2, more) :=
        if k % 4 + 1 < l.levels (k / 4) then Leg.count snap fuel (k + 1) false l1
        else if l.ctrOnce k then ({ l1 with halted := (k / 4) :: l1.halted }, [])
        else (l1, [])
      (l2, l.wrapItems k snap ++ more)
    else ({ l with values := Tab.set (fun _ => 0) l.values k v }, [])

/-- An event advances level 0 of each chain that counts it: 0 a token sent, q + 1 a token taken from queue q. Log entry 61 (DEDUCED, unsafe). -/
def Leg.event (snap : List (Nat × Nat)) (ev : Nat) (l : Leg) : Leg × List Due :=
  (List.range 4).foldl (fun (r : Leg × List Due) c =>
    if 0 < r.1.levels c ∧ r.1.halted.contains c = false ∧ r.1.ctrEvent (4 * c) = ev then
      let (l', more) := Leg.count snap 5 (4 * c) false r.1
      (l', r.2 ++ more)
    else r) (l, [])

/-- The level of a chain that must take its limit next: outer levels first (R196). -/
def Leg.limitIn (l : Leg) (c : Nat) : Option Nat :=
  if l.halted.contains c then none
  else (List.range (l.levels c)).reverse.findSome? fun v => if l.limits.any (·.1 == 4 * c + v) then none else some (4 * c + v)

/-- The counter whose limit must be taken next. -/
def Leg.limitDue (l : Leg) : Option Nat := (List.range 4).findSome? l.limitIn

/-- The counter whose limit must be taken before one of some events: 0 a token sent, q + 1 a token taken from queue q. Log entry 61 (DEDUCED, unsafe). -/
def Leg.limitFor (l : Leg) (evs : List Nat) : Option Nat :=
  (List.range 4).findSome? fun c => if evs.contains (l.ctrEvent (4 * c)) then l.limitIn c else none

/-- The chain whose level a DONE ends (Table 8-2), where that level is enabled, ends on DONE and has not halted. -/
def Leg.doneChain (l : Leg) (e : QEntry) : Option Nat :=
  let w := e.lanes.headD 0 % 65536
  let level := w / 256 % 16
  if l.kind = 1 ∧ w / 4096 = 1 ∧ level % 4 < l.levels (level / 4) ∧ l.ctrLsrc level = 3 ∧ l.halted.contains (level / 4) = false then
    some (level / 4)
  else none

/-! Laps (R206 to R208). -/

/-- The legs of a lap from leg `x` on, until it comes round. Log entry 65 (DEDUCED, unsafe). -/
def State.lapFrom (s : State) (p u : Nat) : Nat → Nat → List Nat
  | 0, _ => []
  | fuel + 1, x => x :: (match s.leg p u x with
      | some l => State.lapFrom s p u fuel l.next
      | none => [])

/-- The first leg able to run in the lap from leg `x`, or `x` where there is none. Log entry 65 (DEDUCED, unsafe). -/
def State.lapStop (s : State) (p u x : Nat) : Nat := ((s.lapFrom p u 8 x).find? fun y => s.legRuns p u y).getD x

/-- Begin a switch to a leg: the last token of the old leg has left (R208). -/
def State.switchTo (s : State) (p u x target : Nat) : State :=
  let t := match s.leg p u x with
    | some l => s.setLeg p u x { l with sent := 0, target := none }
    | none => s
  (t.puts [(Reg.FLD_UNIT_STATE_ACTIVE_LEG p u, target), (Reg.FLD_UNIT_STATE_SWITCHING p u, 1)]).modUnit p u
    fun n => { n with old := some x }

/-- The move a LEG baton asks for, once what the leg has to send has left; a target that is invalid or another context's stops the leg (R206,
R208). -/
def State.legBatonMove (s : State) (p u x : Nat) (l : Leg) (target : Nat) : State :=
  match s.leg p u target with
  | some y =>
    if y.valid && y.slot == l.slot then
      (match s.leg p u x with
       | some z => if z.due.isEmpty then s.switchTo p u x target else s.setLeg p u x { z with target := some target }
       | none => s)
    else s.legFault p u x 8 u l Flt.LEG_INVALID
  | none => s.legFault p u x 8 u l Flt.LEG_INVALID

/-- The LEG baton at the head of a leg's entries, if there is one: its queue and target. -/
def State.legBatonAt (s : State) (p u x : Nat) : Option (Nat × Nat) :=
  (List.range 4).findSome? fun q => match s.headOfLeg p u q x with
    | some e => if e.baton && e.lanes.headD 0 / 4096 % 16 == 5 then some (q, e.lanes.headD 0 % 8) else none
    | none => none

/-- A leg with nothing left to send moves on where a LEG baton has asked for it, or where it has sent its quota: then to the target of a LEG
baton that comes with the token, or to NEXT_LEG (R206, R208). Log entry 65 (DEDUCED, unsafe). -/
def State.moveCheck (s : State) (p u x : Nat) : State :=
  match s.leg p u x with
  | none => s
  | some l =>
    if l.due ≠ [] ∨ s.on (Reg.FLD_UNIT_STATE_SWITCHING p u) = true ∨ s.legFaulted p u x = true then s
    else match l.target with
    | some t => s.switchTo p u x t
    | none =>
      if l.quota ≠ 0 ∧ l.quota ≤ l.sent then
        match s.legBatonAt p u x with
        | some (q, t) => (s.popLeg p u q x).legBatonMove p u x l t
        | none => s.switchTo p u x (s.lapStop p u l.next)
      else s

/-! Batons (R189). -/

/-- Does a leg forward a kind: bits DONE, SEL, SKIP and MARK of FWD_MASK? -/
def Leg.forwards (l : Leg) (b : Nat) : Bool := bit l.fwd b

/-- A leg consumes a SEAL of its region's tag, and is sealed once every queue it reads has given one (R224). -/
def State.sealTaken (s : State) (p u x q w : Nat) (l : Leg) : State :=
  let seals := q :: l.seals
  if l.reads.all fun k => seals.contains k then
    s.setLeg p u x { l with seals := seals, sealDone := true, due := l.due ++ [.entry l.openPorts true (batonLanes w) 0] }
  else s.setLeg p u x { l with seals := seals }

/-- The tag of the region that a leg is in. -/
def State.regionTag (s : State) (p u x : Nat) : Option Nat :=
  if s.inRegion p u x then (s.field p).grid.region.map fun r => cfgBits r.rcd 0 11 4 else none

/-- Where a forwarded baton stands in what a leg has to send: behind its tokens, but before a carry that has still to go on with the token behind
the baton (R189, R193). -/
def Due.put (due : List Due) (e : Due) : List Due :=
  match due with
  | .carry i v :: rest => e :: .carry i v :: rest
  | _ => due ++ [e]

/-- A leg acts on the baton at the head of queue `q` (Table 8-2). Log entry 62 (DESIGN CHOICE, unsafe). Log entry 65 (DEDUCED, unsafe). -/
def State.legBaton (s : State) (p u x q : Nat) (l : Leg) (e : QEntry) : State :=
  let w := e.lanes.headD 0 % 65536
  let kind := w / 4096
  let level := w / 256 % 16
  let payload := w % 256
  if kind = 0 ∨ 8 ≤ kind then s.legFault p u x 8 u l Flt.BATON_KIND
  else
    let t := (s.popLeg p u q x).progress p l.slot
    let send (l : Leg) : State := t.setLeg p u x { l with due := Due.put l.due (.entry l.openPorts true (batonLanes w) 0) }
    let pass (b : Nat) (l : Leg) : State := if l.forwards b then send l else t.setLeg p u x l
    match kind with
    | 1 =>
      let l := match Tab.get (fun _ => none) (l.skip.map fun y => (y.1, some y.2)) q with
        | some (.until v) => if level ≤ v then { l with skip := Tab.erase l.skip q } else l
        | _ => l
      if l.kind = 1 ∧ level % 4 < l.levels (level / 4) ∧ l.ctrLsrc level = 3 then
        if l.halted.contains (level / 4) then t.setLeg p u x l
        else
          let (l', items) := Leg.count l.values 5 level true l
          t.setLeg p u x { l' with due := l'.due ++ items }
      else pass 0 l
    | 2 => if l.kind = 1 ∧ l.route = 3 then t.setLeg p u x { l with sel := payload % 4 } else pass 1 l
    | 3 => pass 2 { l with skip := Tab.insert l.skip q (if payload = 0 then .until level else .count payload) }
    | 4 => match s.regionTag p u x with
      | some tag => if tag = payload then t.sealTaken p u x q w l else send l
      | none => send l
    | 5 => t.legBatonMove p u x l (payload % 8)
    | 6 => send l
    | _ =>
      let v := pass 3 l
      if l.mark then
        v.traceRec (match s.lfieldOf p with | some m => srcOf 1 m | none => 0) (s.ctxOf p l.slot) (.mark w u x l.lane0)
      else v

/-- Drop the data token at the head of a queue under a SKIP (Table 8-2). -/
def State.legDrop (s : State) (p u x q : Nat) (l : Leg) : State :=
  let l' := match (l.skip.find? (·.1 == q)).map (·.2) with
    | some (.count n) => if n ≤ 1 then { l with skip := Tab.erase l.skip q } else { l with skip := Tab.insert l.skip q (.count (n - 1)) }
    | _ => l
  ((s.popLeg p u q x).setLeg p u x l').progress p l.slot

/-- Is a SKIP in force on a queue? -/
def Leg.skips (l : Leg) (q : Nat) : Bool := l.skip.any (·.1 == q)

/-! Sending. -/

/-- A leg delivers the entry it has to send next, where its destinations take it (R194). -/
def State.legDeliver (s : State) (p u x : Nat) (l : Leg) : Option State :=
  match l.due with
  | .entry ports b lanes valid :: rest =>
    match s.sendOut p u x l ports b lanes valid with
    | none => none
    | some t =>
      if b then some (t.setLeg p u x { l with due := rest })
      else
        let (l', items) := Leg.event l.values 0 { l with due := rest, sent := l.sent + 1, lane0 := lanes.headD 0 }
        some (t.setLeg p u x { l' with due := items ++ l'.due })
  | _ => none

/-! The step of a compute unit (R190). -/

/-- What a leg does next. -/
inductive CuAct where
  | idle
  | starve (qs : List Nat)
  | send
  | carry (st : Nat) (snap : List (Nat × Nat))
  | baton (q : Nat) (e : QEntry)
  | drop (q : Nat)
  | limit (k : Nat)
  | token

/-- How a level takes its limit: from its token, once the batons and dropped tokens before it have gone, or at once (R196). -/
def State.limitAct (s : State) (p u x : Nat) (l : Leg) (k : Nat) : CuAct :=
  if l.ctrLsrc k = 2 then
    let q := l.ctrSrc k % 4
    match s.headOfLeg p u q x with
    | none => .starve [q]
    | some e => if e.baton then .baton q e else if l.skips q then .drop q else .limit k
  else .limit k

/-- What a baton at the head of a queue calls for: a DONE that ends a level waits until the levels of its chain have their limits. Log entry 61 (DEDUCED, unsafe). -/
def State.batonAct (s : State) (p u x : Nat) (l : Leg) (q : Nat) (e : QEntry) : Option CuAct :=
  match l.doneChain e with
  | none => some (.baton q e)
  | some c => match l.limitIn c with
    | none => some (.baton q e)
    | some k => match s.limitAct p u x l k with
      | .starve _ => none
      | a => some a

/-- A baton to act on or a token to drop at the head of some queues. Log entry 63 (DEDUCED, unsafe). -/
def State.headAct (s : State) (p u x : Nat) (l : Leg) (qs : List Nat) : Option CuAct :=
  match qs.findSome? fun q => match s.headOfLeg p u q x with
      | some e => if e.baton then s.batonAct p u x l q e else none
      | none => none with
  | some a => some a
  | none => qs.findSome? fun q => match s.headOfLeg p u q x with
      | some e => if l.skips q && !e.baton then some (CuAct.drop q) else none
      | none => none

/-- Queues with no entry for the leg, or with a baton that has to wait at their head. -/
def State.lacking (s : State) (p u x : Nat) (qs : List Nat) : List Nat :=
  qs.filter fun q => match s.headOfLeg p u q x with
    | some e => e.baton
    | none => true

/-- What a CU leg does next: a level takes its limit at the start of its series, before an event of the series (R195, R196). -/
def State.cuAct (s : State) (p u x : Nat) (l : Leg) : CuAct :=
  match l.due with
  | .entry _ b _ _ :: _ =>
    (match (if b then none else l.limitFor [0]) with
     | some k => s.limitAct p u x l k
     | none => .send)
  | .carry st snap :: _ =>
    let qs := l.segReads 6 (st + 1)
    (match l.limitFor (qs.map (· + 1)) with
     | some k => s.limitAct p u x l k
     | none => match s.headAct p u x l qs with
       | some a => a
       | none => if s.lacking p u x qs = [] then .carry st snap else .starve (s.lacking p u x qs))
  | [] =>
    if l.allHalted || l.sealDone then
      (match s.sealAt p u x l with
       | some q => match s.headOfLeg p u q x with
         | some e => .baton q e
         | none => .idle
       | none => .idle)
    else match l.limitDue with
      | some k =>
        (match s.limitAct p u x l k with
         | .starve qs => (s.headAct p u x l [0, 1, 2, 3]).getD (.starve qs)
         | a => a)
      | none => match s.headAct p u x l [0, 1, 2, 3] with
        | some a => a
        | none =>
          let qs := l.segReads 6 0
          if s.lacking p u x qs = [] then .token else .starve (s.lacking p u x qs)

/-- Is the carry that a leg has to send next held in its stages: its later stages need an entry that is absent (R193, R204)? -/
def State.carryStuck (s : State) (p u x : Nat) (l : Leg) : Bool :=
  match l.due with
  | .carry .. :: _ => (match s.cuAct p u x l with
    | .carry .. => false
    | .limit _ => false
    | _ => true)
  | _ => false

/-- LEG_SWITCH: a switch ends, and a unit whose active leg cannot run moves on in the lap, once the tokens in that leg's stages have left (R204,
R206 to R208). A carry whose later stages need an entry that is absent stays with its leg (R207). -/
def State.legSwitch (s : State) (p u : Nat) : State :=
  let x := s.get (Reg.FLD_UNIT_STATE_ACTIVE_LEG p u)
  if !s.gridRuns p || !s.on (Reg.FLD_GRID_CTRL_RUN p) then s
  else if s.on (Reg.FLD_UNIT_STATE_SWITCHING p u) then
    (s.put (Reg.FLD_UNIT_STATE_SWITCHING p u) 0).modUnit p u fun n => { n with old := none }
  else if s.legRuns p u x then s
  else
    let sends := match s.leg p u x with
      | some l => s.legSends p u x l && !l.due.isEmpty && !s.carryStuck p u x l
      | none => false
    let y := match s.leg p u x with
      | some _ => s.lapStop p u x
      | none => ((List.range 8).find? fun y => s.legRuns p u y).getD x
    if y = x ∨ sends = true then s else s.switchTo p u x y

def execLegSwitch (p : Fin 72) (u : Fin 32) (s : State) : Host.Outcome State Fault Refusal := answer (s.legSwitch p u)

/-- Take the heads of some queues: the state, the heads, and the AND of their masks. -/
def State.takeHeads (s : State) (p u x : Nat) (qs : List Nat) : State × (Nat → List Nat) × Nat :=
  let es := qs.map fun q => (q, (s.headOfLeg p u q x).getD (QEntry.data x [] 0))
  (qs.foldl (fun t q => t.popLeg p u q x) s,
   (fun q => match es.find? (·.1 == q) with
     | some e => e.2.lanes
     | none => []),
   es.foldl (fun m e => m &&& e.2.valid) allLanes)

/-- A token goes through the stages from `i`; what it does to the leg is its carry, or its output at the front of what is due. The mask of a carry is
the OR of those of its tokens. Log entry 61 (DEDUCED, unsafe). Log entry 135 (DESIGN CHOICE, safe). Log entry 155 (DESIGN CHOICE, unsafe). -/
def State.cuPass (s : State) (p u x : Nat) (l : Leg) (i : Nat) (prev : List Nat) (mask : Nat) (snap : List (Nat × Nat)) : State :=
  let qs := l.segReads 6 i
  let (t, heads, m) := s.takeHeads p u x qs
  let e : CuEnv := { heads := heads, vals := Tab.get (fun _ => 0) snap, mask := m &&& mask,
                     idle := fun n => (Config.idleLane (32 * s.fresh + n)).toNat }
  let (l1, first) := match l.pass e 8 i prev with
    | .carry k xs =>
      let o := l.stOp k
      let c := (l.carry.find? (·.1 == k)).map (·.2)
      let old := match c with
        | some c => c.lanes
        | none => List.replicate 32 (carryReset o)
      let new := (List.range 32).map fun n => if bit e.mask n then carryLane o (old.getD n 0) (xs.getD n 0) else old.getD n 0
      let was := match c with
        | some c => c.mask
        | none => 0
      ({ l with carry := Tab.insert l.carry k { lanes := new, mask := was ||| e.mask } }, [])
    | .out lanes pred =>
      let ports := l.outPorts pred
      (l, if ports = 0 then [] else [Due.entry ports false lanes e.mask])
  let (l2, items) := qs.foldl (fun (r : Leg × List Due) q =>
    let (l', more) := Leg.event snap (q + 1) r.1
    (l', r.2 ++ more)) (l1, [])
  ((t.bumpFresh).setLeg p u x { l2 with due := first ++ items ++ l2.due }).progress p l.slot

/-- A level takes its limit (R196): one that its value has already reached, or of 0, completes the series at once. -/
def State.cuLimit (s : State) (p u x : Nat) (l : Leg) (k : Nat) : State :=
  let q := l.ctrSrc k % 4
  let tok := s.headOfLeg p u q x
  let v := match l.ctrLsrc k with
    | 0 => some (l.ctrLimit k)
    | 1 => some (s.get (Reg.FLD_CTX_SHAPE_VALUE p (16 * l.slot + l.ctrSrc k)))
    | 2 => match tok with
      | some e => some (if bit e.valid (l.ctrLane k) then e.lanes.getD (l.ctrLane k) 0 else (Config.idleLane (32 * s.fresh + l.ctrLane k)).toNat)
      | none => some 0
    | _ => none
  let t := if l.ctrLsrc k = 2 then ((s.popLeg p u q x).bumpFresh).progress p l.slot else s
  match v with
  | none => t.setLeg p u x { l with limits := Tab.insert l.limits k none }
  | some n =>
    if 16777215 < n then t.legFault p u x 8 u l Flt.CNT_LIMIT
    else if n ≤ Tab.get (fun _ => 0) l.values k then
      let (l', items) := Leg.count l.values 5 k true l
      t.setLeg p u x { l' with due := items ++ l'.due }
    else t.setLeg p u x { l with limits := Tab.insert l.limits k (some n) }

/-- A leg delivers what it has to send next, where it can. -/
def State.dueSend (s : State) (p u x : Nat) : State :=
  match s.leg p u x with
  | some l => (s.legDeliver p u x l).getD s
  | none => s

/-- The carry of stage `st` goes on through the stages after it, and is reset (R193). -/
def State.cuCarryOn (s : State) (p u x : Nat) (l : Leg) (st : Nat) (snap : List (Nat × Nat)) : State :=
  let (lanes, mask) := match (l.carry.find? (·.1 == st)).map (·.2) with
    | some c => (c.lanes, c.mask)
    | none => (List.replicate 32 (carryReset (l.stOp st)), allLanes)
  (s.cuPass p u x { l with carry := Tab.erase l.carry st, due := l.due.drop 1 } (st + 1) lanes mask snap).dueSend p u x

/-- A leg of a CU takes its next action. -/
def State.cuDo (s : State) (p u x : Nat) (l : Leg) : State :=
  match s.cuAct p u x l with
  | .idle => s
  | .starve _ => s
  | .send => (s.legDeliver p u x l).getD s
  | .carry st snap => s.cuCarryOn p u x l st snap
  | .baton q e => (s.legBaton p u x q l e).dueSend p u x
  | .drop q => s.legDrop p u x q l
  | .limit k => (s.cuLimit p u x l k).dueSend p u x
  | .token => (s.cuPass p u x l 0 [] allLanes l.values).dueSend p u x

/-- The leg a unit works for: the one it is leaving, until its last token has left, or the active one. -/
def State.unitLeg (s : State) (p u : Nat) : Nat :=
  if s.on (Reg.FLD_UNIT_STATE_SWITCHING p u) then (s.unit p u).old.getD (s.get (Reg.FLD_UNIT_STATE_ACTIVE_LEG p u))
  else s.get (Reg.FLD_UNIT_STATE_ACTIVE_LEG p u)

/-- Is a leg in a region that is being flushed (R226)? Log entry 70 (DEDUCED, unsafe). -/
def State.flushed (s : State) (p u x : Nat) : Bool :=
  s.inRegion p u x && (match (s.field p).grid.region with
    | some r => cfgBits r.rcd 0 1 0 == 1
    | none => false)

/-- May a unit's leg only finish what it has to send: RUN is 0, the unit is switching, its context is descheduled, or its region is being
flushed? -/
def State.flushOnly (s : State) (p u : Nat) : Bool :=
  !s.on (Reg.FLD_GRID_CTRL_RUN p) || s.on (Reg.FLD_UNIT_STATE_SWITCHING p u) || s.flushed p u (s.unitLeg p u) ||
    (match s.leg p u (s.unitLeg p u) with
     | some l => !s.legLive p u (s.unitLeg p u) l
     | none => false)

/-- A leg finishes what is in its stages, a carry among them (R204). -/
def State.cuFinish (s : State) (p u x : Nat) (l : Leg) : State :=
  if l.due = [] then s
  else match s.cuAct p u x l with
    | .limit k => s.cuLimit p u x l k
    | .carry st snap => s.cuCarryOn p u x l st snap
    | _ => (s.legDeliver p u x l).getD s

/-- The leg that a unit of a kind may work for now. -/
def State.turn (s : State) (p u kind : Nat) : Option (Nat × Leg) :=
  if s.gridRuns p then
    match s.leg p u (s.unitLeg p u) with
    | some l => if l.kind = kind ∧ s.legSends p u (s.unitLeg p u) l = true then some (s.unitLeg p u, l) else none
    | none => none
  else none

/-- What a compute unit does with a step: its leg finishes what it has to send, or takes its next action with a permit (R46). -/
def State.cuTurn (s : State) (p u : Nat) : State :=
  match s.turn p u 1 with
  | none => s
  | some (x, l) =>
    (if s.flushOnly p u then s.cuFinish p u x l else if s.mayStep p u then (s.stepTaken p u).cuDo p u x l else s).moveCheck p u x

/-- CU_STEP: a compute unit takes its queue heads, passes one token through its stages and delivers at most one token. Entries on their way move
before and after (R181). -/
def State.cuStep (s : State) (p u : Nat) : State := ((s.gridSettle p).cuTurn p u).gridSettle p

def execCuStep (p : Fin 72) (u : Fin 16) (s : State) : Host.Outcome State Fault Refusal := answer (s.cuStep p u)

/-! Address generators (R199 to R204). -/

def Leg.agMode (l : Leg) (g : Nat) : Nat := l.ag g 0 3 0
def Leg.agTarget (l : Leg) (g : Nat) : Nat := l.ag g 0 6 4
def Leg.agDq (l : Leg) (g : Nat) : Nat := l.ag g 1 1 0
def Leg.agIq (l : Leg) (g : Nat) : Nat := l.ag g 1 3 2
def Leg.agOut (l : Leg) (g : Nat) : Nat := l.ag g 1 5 4
def Leg.agSlice (l : Leg) (g : Nat) : Bool := l.ag g 1 6 6 == 1
def Leg.agEmit (l : Leg) (g : Nat) : Bool := l.ag g 1 7 7 == 1
def Leg.agLevel (l : Leg) (g : Nat) : Nat := l.ag g 2 3 0
def Leg.agElems (l : Leg) (g : Nat) : Nat := l.ag g 4 15 0
def Leg.agRing (l : Leg) (g : Nat) : Nat := l.ag g 6 3 0
def Leg.agBase (l : Leg) (g : Nat) : Nat := l.ag g 8 47 0
def Leg.agCount (l : Leg) (g d : Nat) : Nat := l.ag g (16 + 6 * d) 15 0
def Leg.agStride (l : Leg) (g d : Nat) : Int := signed 32 (l.ag g (16 + 6 * d) 47 16)
def Leg.agWrites (l : Leg) (g : Nat) : Bool := l.agMode g == 2 || l.agMode g == 4 || l.agMode g == 6

/-- Tokens of dimension `d`, 1 where it is not used. -/
def Leg.agN (l : Leg) (g d : Nat) : Nat := max 1 (l.agCount g d)

/-- Tokens of an affine pattern, and of a step of dimensions 2 and 3. -/
def Leg.agTotal (l : Leg) (g : Nat) : Nat := l.agN g 0 * l.agN g 1 * l.agN g 2 * l.agN g 3
def Leg.agStep (l : Leg) (g : Nat) : Nat := l.agN g 0 * l.agN g 1

/-- The address of token `t` of an affine pattern (R200). -/
def Leg.agAffine (l : Leg) (g t : Nat) : Nat :=
  let n0 := l.agN g 0
  let n1 := l.agN g 1
  let n2 := l.agN g 2
  wrapInt 48 ((l.agBase g : Int) + (t % n0 : Nat) * l.agStride g 0 + (t / n0 % n1 : Nat) * l.agStride g 1 +
    (t / (n0 * n1) % n2 : Nat) * l.agStride g 2 + (t / (n0 * n1 * n2) : Nat) * l.agStride g 3)

/-- The address of token `j` of index `i` (R201). -/
def Leg.agIndexed (l : Leg) (g i j : Nat) : Nat := wrapInt 48 ((l.agBase g : Int) + signed 32 i * l.agStride g 0 + (128 * j : Nat))

/-- The position of a generator. -/
def AgPos.reset : AgPos := { pos := 0, idx := [], row := none, ring := false, ended := false }
def Leg.agPos (l : Leg) (g : Nat) : AgPos := Tab.get (fun _ => AgPos.reset) l.ags g
def Leg.setAg (l : Leg) (g : Nat) (a : AgPos) : Leg := { l with ags := Tab.set (fun _ => AgPos.reset) l.ags g a }

/-- The index of -1 (R201). Log entry 63 (DEDUCED, unsafe). -/
def noIndex : Nat := 2 ^ 32 - 1

/-- What a generator does next. -/
inductive AgAct where
  | idle
  | ring
  | starve (q : Nat)
  | index
  | row (r : Nat)
  | next
  | read (addr : Option Nat)
  | write (addr : Option Nat)
  | baton (level : Nat)
  | readCol (e s : Nat)

/-- The data token at the head of a leg's entries in a queue: a baton there is no token of a generator (R189). -/
def State.tokenOfLeg (s : State) (p u q x : Nat) : Option QEntry :=
  match s.headOfLeg p u q x with
  | some e => if e.baton then none else some e
  | none => none

/-- A write of a token of the data queue, once it has come. -/
def State.agWriteAct (s : State) (p u x : Nat) (l : Leg) (g : Nat) (addr : Option Nat) : AgAct :=
  if (s.tokenOfLeg p u (l.agDq g) x).isNone then .starve (l.agDq g) else .write addr

/-- Items of a CSR row: its tokens, and the DONEs among them (R201). -/
def Leg.csrItems (l : Leg) (g n : Nat) : Nat :=
  let em := b2n (l.agEmit g)
  if l.agSlice g then l.agElems g * (n + em) + em else n * l.agElems g + em

/-- Item `k` of a CSR row that starts at entry `e0` and has `n` entries. -/
def Leg.csrItem (l : Leg) (g e0 n k : Nat) : AgAct :=
  let em := b2n (l.agEmit g)
  if l.agSlice g then
    if k < l.agElems g * (n + em) then
      if k % (n + em) < n then .readCol (e0 + k % (n + em)) (k / (n + em)) else .baton (l.agLevel g)
    else .baton (l.agLevel g + 1)
  else if k < n * l.agElems g then .readCol (e0 + k / l.agElems g) (k % l.agElems g)
  else .baton (l.agLevel g)

/-- What a generator does next. One of a sealed leg has only the slot of its last step to publish or free (R203, R224). -/
def State.agAct (s : State) (p u x : Nat) (l : Leg) (g : Nat) : AgAct :=
  let a := l.agPos g
  let m := l.agMode g
  let ringWait := l.agTarget g == 3 && (!a.ring || a.ended)
  if m = 0 ∨ 6 < m then .idle
  else if l.sealDone then (if l.agTarget g = 3 ∧ a.ended = true then .ring else .idle)
  else if m ≤ 2 then
    if a.pos < l.agTotal g then
      if ringWait then .ring
      else if m = 1 then .read (some (l.agAffine g a.pos))
      else s.agWriteAct p u x l g (some (l.agAffine g a.pos))
    else if a.pos = l.agTotal g ∧ l.agEmit g = true then .baton (l.agLevel g)
    else if l.agTarget g = 3 ∧ a.ended = true then .ring
    else .idle
  else match a.idx with
  | [] => if (s.tokenOfLeg p u (l.agIq g) x).isNone then .starve (l.agIq g) else .index
  | i :: _ =>
    if m = 5 then
      match a.row with
      | none => .row i
      | some (e0, n) =>
        if l.csrItems g n ≤ a.pos then .next
        else match l.csrItem g e0 n a.pos with
          | .readCol e k => if ringWait then .ring else .readCol e k
          | b => b
    else if ringWait then .ring
    else
      let addr := if i = noIndex then none else some (l.agIndexed g i a.pos)
      if m = 3 then .read addr else s.agWriteAct p u x l g addr

/-- The position after an item. -/
def Leg.agAdvance (l : Leg) (g : Nat) : Leg :=
  let a := l.agPos g
  let m := l.agMode g
  if m ≤ 2 then
    l.setAg g { a with pos := a.pos + 1,
                       ended := a.ended || (l.agTarget g == 3 && decide (a.pos < l.agTotal g) && (a.pos + 1) % l.agStep g == 0) }
  else if m = 5 then
    let n := match a.row with
      | some (_, n) => n
      | none => 0
    if a.pos + 1 < l.csrItems g n then l.setAg g { a with pos := a.pos + 1 }
    else l.setAg g { a with pos := 0, idx := a.idx.drop 1, row := none }
  else if a.pos + 1 < l.agElems g then l.setAg g { a with pos := a.pos + 1 }
  else l.setAg g { a with pos := 0, idx := a.idx.drop 1 }

/-- The index of a generator as an agent: 4 × MU + AG (Table 22-3). -/
def agIndex (u g : Nat) : Nat := 4 * (u - 16) + g

/-- An address that a generator may not form on its target (R202). -/
def State.agBadAddr (s : State) (p : Nat) (l : Leg) (g a : Nat) : Bool :=
  a % 4 != 0 || (match l.agTarget g with
    | 0 => decide (2 ^ 18 < a + 128)
    | 1 => decide (2 ^ 24 < a + 128)
    | 2 => false
    | _ => decide (s.ringSlotBytes p (l.agRing g) < a + 128))

/-- Where a generator's access of `n` bytes at address `a` lies in the MU's storage or in Field memory, once nothing holds it up: none for a VA, or
while a bank sleeps. -/
def State.agPlace (s : State) (p u : Nat) (l : Leg) (g a n : Nat) (write : Bool) : Option Nat :=
  let fm (off : Nat) : Option Nat :=
    if s.windowOk p l.slot off n && (s.sleepingBank? p off n).isNone then some (fmLoc p off) else none
  let r := l.agRing g
  match l.agTarget g with
  | 0 => some (muLoc p (u - 16) a)
  | 1 => fm a
  | 2 => none
  | _ => fm ((if write then s.ringSlotAt p r (s.get (Reg.FLD_RING_STATE_HEAD p r)) else s.ringReadAt p r) + a)

/-- Read a token (Table 8-5); the first five verdicts are of its words (R243, R251). A VA goes through the cache where its context uses it (R240). -/
def State.agRead (s : State) (p u : Nat) (l : Leg) (g a : Nat) (es : List (Fin 8 × Ecc)) : State × FarEnd (List Byte) :=
  let t := match s.agPlace p u l g a 128 false with
    | some o => s.fmEccs p o 128 (es.filter fun e => decide (e.1.val < 5))
    | none => s
  (t, match l.agTarget g with
    | 0 => FarEnd.ofRead (t.muRead p (u - 16) a 128)
    | 1 => FarEnd.ofRead (t.fmRead p (some l.slot) a 128)
    | 2 => t.farRead p 4 (agIndex u g) l.slot true a 128
    | _ => FarEnd.ofRead (t.fmRead p (some l.slot) (t.ringReadAt p (l.agRing g) + a) 128))

/-- The runs of valid lanes of a token: byte offset and bytes. -/
def laneRuns (mask : Nat) (bs : List Byte) : List (Nat × List Byte) :=
  (List.range 32).foldr (fun n rs =>
    if bit mask n then
      let w := (bs.drop (4 * n)).take 4
      match rs with
      | (o, ws) :: rest => if o = 4 * (n + 1) then (4 * n, w ++ ws) :: rest else (4 * n, w) :: rs
      | [] => [(4 * n, w)]
    else rs) []

/-- Write runs of bytes. -/
def State.runsWrite (s : State) (put : State → Nat → List Byte → FarEnd Unit) : List (Nat × List Byte) → FarEnd Unit
  | [] => .ok s ()
  | (o, bs) :: rest =>
    match put s o bs with
    | .ok t _ => State.runsWrite t put rest
    | .wait t => .wait t
    | .err e => .err e

/-- Ask for the remote pieces of runs of bytes at VAs. The answer tells whether every piece can be had now. -/
def State.runsAsk (s : State) (x : FarAgent) (a : Nat) : List (Nat × List Byte) → Acc (State × Bool)
  | [] => .ok (s, true)
  | (o, bs) :: rest => do
    let (t, b) ← s.farAsk x .write (x.pieces ((a + o) % 2 ^ 48) bs.length) bs
    let (u, c) ← State.runsAsk t x a rest
    .ok (u, b && c)

/-- Write runs of bytes at VAs whose responses have come. -/
def State.runsPut (s : State) (x : FarAgent) (a : Nat) : List (Nat × List Byte) → Acc State
  | [] => .ok s
  | (o, bs) :: rest => do
    let t ← s.farPut x (x.pieces ((a + o) % 2 ^ 48) bs.length) bs
    State.runsPut t x a rest

/-- Write runs of bytes at VAs: each is sent and charged once, and the write ends when every one can be had (R338). -/
def State.runsFar (s : State) (x : FarAgent) (a : Nat) (rs : List (Nat × List Byte)) : FarEnd Unit :=
  match s.runsAsk x a rs with
  | .error e => .err e
  | .ok (t, false) => .wait t
  | .ok (t, true) => FarEnd.ofWrite (t.runsPut x a rs)

/-- Write the valid lanes of a token. Log entry 63 (DEDUCED, unsafe). -/
def State.agWrite (s : State) (p u : Nat) (l : Leg) (g a mask : Nat) (bs : List Byte) : FarEnd Unit :=
  let rs := laneRuns mask bs
  match l.agTarget g with
  | 0 => s.runsWrite (fun t o b => FarEnd.ofWrite (t.muWrite p (u - 16) (a + o) b)) rs
  | 1 => s.runsWrite (fun t o b => FarEnd.ofWrite (t.fmWrite p (some l.slot) (a + o) b)) rs
  | 2 => match s.farAgent p 4 (agIndex u g) l.slot true with
    | none => .err (.xlt Flt.XLT_NOT_PRESENT a 0 true)
    | some x => s.runsFar x a rs
  | _ =>
    let n := l.agRing g
    s.runsWrite (fun t o b => FarEnd.ofWrite ((t.fmWrite p (some l.slot)
      (t.ringSlotAt p n (t.get (Reg.FLD_RING_STATE_HEAD p n)) + a + o) b).map fun v => v.ringLand p n (a + o) b.length)) rs

/-- What the code finds in the words that a token's valid lanes cover only in part, and so are read (R243, R251). -/
def State.agWriteEcc (s : State) (p u : Nat) (l : Leg) (g a mask : Nat) (es : List (Fin 8 × Ecc)) : State :=
  match s.agPlace p u l g a 128 true with
  | none => s
  | some o =>
    let rs := laneRuns mask (List.replicate 128 0)
    s.fmEccs p o 128 (es.filter fun e => decide (e.1.val < 5) && (match (eccWords o 128)[e.1.val]? with
      | some w => rs.any (fun r => decide (o + r.1 < w + 32 ∧ w < o + r.1 + r.2.length)) && !rs.any fun r => coversWord (o + r.1) r.2.length w
      | none => false))

/-- A scatter-add of a token at a VA (Table 8-5): in the local stacks, or by a request to the part that holds it. -/
def State.agScatter (s : State) (p u : Nat) (l : Leg) (g va mask : Nat) (bs : List Byte) : FarEnd Unit :=
  match s.farAgent p 4 (agIndex u g) l.slot false with
  | none => .err (.xlt Flt.XLT_NOT_PRESENT va 0 true)
  | some x => s.scatterVa x { va := va, fmt := l.ag g 3 4 0, mask := mask, bs := bs }

/-- What a failed access does to a generator: it waits, or its leg stops. Log entry 64 (DESIGN CHOICE, unsafe). -/
def State.agFail (s : State) (p u x : Nat) (l : Leg) (g : Nat) (e : AccErr) : State :=
  let c := (s.ctxOf p l.slot).getD 0
  let t := s.accFail p 4 (agIndex u g) l.slot e
  match t.stopCode p 4 (agIndex u g) c with
  | some code => (t.agentEnd p 4 (agIndex u g) c).legMark p u x code
  | none => t

/-- A word of an index array (R201): outside its memory it is out of range. Verdict `k` is of the word that is read (R243, R251). -/
def State.agArray (s : State) (p u : Nat) (l : Leg) (g off : Nat) (i : Int) (k : Nat) (es : List (Fin 8 × Ecc)) :
    Option (State × Acc (State × Nat)) :=
  let inMu := l.ag g 46 0 0 == 1
  let a := (off : Int) + 4 * i
  if a < 0 ∨ (if inMu then 2 ^ 18 else 2 ^ 24) < a + 4 then none
  else
    let o := if inMu then muLoc p (u - 16) a.toNat else fmLoc p a.toNat
    let here := inMu || (s.windowOk p l.slot a.toNat 4 && (s.sleepingBank? p a.toNat 4).isNone)
    let t := if here then (es.filter fun e => e.1.val == k).foldl (fun t e => t.fmEcc p (eccWord o) e.2) s else s
    some (t, (if inMu then t.muRead p (u - 16) a.toNat 4 else t.fmRead p (some l.slot) a.toNat 4).map fun x => (x.1, leNat x.2))

/-- Send a token that a generator has read. -/
def State.agEmitTok (s : State) (p u x : Nat) (l : Leg) (g : Nat) (bs : List Byte) : Option State :=
  match s.sendOut p u x l (2 ^ l.agOut g) false (lanesOf bs) allLanes with
  | none => none
  | some t =>
    let l' := l.agAdvance g
    some (t.setLeg p u x { l' with sent := l'.sent + 1, lane0 := (lanesOf bs).headD 0 })

/-- Read a token at an address and send it. -/
def State.agReadSend (s : State) (p u x : Nat) (l : Leg) (g a : Nat) (es : List (Fin 8 × Ecc)) : State :=
  if s.agBadAddr p l g a then s.legFault p u x 4 (agIndex u g) l Flt.AG_RANGE
  else match s.agRead p u l g a es with
  | (v, .err e) => v.agFail p u x l g e
  | (_, .wait t) => t
  | (v, .ok t bs) => (t.agEmitTok p u x l g bs).getD v

/-- The next item of a generator. Log entry 63 (DEDUCED, unsafe). -/
def State.agDo (s : State) (p u x : Nat) (l : Leg) (g : Nat) (es : List (Fin 8 × Ecc)) : State :=
  let fault (t : State) (code : Nat) : State := t.legFault p u x 4 (agIndex u g) l code
  match s.agAct p u x l g with
  | .idle => s
  | .ring => s
  | .starve _ => s
  | .index =>
    match s.tokenOfLeg p u (l.agIq g) x with
    | none => s
    | some e =>
      let ids := (maskLanes e.valid).map fun n => e.lanes.getD n 0
      ((s.popLeg p u (l.agIq g) x).setLeg p u x (l.setAg g { l.agPos g with pos := 0, idx := ids, row := none })).progress p l.slot
  | .row r =>
    match s.agArray p u l g (l.ag g 40 47 24) (signed 32 r) 5 es with
    | none => fault s Flt.AG_RANGE
    | some (v, .error e) => v.agFail p u x l g e
    | some (_, .ok (t, e0)) =>
      match t.agArray p u l g (l.ag g 40 47 24) (signed 32 r + 1) 6 es with
      | none => fault t Flt.AG_RANGE
      | some (v, .error e) => v.agFail p u x l g e
      | some (_, .ok (t, e1)) =>
        if e1 < e0 then fault t Flt.CSR_ORDER
        else t.setLeg p u x (l.setAg g { l.agPos g with pos := 0, row := some (e0, e1 - e0) })
  | .next => s.setLeg p u x (l.agAdvance g)
  | .baton v =>
    match s.sendOut p u x l (2 ^ l.agOut g) true (batonLanes (batonWord 1 v 0)) 0 with
    | none => s
    | some t => t.setLeg p u x (l.agAdvance g)
  | .read none => (s.agEmitTok p u x l g (List.replicate 128 0)).getD s
  | .read (some a) => s.agReadSend p u x l g a es
  | .readCol e k =>
    match s.agArray p u l g (l.ag g 40 23 0) e 5 es with
    | none => fault s Flt.AG_RANGE
    | some (v, .error err) => v.agFail p u x l g err
    | some (_, .ok (t, col)) => t.agReadSend p u x l g (l.agIndexed g col k) es
  | .write addr =>
    match s.tokenOfLeg p u (l.agDq g) x with
    | none => s
    | some e =>
      let done (t : State) : State := ((t.popLeg p u (l.agDq g) x).setLeg p u x (l.agAdvance g)).progress p l.slot
      match addr with
      | none => done s
      | some a =>
        if s.agBadAddr p l g a then fault s Flt.AG_RANGE
        else
          let v := if l.agMode g = 6 then s else s.agWriteEcc p u l g a e.valid es
          match (if l.agMode g = 6 then v.agScatter p u l g a e.valid (laneBytes e.lanes)
                 else v.agWrite p u l g a e.valid (laneBytes e.lanes)) with
          | .err err => v.agFail p u x l g err
          | .wait t => t
          | .ok t _ => done t

/-- Is an index token of a queue in work, so that what stands behind it in the queue waits? A generator that takes its data from the same queue
needs what stands there. Log entry 63 (DEDUCED, unsafe). -/
def Leg.indexHolds (l : Leg) (q : Nat) : Bool :=
  (List.range 4).any fun g =>
    decide (3 ≤ l.agMode g) && l.agIq g == q && !(l.agPos g).idx.isEmpty && !(l.agWrites g && l.agDq g == q)

/-- A baton or a token to drop at the head of a queue of an MU leg. A baton behind the index token in work waits for it. -/
def State.muHead (s : State) (p u x : Nat) (l : Leg) : Option CuAct := s.headAct p u x l ([0, 1, 2, 3].filter fun q => !l.indexHolds q)

/-- What a memory unit does with a step of generator `g`: it sends what is due, acts on the batons before it, and reads or writes one token with a
permit (R46). Log entry 63 (DEDUCED, unsafe). -/
def State.agTurn (s : State) (p u g : Nat) (es : List (Fin 8 × Ecc)) : State :=
  match s.turn p u 2 with
  | none => s
  | some (x, l) =>
    let c := (s.ctxOf p l.slot).getD 0
    (match s.stopCode p 4 (agIndex u g) c with
     | some code => (s.agentEnd p 4 (agIndex u g) c).legMark p u x code
     | none =>
       if !l.due.isEmpty then (s.legDeliver p u x l).getD s
       else if s.flushOnly p u || l.sealDone || s.agentWaits p 4 (agIndex u g) c || !s.mayStep p u then s
       else match s.muHead p u x l with
       | some (.baton q e) => (s.stepTaken p u).legBaton p u x q l e
       | some (.drop q) => (s.stepTaken p u).legDrop p u x q l
       | _ => (s.stepTaken p u).agDo p u x l g es).moveCheck p u x

/-- AG_TOKEN: a generator of a memory unit reads or writes one token, once the unit has sent and acted on the batons before it. `eccs` is what the
code finds in the words that it reads: 0 to 4 those of the token, 5 and 6 those of the index array (R251). Entries on their way move before and after (R181). -/
def State.agToken (s : State) (p u g : Nat) (es : List (Fin 8 × Ecc)) : State := ((s.gridSettle p).agTurn p u g es).gridSettle p

def execAgToken (p : Fin 72) (m : Fin 16) (g : Fin 4) (eccs : List (Fin 8 × Ecc)) (s : State) : Host.Outcome State Fault Refusal :=
  answer (s.agToken p (16 + m) g eccs)

/-- Does a generator that has to do with its ring go on: the step of its slot has ended, or there is a slot for it to take (R203)? -/
def State.agRingGoes (s : State) (p : Nat) (l : Leg) (g : Nat) : Bool :=
  let n := l.agRing g
  let a := l.agPos g
  (a.ring && a.ended) ||
    (s.ringOpOk p n l.slot && (if l.agWrites g then s.ringHeadFree p n else s.ringReady p n && !(s.ringX p n).consHeld))

/-- A generator publishes or frees the slot whose step has ended (R203). -/
def State.agSlotEnd (s : State) (p u x : Nat) (l : Leg) (g : Nat) : State :=
  let a := l.agPos g
  if a.ring && a.ended then
    ((if l.agWrites g then s.ringPublishTop p (l.agRing g) else s.ringConsume p (l.agRing g)).setLeg p u x
      (l.setAg g { a with ring := false, ended := false })).progress p l.slot
  else s

/-- AG_RING_SLOT: a generator on a slot ring publishes or frees the slot whose step has ended, or takes its next one (R203). -/
def State.agRingSlot (s : State) (p u g : Nat) : State :=
  let x := s.unitLeg p u
  match s.leg p u x with
  | none => s
  | some l =>
    let n := l.agRing g
    if l.kind ≠ 2 ∨ s.gridRuns p = false ∨ s.legLive p u x l = false ∨ s.flushOnly p u = true ∨ l.agTarget g ≠ 3 then s
    else match s.agAct p u x l g with
    | .ring =>
      let a := l.agPos g
      if !s.agRingGoes p l g then s
      else if a.ring && a.ended then s.agSlotEnd p u x l g
      else (if l.agWrites g then s.ringTake p n else s.ringHold p n).setLeg p u x (l.setAg g { a with ring := true })
    | _ => s

def execAgRingSlot (p : Fin 72) (m : Fin 16) (g : Fin 4) (s : State) : Host.Outcome State Fault Refusal :=
  answer (s.agRingSlot p (16 + m) g)

/-! Stall counters (R211, R212). -/

/-- Why a unit's active leg does not go on: the queues it waits on, the full switch-box places that refuse what it has to send, and the rings
whose slots its generators wait for, with whether they read them. -/
structure Stall where
  queues : List Nat
  full : List Nat
  rings : List (Nat × Bool)
  deriving DecidableEq, Repr

/-- It goes on. -/
def Stall.none : Stall := { queues := [], full := [], rings := [] }

/-- Is BACKPRESSURE in force: a destination refuses, or a generator finds no slot (R203, R211)? -/
def Stall.blocked (x : Stall) : Bool := !x.full.isEmpty || !x.rings.isEmpty

/-- The full places that refuse what a leg has to send. -/
def State.sendBlocked (s : State) (p u : Nat) (l : Leg) : List Nat :=
  match l.due with
  | .entry ports _ _ _ :: _ => s.fullOuts p u l ports
  | _ => []

/-- What holds a generator back, or none where it goes on. -/
def State.agStall (s : State) (p u x : Nat) (l : Leg) (g : Nat) : Option Stall :=
  let out := if s.fullOuts p u l (2 ^ l.agOut g) = [] then Option.none else some { Stall.none with full := s.fullOuts p u l (2 ^ l.agOut g) }
  match s.agAct p u x l g with
  | .idle => some Stall.none
  | .ring => if s.agRingGoes p l g then Option.none else some { Stall.none with rings := [(l.agRing g, !l.agWrites g)] }
  | .starve q => some { Stall.none with queues := [q] }
  | .read _ => out
  | .readCol .. => out
  | .baton _ => out
  | _ => Option.none

/-- What the active leg of a unit waits for (R211). A memory unit waits where none of its generators goes on. -/
def State.unitStall (s : State) (p u : Nat) : Stall :=
  let x := s.unitLeg p u
  match s.leg p u x with
  | none => .none
  | some l =>
    if s.legLive p u x l = false ∨ s.gridRuns p = false then .none
    else if s.sendBlocked p u l ≠ [] then { Stall.none with full := s.sendBlocked p u l }
    else if s.flushOnly p u ∨ l.due ≠ [] ∧ l.kind = 2 then .none
    else if l.kind = 1 then
      match s.cuAct p u x l with
      | .starve qs => { Stall.none with queues := qs }
      | _ => .none
    else if (s.muHead p u x l).isSome then .none
    else
      let gs := (List.range 4).map (s.agStall p u x l)
      if gs.all Option.isSome then
        { queues := (gs.filterMap id).flatMap (·.queues), full := (gs.filterMap id).flatMap (·.full), rings := (gs.filterMap id).flatMap (·.rings) }
      else .none

/-- Does a sender hold an entry that a queue refuses? -/
def State.queueRefuses (s : State) (p u q : Nat) : Bool :=
  (s.field p).grid.links.any fun e => match e.2 with
    | t :: _ => t.path.isEmpty && t.unit == u && t.q == q && (s.accept p u q t.entry t.src).isNone
    | [] => false

/-- Counters of a unit and of its queues that advance in this period. -/
def State.stallTick (s : State) (p u : Nat) : State :=
  let st := s.unitStall p u
  let inc (b : Bool) (a : Nat) (t : State) : State := if b then t.count48 a 1 else t
  let base (k : Nat) : Nat := Reg.aFLD_UNIT_STALL_LO p (4 * u + k)
  let starved := st.queues
  let t := inc (!starved.isEmpty) (base 0) (inc st.blocked (base 1) (inc (s.on (Reg.FLD_UNIT_STATE_SWITCHING p u)) (base 2)
    (inc (s.get (Reg.FLD_UNIT_STATE_FAULTED_LEGS p u) != 0) (base 3) s)))
  (List.range 4).foldl (fun t q =>
    inc (s.queueRefuses p u q) (Reg.aFLD_Q_STALL_LO p (8 * u + 2 * q))
      (inc (starved.contains q) (Reg.aFLD_Q_STALL_LO p (8 * u + 2 * q + 1)) t)) t

/-- STALL_COUNT_TICK: in each oscillator period the counters whose conditions hold advance. -/
def execStallCountTick (p : Fin 72) (s : State) : Host.Outcome State Fault Refusal :=
  answer ((List.range 32).foldl (fun t u => t.stallTick p u) s)

/-- GRID_CNT_CLEAR: the selected counters and their flags are zero (R212). -/
def State.cntClear (s : State) (p : Nat) (units queues : Bool) : State :=
  let zero (t : State) (a : Nat) : State := (t.setReg a 0).setReg (a + 4) 0
  let t := if units then (List.range 128).foldl (fun t n => zero t (Reg.aFLD_UNIT_STALL_LO p n)) s else s
  if queues then (List.range 256).foldl (fun t n => zero t (Reg.aFLD_Q_STALL_LO p n)) t else t

def execGridCntClear (p : Fin 72) (units queues : Bool) (s : State) : Host.Outcome State Fault Refusal :=
  answer (s.cntClear p units queues)

/-! Grid ports that post (R183). -/

/-- GP_POST_BIND: a write to FLD_GP_POST binds or unbinds a post port. A TARGET above 10, a port bound to the channel unit and a
port bound to another peer leave the register unchanged. Log entry 31 (DESIGN CHOICE, unsafe). -/
def State.gpPostBind (s : State) (p g v : Nat) : State :=
  let target := bits v 3 0
  let peer := s.get (Reg.FLD_GP_BIND_PEER p g)
  if 10 < target then s
  else if target = 0 then
    let t := s.puts [(Reg.FLD_GP_POST_TARGET p g, 0), (Reg.FLD_GP_POST_CTX p g, bits v 5 4)]
    if peer = 5 then t.gpFree p g else t
  else if s.get (Reg.FLD_CH_PORT_BIND_ROLE p g) ≠ 0 ∨ (peer ≠ 0 ∧ peer ≠ 5) then s
  else s.puts [(Reg.FLD_GP_POST_TARGET p g, target), (Reg.FLD_GP_POST_CTX p g, bits v 5 4), (Reg.FLD_GP_BIND_PEER p g, 5),
    (Reg.FLD_GP_BIND_CTX_SLOT p g, bits v 5 4), (Reg.FLD_GP_BIND_INDEX p g, 0)]

def execGpPostBind (p : Fin 72) (g : Fin 16) (value : Word) (s : State) : Host.Outcome State Fault Refusal :=
  answer (s.gpPostBind p g value.toNat)

/-- Show the reconfiguration port's queue. -/
def State.reconfShow (s : State) (p : Nat) : State :=
  s.put (Reg.FLD_RECONF_STATUS_QUEUED p) (s.field p).grid.reconfQ.length

/-- Post a region record, from the DCS or from a leg (R222, R476). -/
def State.reconfPostTo (s : State) (p slot off : Nat) (poster : Option Nat) : PostEnd :=
  s.postTo p 10 0 slot off 64 ((s.field p).grid.reconfQ.map (·.1)) 4 4 fun t x =>
    (t.modGrid p fun g => { g with reconfQ := g.reconfQ ++ [(x, poster)] }).reconfShow p

/-- Show the walker. -/
def State.walkShow (s : State) (p : Nat) : State :=
  let g := (s.field p).grid
  let t := s.puts [(Reg.FLD_WALK_STATUS_QUEUED p, g.walkQ.length), (Reg.FLD_WALK_STATUS_BUSY p, b2n (!g.walks.isEmpty)),
    (Reg.FLD_WALK_STATUS_SUSPENDED p, b2n (g.walks.any (·.suspended)))]
  match g.walks.head? with
  | some r => t.put (Reg.FLD_WALK_STATUS_CTX_SLOT p) r.slot
  | none => t

/-- Post a walk descriptor (R230). -/
def State.walkPostTo (s : State) (p slot off : Nat) : PostEnd :=
  s.postTo p 6 0 slot off 64 (s.field p).grid.walkQ 4 4 fun t x =>
    (t.modGrid p fun g => { g with walkQ := g.walkQ ++ [x] }).walkShow p

/-- What a grid post comes to: it is disabled, it is posted or refused as its target rules, or the target's register does not take the word. -/
inductive GridEnd where
  | disabled
  | posted (agent index : Nat) (overrun : RF) (e : PostEnd)
  | overrun (f : RF)

/-- The post of a word to a target (R183): the enable of grid posts first, then the rules of the target. Log entry 64 (DESIGN CHOICE, unsafe). -/
def State.gridPostTo (s : State) (p target slot w src : Nat) : GridEnd :=
  let seq (a : Nat) : GridEnd :=
    if s.on (Reg.FLD_SEQ_CTRL_GRID_POST_EN p) then
      .posted a 0 (Reg.FLD_SEQ_STATUS_ISSUE_OVERRUN p a) (s.seqPostTo p a slot (128 * bits w 23 7))
    else .disabled
  match target with
  | 1 => seq 0
  | 2 => seq 1
  | 3 =>
    if s.on (Reg.FLD_ENG_CTRL_VE_GRID_POST_EN p) then
      .posted (engAgent 0) 0 (Reg.FLD_ENG_STATUS_ISSUE_OVERRUN p 0) (s.engPostTo p 0 slot (64 * bits w 23 6))
    else .disabled
  | 4 =>
    if s.on (Reg.FLD_ENG_CTRL_RE_GRID_POST_EN p) then
      (if bit w 6 then .overrun (Reg.FLD_ENG_STATUS_ISSUE_OVERRUN p 1)
       else .posted (engAgent 1) 0 (Reg.FLD_ENG_STATUS_ISSUE_OVERRUN p 1) (s.engPostTo p 1 slot (64 * bits w 23 6)))
    else .disabled
  | 9 => .posted 10 0 (Reg.FLD_RECONF_STATUS_ISSUE_OVERRUN p) (s.reconfPostTo p slot (64 * bits w 23 6) (some src))
  | 10 => .posted 6 0 (Reg.FLD_WALK_STATUS_ISSUE_OVERRUN p) (s.walkPostTo p slot (64 * bits w 23 6))
  | d => .posted 5 (d - 5) (Reg.FLD_DMA_STATUS_ISSUE_OVERRUN p (d - 5)) (s.dmaPostTo p (d - 5) slot (64 * bits w 23 6))

/-- GRID_POST: the entry that has reached a post port posts lane 0 for the binding's context. A full target holds it and sets no bit; any other
post goes as a DCS post does (R183); a disabled one has no effect and stops the posting leg; a baton is ignored. Log entry 64 (DESIGN CHOICE, unsafe). -/
def State.gridPost (s : State) (p g : Nat) : State :=
  match s.portHead p g with
  | none => s
  | some (_, t) =>
    if s.get (Reg.FLD_GP_BIND_PEER p g) ≠ 5 then s
    else if t.entry.baton then s.portPop p g
    else
      let slot := s.get (Reg.FLD_GP_POST_CTX p g)
      match s.gridPostTo p (s.get (Reg.FLD_GP_POST_TARGET p g)) slot (t.entry.lanes.headD 0) t.src with
      | .disabled =>
        let u := t.src / 8
        let x := t.src % 8
        match s.leg p u x with
        | some l => (s.portPop p g).legFault p u x 8 u l Flt.GRID_POST
        | none => s.portPop p g
      | .overrun f => (s.portPop p g).put f 1
      | .posted agent index f .invalid => (s.portPop p g).postInvalid p agent index f
      | .posted _ _ _ .full => s
      | .posted _ _ _ (.done v) => (v.portPop p g).progress p slot

def execGridPost (p : Fin 72) (g : Fin 16) (s : State) : Host.Outcome State Fault Refusal := answer (s.gridPost p g)

/-! The checks of a leg as it is loaded (R205). -/

/-- A route word of Table 8-7. -/
def routeOk (w : Nat) : Bool :=
  let one (d q x : Nat) : Bool := decide (d < 32) || (decide (d < 48) && q == 0 && x == 0) || d == 63
  one (bits w 5 0) (bits w 7 6) (bits w 10 8) && one (bits w 17 12) (bits w 19 18) (bits w 22 20) && !bit w 11 && bits w 31 23 == 0

/-- Are all bytes from `o` up to `o + n` zero? -/
def zeroBytes (c : List Byte) (o n : Nat) : Bool := ((c.drop o).take n).all (· == 0)

/-- A stage word of Table 8-8. -/
def Leg.stageOk (l : Leg) (i : Nat) : Bool :=
  cuOpOk (l.stOp i) && [l.stX i, l.stY i, l.stP i].all (fun c => decide (c ≤ 8) && (c != 4 || i != 0))

/-- A counter word of Table 8-9. -/
def Leg.counterOk (l : Leg) (k : Nat) : Bool :=
  l.counter k 31 30 == 0 && l.counter k 63 45 == 0 && (if k % 4 = 0 then decide (l.ctrEvent k ≤ 4) else l.ctrEvent k == 0) &&
  (!l.ctrEn k || decide (k % 4 < l.levels (k / 4))) && (l.ctrLsrc k != 2 || decide (l.ctrSrc k < 4))

/-- A generator word of Table 8-10. One that is off may name up to 256 tokens an index, and its dimensions are in order. Log entry 155 (DESIGN CHOICE,
unsafe). -/
def Leg.agOk (l : Leg) (g : Nat) : Bool :=
  let m := l.agMode g
  l.ag g 0 7 7 == 0 && l.ag g 2 7 4 == 0 && l.ag g 3 7 5 == 0 && l.ag g 6 7 4 == 0 && l.ag g 7 7 0 == 0 && l.ag g 14 15 0 == 0 &&
  l.ag g 46 15 1 == 0 && decide (m ≤ 6) && decide (l.agTarget g ≤ 3) &&
  (if m = 6 then l.agTarget g == 2 && (l.ag g 3 4 0 == fmtINT32 || l.ag g 3 4 0 == fmtBF16 || l.ag g 3 4 0 == fmtFP32) else l.ag g 3 4 0 == 0) &&
  (if m = 0 then decide (l.agElems g ≤ 256) else if m ≤ 2 then l.agElems g == 0 else decide (1 ≤ l.agElems g ∧ l.agElems g ≤ 256)) &&
  (2 < m || (List.range 3).all fun d => l.agCount g d != 0 || l.agCount g (d + 1) == 0) &&
  !(m == 5 && l.agSlice g && l.agLevel g == 15)

/-- A leg configuration of unit `u` (R205), on its own. -/
def Leg.ok (l : Leg) (u : Nat) : Bool :=
  let c := l.cfg
  let b1 := cfgBits c 1 7 0
  l.kind == (if u < 16 then 1 else 2) && !bit b1 3 && !bit b1 7 && cfgBits c 5 7 4 == 0 && zeroBytes c 24 8 &&
  (if u < 16 then
     decide (l.route ≤ 4) && decide (1 ≤ l.stages ∧ l.stages ≤ 6) && cfgBits c 4 7 4 == 0 && routeOk (l.routeWord 0) &&
     routeOk (l.routeWord 1) && l.routeWord 2 == 0 && l.routeWord 3 == 0 && ((List.range l.stages).all l.stageOk) && ((List.range 6).all fun i => l.stage i 31 24 == 0) &&
     ((List.range 16).all l.counterOk) && zeroBytes c 208 48
   else
     l.route == 0 && cfgBits c 4 7 0 == 0 && ((List.range 4).all fun o => routeOk (l.routeWord o)) && ((List.range 4).all l.agOk) &&
     zeroBytes c 224 32)

/-- The reservations of the valid legs of a unit total at most 16 a queue, with leg `x` as it would be loaded (R186). -/
def State.reserveOk (s : State) (p u x : Nat) (l : Leg) : Bool :=
  !l.valid || (List.range 4).all fun q =>
    decide ((s.unit p u).legs.foldl (fun n e => if e.1 ≠ x ∧ e.2.valid = true then n + e.2.reserve q else n) (l.reserve q) ≤ 16)

/-- A leg of a physical Field as one number. -/
def legKey (p u x : Nat) : Nat := (32 * p + u) * 8 + x

/-- The reconfiguration port stores the CRC-32C of a leg it writes (R514). -/
def State.legCrc (s : State) (p u x : Nat) (cfg : List Byte) : State :=
  { s with plane := { s.plane with crcs := Tab.insert s.plane.crcs (legKey p u x) (crc32c cfg) } }

/-- Load a leg (R205, R227): a configuration that breaks a rule is refused with FLT_LEG_CONFIG, and the leg stays invalid. The answer
tells whether it was written. Log entry 134 (DESIGN CHOICE, unsafe). -/
def State.loadLeg (s : State) (p u x : Nat) (cfg : List Byte) (agent : Nat) : State × Bool :=
  let l := Leg.fresh cfg
  if l.ok u && s.reserveOk p u x l then
    ((((s.setLeg p u x l).legCrc p u x cfg).put (Reg.FLD_UNIT_STATE_FAULTED_LEGS p u)
      (setBits (s.get (Reg.FLD_UNIT_STATE_FAULTED_LEGS p u)) x x 0)).unitShow p u, true)
  else
    (((s.modUnit p u fun n => { n with legs := n.legs.filter (·.1 != x) }).fieldFault p agent (if agent = 8 then u else 0)
      (s.ctxOf p l.slot) Flt.LEG_CONFIG 0).unitShow p u, false)

end Sys2Proof.Machine
end

