-- ==== Sys2Proof/Machine/Channels.lean ====
section
/-!
DEFINITION. The channel unit: opening and closing channels, sending and delivering records, and hurdle operations (chapter 11).
-/

namespace Sys2Proof.Machine

/-! Reads by a control core (R237): no window bounds them. -/

/-- Bytes of Field memory that a control core prepared; a sleeping bank wakes first. An uncorrectable word is a fault. Log entry 102 (DESIGN CHOICE, unsafe). -/
def State.coreRead (s : State) (p off n : Nat) : State × Option (List Byte) :=
  if 2 ^ 24 < off + n then (s.chFault p none Flt.FM_PROTECT off, none)
  else
    let t := s.awake p off n false
    match t.badWord? (fmLoc p off) n with
    | some w => ((t.fmUncorrSeen p w false).chFault p none Flt.FM_UNCORR (bits w 23 0), none)
    | none => (t, some (t.mread (fmLoc p off) n))

/-! Opening and closing (R253, R254, R269). -/

/-- Fields of a channel descriptor (Table 11-1). -/
def chCtx (d : List Byte) : Nat := fw d 0 9 8
def chRx (d : List Byte) : Nat := fw d 0 14 10
def chSize (d : List Byte) : Nat := fw d 0 19 15
def chRemote (d : List Byte) : Bool := fbit d 0 23
def chRing (d : List Byte) : Nat := fw d 1 23 0
def chLf (d : List Byte) : Nat := fw d 3 5 0
def chDev (d : List Byte) : Nat := fw d 3 15 6
def chTx (d : List Byte) : Nat := fw d 3 20 16

/-- The credit limit in bytes. -/
def chLimit (d : List Byte) : Nat := if fw d 2 15 0 = 0 then 2 ^ chSize d - 32 else 32 * fw d 2 15 0

/-- The Field and resident slot of a sender on this part. -/
def State.chSender (s : State) (p : Nat) (d : List Byte) : Option (Nat × Nat) :=
  match s.physOf (chLf d), s.ctxOf p (chCtx d) with
  | some q, some c => (s.slotOf q c).map fun k => (q, k)
  | _, _ => none

/-- Are the reserved fields of a channel descriptor zero (Table 11-1)? -/
def chReservedOk (d : List Byte) : Bool :=
  fw d 0 31 24 == 0 && fw d 1 31 24 == 0 && fw d 2 31 16 == 0 && fw d 3 31 21 == 0 && ((d.drop 16).take 16).all (· == 0)

/-- The checks of an OPEN (R253, R404). Log entry 76 (DEDUCED, unsafe). -/
def State.chOpenOk (s : State) (p : Nat) (d : List Byte) : Bool :=
  chReservedOk d && decide (12 ≤ chSize d ∧ chSize d ≤ 20) && chRing d % 2 ^ chSize d == 0 && (s.ctxOf p (chCtx d)).isSome &&
  s.windowOk p (chCtx d) (chRing d) (2 ^ chSize d) && (s.rxChan p (chRx d)).isNone &&
  (fw d 2 15 0 == 0 || decide (min (2 ^ chSize d - 32) 65536 / 32 ≤ fw d 2 15 0)) &&
  (if chRemote d then true
   else chDev d == s.deviceId && (match s.chSender p d with
     | some (q, _) => (s.txChan q (chTx d)).isNone
     | none => false))

/-- Open the routes of the records and of the returned credit of a channel user between two places (R55, R57). -/
def State.chRoutes (s : State) (p n c : Nat) (a b : NetNode) : State := (s.routeOpen (.chan p n false) c a b).routeOpen (.chan p n true) c b a

/-- Set up both ends of a channel, which is open once the sender's end acknowledges (R254). -/
def State.chSetUp (s : State) (p : Nat) (d : List Byte) : State :=
  let n := chRx d
  let gen := (s.get (Reg.FLD_CH_RX_STATE_GEN p n) + 1) % 2048
  let t := (s.puts [(Reg.FLD_CH_RX_STATE_CTX p n, chCtx d), (Reg.FLD_CH_RX_STATE_PRIORITY p n, fw d 0 22 20),
      (Reg.FLD_CH_RX_STATE_SIZE_LOG2 p n, chSize d), (Reg.FLD_CH_RX_STATE_GEN p n, gen), (Reg.FLD_CH_RX_STATE_CLOSING p n, 0),
      (Reg.FLD_CH_WPTR_WPTR p n, 0), (Reg.FLD_CH_RPTR_RPTR p n, 0), (Reg.FLD_CH_STATUS_BUSY p, 1)]).setRx p n
    { ringOff := chRing d, txLf := chLf d, txDev := chDev d, remote := chRemote d, txIdx := chTx d, limit := chLimit d, owed := 0,
      extended := 0, silt := [], waitAck := true, farIdle := false }
  let c := (s.ctxOf p (chCtx d)).getD 0
  if chRemote d then t.chRoutes p n c (s.nodeOfDev (chDev d)) (nodeOfField p)
  else match s.chSender p d with
  | none => t
  | some (q, k) =>
    ((t.chRoutes p n c (nodeOfField q) (nodeOfField p)).puts [(Reg.FLD_CH_TX_STATE_CTX q (chTx d), k), (Reg.FLD_CH_TX_STATE_CLOSING q (chTx d), 0), (Reg.FLD_CH_TX_STATE_WAITING q (chTx d), 0),
        (Reg.FLD_CH_TX_STATE_CREDIT q (chTx d), chLimit d / 32)]).setTx q (chTx d)
      { rxLf := (s.lfieldOf p).getD 0, rxDev := s.deviceId, remote := false, rxIdx := n, gen := gen, sizeLog2 := chSize d, limit := chLimit d,
        woff := 0, seq := 0, queue := [] }

/-- Mark both ends of a channel CLOSING, and free it where it can be (R269). -/
def State.chClosing (s : State) (p n : Nat) : State :=
  match s.rxChan p n with
  | none => s
  | some r =>
    let t := s.put (Reg.FLD_CH_RX_STATE_CLOSING p n) 1
    let u := match s.rxSender r with
      | some q => t.put (Reg.FLD_CH_TX_STATE_CLOSING q r.txIdx) 1
      | none => t
    u.chTryFree p n

/-- A post of a channel descriptor: OVERRUN while the unit is busy, and otherwise the descriptor. -/
def State.chPost (s : State) (p v : Nat) : State × Option (List Byte) :=
  if s.on (Reg.FLD_CH_STATUS_BUSY p) then (s.put (Reg.FLD_CH_STATUS_OVERRUN p) 1, none)
  else s.coreRead p (32 * bits v 23 5) 32

/-- CH_OPEN: a write to FLD_CH_OPEN whose descriptor is an OPEN, or has a reserved OPCODE, which is refused. Log entry 76 (DEDUCED, unsafe). -/
def State.chOpen (s : State) (p v : Nat) : State :=
  match s.chPost p v with
  | (t, none) => t
  | (t, some d) =>
    if fw d 0 7 0 = 0x61 then s
    else if fw d 0 7 0 = 0x60 ∧ t.chOpenOk p d = true then t.chSetUp p d
    else t.chFault p (s.ctxOf p (chCtx d)) Flt.CH_MALFORMED 0

/-- CH_CLOSE: a write to FLD_CH_OPEN whose descriptor is a CLOSE; one with a reserved field that is not zero is refused (R9). A channel of another
context is left alone. Log entry 76 (DEDUCED, unsafe). -/
def State.chClose (s : State) (p v : Nat) : State :=
  match s.chPost p v with
  | (t, none) => t
  | (t, some d) =>
    if fw d 0 7 0 ≠ 0x61 then s
    else if !chReservedOk d then t.chFault p (s.ctxOf p (chCtx d)) Flt.CH_MALFORMED 0
    else if t.get (Reg.FLD_CH_RX_STATE_CTX p (chRx d)) = chCtx d then t.chClosing p (chRx d) else t

def execChOpen (p : Fin 72) (value : Word) (s : State) : Host.Outcome State Fault Refusal := answer (s.chOpen p value.toNat)
def execChClose (p : Fin 72) (value : Word) (s : State) : Host.Outcome State Fault Refusal := answer (s.chClose p value.toNat)

/-- CH_OPEN_ACK: the sender's endpoint has acknowledged its set-up and the channel reads open. The acknowledgement of a remote channel sets
up the endpoint on the part of its sender. The ends of a remote channel learn of its closing in the same way (R269). Log entry 77 (DESIGN CHOICE, safe). -/
def State.chOpenAck (s : State) (p : Nat) (a : OpenAck) : State :=
  match a with
  | .receiver n =>
    match s.rxChan p n with
    | none => s
    | some r =>
      if !r.waitAck then s
      else
        let t := (s.puts [(Reg.FLD_CH_RX_STATE_OPEN p n, 1), (Reg.FLD_CH_STATUS_BUSY p, 0)]).setRx p n { r with waitAck := false }
        match s.rxSender r with
        | some q => t.put (Reg.FLD_CH_TX_STATE_OPEN q r.txIdx) 1
        | none => t
  | .closing n =>
    (match s.txChan p n with
    | some t => if t.remote then s.put (Reg.FLD_CH_TX_STATE_CLOSING p n) 1 else s
    | none => s)
  | .idle n =>
    (match s.rxChan p n with
    | some r => if r.remote && s.on (Reg.FLD_CH_RX_STATE_CLOSING p n) then (s.setRx p n { r with farIdle := true }).chTryFree p n else s
    | none => s)
  | .freed n =>
    (match s.txChan p n with
    | some t => if t.remote && t.queue.isEmpty && s.on (Reg.FLD_CH_TX_STATE_CLOSING p n) then s.txFree p n else s
    | none => s)
  | .sender n slot dev lf rx gen size limit =>
    if (s.txChan p n).isSome ∨ (s.ctxOf p slot).isNone then s
    else
      ((s.chRoutes p (32 + n) ((s.ctxOf p slot).getD 0) (nodeOfField p) (s.nodeOfDev dev)).puts [(Reg.FLD_CH_TX_STATE_OPEN p n, 1), (Reg.FLD_CH_TX_STATE_CLOSING p n, 0), (Reg.FLD_CH_TX_STATE_CTX p n, slot),
          (Reg.FLD_CH_TX_STATE_WAITING p n, 0), (Reg.FLD_CH_TX_STATE_CREDIT p n, limit / 32)]).setTx p n
        { rxLf := lf, rxDev := dev, remote := true, rxIdx := rx, gen := gen, sizeLog2 := size, limit := limit, woff := 0, seq := 0, queue := [] }

def execChOpenAck (p : Fin 72) (a : OpenAck) (s : State) : Host.Outcome State Fault Refusal := answer (s.chOpenAck p a)

/-! Sending (R258 to R262). -/

/-- The context of a send endpoint. -/
def State.txCtx (s : State) (p n : Nat) : Option Nat := s.ctxOf p (s.get (Reg.FLD_CH_TX_STATE_CTX p n))

/-- Queue a record at a send endpoint. -/
def State.txQueue (s : State) (p n : Nat) (r : ChRecord) : State :=
  match s.txChan p n with
  | none => s
  | some t => s.setTx p n { t with queue := t.queue ++ [r] }

/-- CH_SEND: a write to FLD_CH_SEND takes a prepared record (R262); it is refused by the checks of R259 and R269. -/
def State.chSend (s : State) (p v : Nat) : State :=
  let n := bits v 4 0
  let off := 32 * bits v 23 5
  if s.on (Reg.FLD_CH_STATUS_BUSY p) then s.put (Reg.FLD_CH_STATUS_OVERRUN p) 1
  else match s.coreRead p off 16 with
  | (t, none) => t
  | (t, some h) =>
    let len := fw h 1 31 0
    match t.sendCheck p n (fw h 0 7 0) len with
    | some code => t.chFault p (s.txCtx p n) code n
    | none => match t.coreRead p (off + 16) len with
      | (u, none) => u
      | (u, some payload) =>
        (u.txQueue p n { typ := fw h 0 7 0, len := len, tag := fw h 3 31 0, payload := payload, claimed := false, padFirst := false,
                         fromCore := true }).put (Reg.FLD_CH_STATUS_BUSY p) 1

def execChSend (p : Fin 72) (value : Word) (s : State) : Host.Outcome State Fault Refusal := answer (s.chSend p value.toNat)

/-- Is a grid port bound to the channel unit in a role? -/
def State.chPort (s : State) (p g role : Nat) : Bool :=
  s.get (Reg.FLD_GP_BIND_PEER p g) == 3 && s.get (Reg.FLD_CH_PORT_BIND_ROLE p g) == role

/-- May the context of a port bound to the channel unit be served? -/
def State.chPortLive (s : State) (p g : Nat) : Bool :=
  s.gridRuns p && (match s.ctxOf p (s.get (Reg.FLD_CH_PORT_BIND_CTX p g)) with
    | some c => s.ctxActive c
    | none => false)

/-- The record of a leg that a send endpoint holds and that lacks payload. -/
def TxChan.partial' (t : TxChan) : Option ChRecord := t.queue.find? fun r => !r.fromCore && decide (r.payload.length < r.len)

/-- LEG_RECORD_SEND: a token at a send-endpoint port is a header, or payload of the record begun. A record that waits for credit holds its
payload; a refused record's payload is discarded; batons are dropped (R259, R261, R262, R268). Log entry 78 (DEDUCED, unsafe). -/
def State.legSend (s : State) (p g : Nat) : State :=
  if !s.chPort p g 1 || !s.chPortLive p g then s
  else match s.portHead p g with
  | none => s
  | some (_, e) =>
    let n := s.get (Reg.FLD_CH_PORT_BIND_INDEX p g)
    let skip := Tab.get (fun _ => 0) (s.field p).ch.legSkip g
    let ctx := s.ctxOf p (s.get (Reg.FLD_CH_PORT_BIND_CTX p g))
    let pop := (s.stepTaken p unitCh).portPop p g
    if !s.permitted p unitCh then s
    else if e.entry.baton then pop
    else if 0 < skip then pop.modCh p fun x => { x with legSkip := Tab.set (fun _ => 0) x.legSkip g (skip - 1) }
    else match (s.txChan p n).bind (·.partial') with
    | some r =>
      if !r.claimed then s
      else
        let r' := { r with payload := (r.payload ++ laneBytes e.entry.lanes).take r.len }
        (pop.modCh p fun x =>
          { x with tx := x.tx.map fun y => if y.1 == n then (n, { y.2 with queue := y.2.queue.map fun z => if z == r then r' else z }) else y }).progress p
            (s.get (Reg.FLD_CH_PORT_BIND_CTX p g))
    | none =>
      if (match s.txChan p n with
          | some t => !t.queue.isEmpty
          | none => false) then s
      else
        let h := laneBytes (e.entry.lanes.take 4)
        let len := fw h 1 31 0
        let t := pop.progress p (s.get (Reg.FLD_CH_PORT_BIND_CTX p g))
        match s.sendCheck p n (fw h 0 7 0) len with
        | some code =>
          (t.chFault p ctx code n).modCh p fun x => { x with legSkip := Tab.set (fun _ => 0) x.legSkip g (ceilDiv len 128) }
        | none =>
          t.txQueue p n { typ := fw h 0 7 0, len := len, tag := fw h 3 31 0, payload := [], claimed := false, padFirst := false, fromCore := false }

def execLegRecordSend (p : Fin 72) (g : Fin 16) (s : State) : Host.Outcome State Fault Refusal := answer (s.legSend p g)

/-- Drop the record at the head of an endpoint after a failed write to its ring; a CLOSING channel may be free now (R269). Log entry 78 (DEDUCED, unsafe). -/
def State.txDrop (s : State) (p n : Nat) : State :=
  match s.txChan p n with
  | none => s
  | some t =>
    let u := (s.setTx p n { t with queue := t.queue.drop 1 }).put (Reg.FLD_CH_STATUS_BUSY p)
      (match t.queue.head? with
       | some r => if r.fromCore then 0 else s.get (Reg.FLD_CH_STATUS_BUSY p)
       | none => s.get (Reg.FLD_CH_STATUS_BUSY p))
    match (if t.remote then none else s.physOf t.rxLf) with
    | some q => u.chTryFree q t.rxIdx
    | none => u

/-- Has an endpoint a record at its head that the channel unit can work on: one whose span is still to claim, or that is complete? -/
def State.txReady (s : State) (p n : Nat) : Bool :=
  match (s.txChan p n).bind fun t => t.queue.head?.map fun r => s.txWay p n t && (!r.claimed || decide (r.len ≤ r.payload.length)) with
  | some b => b
  | none => false

/-- RECORD_PLACE: once credit covers it, the record at the head of a send endpoint is placed, or sent to another part (R256, R260, R266). A
sleeping bank holds it; a ring outside its context's windows is a fault. Log entry 76 (DEDUCED, unsafe). -/
def State.recordPlace (s : State) (p n : Nat) : State :=
  if !s.permitted p unitCh then s
  else
  let s := if s.txReady p n then s.stepTaken p unitCh else s
  match s.txAdvance p n with
  | .ok t => t.flushOutbound p
  | .error (.protect o) => (s.txDrop p n).chFault p (s.txCtx p n) Flt.FM_PROTECT o
  | .error (.fmUncorr a) => ((s.fmUncorrSeen (fieldOfWord p a) a false).txDrop p n).chFault p (s.txCtx p n) Flt.FM_UNCORR (bits a 23 0)
  | .error e => s.wakeFor e

def execRecordPlace (p : Fin 72) (n : Fin 32) (s : State) : Host.Outcome State Fault Refusal := answer (s.recordPlace p n)

/-- CREDIT_UPDATE: the ring bytes that RPTR has passed return to the sending endpoint, by a CH_CREDIT where it lies on another part (R258,
R266). They wait while a seam of their route is shut (R54). -/
def State.creditUpdate (s : State) (p n : Nat) : State :=
  match s.rxChan p n with
  | none => s
  | some r =>
    if r.owed = 0 || !s.routeUp (.chan p n true) || !s.permitted p unitCh then s
    else
      let t := (s.stepTaken p unitCh).setRx p n { r with owed := 0 }
      if r.remote then
        if !s.on (Reg.QPL_ROUTE_VALID 0 r.txDev) then s
        else
        let id := n + 32 * s.get (Reg.FLD_CH_RX_STATE_GEN p n)
        t.qplPost { QMsg.request 0x88 r.txDev r.txLf 0 0 (id % 65536 + 65536 * r.txIdx) r.owed [] with
                    tag := 0xFFFF, srcDev := s.deviceId, srcLf := (s.lfieldOf p).getD 0 }
      else match s.physOf r.txLf with
      | some q => t.setTxCredit q r.txIdx (t.txCredit q r.txIdx + r.owed)
      | none => t

def execCreditUpdate (p : Fin 72) (n : Fin 32) (s : State) : Host.Outcome State Fault Refusal := answer (s.creditUpdate p n)

/-! Receiving (R263 to R265). -/

/-- The round-robin position of a group moves when RPTR of its chosen channel advances (R264): of the group that has delivered the record, and of
every other that chooses the channel. -/
def State.selMoved (s : State) (p n : Nat) (grp : Option Nat) : State :=
  (List.range 4).foldl (fun t g =>
    if s.on (Reg.FLD_CH_SEL_CTRL_MODE p g) && (grp == some g || s.selChoice p g == some n) then
      t.modCh p fun x => { x with selLast := Tab.set (fun _ => 31) x.selLast g n }
    else t) s

/-- RPTR_WRITE: a write to FLD_CH_RPTR releases records, or sets RPTR_ERR where its value is not 32-byte aligned or not between RPTR and
WPTR (R263). Log entry 78 (DEDUCED, unsafe). -/
def State.rptrWrite (s : State) (p n v : Nat) : State :=
  let ring := s.ringSize p n
  let d := (v + ring - s.get (Reg.FLD_CH_RPTR_RPTR p n)) % ring
  if (s.rxChan p n).isSome && v % 32 == 0 && decide (v < ring) && decide (d ≤ s.ringUsed p n) then
    (if d = 0 then s else s.selMoved p n none).rptrAdvance p n v
  else s.put (Reg.FLD_CH_RX_STATE_RPTR_ERR p n) 1

def execRptrWrite (p : Fin 72) (n : Fin 32) (value : Word) (s : State) : Host.Outcome State Fault Refusal :=
  answer (s.rptrWrite p n (bits value.toNat 19 0))

/-- The next entry of the delivery of a record: the header, a payload token, or the DONE after it. -/
def deliverEntry (h payload : List Byte) (k : Nat) (done : Option Nat) (x : Nat) : Option QEntry :=
  let len := fw h 1 31 0
  let toks := ceilDiv len 128
  if k = 0 then some (QEntry.data x (lanesOf (padTo 128 h)) 15)
  else if k ≤ toks then
    let bs := (payload.drop (128 * (k - 1))).take (min 128 (len - 128 * (k - 1)))
    some (QEntry.data x (lanesOf (padTo 128 bs)) (2 ^ ((bs.length + 3) / 4) - 1))
  else if k = toks + 1 then done.map fun v => { baton := true, leg := x, lanes := batonLanes (batonWord 1 v 0), valid := 0 }
  else none

/-- Has every entry that a grid port has sent been accepted at its queue (R265)? -/
def State.portAccepted (s : State) (p g : Nat) : Bool := (s.field p).grid.links.all fun k => k.2.all fun t => t.src != portSender g

/-- The delivery of a record ends once the leg has accepted the last of its entries: RPTR passes the record (R265). -/
def State.deliverEnd (s : State) (p g grp n slot next : Nat) : State :=
  if s.portAccepted p g then
    (((s.modCh p fun c => { c with selPos := Tab.erase c.selPos grp }).selMoved p n (some grp)).rptrAdvance p n next).progress p slot
  else s

/-- SELECT_DELIVER: a select group sends the next token of the record it chose through the port bound to it, to leg `x` at queue `q` of unit
`u`; RPTR advances once the leg has accepted the last (R265, R268). -/
def State.selectDeliver (s : State) (p g u q x : Nat) : State :=
  let grp := s.get (Reg.FLD_CH_PORT_BIND_INDEX p g) % 4
  if !s.chPort p g 2 || !s.chPortLive p g || !s.on (Reg.FLD_CH_SEL_CTRL_DELIVER p grp) || !s.permitted p unitCh then s
  else
    let cur := ((s.field p).ch.selPos.find? fun e => e.1 == grp).map (·.2)
    match (match cur with
      | some v => some (v % 32, v / 32)
      | none => (s.selChoice p grp).map fun n => (n, 0)) with
    | none => s
    | some (n, k) =>
      match s.rxChan p n with
      | none => s.modCh p fun c => { c with selPos := Tab.erase c.selPos grp }
      | some r =>
        let slot := s.get (Reg.FLD_CH_RX_STATE_CTX p n)
        let rp := s.get (Reg.FLD_CH_RPTR_RPTR p n)
        match (do
          let (s1, h) ← s.fmRead p (some slot) (r.ringOff + rp) 16
          let (s2, bs) ← s1.fmRead p (some slot) (r.ringOff + rp + 16) (min (fw h 1 31 0) 65520)
          .ok (s2, h, bs) : Acc (State × List Byte × List Byte)) with
        | .error e => s.accFail p 9 g slot e
        | .ok (t, h, bs) =>
          let done := if s.on (Reg.FLD_CH_SEL_CTRL_DONE_EN p grp) then some (s.get (Reg.FLD_CH_SEL_CTRL_DONE_LEVEL p grp)) else none
          let next := (rp + recSpan (fw h 1 31 0)) % s.ringSize p n
          match deliverEntry h bs k done x with
          | none => (t.gridSettle p).deliverEnd p g grp n slot next
          | some e =>
            match t.portSend p g u q e with
            | none => t
            | some v =>
              let w := ((v.stepTaken p unitCh).modCh p fun c => { c with selPos := Tab.insert c.selPos grp (n + 32 * (k + 1)) }).progress p slot
              if (deliverEntry h bs (k + 1) done x).isSome then w else w.deliverEnd p g grp n slot next

def execSelectDeliver (p : Fin 72) (g : Fin 16) (u : Fin 32) (q : Fin 4) (leg : Fin 8) (s : State) : Host.Outcome State Fault Refusal :=
  answer (s.selectDeliver p g u q leg)

/-! Hurdle operations (R272 to R276). -/

/-- The operation word at a hurdle port: none where the port has none. Log entry 60 (DESIGN CHOICE, unsafe). -/
def State.hurdleWord (s : State) (p g : Nat) : Option Nat :=
  if !s.chPort p g 3 || !s.chPortLive p g || !s.permitted p unitCh then none
  else match s.portHead p g with
  | some (_, e) => if e.entry.baton then none else some (e.entry.lanes.headD 0)
  | none => none

/-- ARRIVE: by a control core, or by a token at a hurdle port. Batons and tokens of reserved operations that reach such a port are dropped. -/
def State.arriveBy (s : State) (p : Nat) (src : HurdleSrc) : State :=
  match src with
  | .dcs slot vid n => s.arriveVid p slot vid n
  | .port g =>
    match s.hurdleWord p g with
    | some w =>
      let slot := s.get (Reg.FLD_CH_PORT_BIND_CTX p g)
      let pop := (s.stepTaken p unitCh).portPop p g
      if bits w 1 0 = 0 then (pop.arriveVid p slot (bits w 13 4) (bits w 29 14)).progress p slot
      else if bits w 1 0 = 3 then pop.progress p slot
      else s
    | none => match s.portHead p g with
      | some (_, e) => if s.chPort p g 3 && s.chPortLive p g && e.entry.baton then s.portPop p g else s
      | none => s

/-- CLAIM: by a control core, or by a token at a hurdle port. -/
def State.claimBy (s : State) (p : Nat) (src : HurdleSrc) : State :=
  match src with
  | .dcs slot vid n => s.claimVid p slot vid n
  | .port g =>
    match s.hurdleWord p g with
    | some w =>
      let slot := s.get (Reg.FLD_CH_PORT_BIND_CTX p g)
      if bits w 1 0 = 2 then (((s.stepTaken p unitCh).portPop p g).claimVid p slot (bits w 13 4) (bits w 29 14)).progress p slot else s
    | none => s

def execArrive (p : Fin 72) (src : HurdleSrc) (s : State) : Host.Outcome State Fault Refusal := answer (s.arriveBy p src)
def execClaim (p : Fin 72) (src : HurdleSrc) (s : State) : Host.Outcome State Fault Refusal := answer (s.claimBy p src)

/-- HURDLE_WAIT: a WAIT token at a hurdle port joins its hurdle's waiters, is refused, or is taken once the WAIT has completed; until
then the port holds it (R273). -/
def State.hurdleWait (s : State) (p g : Nat) : State :=
  let mine (w : Waiter) : Bool := w.field == p && w.port == g
  match s.hurdleWord p g with
  | none => s
  | some w =>
    let slot := s.get (Reg.FLD_CH_PORT_BIND_CTX p g)
    if bits w 1 0 ≠ 1 then s
    else if (s.field p).ch.done.any mine then
      (((s.stepTaken p unitCh).modCh p fun x => { x with done := dropFirst mine x.done }).portPop p g).progress p slot
    else if (List.range 72).any fun q => (s.field q).ch.waiters.any mine then s
    else match (s.stepTaken p unitCh).waitVid p slot g (bits w 13 4) (bits w 29 14) with
    | .refused t => t.portPop p g
    | .done t => (t.portPop p g).progress p slot
    | .queued t => t.portHold p g
    | .held => s.portHold p g

def execHurdleWait (p : Fin 72) (g : Fin 16) (s : State) : Host.Outcome State Fault Refusal := answer (s.hurdleWait p g)

/-- WAIT_COMPLETE: the waiter at the head of a hurdle's queue completes; a context suspended for its waits is scheduled again (R272, R276). -/
def State.waitDone (s : State) (q h : Nat) : State :=
  match s.waitersOf q h with
  | [] => s
  | w :: _ =>
    let t := s.waitComplete q h
    if w.n ≤ s.get (Reg.FLD_HRD_STATE_COUNT q h) then t.waitOver w.ctx else t

def execWaitComplete (p : Fin 72) (h : Fin 256) (s : State) : Host.Outcome State Fault Refusal := answer (s.waitDone p h)

end Sys2Proof.Machine
end

