-- ==== Sys2Proof/Machine/Pairs.lean ====
section
/-!
DEFINITION. Paired gradient products (chapter 6): issue of a pair, its visits, suspension and the stop of a partner.
-/

namespace Sys2Proof.Machine

/-- Is a format one of those dY may have (Table 6-2)? -/
def pairFmt (c : Nat) : Bool := [fmtINT8, fmtE4M3, fmtE5M2, fmtBF16, fmtFP16].contains c

/-- Does a pair meet Table 6-2? `x` is the dX member on MA0 and `w` the dW member on MA1. -/
def pairOk (x w : List Byte) : Bool :=
  mdPair x && mdPair w &&
  !fbit x 0 15 && fbit x 0 16 && fbit w 0 15 && !fbit w 0 16 &&
  pairFmt (mdAFmt x) && mdBFmt w == mdAFmt x &&
  fva w 9 + mdKLo w * mdStride w 1 == fva x 7 && mdStride w 1 == mdStride x 0 &&
  mdK w == mdM x && mdN w == mdK x &&
  mdN x == mdTN x && decide (mdN x ≤ 128) && mdM w == mdTM w && mdM w == mdN x &&
  mdTM x == 128 && mdTK x == 128 && mdTN w == 128 && mdTK w == 128 &&
  fw x 6 3 0 == fw w 6 11 8 && fbit x 6 16 == fbit w 6 18 &&
  fw x 6 11 8 == fw w 6 7 4 && fbit x 6 18 == fbit w 6 17 &&
  !fbit x 6 17 && !fbit w 6 16 &&
  ((mdLoop x == 4 && mdLoop w == 3) || (mdLoop x == 2 && mdLoop w == 5)) &&
  mdBatch x == 1 && mdBatch w == 1 && !mdPtr x && !mdPtr w &&
  fw x 0 22 20 == 0 && fw w 0 22 20 == 0 &&
  mdP x == 0 && mdKLo x == 0 && (decide (mdP w < 2) || !fbit w 6 18)

/-- Record a pair fault in FLD_PAIR_STATUS. -/
def State.pairFault (s : State) (p code : Nat) : State := s.put (Reg.FLD_PAIR_STATUS_LAST_FAULT p) code

/-- A head with PAIR = 1 of a scheduled context and its partner, the oldest unissued entry of the context on the other array. -/
def State.pairHeads (s : State) (p : Nat) : Option (Nat × Posted × Posted) :=
  (List.range 4).findSome? fun k =>
    match s.ctxOf p k, s.headOf p 0 k, s.headOf p 1 k with
    | some c, some x, some w => if s.ctxActive c && (mdPair x.desc || mdPair w.desc) then some (c, x, w) else none
    | _, _, _ => none

/-- Refuse one member of a pair. -/
def State.pairRefuse (s : State) (p a c : Nat) (e : Posted) (code detail : Nat) : State :=
  let t := (s.dropPosted p a e).seqFault p a c code detail
  if code = Flt.PAIR_MISMATCH then t.pairFault p code else t

/-- PAIR_ISSUE: the sequencers issue a pair together. Each member is checked alone, a member that fails is refused and then its partner, and a
pair that passes is held against Table 6-2 (R141, R142). Where both members fail, each is refused with its own code. Log entry 155 (DESIGN CHOICE,
unsafe). -/
def State.pairIssue (s : State) (p : Nat) : State :=
  if s.maFree p 0 && s.maFree p 1 then
    match s.pairHeads p with
    | none => s.seqShow p
    | some (c, x, w) =>
      let n := (s.ctx c).macroSeq
      match s.issueCheck p 0 c (n + 1) x with
      | .wait t => t
      | .refused cx dx =>
        let t := s.pairRefuse p 0 c x cx dx
        (match t.issueCheck p 1 c (n + 2) w with
         | .refused cw dw => t.pairRefuse p 1 c w cw dw
         | _ => t.pairRefuse p 1 c w Flt.PAIR_MISMATCH 0).seqShow p
      | .ok (s, rx) =>
        match s.issueCheck p 1 c (n + 2) w with
        | .wait t => t
        | .refused cw dw => ((s.pairRefuse p 1 c w cw dw).pairRefuse p 0 c x Flt.PAIR_MISMATCH 0).seqShow p
        | .ok (s, rw) =>
          if pairOk x.desc w.desc then
            let t := ((s.dropPosted p 0 x).dropPosted p 1 w).modField p fun f => { f with pairBuf := [] }
            (t.macroStart p 0 { rx with mate := rw.seq }).macroStart p 1 { rw with mate := rx.seq }
          else ((s.pairRefuse p 0 c x Flt.PAIR_MISMATCH 0).pairRefuse p 1 c w Flt.PAIR_MISMATCH 0).seqShow p
  else s

def execPairIssue (p : Fin 72) (s : State) : Host.Outcome State Fault Refusal := answer (s.pairIssue p)

/-- The pairs that have been issued on a Field, each with its two members. -/
def State.pairRuns (s : State) (p : Nat) : List (MacroRun × MacroRun) :=
  ((s.ma p 0).runs.filter (·.paired)).filterMap fun x => (s.runAt p 1 x.ctx x.mate).map fun w => (x, w)

/-- PAIR_VISIT: the dY tile of the next visit is fetched once, into the pair buffer, for both arrays (R144, R145). Log entry 50 (DESIGN CHOICE, unsafe). -/
def State.pairVisit (s : State) (p : Nat) : State :=
  match (s.pairRuns p).find? fun y => s.runActive p 0 y.1 && s.ctxActive y.1.ctx with
  | none => s
  | some (x, w) =>
    let buf := (s.field p).pairBuf.filter fun v => v.isOf 0 x
    if !(s.gridRuns p) || w.fault.isSome || w.suspended || !(s.mayRead p 0 x) || !(s.mayRead p 1 w) || s.agentWaits p 0 0 x.ctx ||
        decide (2 ≤ (s.field p).pairBuf.length) then s
    else match s.macroResolve p 0 x with
    | some t => t
    | none =>
      let q := x.q + (buf.filter fun v => !v.done0).length
      if x.mt 0 * x.nt 0 * x.kt ≤ q then s
      else
        let (i, _, kk) := walkPlace (mdLoop x.desc) (x.mt 0) (x.nt 0) x.kt q
        let (k0, kn) := x.kRange kk
        match s.readBlock p 0 0 x.slot (mdAFmt x.desc) (x.base 0 0) (mdStride x.desc 0) false false (i * 128) (x.rowsIn 0 i) k0 kn with
        | .error e => s.macroFail p 0 x e
        | .ok (t, rows) =>
          ((t.modField p fun f => { f with pairBuf := f.pairBuf ++ [{ ctx := x.ctx, seq := x.seq, rows := rows, done0 := false, done1 := false }] }).count48
            (Reg.aFLD_PAIR_FETCH_LO p) 1).pairShow p

def execPairVisit (p : Fin 72) (s : State) : Host.Outcome State Fault Refusal := answer (s.pairVisit p)

/-- PAIR_SUSPEND: once both arrays have finished the visit and no drain of the context is in progress, the pair of a descheduled context stops; its
slots are held or spilled as those of any macro, and its visits in the pair buffer are discarded (R108, R146). -/
def State.pairSuspend (s : State) (p : Nat) : State :=
  match (s.pairRuns p).find? fun y => !s.ctxActive y.1.ctx && ([y.1, y.2].any fun r => !r.walkDone && !r.suspended) with
  | none => s
  | some (x, w) =>
    if s.midVisit p 0 x || s.midVisit p 1 w || s.draining p 0 x.ctx || s.draining p 1 x.ctx then s
    else
      [0, 1].foldl (fun t a =>
        (t.modMa p a fun m =>
          { m with runs := m.runs.map fun r =>
              if r.ctx == x.ctx && r.paired && !r.walkDone then { r with suspended := true, bTile := none, bNext := none } else r }).slotsStop
          p a x.slot x.ctx 0 []) (s.pairDrop p 0 x)

def execPairSuspend (p : Fin 72) (s : State) : Host.Outcome State Fault Refusal := answer (s.pairSuspend p)

/-- PAIR_PARTNER_STOP: the partner of a member that stopped with a fault stops at the visit boundary, and what the pair buffer holds of the pair is
discarded (R147). Log entry 50 (DESIGN CHOICE, unsafe). -/
def State.pairPartnerStop (s : State) (p : Nat) : State :=
  match (s.pairRuns p).find? fun y => y.1.fault.isSome != y.2.fault.isSome with
  | none => s
  | some (x, w) =>
    let (a, r) := if x.fault.isSome then (1, w) else (0, x)
    ((s.pairFault p Flt.PAIR_PARTNER).fieldFault p a 0 (some r.ctx) Flt.PAIR_PARTNER 0 |>.pairDrop p 0 x).macroStop p a r Flt.PAIR_PARTNER

def execPairPartnerStop (p : Fin 72) (s : State) : Host.Outcome State Fault Refusal := answer (s.pairPartnerStop p)

end Sys2Proof.Machine
end

