-- ==== Sys2Proof/Machine/Hazards.lean ====
section
/-!
DEFINITION. The deadlock detector and its extensions (R213 to R219), and the reconfiguration port (R222 to R229, R476).
-/

namespace Sys2Proof.Machine

/-! Wait-for edges (Table 9-1). -/

/-- An edge from a waiting leg to a leg, each numbered 8 × unit + leg, with the victim key of its queue where it is extensible. -/
structure WaitEdge where
  src : Nat
  dst : Nat
  key : Option Nat
  deriving DecidableEq, Repr

/-- What a snapshot finds: its edges, the legs that wait at send endpoints (R261), the queues that starve with no leg that sends to them, whether a
wait leaves the Field by a port of its network, a wait at a hurdle, and another wait that ends outside the legs. -/
structure Snapshot where
  edges : List WaitEdge
  sends : List (Nat × Nat)
  fed : List Nat
  away : Bool
  hurdle : Bool
  other : Bool
  deriving DecidableEq, Repr

/-- Nothing waits. -/
def Snapshot.empty : Snapshot := { edges := [], sends := [], fed := [], away := false, hurdle := false, other := false }

/-- Two snapshots together. -/
def Snapshot.join (a b : Snapshot) : Snapshot :=
  { edges := a.edges ++ b.edges, sends := a.sends ++ b.sends, fed := a.fed ++ b.fed, away := a.away || b.away, hurdle := a.hurdle || b.hurdle,
    other := a.other || b.other }

/-- Do waits leave the Field by a port bound to the channel unit or to a route of the Field network (R219)? -/
def Snapshot.external (a : Snapshot) : Bool := a.away || !a.sends.isEmpty

/-- The entry that holds back a link: its head, or the head of the link that head waits for. The fuel bounds the links. -/
def State.holdsBack (s : State) (p : Nat) : Nat → Nat → Option Transit
  | 0, _ => none
  | fuel + 1, k =>
    match s.link p k with
    | [] => none
    | t :: _ => match t.path with
      | n :: _ => State.holdsBack s p fuel n
      | [] => some t

/-- The edge of a refused entry that leg `n` waits behind. Log entry 67 (DESIGN CHOICE, unsafe). -/
def State.refusedEdge (s : State) (p n : Nat) (t : Transit) : Snapshot :=
  if t.unit < 32 then
    { Snapshot.empty with edges := [{ src := n, dst := 8 * t.unit + t.entry.leg, key := some (queueKey t.unit t.q t.entry.leg) }] }
  else
    let g := t.unit - 32
    let peer := s.get (Reg.FLD_GP_BIND_PEER p g)
    let role := s.get (Reg.FLD_CH_PORT_BIND_ROLE p g)
    if peer = 3 ∧ role = 1 then { Snapshot.empty with sends := [(n, s.get (Reg.FLD_CH_PORT_BIND_INDEX p g))] }
    else if peer = 3 ∧ role = 3 then { Snapshot.empty with hurdle := true }
    else { Snapshot.empty with away := peer == 4, other := true }

/-- Every loaded and valid leg of a slot, as unit and leg. -/
def State.legsOf (s : State) (p slot : Nat) : List (Nat × Nat × Leg) :=
  (List.range 32).flatMap fun u => ((s.unit p u).legs.filter fun e => e.2.valid && e.2.slot == slot).map fun e => (u, e.1, e.2)

/-- The edges of a leg that needs an entry from one of its queues (Table 9-1). -/
def State.starveEdges (s : State) (p slot u x q : Nat) : Snapshot :=
  let from' := (s.legsOf p slot).filter fun y => y.2.2.dests.contains (u, q, x)
  { Snapshot.empty with
    edges := from'.map fun y => { src := 8 * u + x, dst := 8 * y.1 + y.2.1, key := none }, fed := if from' = [] then [8 * u + x] else [] }

/-- The edges of a leg with a generator that waits for a slot of a ring (Table 9-1). -/
def State.ringEdges (s : State) (p slot n r : Nat) (reads : Bool) : Snapshot :=
  { Snapshot.empty with edges :=
      (s.legsOf p slot).flatMap fun y =>
        if y.2.2.kind == 2 && (List.range 4).any fun g =>
            y.2.2.agMode g != 0 && y.2.2.agTarget g == 3 && y.2.2.agRing g == r && y.2.2.agWrites g == reads then
          [{ src := n, dst := 8 * y.1 + y.2.1, key := none }]
        else [] }

/-- The edges of the active leg of a unit. -/
def State.unitEdges (s : State) (p slot u : Nat) : Snapshot :=
  let x := s.unitLeg p u
  let n := 8 * u + x
  match s.leg p u x with
  | none => Snapshot.empty
  | some l =>
    if l.slot ≠ slot then Snapshot.empty
    else
      let st := s.unitStall p u
      let full := (st.full.filterMap fun k => s.holdsBack p 32 k).map (s.refusedEdge p n)
      (full ++ st.queues.map (s.starveEdges p slot u x) ++ st.rings.map fun r => s.ringEdges p slot n r.1 r.2).foldl Snapshot.join Snapshot.empty

/-- Does a select group deliver to legs of a slot through a port of a Field (R264)? -/
def State.selectPort (s : State) (p slot : Nat) : Bool :=
  (List.range 16).any fun g => s.chPort p g 2 && s.get (Reg.FLD_CH_PORT_BIND_CTX p g) == slot

/-- The snapshot of a resident context on a Field (R214): where a select group feeds it, a leg that starves and that no leg sends to may wait for a
record, which leaves the Field by a port of the channel unit (R219). Log entry 67 (DESIGN CHOICE, unsafe). -/
def State.snapshot (s : State) (p slot : Nat) : Snapshot :=
  let a := (List.range 32).foldl (fun a u => a.join (s.unitEdges p slot u)) Snapshot.empty
  { a with away := a.away || (!a.fed.isEmpty && s.selectPort p slot) }

/-- Is the active leg of some unit of the context stalled by STARVE or BACKPRESSURE (R211, R213)? -/
def State.legStalled (s : State) (p slot : Nat) : Bool :=
  (List.range 32).any fun u => s.unitStall p u != Stall.none && (match s.leg p u (s.unitLeg p u) with
    | some l => l.slot == slot
    | none => false)

/-- The nodes that a set of nodes reaches in a few rounds along edges. -/
def reachable (es : List (Nat × Nat)) (rounds : Nat) (from' : List Nat) : List Nat :=
  iterate (fun v => es.foldl (fun v e => if v.contains e.1 && !v.contains e.2 then e.2 :: v else v) v) rounds from'

/-- The victim of a snapshot: the least key of an extensible edge in a cycle (R214, R215). -/
def Snapshot.victim (a : Snapshot) : Option Nat :=
  let es := a.edges.map fun e => (e.src, e.dst)
  (a.edges.filterMap fun e => match e.key with
    | some k => if (reachable es 256 [e.dst]).contains e.src then some k else none
    | none => none).min?

/-! Waits of a context's agents that end at a halo or a pair (R134, R141). -/

/-- Does a macro of the context wait for a halo? Log entry 67 (DESIGN CHOICE, unsafe). -/
def State.haloWaits (s : State) (p c : Nat) : Bool :=
  [0, 1].any fun a => (s.ma p a).runs.any fun r => r.ctx == c && r.fault.isNone && r.haloRecv != r.haloMask

/-- Does a ring of the context wait on its release hurdle? -/
def State.ringWaits (s : State) (p slot : Nat) : Bool :=
  (List.range 16).any fun n => (s.ringX p n).waiting && s.get (Reg.FLD_RING_CFG_CTX p n) == slot

/-- Does an agent of the context work at something other than a halo wait? Log entry 68 (DESIGN CHOICE, unsafe). -/
def State.agentsBusy (s : State) (p c : Nat) : Bool :=
  let f := s.field p
  ([0, 1].any fun a => (s.ma p a).runs.any fun r => r.ctx == c && (r.fault.isSome || r.haloRecv == r.haloMask)) ||
  (f.ve.runs ++ f.re.runs).any (fun r => r.ctx == c) || (f.dmas.any fun d => d.2.runs.any fun r => r.ctx == c) ||
  f.grid.walks.any (fun r => r.ctx == c)

/-! What the detector does. -/

/-- The Silt of a resident context on a Field is exhausted (R218, R225): the heat does not commit, and before its replay firmware enlarges the Silt of
that Field. -/
def State.siltExhausted (s : State) (p slot agent : Nat) : State :=
  let t := (s.put (Reg.FLD_DLD_STATUS_SILT_EXHAUSTED p) 1).fieldFault p agent 0 (s.ctxOf p slot) Flt.SILT_EXHAUSTED 0
  match s.ctxOf p slot with
  | some c => t.modCtx c fun x => { x with siltOut := p :: x.siltOut.filter (· != p) }
  | none => t

/-- Note an extension, and restart the window. -/
def State.extended (s : State) (p slot unit q leg : Nat) (ring : Bool) : State :=
  (s.puts [(Reg.FLD_DLD_STATUS_LAST_CTX p, slot), (Reg.FLD_DLD_STATUS_EXTENSIONS p, min 255 (s.get (Reg.FLD_DLD_STATUS_EXTENSIONS p) + 1)),
    (Reg.FLD_DLD_STATUS_VICTIM_UNIT p, unit), (Reg.FLD_DLD_STATUS_VICTIM_Q p, q), (Reg.FLD_DLD_STATUS_VICTIM_LEG p, leg),
    (Reg.FLD_DLD_STATUS_VICTIM_RING p, b2n ring)]).progress p slot

/-- SILT_EXTEND: the victim queue has one more chunk (R215, R216), once the walk for its page does not wait (R329). -/
def State.extendQueue (s : State) (p slot key : Nat) : State :=
  match s.siltExtend p slot 0 key with
  | .refused t => t.siltExhausted p slot 7
  | .wait e => s.wakeFor e
  | .given t => (t.extended p slot (key / 32) (key / 8 % 4) (key % 8) false).gridSettle p

/-- RING_EXTEND: a channel ring has one more chunk, and its sender 16,384 bytes of credit (R217, R261). Log entry 69 (DESIGN CHOICE, unsafe). -/
def State.extendRing (s : State) (q n p tx : Nat) : State :=
  let slot := s.get (Reg.FLD_CH_RX_STATE_CTX q n)
  match s.siltExtend q slot 1 n, s.rxChan q n with
  | .given t, some r =>
    (((t.setRx q n { r with extended := r.extended + 1 }).put (Reg.FLD_CH_RX_STATE_EXTENDED q n) 1).setTxCredit p tx
      (s.txCredit p tx + 16384)).extended q slot 0 0 0 true
  | .wait e, _ => s.wakeFor e
  | .refused t, _ => t.siltExhausted q slot 7
  | .given _, none => s

/-! The gathered snapshots of a context (R219). -/

/-- Leg `n` of Field `p` among the nodes of the gathered snapshots, and receive channel `n`. -/
def legNode (p n : Nat) : Nat := 256 * p + n
def ringNode (p n : Nat) : Nat := 256 * 72 + 32 * p + n

/-- A full channel ring: its Field and index, and its send endpoint. -/
structure FullRing where
  field : Nat
  rx : Nat
  txField : Nat
  tx : Nat
  deriving DecidableEq, Repr

/-- The edges from the legs of a Field that send to a full ring of the part (Table 9-1), each with the ring. -/
def State.sendEdges (s : State) (p : Nat) (a : Snapshot) : List (Nat × Nat × Option FullRing) :=
  a.sends.filterMap fun e => match s.txChan p e.2 with
    | some t => match s.physOf t.rxLf with
      | some q => if t.remote || !s.on (Reg.FLD_CH_TX_STATE_WAITING p e.2) then none
        else some (legNode p e.1, ringNode q t.rxIdx, some { field := q, rx := t.rxIdx, txField := p, tx := e.2 })
      | none => none
    | none => none

/-- The ports of a Field that deliver records of a receive channel. -/
def State.deliverPorts (s : State) (p n : Nat) : List Nat :=
  (List.range 16).filter fun g => s.chPort p g 2 && bit (s.get (Reg.FLD_CH_SEL_MASK_MASK p (s.get (Reg.FLD_CH_PORT_BIND_INDEX p g) % 4))) n

/-- The edges at the rings of a Field: from a ring to the legs that refuse its records, from starving legs to the empty rings that feed the Field's
ports, and from an empty ring to the legs that send to it. Log entry 67 (DESIGN CHOICE, unsafe). -/
def State.receiveEdges (s : State) (p slot : Nat) (a : Snapshot) : List (Nat × Nat × Option FullRing) :=
  ((s.field p).ch.rx.filter fun e => s.get (Reg.FLD_CH_RX_STATE_CTX p e.1) == slot).flatMap fun e =>
    let ports := s.deliverPorts p e.1
    if s.ringUsed p e.1 = 0 then
      let starving := if ports = [] then [] else a.fed.map fun n => (legNode p n, ringNode p e.1, none)
      let senders := match s.rxSender e.2 with
        | none => []
        | some q => ((List.range 16).filter fun g => s.chPort q g 1 && s.get (Reg.FLD_CH_PORT_BIND_INDEX q g) == e.2.txIdx).flatMap fun g =>
          ((s.legsOf q (s.get (Reg.FLD_CH_PORT_BIND_CTX q g))).filter fun y => y.2.2.dests.any fun d => d.1 == 32 + g).map fun y =>
            (ringNode p e.1, legNode q (8 * y.1 + y.2.1), none)
      starving ++ senders
    else
      ports.filterMap fun g => match s.holdsBack p 32 (portKey g) with
        | some t => if t.unit < 32 then some (ringNode p e.1, legNode p (8 * t.unit + t.entry.leg), none) else none
        | none => none

/-- The snapshots of every Field of a context on the part, as the control core of its quadrant gathers them (R219). Log entry 67 (DESIGN CHOICE, unsafe). -/
def State.gathered (s : State) (c : Nat) : List (Nat × Nat × Option FullRing) :=
  (s.slotsOf c).flatMap fun x =>
    let a := s.snapshot x.1 x.2
    a.edges.map (fun e => (legNode x.1 e.src, legNode x.1 e.dst, none)) ++ s.sendEdges x.1 a ++ s.receiveEdges x.1 x.2 a

/-- The first full ring that closes a cycle of the gathered snapshots (R219). Log entry 67 (DESIGN CHOICE, unsafe). -/
def State.ringVictim (s : State) (c : Nat) : Option FullRing :=
  let es := s.gathered c
  es.findSome? fun e => match e.2.2 with
    | some r => if (reachable (es.map fun e => (e.1, e.2.1)) es.length [e.2.1]).contains e.1 then some r else none
    | none => none

/-- A window expires with no extension: the 16th in a row gives the heat up (R219). Log entry 68 (DESIGN CHOICE, unsafe). -/
def State.windowFruitless (s : State) (p slot : Nat) : State :=
  let n := Tab.get (fun _ => 0) (s.field p).grid.windows slot + 1
  if 16 ≤ n then (s.progress p slot).fieldFault p 7 0 (s.ctxOf p slot) Flt.STALL_EXTERNAL 0
  else s.modGrid p fun g => { g with windows := Tab.set (fun _ => 0) g.windows slot n }

/-- Does the detector's count run for a resident context (R213)? -/
def State.windowRuns (s : State) (p slot : Nat) : Bool :=
  s.on (Reg.FLD_DLD_CTRL_EN p) && s.gridRuns p && (match s.ctxOf p slot with
    | some c => s.inHeat c && s.ctxActive c && !(match (s.field p).grid.region with
        | some r => r.slot == slot
        | none => false) && (s.legStalled p slot || s.haloWaits p c || (s.pairHeld p slot).isSome)
    | none => false)

/-- May the waits of a context on a Field end only when another of its agents, or an agent of another context, goes on (R134, R141, R276)? -/
def State.waitsOnly (s : State) (p slot c : Nat) (a : Snapshot) : Bool :=
  (a.hurdle || s.haloWaits p c || (s.pairHeld p slot).isSome || s.ringWaits p slot) && !a.other && !a.external && !s.agentsBusy p c

/-- A walk pauses while the search runs (R214). -/
def State.walksPause (s : State) (p : Nat) : State :=
  s.modGrid p fun g => { g with walks := g.walks.map fun w => if w.suspended || w.fault.isSome then w else { w with paused := true } }

/-- NO_PROGRESS_WINDOW: the window of a resident context expires. The detector takes its snapshot and extends the victim of a cycle on the Field; where
waits leave the Field it says so, and, where no queue is a victim, the control core gathers the snapshots of the context and has the ring of a cycle
extended (R215, R219). Log entry 67 (DESIGN CHOICE, unsafe). Log entry 68 (DESIGN CHOICE, unsafe). -/
def State.noProgress (s : State) (p slot : Nat) : State :=
  match s.ctxOf p slot with
  | none => s
  | some c =>
    if !s.windowRuns p slot then s
    else
      let a := s.snapshot p slot
      let t := if a.external then (s.walksPause p).put (Reg.FLD_DLD_STATUS_EXTERNAL p) 1 else s.walksPause p
      match a.victim, (if a.external then s.ringVictim c else none) with
      | some k, _ => t.extendQueue p slot k
      | none, some r => (t.extendRing r.field r.rx r.txField r.tx).modGrid p fun g => { g with windows := Tab.erase g.windows slot }
      | none, none =>
        let v := t.windowFruitless p slot
        if s.waitsOnly p slot c a then (v.modCtx c fun x => { x with waitSusp := true }).stopWhenFree c else v

def execNoProgressWindow (p : Fin 72) (slot : Fin 4) (s : State) : Host.Outcome State Fault Refusal := answer (s.noProgress p slot)

/-! The reconfiguration port (R222 to R229). -/

/-- RECONF_ISSUE_POST: a write to FLD_RECONF_ISSUE (R222, R404). -/
def State.reconfPost (s : State) (p v : Nat) : State :=
  s.dcsPost p 10 0 (Reg.FLD_RECONF_STATUS_ISSUE_OVERRUN p) (s.reconfPostTo p (bits v 1 0) (64 * bits v 23 6) none)

def execReconfIssuePost (p : Fin 72) (value : Word) (s : State) : Host.Outcome State Fault Refusal := answer (s.reconfPost p value.toNat)

/-- Fields of a region record (Table 9-3). -/
def rrMode (r : List Byte) : Nat := cfgBits r 0 1 0
def rrCtx (r : List Byte) : Nat := cfgBits r 0 3 2
def rrTag (r : List Byte) : Nat := cfgBits r 0 11 4
def rrBridge (r : List Byte) : Bool := cfgBits r 0 17 17 == 1
def rrSrc (r : List Byte) : Nat := cfgBits r 36 23 0

/-- The legs a record names, as leg and unit, in increasing leg and then unit. -/
def rrLegs (r : List Byte) : List (Nat × Nat) :=
  (List.range 8).flatMap fun x => ((List.range 32).filter fun u => bit (cfgBits r (4 + 4 * x) 31 0) u).map fun u => (x, u)

/-- Is a record well formed on its own (R222)? -/
def rrOk (r : List Byte) : Bool :=
  let tl := cfgBits r 0 16 12
  decide (rrMode r ≤ 1) && cfgBits r 0 31 18 == 0 && (tl == 0 || decide (10 ≤ tl ∧ tl ≤ 24)) && !(rrLegs r).isEmpty &&
  cfgBits r 36 31 24 == 0 && rrSrc r % 256 == 0 && cfgBits r 40 31 30 == 0 && zeroBytes r 44 20

/-- The checks of a record at start (R222), and those of a grid post (R476): `poster` is the sender code of its leg. -/
def State.regionOk (s : State) (p : Nat) (r : List Byte) (poster : Option Nat) : Bool :=
  rrOk r &&
  ((rrLegs r).all fun y => match s.leg p y.2 y.1 with
    | some l => (!l.valid && poster.isNone) || l.slot == rrCtx r
    | none => true) &&
  (match poster with
   | none => true
   | some w => bit (s.get (Reg.FLD_RECONF_CTRL_GRID_EN p)) (rrCtx r) && !((rrLegs r).contains (w % 8, w / 8)) &&
       s.windowOk p (rrCtx r) (rrSrc r) (256 * (rrLegs r).length))

/-- Has a queue a sender in the region (R223)? Log entry 70 (DEDUCED, unsafe). -/
def State.regionSender (s : State) (p u q x : Nat) (r : List Byte) : Bool :=
  (rrLegs r).any fun y => match s.leg p y.2 y.1 with
    | some l => l.valid && l.dests.contains (u, q, x)
    | none => false

/-- The queues of a region leg that take a SEAL from the port: those that no region leg sends to (R223). Log entry 70 (DEDUCED, unsafe). -/
def State.sealQueues (s : State) (p : Nat) (r : List Byte) (y : Nat × Nat) : List (Nat × Nat × Nat) :=
  match s.leg p y.2 y.1 with
  | none => []
  | some l => if l.valid then (l.reads.filter fun q => !s.regionSender p y.2 q y.1 r).map fun q => (y.2, q, y.1) else []

/-- A region leg that reads no queue is sealed directly: its SEAL goes behind what it has to send (R223). -/
def State.sealDirect (s : State) (p : Nat) (r : List Byte) (y : Nat × Nat) : State :=
  match s.leg p y.2 y.1 with
  | none => s
  | some l =>
    if l.valid && l.reads.isEmpty then
      s.setLeg p y.2 y.1 { l with sealDone := true, due := l.due ++ [.entry l.openPorts true (batonLanes (batonWord 4 0 (rrTag r))) 0] }
    else s

/-- Set the port's phase. -/
def State.reconfPhase (s : State) (p v : Nat) : State := s.put (Reg.FLD_RECONF_STATUS_PHASE p) v

/-! Leftovers, the new legs and the release. -/

/-- The entries that a queue of a leg holds in Silt, in order. Where `skip` is set an entry that cannot be read counts as a token of no content. -/
def State.siltEntries (s : State) (p u q x : Nat) (skip : Bool) : Acc (State × List QEntry) :=
  match s.leg p u x with
  | none => .ok (s, [])
  | some l => match s.siltUse p l.slot 0 (queueKey u q x) with
    | none => .ok (s, [])
    | some y => y.places.foldlM (fun (r : State × List QEntry) n =>
        match r.1.siltRead p l.slot (256 * n) 256 with
        | .ok (t, bs) => .ok (t, r.2 ++ [ofSilt bs])
        | .error e => if e.waits && !skip then .error e else .ok (if skip then r.1 else r.1.siltFail p l.slot e, r.2 ++ [QEntry.data x [] 0])) (s, [])

/-- Is an entry a SEAL? -/
def QEntry.isSeal (e : QEntry) : Bool := e.baton && e.lanes.headD 0 / 4096 % 16 == 4

/-- Is an entry on its way from one region leg to another? -/
def insideRegion (r : List Byte) (t : Transit) : Bool :=
  let legs := rrLegs r
  decide (t.unit < 32) && legs.contains (t.entry.leg, t.unit) && decide (t.src < 256) && legs.contains (t.src % 8, t.src / 8)

/-- The entries still queued for a region leg that are not SEALs, in increasing unit, queue, leg and arrival order, each with its unit and queue.
Entries on their way between region legs count with their destination, those nearer to it first; those of other senders stay where they are. Log entry 70 (DEDUCED, unsafe). -/
def State.leftovers (s : State) (p : Nat) (r : List Byte) (skip : Bool) : Acc (State × List (Nat × Nat × QEntry)) :=
  let legs := rrLegs r
  let way : List Transit := (List.range 4).flatMap fun n => (s.field p).grid.links.flatMap fun k =>
    k.2.filter fun t => insideRegion r t && t.path.length == n
  let keys : List (Nat × Nat × Nat) := (List.range 32).flatMap fun u => (List.range 4).flatMap fun q =>
    ((List.range 8).filter fun x => legs.contains (x, u)).map fun x => (u, q, x)
  keys.foldlM (fun (v : State × List (Nat × Nat × QEntry)) k => do
    let (u, q, x) := k
    let (t, silt) ← v.1.siltEntries p u q x skip
    let es := ((s.iq p u q).filter (·.leg == x)) ++ silt ++ ((way.filter fun t => t.unit == u && t.q == q && t.entry.leg == x).map (·.entry))
    .ok (t, v.2 ++ (es.filter fun e => !e.isSeal).map fun e => (u, q, e))) (s, [])

/-- Empty the queues and Silt of the region's legs, and the links, of what they hold from within the region or accepted before. The extensions
stay in place (R216). -/
def State.clearRegion (s : State) (p : Nat) (r : List Byte) : State :=
  let legs := rrLegs r
  let t := s.modGrid p fun g =>
    { g with
      units := g.units.map fun n => (n.1, { n.2 with queues := n.2.queues.map fun k => (k.1, k.2.filter fun e => !legs.contains (e.leg, n.1)) })
      links := g.links.map fun k => (k.1, k.2.filter fun t => !insideRegion r t)
      silt := g.silt.map fun z => if z.slot == rrCtx r && z.kind == 0 && legs.contains (z.key % 8, z.key / 32) then { z with places := [] } else z }
  t.siltShow p (rrCtx r)

/-- Flush mode discards every entry queued for a region leg, and counts it (R226). -/
def State.regionFlush (s : State) (p : Nat) (x : RegionRun) : State :=
  match s.leftovers p x.rcd true with
  | .ok (t, es) => (t.clearRegion p x.rcd).modGrid p fun g => { g with region := some { x with gone := x.gone + es.length } }
  | .error _ => s

/-- Slots of rings whose step has ended are published or freed before their legs go (R203). -/
def State.regionSlots (s : State) (p : Nat) (r : List Byte) : State :=
  (rrLegs r).foldl (fun t y => (List.range 4).foldl (fun t g => match t.leg p y.2 y.1 with
    | some l => if l.kind = 2 then t.agSlotEnd p y.2 y.1 l g else t
    | none => t) t) s

/-- The region is released: a pre-emption of its context that has waited for it goes ahead (R229). -/
def State.regionFree (s : State) (p slot : Nat) : State :=
  let t := s.modGrid p fun g => { g with region := none }
  match t.ctxOf p slot with
  | some c => if (t.ctx c).stopDue && !t.regionBusy c then t.stopIssue c else t
  | none => t

/-- The key of the next use of Silt for the leftovers of a drain: each keeps its own (R228). -/
def State.leftKey (s : State) (p slot : Nat) : Nat :=
  ((((s.field p).grid.silt.filter fun z => z.slot == slot && z.kind == 2).map (·.key + 1)).foldl max 0)

/-- Write leftovers to a use of the context's Silt (R225): the state, and how many entries found no room. -/
def State.spillLeft (s : State) (p slot key : Nat) : List (Nat × Nat × QEntry) → Acc (State × Nat)
  | [] => .ok (s, 0)
  | (u, q, e) :: rest =>
    let y := (s.siltUse p slot 2 key).getD (SiltUse.none slot 2 key)
    match (if y.room.isSome then .given s else s.siltExtend p slot 2 key) with
    | .wait err => .error err
    | .refused t => .ok (t, rest.length + 1)
    | .given t =>
      let z := (t.siltUse p slot 2 key).getD y
      match z.room with
      | none => .ok (s, rest.length + 1)
      | some n => match t.siltWrite p slot (256 * n) (siltEntry u q e) with
        | .ok v => State.spillLeft (v.setSilt p { z with places := z.places ++ [n] }) p slot key rest
        | .error err => if err.waits then .error err else .ok (s.siltFail p slot err, rest.length + 1)

/-- Load the new legs of a region, from SRC_OFF on, in the record's order: the state and how many were written (R227). An uncorrectable word of
the source is a fault of the port, and its leg is not written (R244). Log entry 134 (DESIGN CHOICE, unsafe). -/
def State.writeLegs (s : State) (p slot off : Nat) : List (Nat × Nat) → State × Nat
  | [] => (s, 0)
  | (x, u) :: rest =>
    let (t, code) := match s.badWord? (fmLoc p off) 256 with
      | some w => ((((s.modUnit p u fun n => { n with legs := n.legs.filter (·.1 != x) }).unitShow p u).fmUncorrSeen p w false).fieldFault p 10 0
          (s.ctxOf p slot) Flt.FM_UNCORR (bits w 23 0), Flt.FM_UNCORR)
      | none =>
        let (t, ok) := s.loadLeg p u x (s.mread (fmLoc p off) 256) 10
        (t, if ok then 0 else Flt.LEG_CONFIG)
    let (v, n) := State.writeLegs t p slot (off + 256) rest
    (if code = 0 then v else v.put (Reg.FLD_RECONF_STATUS_LAST_FAULT p) code, n + b2n (code == 0))

/-- The queues and legs of leftovers, in order. -/
def leftKeys (es : List (Nat × Nat × QEntry)) : List (Nat × Nat × Nat) := (es.map fun e => (e.1, e.2.1, e.2.2.leg)).eraseDups

/-- An entry of the bridge goes into a queue of a new leg, or into Silt behind it. -/
def State.bridgeIn (s : State) (p slot u q : Nat) (e : QEntry) : Acc (Option State) :=
  let wait (t : State) : Acc (Option State) := match t.siltPush p u q e with
    | some (.error err) => if err.waits then .error err else .ok none
    | _ => .ok none
  match s.enqueue p u q e with
  | some t => .ok (some t)
  | none => match s.siltExtend p slot 0 (queueKey u q e.leg) with
    | .wait err => .error err
    | .refused t => wait t
    | .given t => match t.enqueue p u q e with
      | some v => .ok (some v)
      | none => wait t

/-- BRIDGE_DELIVERY: for each queue and leg a BRIDGE baton, its leftovers and a second BRIDGE baton (R228): the state, how many leftovers were delivered, and
whether room was found for all. Log entry 70 (DEDUCED, unsafe). -/
def State.bridge (s : State) (p slot : Nat) (r : List Byte) (es : List (Nat × Nat × QEntry)) : Acc (State × Nat × Bool) :=
  let baton (x : Nat) : QEntry := { baton := true, leg := x, lanes := batonLanes (batonWord 6 0 (rrTag r)), valid := 0 }
  let all : List (Nat × Nat × QEntry × Nat) := (leftKeys es).flatMap fun k =>
    let (u, q, x) := k
    [(u, q, baton x, 0)] ++ ((es.filter fun e => e.1 == u && e.2.1 == q && e.2.2.leg == x).map fun e => (u, q, e.2.2, 1)) ++ [(u, q, baton x, 0)]
  all.foldlM (fun (v : State × Nat × Bool) k => do
    if !v.2.2 then return v
    match ← v.1.bridgeIn p slot k.1 k.2.1 k.2.2.1 with
    | some t => .ok (t, v.2.1 + k.2.2.2, true)
    | none => .ok (v.1, v.2.1, false)) (s, 0, true)

/-- The result record of Table 9-4. Log entry 70 (DEDUCED, unsafe). -/
def regionRecord (written left spilled bridged first code : Nat) (timedOut flushed : Bool) (slot stamp : Nat) : List Byte :=
  leBytes 4 written ++ leBytes 4 left ++ leBytes 4 spilled ++ leBytes 4 bridged ++ leBytes 4 first ++ leBytes 2 code ++
  leBytes 1 (b2n timedOut + 2 * b2n flushed) ++ leBytes 1 slot ++ leBytes 8 stamp

/-- How a drain ends. -/
inductive DrainEnd where
  | drained | timedOut | flushed
  deriving DecidableEq, Repr

/-- The work of the port with the border held: it spills the leftovers of a drain that timed out, writes the new legs, delivers what it bridges, and
writes the result record (R225 to R229). -/
def State.regionWork (s : State) (p : Nat) (x : RegionRun) (how : DrainEnd) : Acc State := do
  let r := x.rcd
  let slot := x.slot
  let legs := rrLegs r
  let (s0, left) ← (s.regionSlots p r).leftovers p r (how == .flushed)
  let key := s0.leftKey p slot
  let (s2, lost) ← (if how = .timedOut then (s0.clearRegion p r).spillLeft p slot key left else .ok (s0.clearRegion p r, 0))
  let s3 := if how = .timedOut then
      (s2.put (Reg.FLD_RECONF_STATUS_TIMED_OUT p) 1).alarm 2 0 (sourceOfAgent 10 0 (s.lfieldOf p)) (s.ctxOf p slot)
    else s2
  let s4 := if lost = 0 then s3 else (s3.put (Reg.FLD_RECONF_STATUS_LAST_FAULT p) Flt.SILT_EXHAUSTED).siltExhausted p slot 10
  let (s5, written) := s4.writeLegs p slot (rrSrc r) legs
  let spilled := if how = .timedOut then left.length - lost else 0
  let first := match s5.siltUse p slot 2 key with
    | some z => 256 * z.places.headD 0
    | none => 0
  let (s6, bridged, room) ← (if rrBridge r && decide (0 < spilled) then
      ((s5.modGrid p fun g => { g with silt := g.silt.filter fun z => !(z.slot == slot && z.kind == 2 && z.key == key) }).siltShow p slot).bridge p slot r
        (left.take spilled)
    else .ok (s5, 0, true))
  let s7 := if room then s6 else (s6.put (Reg.FLD_RECONF_STATUS_LAST_FAULT p) Flt.SILT_EXHAUSTED).siltExhausted p slot 10
  let code := if lost ≠ 0 ∨ room = false then Flt.SILT_EXHAUSTED
    else if written < legs.length then s7.get (Reg.FLD_RECONF_STATUS_LAST_FAULT p) else 0
  let s8 := ((s7.regionFree p slot).reconfPhase p 0).progress p slot
  let (s9, _) := s8.recordWrite p 10 0 slot (32 * cfgBits r 40 29 11)
    (regionRecord written (x.gone + left.length) spilled bridged first code (how == .timedOut) (how == .flushed) slot s8.stamp)
  .ok ((if cfgBits r 40 10 10 = 1 then s9.arriveVid p slot (cfgBits r 40 9 0) 1 else s9).gridSettle p)

/-- The region is drained, timed out or flushed: with the border held the port does its work, releases the border and arrives (R225 to R229). A
sleeping bank or stack holds the port. -/
def State.regionFinish (s : State) (p : Nat) (x : RegionRun) (how : DrainEnd) : State :=
  match s.sleepingBank? p (rrSrc x.rcd) (256 * (rrLegs x.rcd).length), s.sleepingBank? p (32 * cfgBits x.rcd 40 29 11) 32 with
  | some b, _ => (s.wakeBank p b false).reconfPhase p 4
  | none, some b => (s.wakeBank p b true).reconfPhase p 4
  | none, none => match s.regionWork p x how with
    | .ok t => t
    | .error e => (s.wakeFor e).reconfPhase p 4

/-- The port completes a region in flush mode where the heat is abandoned (R229). Log entry 139 (DESIGN CHOICE, unsafe). -/
def State.regionAbandon (s : State) (p : Nat) (x : RegionRun) : State :=
  ((s.awake p (rrSrc x.rcd) (256 * (rrLegs x.rcd).length) false).awake p (32 * cfgBits x.rcd 40 29 11) 32 true).regionFinish p x .flushed

/-- Have the region's legs sent what was in their stages (R226)? One that a fault or its context's state keeps from sending, or whose carry has no
token to go on with, has nothing more to send. -/
def State.regionSent (s : State) (p : Nat) (r : List Byte) : Bool :=
  (rrLegs r).all fun y => match s.leg p y.2 y.1 with
    | some l => l.due.isEmpty || !s.legSends p y.2 y.1 l || s.carryStuck p y.2 y.1 l
    | none => true

/-- A region in flush mode goes on to its work once its legs have sent what was in their stages (R226). -/
def State.regionFlushed (s : State) (p : Nat) : State :=
  match (s.field p).grid.region with
  | some x => if s.regionSent p x.rcd then s.regionFinish p x .flushed else s
  | none => s

/-- REGION_START: the port takes a record, checks it, shuts the border and appends SEALs, or in flush mode goes on at once. -/
def State.regionStart (s : State) (p : Nat) : State :=
  if (s.field p).grid.region.isSome || !s.fieldPowered p || !s.permitted p unitReconf then s
  else match (s.field p).grid.reconfQ with
  | [] => s
  | (x, poster) :: rest =>
    let t := ((s.stepTaken p unitReconf).modGrid p fun g => { g with reconfQ := rest }).reconfShow p
    if !s.regionOk p x.desc poster then
      (t.put (Reg.FLD_RECONF_STATUS_LAST_FAULT p) Flt.RECONF_MALFORMED).fieldFault p 10 0 (s.ctxOf p x.slot) Flt.RECONF_MALFORMED 0
    else
      let seals := if rrMode x.desc = 1 then [] else (rrLegs x.desc).flatMap (t.sealQueues p x.desc)
      let run : RegionRun := { slot := rrCtx x.desc, rcd := x.desc, started := true, seals := seals, gone := 0 }
      let u := (t.modGrid p fun g => { g with region := some run }).reconfPhase p (if seals = [] then 2 else 1)
      if rrMode x.desc = 1 then (u.regionFlush p run).regionFlushed p
      else (((rrLegs x.desc).foldl (fun v y => v.sealDirect p x.desc y) u).gridSettle p)

def execRegionStart (p : Fin 72) (s : State) : Host.Outcome State Fault Refusal := answer (s.regionStart p)

/-- Is the region drained: its SEALs appended, every leg sealed with nothing to send, and no SEAL of its tag left (R224)? -/
def State.regionSealed (s : State) (p : Nat) (x : RegionRun) : Bool :=
  let legs := rrLegs x.rcd
  let mine (e : QEntry) : Bool := e.isSeal && e.lanes.headD 0 % 256 == rrTag x.rcd
  x.seals.isEmpty &&
  (legs.all fun y => match s.leg p y.2 y.1 with
    | some l => !l.valid || (l.sealDone && l.due.isEmpty)
    | none => true) &&
  ((List.range 32).all fun u => (List.range 4).all fun q => (s.iq p u q).all fun e => !(mine e && legs.contains (e.leg, u))) &&
  (legs.all fun y => (List.range 4).all fun q => match s.siltEntries p y.2 q y.1 false with
    | .ok (_, es) => !es.any mine
    | .error _ => false) &&
  ((s.field p).grid.links.all fun k => k.2.all fun t => !(mine t.entry && decide (t.src < 256) && legs.contains (t.src % 8, t.src / 8)))

/-- REGION_DRAINED: once every region leg is sealed and every SEAL consumed or absorbed, the new legs are written (R224, R227). -/
def State.regionDrained (s : State) (p : Nat) : State :=
  match (s.field p).grid.region with
  | none => s
  | some x =>
    if rrMode x.rcd = 1 then s.regionFlushed p
    else
      let t := s.gridSettle p
      match (t.field p).grid.region with
      | some y => if t.regionSealed p y then t.regionFinish p y .drained else t
      | none => t

def execRegionDrained (p : Fin 72) (s : State) : Host.Outcome State Fault Refusal := answer (s.regionDrained p)

/-- DRAIN_TIMEOUT: the drain of a scheduled context's region times out (R225). -/
def State.drainTimeout (s : State) (p : Nat) : State :=
  match (s.field p).grid.region with
  | none => s
  | some x =>
    let act := match s.ctxOf p x.slot with
      | some c => s.ctxActive c
      | none => false
    if act && rrMode x.rcd == 0 && !s.regionSealed p x then s.regionFinish p x .timedOut else s

def execDrainTimeout (p : Fin 72) (s : State) : Host.Outcome State Fault Refusal := answer (s.drainTimeout p)

end Sys2Proof.Machine
end

