-- ==== Sys2Proof/Machine/Crypto.lean ====
section
/-!
DEFINITION. SHA-384 and the verification of ECDSA P-384 signatures, which R394, R462 and R491 use by name. Both are fixed functions of
their standards, so they are computed, not assumed.
-/

namespace Sys2Proof.Machine

/-- Word `i` of a table of 64-bit words that a number packs, the first lowest. -/
def wordAt (table i : Nat) : Nat := table >>> (64 * i) % 2 ^ 64

/-- The eight words of the initial hash value of SHA-384. -/
def shaInit : Nat :=
  0x47b5481dbefa4fa4db0c2e0d64f98fa78eb44a876858151167332667ffc00b31152fecd8f70e59399159015a3070dd17629a292a367cd507cbbb9d5dc1059ed8

/-- The 80 round constants. -/
def shaConst : Nat :=
  0x6c44198c4a4758175fcb6fab3ad6faec597f299cfc657e2a4cc5d4becb3e42b6431d67c49c100d4c3c9ebe0a15c9bebc32caab7b40c7249328db77f523047d841b710b35131c471b113f9804bef90dae0a637dc5a2c898a606f067aa72176fbaf57d4f7fee6ed178eada7dd6cde0eb1ed186b8c721c0c207ca273eceea26619cc67178f2e372532bbef9a3f7b2c67915a4506cebde82bde990befffa23631e288cc702081a6439ec84c87814a1f0ab7278a5636f43172f60748f82ee5defb2fc682e6ff3d6b2b8a35b9cca4f7763e3734ed8aa4ae3418acb391c0cb3c5c95a6334b0bcb5e19b48a82748774cdf8eeb991e376c085141ab5319a4c116b8d2d0c8106aa07032bbd1b8f40e35855771202ad69906245565a910d192e819d6ef5218c76c51a30654be30c24b8b70d0f89791a81a664bbc423001a2bfe8a14cf1036492722c851482353b81c2c92e47edaee6766a0abb3c77b2a8650a73548baf63de53380d139d95b3df4d2c6dfc5ac42aed2e1b21385c26c92627b70a8546d22ffc142929670a0e6e7006ca6351e003826fd5a79147930aa725c6e00bf33da88fc2bf597fc7beef0ee4b00327c898fb213fa831c66d2db43210983e5152ee66dfab76f988da831153b55cb0a9dcbd41fbd44a7484aa6ea6e4832de92c6f592b0275240ca1cc77ac9c650fc19dc68b8cd5b5efbe4786384f25e3e49b69c19ef14ad2c19bf174cf6926949bdc06a725c7123580deb1fe3b1696b172be5d74f27b896f550c7dc3d5ffb4e2243185be4ee4b28c12835b0145706fbed807aa98a3030242ab1c5ed5da6d8118923f82a4af194f9b59f111f1b605d0193956c25bf348b538e9b5dba58189dbbcb5c0fbcfec4d3b2f7137449123ef65cd428a2f98d728ae22

/-- A 64-bit word turned right by `n`. -/
def turned (x n : Nat) : Nat := (x + 2 ^ 64 * x) / 2 ^ n % 2 ^ 64

/-- The parity of a word turned by each of some amounts. -/
def turns (x : Nat) (ns : List Nat) : Nat := ns.foldl (fun a n => a ^^^ turned x n) 0

/-- Words added modulo 2^64. -/
def wordSum (xs : List Nat) : Nat := xs.sum % 2 ^ 64

/-- The big-endian value of a byte list. -/
def beNat (bs : List Byte) : Nat := bs.foldl (fun a b => 256 * a + b.toNat) 0

/-- The low `n` bytes of a number, highest first. -/
def beBytes (n v : Nat) : List Byte := (leBytes n v).reverse

/-- Big-endian words of `w` bytes, `n` of them. -/
def beWords (w : Nat) : Nat → List Byte → List Nat
  | 0, _ => []
  | n + 1, bs => beNat (bs.take w) :: beWords w n (bs.drop w)

/-- The message words from the sixteenth on: each comes from the sixteen before it, of which `ws` lists the newest first. -/
def shaMore (ws : List Nat) : Nat :=
  let back (k : Nat) : Nat := ws.getD (k - 1) 0
  wordSum [back 16, back 7, turns (back 15) [1, 8] ^^^ back 15 / 2 ^ 7, turns (back 2) [19, 61] ^^^ back 2 / 2 ^ 6]

/-- A round on the eight working words: they move up by one place, the fourth takes a sum on its way, and a new word enters at the front. -/
def shaRound (v : List Nat) (k w : Nat) : List Nat :=
  let x (i : Nat) : Nat := v.getD i 0
  let picked := x 6 ^^^ (x 4 &&& (x 5 ^^^ x 6))
  let common := (x 0 &&& x 1) ||| (x 2 &&& (x 0 ||| x 1))
  let sum := wordSum [x 7, turns (x 4) [14, 18, 41], picked, k, w]
  wordSum [sum, turns (x 0) [28, 34, 39], common] :: v.take 3 ++ wordSum [x 3, sum] :: (v.drop 4).take 3

/-- `n` rounds from round `i` on; `ws` lists the message words of the last sixteen rounds, newest first, and `ahead` those that the block gives for the
next. -/
def shaRounds : Nat → Nat → List Nat → List Nat → List Nat → List Nat
  | 0, _, _, _, v => v
  | n + 1, i, ws, ahead, v =>
    let w := ahead.headD (shaMore ws)
    shaRounds n (i + 1) (w :: ws.take 15) ahead.tail (shaRound v (wordAt shaConst i) w)

/-- The blocks of a padded message, 128 bytes each. -/
def shaBlocks : Nat → List Byte → List Nat → List Nat
  | 0, _, h => h
  | n + 1, bs, h => shaBlocks n (bs.drop 128) ((shaRounds 80 0 [] (beWords 8 16 bs) h).zipWith (fun x y => wordSum [x, y]) h)

/-- SHA-384 of a message, as 48 bytes. Log entry 131 (DESIGN CHOICE, safe). -/
def sha384 (m : List Byte) : List Byte :=
  let z := (239 - m.length % 128) % 128
  let padded := m ++ [0x80] ++ List.replicate z 0 ++ beBytes 16 (8 * m.length)
  ((shaBlocks (padded.length / 128) padded ((List.range 8).map (wordAt shaInit))).take 6).flatMap (beBytes 8)

/-! ECDSA over P-384. -/

/-- The field prime of P-384. -/
def pP : Nat := 0xfffffffffffffffffffffffffffffffffffffffffffffffffffffffffffffffeffffffff0000000000000000ffffffff

/-- The order of its base point. -/
def pN : Nat := 0xffffffffffffffffffffffffffffffffffffffffffffffffc7634d81f4372ddf581a0db248b0a77aecec196accc52973

/-- The constant b of its curve. -/
def pB : Nat := 0xb3312fa7e23ee7e4988e056be3f82d19181d9c6efe8141120314088f5013875ac656398d8a2ed19d2a85c8edd3ec2aef

/-- Its base point. -/
def pG : Nat × Nat :=
  (0xaa87ca22be8b05378eb1c71ef320ad746e1d3b628ba79b9859f741e082542a385502f25dbf55296c3a545e3872760ab7,
   0x3617de4a96262c6f5d9e98bf9292dc29f8f41dbd289a147ce9da3113b5f0b8c00a60b1ce1d7e819d7a431d7c90ea0e5f)

/-- `b ^ e` modulo `m`, over `k` bits of `e`, highest first. -/
def powMod (m b e : Nat) : Nat → Nat
  | 0 => 1 % m
  | k + 1 =>
    let h := powMod m b (e / 2) k
    if e % 2 = 1 then h * h % m * b % m else h * h % m

/-- Inverse modulo a 384-bit prime. -/
def invMod (m a : Nat) : Nat := powMod m a (m - 2) 384

/-- Sum of two points of the curve; `none` is the point at infinity. -/
def ecAdd : Option (Nat × Nat) → Option (Nat × Nat) → Option (Nat × Nat)
  | none, q => q
  | p, none => p
  | some (x1, y1), some (x2, y2) =>
    if x1 = x2 ∧ (y1 + y2) % pP = 0 then none
    else
      let l := if x1 = x2 then (3 * x1 * x1 + pP - 3) * invMod pP (2 * y1) % pP
               else (y2 + pP - y1) * invMod pP (x2 + pP - x1) % pP
      let x3 := (l * l + 2 * pP - x1 - x2) % pP
      some (x3, (l * (x1 + pP - x3) + pP - y1) % pP)

/-- `k` times a point, over `n` bits of `k`. -/
def ecMul (q : Option (Nat × Nat)) (k : Nat) : Nat → Option (Nat × Nat)
  | 0 => none
  | n + 1 =>
    let h := ecMul q (k / 2) n
    let d := ecAdd h h
    if k % 2 = 1 then ecAdd d q else d

/-- Is a pair a point of the curve? -/
def onCurve (q : Nat × Nat) : Bool :=
  decide (q.1 < pP ∧ q.2 < pP ∧ q.2 * q.2 % pP = (q.1 * q.1 * q.1 + (pP - 3) * q.1 + pB) % pP)

/-- Does (r, s) verify over a 48-byte hash under a public key? Log entry 131 (DESIGN CHOICE, safe). -/
def ecdsaVerify (key : Nat × Nat) (hash : List Byte) (r s : Nat) : Bool :=
  decide (1 ≤ r ∧ r < pN ∧ 1 ≤ s ∧ s < pN) && onCurve key &&
    (let w := invMod pN s
     let z := beNat hash
     match ecAdd (ecMul (some pG) (z * w % pN) 384) (ecMul (some key) (r * w % pN) 384) with
     | some (x, _) => x % pN == r
     | none => false)

end Sys2Proof.Machine
end

