-- ==== Sys2Proof/Machine/Eth.lean ====
section
/-!
DEFINITION. The Ethernet port: its link (R370, R371), the frames it takes and sends (R372 to R374), MACsec (R381, R382), the answers that
keep its addresses reachable (R373), and the RoCEv2 responder (R375 to R380).
-/

namespace Sys2Proof.Machine

/-- Change the Ethernet port and CSP endpoint. -/
def State.modEth (s : State) (g : EthState → EthState) : State := { s with eth := g s.eth }

/-- Record a fault of the Ethernet port. -/
def State.ethFault (s : State) (code detail : Nat) : State := s.partFault 13 0 code detail

/-- Count a discarded frame (R372, R384). -/
def State.ethDrop (s : State) : State := s.count48 Reg.aETH_RX_DROP_LO 1

/-- Does the link carry frames? -/
def State.ethUp (s : State) : Bool := s.on Reg.ETH_PORT_STATUS_LINK_UP

/-- The deployment record in force (R456). -/
def State.deploy (s : State) : DeployRec := s.nv.record

/-! The link (R370, R371). -/

/-- RATE of a port whose lanes `failed` do not work: all lanes, a group of four without a failed lane, or none. -/
def ethRate (failed : Nat) (only400 : Bool) : Nat :=
  if failed = 0 ∧ !only400 then 3 else if failed % 16 = 0 then 1 else if failed / 16 % 16 = 0 then 2 else 0

/-- The link goes down (R371, R399). Log entry 30 (DESIGN CHOICE, unsafe). -/
def State.ethDown (s : State) : State :=
  if s.ethUp then
    (s.puts [(Reg.ETH_PORT_STATUS_LINK_UP, 0), (Reg.ETH_PORT_STATUS_RATE, 0), (Reg.ETH_PORT_STATUS_DOWN_SEEN, 1)]).ethFault
      Flt.ETH_LINK_DOWN 0
  else s

/-- The port trains on the lanes that work. -/
def State.ethTrain (s : State) (failed : Nat) (only400 : Bool) : State :=
  let r := ethRate failed only400
  let t := s.puts [(Reg.ETH_PORT_STATUS_LANE_FAILED, failed), (Reg.ETH_PORT_STATUS_RATE, r), (Reg.ETH_PORT_STATUS_LINK_UP, b2n (r != 0))]
  if decide (failed ≠ 0) && r != 0 then t.ethFault Flt.ETH_FALLBACK 0 else t

/-- May the port negotiate: enabled, its SerDes on with its clock, its outputs released (R429, R556, R557)? -/
def State.ethReady (s : State) : Bool := s.on Reg.ETH_PORT_CTRL_EN && s.serdesReady 4 && s.board.outputs

def execEthLinkUp (failed : Fin 256) (only400 : Bool) (s : State) : Host.Outcome State Fault Refusal :=
  answer (if s.ethReady && !s.ethUp then s.ethTrain failed only400 else s)

/-- ETH_FALLBACK: a lane fails; the port retrains at 400 Gbit/s on a group without a failed lane, or goes down (R371). -/
def State.ethLaneFail (s : State) (l : Nat) : State :=
  if s.ethUp then
    let failed := s.get Reg.ETH_PORT_STATUS_LANE_FAILED ||| 2 ^ l
    let t := s.put Reg.ETH_PORT_STATUS_LANE_FAILED failed
    let r := s.get Reg.ETH_PORT_STATUS_RATE
    let used := r = 3 ∨ (r = 1 ∧ l < 4) ∨ (r = 2 ∧ 4 ≤ l)
    if ¬used then t
    else if ethRate failed true = 0 then t.ethDown
    else s.ethTrain failed true
  else s

def execEthFallback (lane : Fin 8) (s : State) : Host.Outcome State Fault Refusal := answer (s.ethLaneFail lane)

/-- RETRY_800: the port retrains with every lane that works (R371). Log entry 30 (DESIGN CHOICE, unsafe). -/
def State.ethRetry (s : State) (failed : Nat) : State :=
  if s.ethReady then (if ethRate failed false = 0 then s.ethDown else s.ethTrain failed false) else s

def execRetry800 (failed : Fin 256) (s : State) : Host.Outcome State Fault Refusal := answer (s.ethRetry failed)

def execEthLinkDown (s : State) : Host.Outcome State Fault Refusal := answer s.ethDown

/-! Frames in (R372 to R374, R381). -/

/-- VLAN id and priority of a frame: none for an untagged or priority-tagged frame (R372). -/
def frameVlan (f : EthFrame) : Option Nat :=
  match f.tags with
  | [(v, _)] => if v % 4096 = 0 then none else some (v % 4096)
  | _ => none

/-- Priority of a frame for PFC. -/
def framePcp (f : EthFrame) : Nat := match f.tags with | (_, p) :: _ => p % 8 | [] => 0

/-- Does an enabled admission entry name the VLAN of a frame, or are untagged frames accepted (R372)? -/
def State.vlanOk (s : State) (f : EthFrame) : Bool :=
  match frameVlan f with
  | some v => (List.range 64).any fun n => s.on (Reg.ETH_ADMIT_EN n) && s.get (Reg.ETH_ADMIT_VLAN n) == v
  | none => s.on Reg.ETH_PORT_CTRL_UNTAGGED_EN

/-- Is a destination address this part's, or a group address? -/
def State.macOk (s : State) (a : Nat) : Bool := a == s.deploy.mac || bit a 40

/-- The association a protected frame names, where it passes its checks (R381). -/
def State.macsecSa (s : State) (t : SecTag) : Option MacSa :=
  s.eth.sas.find? fun a => decide (1 ≤ a.chan) && a.sci == t.sci && a.an == t.an && t.icvOk && decide (a.pn < t.pn + Config.replayWindow + 1)

/-- Does a frame with this tag pass MACsec? Log entry 91 (DESIGN CHOICE, unsafe). -/
def State.macsecOk (s : State) (sec : Option SecTag) : Bool :=
  !s.on Reg.ETH_PORT_CTRL_MACSEC_EN || (match sec with | some t => (s.macsecSa t).isSome | none => false)

/-- Note the packet number of an accepted frame while MACsec is enabled. Log entry 91 (DESIGN CHOICE, unsafe). -/
def State.macsecSeen (s : State) (sec : Option SecTag) : State :=
  match (if s.on Reg.ETH_PORT_CTRL_MACSEC_EN then sec else none) with
  | some t => s.modEth fun e =>
      { e with sas := e.sas.map fun a => if a.chan ≠ 0 ∧ a.sci = t.sci ∧ a.an = t.an then { a with pn := max a.pn t.pn } else a }
  | none => s

/-- Is an IP packet one the part reads: whole, for one of its addresses (R373)? -/
def State.ipOk (s : State) (h : IpHead) : Bool :=
  !h.frag && (if h.v6 then h.dst == s.deploy.ipv6 || h.dst == s.deploy.linkLocal else h.dst == s.deploy.ipv4)

/-- Does the part read what the frame carries? -/
def State.bodyOk (s : State) (f : EthFrame) : Bool :=
  match f.body, f.ip with
  | .arp _, _ => true
  | .neighbour _, some h => h.v6 && !h.frag
  | .echo _, some h => s.ipOk h
  | .udp _ d _, some h => s.ipOk h && d == s.get Reg.ETH_CSP_CTRL_UDP_PORT
  | .roce p, some h => s.ipOk h && p.rc
  | _, _ => false

/-- Bytes of the receive buffer that a priority holds. -/
def State.rxHeld (s : State) (p : Nat) : Nat := (s.eth.rxq.filter fun f => framePcp f == p).foldl (fun a f => a + f.len) 0

/-- Send a pause or a resume for a priority (R374). Log entry 90 (DESIGN CHOICE, unsafe). -/
def State.pfcSend (s : State) (p : Nat) (on : Bool) : State :=
  s.modEth fun e =>
    { e with pausedRx := if on then e.pausedRx ||| 2 ^ p else e.pausedRx &&& (255 - 2 ^ p),
             txq := { dst := { mac := 0x0180C2000001, vlan := none, pcp := 0, v6 := false, ip := 0, port := 0 }, pcp := 0, ect := false,
                      body := .pause (if on then 2 ^ p else 0) (if on then 0 else 2 ^ p), sec := none } :: e.txq }

/-- Pause a priority above 75 % of its share, resume it below 50 % (R374). Log entry 90 (DESIGN CHOICE, unsafe). -/
def State.pfcCheck (s : State) (p : Nat) : State :=
  let held := s.rxHeld p
  let share := Config.rxShare p
  let paused := bit s.eth.pausedRx p
  if bit (s.get Reg.ETH_PFC_CTRL_PFC_EN) p && !paused && decide (3 * share < 4 * held) then s.pfcSend p true
  else if paused && decide (2 * held < share) then s.pfcSend p false
  else s

/-- Where a frame came from. -/
def framePeer (f : EthFrame) (port : Nat) : Peer :=
  { mac := f.src, vlan := frameVlan f, pcp := framePcp f, v6 := (f.ip.map (·.v6)).getD false, ip := (f.ip.map (·.src)).getD 0, port := port }

/-- Queue a frame for sending. -/
def State.ethQueue (s : State) (x : TxFrame) : State := s.modEth fun e => { e with txq := e.txq ++ [x] }

/-- A queue pair by its local number. -/
def State.qp (s : State) (n : Nat) : Option QueuePair := (s.eth.qps.find? fun e => e.1 == n).map (·.2)

/-- Replace a queue pair. -/
def State.setQp (s : State) (n : Nat) (q : QueuePair) : State :=
  s.modEth fun e => { e with qps := e.qps.map fun x => if x.1 == n then (n, q) else x }

/-- A RoCEv2 answer of a queue pair (R374, R375). -/
def State.roceAnswer (s : State) (q : QueuePair) (psn : Nat) (a : RoceAns) : State :=
  s.ethQueue { dst := q.peer, pcp := s.get Reg.ETH_PFC_CTRL_ROCE_PCP, ect := true, body := .roce q.remote psn a, sec := none }

/-- A marked packet makes a congestion notification, at most one in 50 µs on a queue pair: three ticks apart (R375). Log entry 89 (PRESUMED, unsafe). -/
def State.cnpSend (s : State) (f : EthFrame) : State :=
  match f.body, f.ip with
  | .roce p, some h =>
    match s.qp p.qp with
    | some q =>
      if decide (h.ecn = 3 ∧ p.op ≠ .cnp) && (match q.cnpAt with | some t => decide (t + 3 ≤ s.stamp) | none => true) then
        (s.setQp p.qp { q with cnpAt := some s.stamp }).roceAnswer q q.sendPsn .cnp
      else s
    | none => s
  | _, _ => s

/-- The READ requests of a queue pair that have come and are not answered. -/
def State.readsOut (s : State) (qp : Nat) : Nat :=
  (s.eth.rxq.filter fun f => match f.body with | .roce k => decide (k.op = .read) && k.qp == qp | _ => false).length

/-- Is a frame a READ beyond the 16 that a queue pair may have outstanding (R376)? -/
def State.readsFull (s : State) (f : EthFrame) : Bool :=
  match f.body with
  | .roce k => decide (k.op = .read) && (s.qp k.qp).isSome && decide (16 ≤ s.readsOut k.qp)
  | _ => false

/-- Such a READ is answered with NAK Invalid Request and not performed. Log entry 87 (PRESUMED, unsafe). -/
def State.readRefuse (s : State) (f : EthFrame) : State :=
  match f.body with
  | .roce k => (match s.qp k.qp with | some q => s.roceAnswer q k.psn .nakInvalid | none => s)
  | _ => s

/-- FRAME_RECEIVE: the checks of the MAC and the network layer in turn, then the receive buffer (R372 to R374, R381). Log entry 91 (DESIGN CHOICE, unsafe). -/
def State.frameReceive (s : State) (f : EthFrame) : State :=
  if !s.ethUp then s
  else if f.len < 64 ∨ 9216 < f.len ∨ !f.fcsOk ∨ !s.macOk f.dst then s.ethDrop
  else if !s.macsecOk f.sec then s.ethDrop
  else if 1 < f.tags.length ∨ !s.vlanOk f then s.ethDrop
  else
    let t := s.macsecSeen f.sec
    if !t.bodyOk f then t
    else if t.readsFull f then t.readRefuse f
    else if Config.rxShare (framePcp f) < t.rxHeld (framePcp f) + f.len then t.ethDrop
    else ((t.modEth fun e => { e with rxq := e.rxq ++ [f] }).cnpSend f).pfcCheck (framePcp f)

def execFrameReceive (f : EthFrame) (s : State) : Host.Outcome State Fault Refusal := answer (s.frameReceive f)

/-- Take a frame that has been read out of the receive buffer. -/
def State.rxTake (s : State) (p : EthFrame → Bool) : State :=
  match s.eth.rxq.find? p with
  | some f => (s.modEth fun e => { e with rxq := dropFirst p e.rxq }).pfcCheck (framePcp f)
  | none => s

/-! Frames out (R374, R381, R382). -/

/-- Has a frame of its priority to wait (R374)? A pause frame never waits. -/
def State.txHeld (s : State) (x : TxFrame) : Bool :=
  match x.body with
  | .pause .. => false
  | _ => bit s.eth.pausedTx x.pcp

/-- The association that protects the next frame (R382). Log entry 91 (DESIGN CHOICE, unsafe). -/
def State.txSa (s : State) : Option MacSa := s.eth.sas.find? fun a => a.chan == 0 && some a.an == s.eth.txAn

/-- The packet number at which GCM-AES-256 raises its alarm, and the last. -/
def pnWarn : Nat := 0xC0000000
def pnLast : Nat := 0xFFFFFFFF

/-- Has an association a packet number left (R382)? -/
def MacSa.usable (a : MacSa) : Bool := a.xpn || decide (a.pn < pnLast)

/-- A frame leaves under a transmit association; GCM-AES-256 raises its alarm once when the packet numbers come to `pnWarn` (R382). -/
def State.txUnder (s : State) (x : TxFrame) (a : MacSa) : State :=
  let u := s.modEth fun e =>
    { e with sent := e.sent ++ [{ x with sec := some (a.an, a.pn) }], txAn := some a.an,
             sas := e.sas.map fun b => if b = a then { b with pn := b.pn + 1 } else b }
  if !a.xpn && decide (pnWarn ≤ a.pn) && !bit s.eth.pnAlarm a.an then
    (u.modEth fun e => { e with pnAlarm := e.pnAlarm + 2 ^ a.an }).faultWith (some 1) Flt.MACSEC_PN 13 0 none none a.an
  else u

/-- The records of a TELEMETRY datagram are exported once it has been sent; those of one that is discarded are not (R398). -/
def State.telSent (s : State) (x : TxFrame) (left : Bool) : State :=
  match x.body with
  | .udp _ d =>
    (match s.tel.out.find? fun o => o.1 == d with
     | some o => s.modTel fun t =>
         { t with out := dropFirst (fun y => y.1 == d) t.out,
                  buffer := if left then t.buffer.map fun r => if o.2.contains r.seq then { r with exported := true } else r else t.buffer }
     | none => s)
  | _ => s

/-- A frame leaves: with MACsec on, under the selected association, or under the other where the packet numbers of the first have run
out; a frame that no association can protect is discarded (R381, R382). -/
def State.txOut (s : State) (x : TxFrame) : State :=
  let isPause := match x.body with | .pause .. => true | _ => false
  if !s.on Reg.ETH_PORT_CTRL_MACSEC_EN || isPause then (s.modEth fun e => { e with sent := e.sent ++ [x] }).telSent x true
  else match s.txSa with
    | none => s
    | some a =>
      if a.usable then (s.txUnder x a).telSent x true
      else match s.eth.sas.find? fun b => b.chan == 0 && b.an != a.an && b.usable with
        | some b => (s.txUnder x b).telSent x true
        | none => (s.telSent x false).faultWith (some 0) Flt.MACSEC_PN 13 0 none none a.an

/-- Trim what a request keeps for resend to its last 1 MiB, sent datagrams only (R391). -/
def trimKept (waiting : KeptResult → Bool) : Nat → List KeptResult → List KeptResult
  | 0, ks => ks
  | n + 1, ks =>
    match ks with
    | k :: rest =>
      if decide (2 ^ 20 < (ks.foldl (fun a k => a + k.len) 0)) && !waiting k then trimKept waiting n rest else ks
    | [] => []

/-- Does a RESULT datagram of a request still wait to be sent: one to its source with its TYPE, REQUEST_ID and STREAM (Table 16-3)? -/
def State.resultWaits (s : State) (r : Request) (k : KeptResult) : Bool :=
  s.eth.txq.any fun x => match x.body with
    | .udp _ d => x.dst == r.src && beNat ((d.drop 3).take 1) == 3 && beNat ((d.drop 16).take 8) == r.id && beNat ((d.drop 24).take 4) == k.stream
    | _ => false

/-- Trim every request's resend store. -/
def State.trimAll (s : State) : State :=
  { s with srv := { s.srv with reqs := s.srv.reqs.map fun r => { r with kept := trimKept (s.resultWaits r) r.kept.length r.kept } } }

/-- FRAME_SEND: the first frame whose priority is not paused leaves (R374). -/
def State.frameSend (s : State) : State :=
  if !s.ethUp then s
  else match s.eth.txq.find? fun x => !s.txHeld x with
    | none => s
    | some x =>
      if s.on Reg.ETH_PORT_CTRL_MACSEC_EN && s.txSa.isNone && (match x.body with | .pause .. => false | _ => true) then s
      else ((s.modEth fun e => { e with txq := dropFirst (fun y => !s.txHeld y) e.txq }).txOut x).trimAll

def execFrameSend (s : State) : Host.Outcome State Fault Refusal := answer s.frameSend

/-- PFC_FRAME: a pause frame pauses or resumes priorities (R374); while MACsec is enabled one that is not protected is discarded as any other frame
(R381). Log entry 90 (DESIGN CHOICE, unsafe). -/
def State.pfcFrame (s : State) (pause resume : Nat) (sec : Option SecTag) : State :=
  if !s.ethUp then s
  else if !s.macsecOk sec then s.ethDrop
  else (s.macsecSeen sec).modEth fun e => { e with pausedTx := (e.pausedTx &&& (255 - resume)) ||| pause }

def execPfcFrame (pause resume : Fin 256) (sec : Option SecTag) (s : State) : Host.Outcome State Fault Refusal :=
  answer (s.pfcFrame pause resume sec)

/-! Addresses (R373). -/

/-- Answer the first received frame that meets `p`, where `a` gives an answer, to its source with its VLAN and priority. -/
def State.answerFrame (s : State) (p : EthFrame → Bool) (a : EthFrame → Option TxBody) : State :=
  match s.eth.rxq.find? p with
  | none => s
  | some f =>
    let t := s.rxTake p
    match a f with
    | some b => t.ethQueue { dst := framePeer f 0, pcp := framePcp f, ect := false, body := b, sec := none }
    | none => t

def execArpRequest (s : State) : Host.Outcome State Fault Refusal :=
  answer (s.answerFrame (fun f => match f.body with | .arp _ => true | _ => false) fun f =>
    match f.body with
    | .arp a => if a = s.deploy.ipv4 then some (.arpReply a) else none
    | _ => none)

def execNeighbourSolicitation (s : State) : Host.Outcome State Fault Refusal :=
  answer (s.answerFrame (fun f => match f.body with | .neighbour _ => true | _ => false) fun f =>
    match f.body with
    | .neighbour a => if a = s.deploy.ipv6 ∨ a = s.deploy.linkLocal then some (.neighbourAdv a) else none
    | _ => none)

def execEchoRequest (s : State) : Host.Outcome State Fault Refusal :=
  answer (s.answerFrame (fun f => match f.body with | .echo _ => true | _ => false) fun f =>
    match f.body with
    | .echo d => some (.echoReply d)
    | _ => none)

/-! DCQCN (R375): g = 1/256, recovery period 55 µs. -/

/-- The port's rate in Mbit/s. Log entry 38 (DESIGN CHOICE, unsafe). -/
def State.lineRate (s : State) : Rat :=
  match s.get Reg.ETH_PORT_STATUS_RATE with | 3 => 800000 | 0 => 0 | _ => 400000

/-- A notification cuts the rate by half of alpha and raises alpha. Log entry 89 (PRESUMED, unsafe). -/
def QueuePair.cut (q : QueuePair) : QueuePair :=
  { q with target := q.rate, rate := q.rate * (1 - q.alpha / 2), alpha := q.alpha * (255 / 256) + 1 / 256, periods := 0 }

/-- A period without notification: alpha falls, and the rate moves half-way to its target, which rises after the first periods. Log entry 89 (PRESUMED, unsafe). -/
def QueuePair.recover (q : QueuePair) (line : Rat) : QueuePair :=
  let n := q.periods + 1
  let target := if n ≤ Config.dcqcnFast then q.target else min line (q.target + Config.dcqcnStep)
  { q with alpha := q.alpha * (255 / 256), target := target, rate := (q.rate + target) / 2, periods := n }

/-- CNP_RECEIVE: the first notification received cuts its queue pair's rate. Log entry 89 (PRESUMED, unsafe). -/
def State.cnpReceive (s : State) : State :=
  let p := fun f : EthFrame => match f.body with | .roce k => decide (k.op = .cnp) | _ => false
  match s.eth.rxq.find? p with
  | some f =>
    let t := s.rxTake p
    match f.body with
    | .roce k => (match t.qp k.qp with | some q => t.setQp k.qp q.cut | none => t)
    | _ => t
  | none => s

def execCnpReceive (s : State) : Host.Outcome State Fault Refusal := answer s.cnpReceive

def execDcqcnRateRecovery (qp : Fin 16777216) (s : State) : Host.Outcome State Fault Refusal :=
  answer (match s.qp qp with | some q => s.setQp qp (q.recover s.lineRate) | none => s)

/-! RoCEv2 (R376 to R380). -/

/-- The pseudo-Field under which the Ethernet port keeps what its Quipel requests answer. -/
def ethField : Nat := 72

/-- What becomes of an access through a window. -/
inductive WinEnd where
  | done (s : State) (data : List Byte)
  | wait (s : State)
  | refused (s : State)

/-- The window an rkey names, with the right asked for, where the access lies in it (R377). -/
def State.winOf (s : State) (rkey va len : Nat) (write : Bool) : Option Nat :=
  let n := rkey % 64
  if bit rkey 6 || !s.on (Reg.ETH_ROCE_WIN_CFG_EN n) || s.get (Reg.ETH_ROCE_WIN_CFG_KEY n) != rkey / 128 % 2 ^ 25 then none
  else if !s.on (if write then Reg.ETH_ROCE_WIN_CFG_W n else Reg.ETH_ROCE_WIN_CFG_R n) then none
  else if s.get (Reg.ETH_ROCE_WIN_LEN_LEN n) * 65536 < va + len then none
  else some n

/-- The part offset of a byte of a window. -/
def State.winBase (s : State) (n : Nat) : Nat := s.get (Reg.ETH_ROCE_WIN_BASE_OFFSET n) * 65536

/-- The Field whose bucket is charged for a partition: the lowest with an enabled set (R380, R409). Log entry 86 (DESIGN CHOICE, unsafe). -/
def State.bucketField (s : State) (part : Nat) : Option (Nat × Nat) :=
  (List.range 72).findSome? fun p =>
    ((List.range 4).find? fun k => s.on (Reg.FLD_BW_SET_EN p k) && s.get (Reg.FLD_BW_SET_PART p k) == part).map fun k => (p, k)

/-- May an access of a partition issue now? Its charge, where it may (R338, R380, R410). Log entry 85 (DESIGN CHOICE, unsafe). Log entry 86 (DESIGN CHOICE, unsafe). -/
def State.partCharge (s : State) (part : Nat) (quipel : Bool) (n : Nat) : Option State :=
  match s.bucketField part with
  | none => some s
  | some (p, k) =>
    let b := 2 * k + b2n quipel
    if s.on (Reg.FLD_BW_CFG_UNLIM p b) || decide (min (chargeOf n) (s.get (Reg.FLD_BW_CFG_DEPTH p b) * 4096) ≤ s.bucket p b) then
      some (s.modField p fun f => { f with buckets := Tab.set (fun _ => 0) f.buckets b (s.bucket p b - chargeOf n) })
    else none

/-- The way from the Ethernet port to a quadrant and back: an access waits while a seam on it is shut (R54, R57). -/
def State.ethWay (s : State) (q : Nat) : Acc Unit := if s.portWayOpen (nodeOfPort 4).quad q then .ok () else .error .blocked

/-- A local access of the port or of Hjelmar by part offset: stacks and Field memory, in 64 KiB pieces. -/
def State.partRead (s : State) : List (Nat × Nat) → Acc (State × List Byte)
  | [] => .ok (s, [])
  | (o, n) :: ps => do
    let (t, a) ← match offsetTarget o with
      | some (.stack k) => (s.ethWay (quadOfStack (k / stackSize))).bind fun _ => (s.stackRead k n).map fun bs => (s, bs)
      | some (.fm m off) => (match s.physOf m with
        | some p => (s.ethWay (quadOfField p)).bind fun _ => s.fmRead p none off n
        | none => .error (.protect off))
      | _ => .error (.xlt Flt.RGA_RANGE 0 o false)
    let (u, b) ← State.partRead t ps
    .ok (u, a ++ b)

/-- A local write by part offset. -/
def State.partWrite (s : State) : List (Nat × Nat) → List Byte → Acc State
  | [], _ => .ok s
  | (o, n) :: ps, bs => do
    let t ← match offsetTarget o with
      | some (.stack k) => (s.ethWay (quadOfStack (k / stackSize))).bind fun _ => s.stackWrite k (bs.take n)
      | some (.fm m off) => (match s.physOf m with
        | some p => (s.ethWay (quadOfField p)).bind fun _ => s.fmWrite p none off (bs.take n)
        | none => .error (.protect off))
      | _ => .error (.xlt Flt.RGA_RANGE 0 o true)
    State.partWrite t ps (bs.drop n)

/-- A held access wakes what it waits for; an error is recorded where it belongs (R244, R249, R304, R317, R318). Log entry 88 (DESIGN CHOICE, unsafe). -/
def State.partFail (s : State) (e : AccErr) : WinEnd :=
  match e with
  | .bankAsleep p b w => .wait (s.wakeBank p b w)
  | .stackAsleep k => .wait (s.wakeStack k)
  | .blocked => .wait s
  | .fmUncorr a => .refused ((s.fmUncorrSeen (fieldOfWord 0 a) a false).ethFault Flt.FM_UNCORR (bits a 23 0))
  | .stkUncorr o => .refused ((s.stkUncorrSeen o false).faultWith none Flt.STK_UNCORR 11 (o / stackSize) none none o)
  | _ => .refused s

/-- The remote pieces of a window access: ask for those without a response; then take them all (R353, R377). Each request is charged to the
partition when it goes, a repeated one again (R338, R380). A NOT_PRESENT answer is repeated as often as R337 allows each of them; any other failure is
refused. -/
def State.winRemote (s : State) (part ix dev base va : Nat) (write : Bool) (bs : List Byte) : List (Nat × Nat) → State × Bool × Bool × List Byte
  | [] => (s, true, false, [])
  | (o, n) :: ps =>
    let rga := dev * 2 ^ 41 + base + o
    let tries := Tab.get (fun _ => 0) s.eth.remoteTries (ix * 2 ^ 48 + o)
    match s.respFor ethField 13 ix o with
    | some r =>
      if r.status = 0 then
        let (t, ok, bad, d) := State.winRemote s part ix dev base va write bs ps
        (t, ok, bad, (r.data.drop (rga % 64)).take n ++ d)
      else if r.status = 1 ∧ tries < s.get Reg.XLT_REMOTE_RETRY_RETRY_LIMIT then
        ((s.takeResp ethField 13 ix o).modEth fun e =>
          { e with remoteTries := Tab.set (fun _ => 0) e.remoteTries (ix * 2 ^ 48 + o) (tries + 1) }, false, false, [])
      else (s.takeResp ethField 13 ix o, false, true, [])
    | none =>
      let m := if write then QMsg.request 0x02 dev 0 rga n 0 0 ((bs.drop (o - va)).take n)
        else QMsg.request 0x01 dev 0 (rga / 64 * 64) 0 ((rga + n - 1) / 64 * 64 + 64 - rga / 64 * 64) 0 []
      if s.requestOut ethField 13 ix o then
        let (t, _, bad, _) := State.winRemote s part ix dev base va write bs ps
        (t, false, bad, [])
      else
        match (s.partCharge part true n).map fun c => c.qplRequest { field := ethField, agent := 13, index := ix, ctx := 0, va := o, off := 0 } m with
        | some (QSend.fault _) => (s, false, true, [])
        | some QSend.wait => (s, false, false, [])
        | none => (s, false, false, [])
        | some (QSend.sent u) =>
          let (t, _, bad, _) := State.winRemote u part ix dev base va write bs ps
          (t, false, bad, [])

/-- A window access is over: its responses are used up, and those that are still to come answer nothing any more (R378). -/
def State.winTake (s : State) (ix : Nat) : State :=
  (s.agentEnd ethField 13 ix 0).modEth fun e => { e with remoteTries := e.remoteTries.filter fun x => x.1 / 2 ^ 48 != ix }

/-- An access through a registered window (R377, R378, R380): local memory, or the memory of another part. -/
def State.winAccess (s : State) (n va len : Nat) (bs : Option (List Byte)) : WinEnd :=
  let dev := s.get (Reg.ETH_ROCE_WIN_DEV_DEVICE n)
  let base := s.winBase n
  let part := s.get (Reg.ETH_ROCE_WIN_CFG_PARTITION n)
  let ix := 2 * n + b2n bs.isSome
  if len = 0 then .done s []
  else if dev = s.deviceId then
    let o := base + va
    let stack := decide (o < stackBytes)
    match (if stack then s.partCharge part false len else some s) with
    | none => .wait s
    | some t =>
      match bs with
      | none => (match t.partRead (vaPieces o len) with | .ok (u, d) => .done u d | .error e => s.partFail e)
      | some b =>
        if stack && !s.writesEnabled then .wait s
        else (match t.partWrite (vaPieces o len) b with | .ok u => .done u [] | .error e => s.partFail e)
  else if !s.on Reg.XLT_DEVICE_ID_VALID then .refused s
  else
    let (t, ok, bad, d) := s.winRemote part ix dev base va bs.isSome (bs.getD []) (farPieces va len)
    if bad then .refused (t.winTake ix)
    else if ok then .done (t.winTake ix) d
    else .wait t

/-- The first RoCEv2 request received. -/
def roceHead (f : EthFrame) : Bool := match f.body with | .roce k => decide (k.op ≠ .cnp) | _ => false

/-- The head request and its queue pair, where it has the operation. -/
def State.roceReq (s : State) : Option (RocePkt × Option QueuePair) :=
  match s.eth.rxq.find? roceHead with
  | some f => (match f.body with | .roce k => some (k, s.qp k.qp) | _ => none)
  | none => none

/-- Packets of a message (R376). Log entry 87 (PRESUMED, unsafe). -/
def rocePackets (mtu len : Nat) : Nat := max 1 ((len + mtu - 1) / mtu)

/-- The request is answered and the next PSN expected. -/
def State.roceDone (s : State) (k : RocePkt) (q : QueuePair) (a : RoceAns) : State :=
  ((s.rxTake roceHead).setQp k.qp { q with recvPsn := (k.psn + rocePackets q.mtu k.len) % 2 ^ 24 }).roceAnswer q k.psn a

/-- The request is refused (R376, R377, R379): it is answered with a NAK and nothing is performed. Log entry 87 (PRESUMED, unsafe). Log entry 88 (DESIGN CHOICE, unsafe). -/
def State.roceRefuse (s : State) (k : RocePkt) (q : QueuePair) (a : RoceAns) : State :=
  let t := (s.rxTake roceHead).roceAnswer q k.psn a
  if a = .nakAccess then t.ethFault Flt.ROCE_ACCESS k.va else t

/-- A request with its PSN out of turn: one already performed is acknowledged again, one ahead is refused. Log entry 87 (PRESUMED, unsafe). -/
def State.rocePsn (s : State) (k : RocePkt) (q : QueuePair) : Option State :=
  if k.psn = q.recvPsn then none
  else if (q.recvPsn + 2 ^ 24 - k.psn) % 2 ^ 24 < 2 ^ 23 ∧ k.op ≠ .read then some ((s.rxTake roceHead).roceAnswer q k.psn .ack)
  else if (q.recvPsn + 2 ^ 24 - k.psn) % 2 ^ 24 < 2 ^ 23 then none
  else some ((s.rxTake roceHead).roceAnswer q k.psn .nakSeq)

/-- A read repeated does not move the PSN expected. -/
def State.roceReadDone (s : State) (k : RocePkt) (q : QueuePair) (d : List Byte) : State :=
  if k.psn = q.recvPsn then s.roceDone k q (.readResp d) else (s.rxTake roceHead).roceAnswer q k.psn (.readResp d)

/-- Requests that name no queue pair, or an operation that is not supported (R376). Log entry 87 (PRESUMED, unsafe). -/
def State.roceCommon (s : State) (op : RoceOp) (go : RocePkt → QueuePair → State) : State :=
  match s.roceReq with
  | none => s
  | some (k, none) => if k.op = op ∨ k.op = .atomic then s.rxTake roceHead else s
  | some (k, some q) =>
    if k.op = .atomic then s.roceRefuse k q .nakInvalid
    else if k.op ≠ op then s
    else match s.rocePsn k q with
      | some t => t
      | none => go k q

/-- RDMA_WRITE (R377, R378): acknowledged once every byte has been accepted. -/
def State.rdmaWrite (s : State) : State :=
  s.roceCommon .write fun k q =>
    match s.winOf k.rkey k.va k.len true with
    | none => s.roceRefuse k q .nakAccess
    | some n =>
      match s.winAccess n k.va k.len (some k.data) with
      | .done t _ => t.roceDone k q .ack
      | .wait t => t
      | .refused t => t.roceRefuse k q .nakAccess

def execRdmaWrite (s : State) : Host.Outcome State Fault Refusal := answer s.rdmaWrite

/-- RDMA_READ (R377, R378): requests are served in order, so every earlier WRITE has been accepted. -/
def State.rdmaRead (s : State) : State :=
  s.roceCommon .read fun k q =>
    match s.winOf k.rkey k.va k.len false with
    | none => s.roceRefuse k q .nakAccess
    | some n =>
      match s.winAccess n k.va k.len none with
      | .done t d => t.roceReadDone k q d
      | .wait t => t
      | .refused t => t.roceRefuse k q .nakAccess

def execRdmaRead (s : State) : Host.Outcome State Fault Refusal := answer s.rdmaRead

/-- RDMA_SEND (R379): one DATA record in the receive channel that the queue pair names. Log entry 88 (DESIGN CHOICE, unsafe). -/
def State.rdmaSend (s : State) : State :=
  s.roceCommon .send fun k q =>
    match s.physOf q.lfield with
    | none => s.roceRefuse k q .nakInvalid
    | some p =>
      match s.rxChan p q.rx with
      | none => s.roceRefuse k q .nakInvalid
      | some r =>
        let span := recSpan k.data.length
        let ring := s.ringSize p q.rx
        if !s.on (Reg.FLD_CH_RX_STATE_OPEN p q.rx) || s.get (Reg.FLD_CH_RX_STATE_GEN p q.rx) != q.gen then s.roceRefuse k q .nakInvalid
        else if ring - 32 < span ∨ 65536 < span then s.roceRefuse k q .nakInvalid
        else
          match s.partCharge q.part false span with
          | none => s
          | some c =>
            let credit := r.limit - s.ringUsed p q.rx
            let contig := ring - s.get (Reg.FLD_CH_WPTR_WPTR p q.rx)
            let need := if span ≤ contig then span else contig + span
            let pad := decide (contig < span ∧ r.limit < contig + span ∧ contig ≤ credit)
            if r.silt ≠ [] ∨ (credit < need ∧ pad = false) then s.roceRefuse k q .rnrNak
            else
              let bs := if pad then padRecord contig (q.rx + 32 * q.gen) (64 * s.deviceId) false
                else recBytes 1 q.seq16 k.data.length (q.rx + 32 * q.gen) (64 * s.deviceId) (match k.imm with | some w => w.toNat | none => 0)
                  false k.data
              match (if pad then s else c).ringEnter p q.rx bs with
              | .ok (.entered t) =>
                if pad then t.roceRefuse k q .rnrNak else t.roceDone k { q with seq16 := (q.seq16 + 1) % 65536 } .ack
              | .ok _ => s.roceRefuse k q .rnrNak
              | .error e => if e.waits then s.wakeFor e else s.roceRefuse k q .nakInvalid

def execRdmaSend (s : State) : Host.Outcome State Fault Refusal := answer s.rdmaSend

end Sys2Proof.Machine
end

