-- ==== Sys2Proof/Machine/CspOps.lean ====
section
/-!
DEFINITION. CSP messages as bytes (R383, R384, Table 16-3): the header of a datagram, its fragments, and how the part sends a message.
-/

namespace Sys2Proof.Machine

/-- TYPE codes of Table 16-4. -/
def cspSubmit : Nat := 1
def cspCancel : Nat := 2
def cspResult : Nat := 3
def cspStatus : Nat := 4
def cspTelemetry : Nat := 5
def cspMgmt : Nat := 6

/-- Status codes of Table 16-5. -/
def stOk : Nat := 0x0000
def stQueueFull : Nat := 0x0010
def stNotAllowed : Nat := 0x0011
def stNoContext : Nat := 0x0012
def stShapePlan : Nat := 0x0013
def stMalformed : Nat := 0x0014
def stNotServing : Nat := 0x0015
def stRejected : Nat := 0x0020
def stCancelled : Nat := 0x0021
def stAuth : Nat := 0x0030
def stNonce : Nat := 0x0031
def stDenied : Nat := 0x0032

/-- FLAGS of Table 16-3. -/
def flFinal : Nat := 1
def flResend : Nat := 2
def flReply : Nat := 4

/-- What the header of a datagram says. -/
structure CspHead where
  typ : Nat
  flags : Nat
  status : Nat
  len : Nat
  part : Nat
  frag : Nat
  frags : Nat
  id : Nat
  stream : Nat
  deriving DecidableEq, Repr

/-- Bytes 0 to 27 of a header. -/
def CspHead.bytes (h : CspHead) : List Byte :=
  beBytes 2 0x4353 ++ beBytes 1 1 ++ beBytes 1 h.typ ++ beBytes 2 h.flags ++ beBytes 2 h.status ++ beBytes 4 h.len ++
    beBytes 1 h.part ++ beBytes 1 h.frag ++ beBytes 1 h.frags ++ beBytes 1 0 ++ beBytes 8 h.id ++ beBytes 4 h.stream

/-- A datagram: header, CRC-32C over header and payload, payload (R383). -/
def CspHead.datagram (h : CspHead) (payload : List Byte) : List Byte :=
  h.bytes ++ beBytes 4 (crc32c (h.bytes ++ payload)) ++ payload

/-- Read a header; none where MAGIC, VERSION, CRC or a reserved field is bad (R384). -/
def CspHead.parse (d : List Byte) : Option (CspHead × List Byte) :=
  let f (o n : Nat) : Nat := beNat ((d.drop o).take n)
  if d.length < 32 ∨ f 0 2 ≠ 0x4353 ∨ f 2 1 ≠ 1 ∨ f 4 2 / 8 ≠ 0 ∨ f 15 1 ≠ 0 ∨ f 28 4 ≠ crc32c (d.take 28 ++ d.drop 32) then none
  else some ({ typ := f 3 1, flags := f 4 2, status := f 6 2, len := f 8 4, part := f 12 1, frag := f 13 1, frags := f 14 1,
               id := f 16 8, stream := f 24 4 }, d.drop 32)

/-- Fragments of a payload: 8,192 bytes each, at least one (R384). -/
def fragments (bs : List Byte) : List (List Byte) :=
  (List.range (max 1 ((bs.length + 8191) / 8192))).map fun i => (bs.drop (8192 * i)).take 8192

/-- The datagrams of a message, whose STREAM numbers run on from `stream` in messages that carry one. -/
def cspDatagrams (typ flags status part id : Nat) (stream : Option Nat) (bs : List Byte) : List (List Byte) :=
  let fs := fragments bs
  ((List.range fs.length).zip fs).map fun x =>
    { typ := typ, flags := flags, status := status, len := bs.length, part := part, frag := x.1, frags := fs.length, id := id,
      stream := (match stream with | some n => (n + x.1) % 2 ^ 32 | none => 0) : CspHead }.datagram x.2

/-- Queue a CSP datagram to a peer, at CSP_PCP with ECT(0) (R374, R375, R383). -/
def State.cspQueue (s : State) (p : Peer) (d : List Byte) : State :=
  s.ethQueue { dst := p, pcp := s.get Reg.ETH_PFC_CTRL_CSP_PCP, ect := true,
               body := .udp (s.get Reg.ETH_CSP_CTRL_UDP_PORT) d, sec := none }

/-- Queue the datagrams of a message. -/
def State.cspSend (s : State) (p : Peer) (ds : List (List Byte)) : State := ds.foldl (fun t d => t.cspQueue p d) s

/-- Answer a message with a status and a payload, with its own TYPE and REPLY set (R387). -/
def State.cspAnswer (s : State) (p : Peer) (typ status part id : Nat) (bs : List Byte) : State :=
  s.cspSend p (cspDatagrams typ flReply status part id none bs)

end Sys2Proof.Machine
end

