-- ==== Sys2Proof/Machine/Telemetry.lean ====
section
/-!
DEFINITION. Records on their way out of the part: the stages of Table 22-5, alarm slots, the telemetry buffer and its export, and the
Bedrock clock (R520 to R537).
-/

namespace Sys2Proof.Machine

/-! Record bytes (R522, R523, Tables 22-2 to 22-6). -/

/-- A context id with its VALID bit. -/
def ctxByte : Option Nat → Nat
  | some c => 128 + c % 64
  | none => 0

/-- The 32 bytes of a fault record. -/
def FaultRec.bytes (f : FaultRec) : List Byte :=
  leBytes 2 (f.code % 4096) ++ leBytes 1 f.agent ++ leBytes 1 f.index ++
    leBytes 1 (match f.lfield with | some m => 128 + m | none => 0) ++ leBytes 1 (ctxByte f.ctx) ++ leBytes 1 f.handling ++
    leBytes 1 f.replay ++ leBytes 8 f.detail ++ leBytes 8 f.heat ++ leBytes 8 f.stamp

/-- The body of a record. -/
def TelBody.bytes : TelBody → List Byte
  | .none => []
  | .fault f => f.bytes
  | .power b => padTo 32 b
  | .counter a w v => leBytes 4 a ++ leBytes 1 w ++ leBytes 3 0 ++ leBytes 8 v ++ leBytes 16 0
  | .mark b u l x => leBytes 2 b ++ leBytes 1 u ++ leBytes 1 l ++ leBytes 4 x ++ leBytes 24 0
  | .heat e r q h => leBytes 1 e ++ leBytes 1 r ++ leBytes 2 q ++ leBytes 4 0 ++ leBytes 8 h ++ leBytes 16 0
  | .gap l g x n => leBytes 1 l ++ leBytes 1 g ++ leBytes 6 0 ++ leBytes 8 x ++ leBytes 8 n ++ leBytes 8 0

/-- A whole record. -/
def TelRec.bytes (r : TelRec) (seq : Nat) : List Byte :=
  leBytes 1 r.cls ++ leBytes 1 r.level ++ leBytes 2 r.body.kind ++ leBytes 2 r.body.bytes.length ++ leBytes 2 r.source ++
    leBytes 8 seq ++ leBytes 8 r.stamp ++ leBytes 2 (r.code % 4096) ++ leBytes 1 (ctxByte r.ctx) ++
    leBytes 1 (match r.part with | some p => 128 + p % 16 | none => 0) ++ leBytes 4 (min r.count (2 ^ 32 - 1)) ++ r.body.bytes

/-! The buffer (R531). -/

/-- Size of the buffer. -/
def bufSize : Nat := 2 ^ 28

/-- Is a record of the buffer the newest of its slot, which is never reclaimed? -/
def newestOfSlot (bs : List BufRec) (r : BufRec) : Bool :=
  match r.slot with
  | some n => bs.all fun x => x.slot != some n || decide (x.seq ≤ r.seq)
  | none => false

/-- The order in which records are reclaimed: exported before not exported, by rank, superseded alarms last (R526, R529, R531). -/
def reclaimKey (r : BufRec) : Nat := (if r.slot.isSome then 20 else 0) + (if r.exported then 0 else 10) + r.rank

/-- The record to reclaim for a record of rank `k`: the least by its key, the oldest of these; an unexported trace or log only if it is not
more urgent than what arrives. -/
def reclaimNext (bs : List BufRec) (k : Nat) : Option BufRec :=
  (bs.filter fun r => !newestOfSlot bs r && (r.exported || r.slot.isSome || decide (r.rank ≤ k))).foldl (fun a r =>
    match a with
    | none => some r
    | some x => if reclaimKey r < reclaimKey x ∨ (reclaimKey r = reclaimKey x ∧ r.seq < x.seq) then some r else a) none

/-- The lowest place where `n` bytes fit whole. Log entry 127 (DESIGN CHOICE, unsafe). -/
def bufFit (bs : List BufRec) (n : Nat) : Option Nat :=
  (0 :: bs.map fun r => r.off + r.len).find? fun o =>
    decide (o + n ≤ bufSize) && bs.all fun r => decide (r.off + r.len ≤ o ∨ o + n ≤ r.off)

/-- Show the lowest SEQ held. -/
def State.oldestShow (s : State) : State :=
  s.setPair Reg.aTEL_OLDEST_LO (match s.tel.buffer with
    | [] => 0
    | r :: rs => rs.foldl (fun a x => min a x.seq) r.seq)

/-- Make room for `n` bytes of a record of rank `k`. Reclaiming a record not exported counts as a drop at stage 3 (R527, R531). -/
def State.bufRoom (s : State) (k n : Nat) : Nat → State
  | 0 => s
  | fuel + 1 =>
    if (bufFit s.tel.buffer n).isSome then s
    else match reclaimNext s.tel.buffer k with
      | none => s
      | some r =>
        let t := s.modTel fun t => { t with buffer := t.buffer.filter fun x => x.seq != r.seq }
        let u := if r.exported || r.slot.isSome then t
          else ((t.modTel fun t => { t with bufGaps := gapAdd t.bufGaps r.rank s.stamp 1 }).bump48 (Reg.aTEL_DROP_LO r.rank) 1).1
        State.bufRoom u k n fuel

/-- Write a record into the buffer with the next SEQ, through the ports of Q1's stacks; a record that finds no room is dropped at stage 3. Log entry 127 (DESIGN CHOICE, unsafe). -/
def State.bufPut (s : State) (r : TelRec) (slot : Option Nat) : State :=
  let seq := s.pair Reg.aTEL_SEQ_LO + 1
  let bs := r.bytes seq
  let t := s.bufRoom r.rank bs.length s.tel.buffer.length
  match bufFit t.tel.buffer bs.length with
  | none =>
    if slot.isSome then t
    else ((t.modTel fun x => { x with bufGaps := gapAdd x.bufGaps r.rank s.stamp 1 }).bump48 (Reg.aTEL_DROP_LO r.rank) 1).1
  | some o =>
    let u := (t.stkPut (s.get Reg.TEL_BUF_BASE_BASE * bufSize + o) bs).setPair Reg.aTEL_SEQ_LO seq
    (u.modTel fun x =>
      { x with buffer := x.buffer ++ [{ seq := seq, off := o, len := bs.length, rank := r.rank, slot := slot, exported := false, rcd := r }] }).oldestShow

/-! GAP records (R527). -/

/-- A GAP record for a count of drops at a stage. Log entry 127 (DESIGN CHOICE, unsafe). -/
def gapRec (g : GapCount) (stage source : Nat) : TelRec :=
  { cls := 4, level := 0, source := source, stamp := g.first, code := 0, ctx := none, part := none, count := min g.count (2 ^ 32 - 1),
    body := .gap g.level stage g.last g.count }

/-- Ticks in 1 ms and 10 ms, and in 1 s. -/
def ticks1ms : Nat := 33
def ticks10ms : Nat := 328
def ticks1s : Nat := 32768

/-- Is the count of a level due ahead of a record of that level? Log entry 127 (DESIGN CHOICE, unsafe). -/
def gapDue (gs : List GapCount) (level now : Nat) : Option GapCount :=
  gs.find? fun g => g.level == level && decide (g.first + ticks1ms ≤ now)

/-- The buffer's own GAP record for the level of a record about to be written. -/
def State.bufGap (s : State) (level : Nat) : State :=
  match gapDue s.tel.bufGaps level s.stamp with
  | some g => (s.modTel fun t => { t with bufGaps := t.bufGaps.filter fun x => x.level != level }).bufPut (gapRec g 3 0) none
  | none => s

/-! Alarm slots (R528 to R530). -/

/-- Is a slot in use? -/
def State.slotUsed (s : State) (n : Nat) : Bool := s.on (Reg.TEL_ALARM_SLOT_IN_USE n)

/-- What a slot holds. -/
def State.alarmSlot (s : State) (n : Nat) : AlarmSlot := Tab.get (fun _ => AlarmSlot.free) s.tel.slots n

/-- Show a slot in its registers. -/
def State.setAlarmSlot (s : State) (n : Nat) (a : AlarmSlot) : State :=
  (s.modTel fun t => { t with slots := Tab.set (fun _ => AlarmSlot.free) t.slots n a }).puts
    [(Reg.TEL_ALARM_SLOT_CODE n, a.code), (Reg.TEL_ALARM_SLOT_SEV n, a.sev), (Reg.TEL_ALARM_SLOT_IN_USE n, 1),
     (Reg.TEL_ALARM_SLOT_MERGED n, b2n a.merged), (Reg.TEL_ALARM_SLOT_SOURCE n, a.source), (Reg.TEL_ALARM_COUNT_COUNT n, a.count)]

/-- The slot writes its ALARM record (R529). -/
def State.slotRecord (s : State) (n : Nat) : State :=
  let a := s.alarmSlot n
  let t := s.modTel fun t =>
    { t with slots := Tab.set (fun _ => AlarmSlot.free) t.slots n { a with written := a.count, writtenStamp := s.stamp } }
  t.bufPut { cls := 1, level := a.sev, source := a.source + (if a.merged then 2048 else 0), stamp := a.latestStamp, code := a.code,
             ctx := a.ctx, part := a.ctx.map s.partOf, count := a.count, body := a.latest } (some n)

/-- An alarm joins its slot or takes one (R528); a slot taken, or raised in severity, writes its record at once (R529). -/
def State.alarmTake (s : State) (x : TelRec) : State :=
  let join (n : Nat) (merge : Bool) : State :=
    let a := s.alarmSlot n
    let b := { a with merged := a.merged || merge, count := satAdd 32 a.count x.count, sev := min a.sev x.level, latest := x.body,
                      latestStamp := x.stamp }
    let t := s.setAlarmSlot n b
    let u := if merge then t.put Reg.TEL_ALARM_SUMMARY_MERGED_SEEN 1 else t
    if x.level < a.sev then u.slotRecord n else u
  match (List.range 256).find? fun n => s.slotUsed n && (s.alarmSlot n).code == x.code && (s.alarmSlot n).source == x.source &&
      (s.alarmSlot n).ctx == x.ctx with
  | some n => join n false
  | none =>
    match (List.range 256).find? fun n => !s.slotUsed n with
    | some n =>
      let a : AlarmSlot :=
        { code := x.code, sev := x.level, source := x.source, ctx := x.ctx, merged := false, count := x.count, latest := x.body,
          latestStamp := x.stamp, written := 0, writtenStamp := 0 }
      (s.setAlarmSlot n a).slotRecord n
    | none =>
      match (List.range 256).find? fun n => (s.alarmSlot n).code == x.code with
      | some n => join n true
      | none => s

/-- ALARM_PERIODIC_RECORD: a slot whose count has changed writes a record, at most one a second (R529). -/
def State.alarmPeriodic (s : State) (n : Nat) : State :=
  let a := s.alarmSlot n
  if s.slotUsed n && a.count != a.written && decide (a.writtenStamp + ticks1s ≤ s.stamp) then s.slotRecord n else s

def execAlarmPeriodicRecord (n : Fin 256) (s : State) : Host.Outcome State Fault Refusal := answer (s.alarmPeriodic n)

/-- Free a slot. Log entry 43 (DESIGN CHOICE, safe). -/
def State.freeAlarmSlot (s : State) (n : Nat) : State :=
  if s.slotUsed n then
    (s.modTel fun t => { t with slots := Tab.set (fun _ => AlarmSlot.free) t.slots n AlarmSlot.free }).puts
      [(Reg.TEL_ALARM_SLOT_CODE n, 0), (Reg.TEL_ALARM_SLOT_SEV n, 0), (Reg.TEL_ALARM_SLOT_IN_USE n, 0), (Reg.TEL_ALARM_SLOT_MERGED n, 0),
       (Reg.TEL_ALARM_SLOT_SOURCE n, 0), (Reg.TEL_ALARM_COUNT_COUNT n, 0)]
  else s

/-- A write to TEL_ALARM_ACK (R530). -/
def State.alarmAck (s : State) (v : Nat) : State :=
  if bit v 8 then (List.range 256).foldl State.freeAlarmSlot s else s.freeAlarmSlot (v % 256)

def execTelAlarmAck (value : Word) (s : State) : Host.Outcome State Fault Refusal := answer (s.alarmAck value.toNat)

/-! The stages (R524 to R527). -/

/-- A record that waits for a place in the reserve of a stage enters it (R525). -/
def State.reserveFill (s : State) (k : Nat) : State :=
  let g := s.stage k
  if (g.recs.filter TelRec.reserved).length < (stageCap k).2 then
    match s.tel.held.find? fun x => x.1 == k with
    | some (_, r) =>
      (s.modTel fun t => { t with held := dropFirst (fun x => x.1 == k) t.held }).setStage k { g with recs := g.recs ++ [r] }
    | none => s
  else s

/-- SOURCE of a stage's GAP records. -/
def stageSource (k : Nat) : Nat := if k < 65536 then k else srcOf 5 (k - 65536)

/-- Stage number of Table 22-5. -/
def stageNo (k : Nat) : Nat := if k < 65536 then 1 else 2

/-- A record leaves a stage for the next: a source queue for its collector, a collector for the alarm slots or the buffer. -/
def State.stageNext (s : State) (k : Nat) (r : TelRec) : State :=
  if k < 65536 then s.telPush (collectorKey (quadOfSource k)) r
  else if r.cls = 1 then s.alarmTake r
  else (s.bufGap r.rank).bufPut r none

/-- COLLECTOR_WRITE: a stage passes its oldest record on, after the GAP record of its level where that is due (R524, R527). Log entry 127 (DESIGN CHOICE, unsafe). -/
def State.stagePass (s : State) (k : Nat) : State :=
  let g := s.stage k
  match g.recs with
  | [] => s
  | r :: rest =>
    let t := (match (if r.reserved then none else gapDue g.gaps r.rank s.stamp) with
      | some d => (s.setStage k { recs := rest, gaps := g.gaps.filter fun x => x.level != r.rank }).stageNext k
          (gapRec d (stageNo k) (stageSource k))
      | none => s.setStage k { g with recs := rest } : State)
    (t.stageNext k r).reserveFill k

/-- Where a stage lies: a source queue, or the collector of a quadrant. Log entry 127 (DESIGN CHOICE, unsafe). -/
def telKey : TelPoint → Nat
  | .source src => src
  | .collector q => collectorKey q

def execCollectorWrite (at' : TelPoint) (s : State) : Host.Outcome State Fault Refusal := answer (s.stagePass (telKey at'))

/-- GAP_RECORD: the count of a level goes 10 ms after its last drop, or 1 ms after its first (R527). -/
def State.gapRecord (s : State) (k level : Nat) : State :=
  let g := s.stage k
  match g.gaps.find? fun x => x.level == level && decide (x.last + ticks10ms ≤ s.stamp) with
  | some d => (s.setStage k { g with gaps := g.gaps.filter fun x => x.level != level }).stageNext k (gapRec d (stageNo k) (stageSource k))
  | none => s

/-- The same of the buffer. -/
def State.bufGapLate (s : State) (level : Nat) : State :=
  match s.tel.bufGaps.find? fun x => x.level == level && decide (x.last + ticks10ms ≤ s.stamp) with
  | some d => (s.modTel fun t => { t with bufGaps := t.bufGaps.filter fun x => x.level != level }).bufPut (gapRec d 3 0) none
  | none => s

def execGapRecord (at' : Option TelPoint) (level : Fin 4) (s : State) : Host.Outcome State Fault Refusal :=
  answer (match at' with | some x => s.gapRecord (telKey x) level | none => s.bufGapLate level)

/-! Export (R398, R532). -/

/-- Does a subscription take a record? A GAP record always. -/
def wanted (classes : Nat) (r : TelRec) : Bool :=
  match r.cls with | 1 => bit classes 0 | 2 => bit classes 1 | 3 => bit classes 2 | _ => true

/-- Take records in order while they fit in `room` bytes. -/
def fitRecs : Nat → List BufRec → List BufRec
  | _, [] => []
  | room, r :: rs => if r.len ≤ room then r :: fitRecs (room - r.len) rs else []

/-- Records in SEQ order. -/
def bySeq (rs : List BufRec) : List BufRec := sortBy (fun a b => decide (a.seq ≤ b.seq)) rs

/-- A TELEMETRY datagram of records (Table 22-7). -/
def State.telDatagram (s : State) (b : Subscription) (first : Nat) (rs : List BufRec) (flags : Nat) : State :=
  let head := leBytes 8 first ++ leBytes 8 (s.pair Reg.aTEL_OLDEST_LO) ++ leBytes 8 s.tel.epoch ++ leBytes 2 rs.length ++
    leBytes 2 flags ++ leBytes 4 0
  let bs := head ++ rs.flatMap fun r => r.rcd.bytes r.seq
  let p : Peer := { mac := b.mac, vlan := b.vlan, pcp := b.pcp, v6 := b.v6, ip := b.ip, port := b.port }
  let t := s.cspSend p (cspDatagrams cspTelemetry 0 0 0xFF b.id (some b.stream) bs)
  t.modTel fun x => { x with subscription := some { b with stream := (b.stream + 1) % 2 ^ 32 },
                             sent := x.sent ++ [(b.stream, (rs.map (·.seq)).foldl min first)],
                             out := x.out ++ (cspDatagrams cspTelemetry 0 0 0xFF b.id (some b.stream) bs).map fun d => (d, rs.map (·.seq)) }

/-- TELEMETRY_EXPORT: pending alarms first, then the ordinary stream (R532). A record counts as exported once its datagram has been sent (R398), and is in
none while one with it waits. -/
def State.telExport (s : State) : State :=
  match s.tel.subscription with
  | none => s
  | some b =>
    let pos := s.tel.exportPos
    let waits (r : BufRec) : Bool := s.tel.out.any fun o => o.2.contains r.seq
    let open' := bySeq (s.tel.buffer.filter fun r => !r.exported && !waits r && wanted b.classes r.rcd && decide (pos < r.seq))
    let alarms := open'.filter fun r => r.rcd.cls == 1
    let plain := open'.filter fun r => r.rcd.cls != 1
    let ahead := fitRecs 8160 alarms
    let used := ahead.foldl (fun a r => a + r.len) 0
    let rest := if ahead.length = alarms.length then fitRecs (8160 - used) plain else []
    let rs := ahead ++ rest
    if rs.isEmpty || !s.ethUp then s
    else
      let first := (match plain with
        | r :: _ => r.seq
        | [] => s.pair Reg.aTEL_SEQ_LO + 1 : Nat)
      let last := rest.foldl (fun a r => max a r.seq) pos
      let t := s.modTel fun x => { x with exportPos := last }
      t.telDatagram b first rs (if ahead.isEmpty then 0 else 2)

def execTelemetryExport (s : State) : Host.Outcome State Fault Refusal := answer s.telExport

/-- Send again every record still held from a SEQ onwards, `fuel` datagrams at most (R532). -/
def State.telAgain (s : State) : Nat → List BufRec → State
  | 0, _ => s
  | fuel + 1, rs =>
    match s.tel.subscription, fitRecs 8160 rs with
    | some b, x :: xs => (s.telDatagram b x.seq (x :: xs) 1).telAgain fuel (rs.drop (x :: xs).length)
    | _, _ => s

/-- A resend of the datagrams from one STREAM number on (R398, R532). Log entry 95 (DESIGN CHOICE, unsafe). -/
def State.telResend (s : State) (stream : Nat) : State :=
  match s.tel.subscription, s.tel.sent.find? fun x => x.1 == stream with
  | some b, some (_, q) =>
    let rs := bySeq (s.tel.buffer.filter fun r => r.exported && wanted b.classes r.rcd && decide (q ≤ r.seq))
    s.telAgain rs.length rs
  | _, _ => s

/-! Time (R533, R534, R556). -/

/-- EPOCH_WRITE: a write of the upper register applies both halves (R534). -/
def execEpochWrite (value : Word) (s : State) : Host.Outcome State Fault Refusal :=
  answer ((s.setReg Reg.aTEL_EPOCH_HI value).modTel fun t => { t with epoch := s.rdN Reg.aTEL_EPOCH_LO + 2 ^ 32 * value.toNat })

/-- A crystal that has not started 2 s after VBR is recorded as stopped once the control plane runs (R556). -/
def State.xtalCheck (s : State) : State :=
  if !s.board.xtalSeen && !s.board.xtalLost && decide (2 * ticks1s ≤ s.stamp ∧ 6 ≤ s.get Reg.CFG_BOOT_STATUS_PHASE) then
    (s.modBoard fun b => { b with xtalLost := true }).partFault 15 0 Flt.BRK_XTAL 0
  else s

/-- BEDROCK_TICK: the counters advance by one while VBR is in range, from the crystal or the internal oscillator alike (R533). -/
def State.bedrockTick (s : State) : State :=
  if s.board.vbr then (s.setPair Reg.aBRK_TIME_LO ((s.stamp + 1) % 2 ^ 63)).xtalCheck else s

/-- The wake alarms of the counters, which R44 alone names, have no register or event of their own and are not modelled. Log entry 1 (DESIGN CHOICE,
safe). Log entry 129 (DESIGN CHOICE, safe). Log entry 154 (DESIGN CHOICE, unsafe). -/
def execBedrockTick (s : State) : Host.Outcome State Fault Refusal := answer s.bedrockTick

/-- XTAL32K_START: the counters move to the crystal at a tick boundary, without a jump (R533). -/
def execXtal32kStart (s : State) : Host.Outcome State Fault Refusal :=
  answer (if s.board.vbr then s.modBoard fun b => { b with xtal := true, xtalSeen := true, xtalLost := false } else s)

/-- XTAL32K_STOP: the internal oscillator goes on, and the loss is recorded (R556). -/
def execXtal32kStop (s : State) : Host.Outcome State Fault Refusal :=
  answer (if s.board.xtal then (s.modBoard fun b => { b with xtal := false }).partFault 15 0 Flt.BRK_XTAL 0 else s)

end Sys2Proof.Machine
end

