-- ==== Sys2Proof/Machine/Security.lean ====
section
/-!
DEFINITION. Hjelmar: the audit log, keys and roles, how a management request is checked and answered, enrolment and attestation (R394 to R396,
R477 to R496).
-/

namespace Sys2Proof.Machine

/-- Change the NV store. -/
def State.modNv (s : State) (g : NvState → NvState) : State := { s with nv := g s.nv }

/-- A slot of the NV store. -/
def State.nvSlot (s : State) (k : Nat) : NvSlot := Tab.get (fun _ => NvSlot.empty) s.nv.slots k

/-- Replace a slot. -/
def State.setNvSlot (s : State) (k : Nat) (x : NvSlot) : State :=
  s.modNv fun n => { n with slots := Tab.set (fun _ => NvSlot.empty) n.slots k x }

/-! Free values drawn once each: signatures and random bytes. -/

/-- A signature by the device identity key: r and s, 48 bytes each. -/
def State.signed (s : State) : List Byte := (List.range 96).map (Config.signature s.fresh)

/-- The signature block of Table 19-6. Log entry 14 (DESIGN CHOICE, safe). -/
def State.signBlock (s : State) : List Byte := s.signed ++ leBytes 4 1 ++ List.replicate 28 0

/-- 48 bytes from the TRNG (R395). Log entry 14 (DESIGN CHOICE, safe). -/
def State.random48 (s : State) : List Byte := (List.range 48).map fun i => Config.trng (64 * s.fresh + i)

/-! The audit log (R489 to R496). -/

/-- Bytes 0 to 79 of a record (Table 20-7). -/
def AuditRec.head (r : AuditRec) : List Byte :=
  leBytes 8 r.seq ++ leBytes 8 r.stamp ++ leBytes 2 r.event ++ leBytes 1 r.role ++ leBytes 1 r.outcome ++ leBytes 4 r.key ++
    leBytes 4 r.detail ++ leBytes 4 r.count ++ padTo 48 r.subject

/-- A record with the chain value that follows the one before (R491). -/
def AuditRec.link (r : AuditRec) (prev : List Byte) : AuditRec := { r with chain := sha384 (prev ++ r.head) }

/-- The chain value before the first record. -/
def chainStart : List Byte := List.replicate 48 0

/-- The chain value of the newest record. -/
def State.chainNow (s : State) : List Byte :=
  match s.nv.audit.getLast?, s.nv.cps.getLast? with
  | some r, _ => r.chain
  | none, some c => c.chainEnd
  | none, none => chainStart

/-- Show the security registers (SEC block). -/
def State.secShow (s : State) : State :=
  let cls (k : Nat) : Nat := (s.nv.keys.filter fun x => x.id / 2 ^ 24 == k).length
  ((s.puts [(Reg.SEC_STATUS_CLAIMED, b2n s.nv.claimed), (Reg.SEC_STATUS_NEXT_SET, b2n (s.nv.nextHash != 0)),
    (Reg.SEC_STATUS_RECORD_LOCKED, b2n s.nv.record.locked), (Reg.SEC_KEYS_MAKER, cls 1), (Reg.SEC_KEYS_INSTALLER, cls 2),
    (Reg.SEC_KEYS_OPERATOR, cls 3), (Reg.SEC_AUDIT_USE_RECORDS, s.nv.audit.length), (Reg.SEC_AUDIT_USE_CHECKPOINTS, s.nv.cps.length)]).setPair
      Reg.aSEC_AUDIT_SEQ_LO (s.nv.auditNext - 1)).setPair Reg.aSEC_BOOT_COUNT_LO s.nv.boots

/-- Records of the ring, checkpoints of the area, and records compacted at a time (R489, R495). -/
def auditRing : Nat := 253952
def auditCps : Nat := 4096
def auditBatch : Nat := 16384

/-- Sum of the refusals of records, by their COUNT. -/
def refusals (rs : List AuditRec) : Nat := (rs.filter fun r => r.outcome == 1).foldl (fun a r => a + r.count) 0

/-- The two oldest checkpoints become one (R495). -/
def mergeCps (sign : List Byte) : List AuditCp → List AuditCp
  | a :: b :: rest =>
    { first := a.first, last := b.last, chainStart := a.chainStart, chainEnd := b.chainEnd, refused := a.refused + b.refused, sign := sign } :: rest
  | cs => cs

/-- A full ring compacts its oldest records into a signed checkpoint (R495). -/
def State.auditCompact (s : State) : State :=
  if s.nv.audit.length < auditRing then s
  else
    let t := if s.nv.cps.length < auditCps then s
      else (s.modNv fun n => { n with cps := mergeCps s.signBlock n.cps }).bumpFresh
    let old := t.nv.audit.take auditBatch
    let before := match t.nv.cps.getLast? with | some c => c.chainEnd | none => chainStart
    let cp : AuditCp :=
      { first := (old.head?.map (·.seq)).getD 0, last := (old.getLast?.map (·.seq)).getD 0, chainStart := before,
        chainEnd := (old.getLast?.map (·.chain)).getD before, refused := refusals old, sign := t.signBlock }
    (t.modNv fun n => { n with audit := n.audit.drop auditBatch, cps := n.cps ++ [cp] }).bumpFresh

/-- Append a record to both copies (R489, R491). Log entry 36 (DESIGN CHOICE, unsafe). -/
def State.auditPut (s : State) (event role outcome key detail : Nat) (subject : List Byte) (src : Option (Bool × Nat)) : State :=
  let t := s.auditCompact
  let r : AuditRec :=
    { seq := t.nv.auditNext, stamp := t.stamp, event := event, role := role, outcome := outcome, key := key, detail := detail, count := 1,
      subject := subject, chain := [], src := src }
  let l := r.link t.chainNow
  (t.modNv fun n => { n with audit := n.audit ++ [l], auditNext := n.auditNext + 1 }).secShow

/-- An action of the part itself (Table 20-6). -/
def State.auditSelf (s : State) (event detail : Nat) : State := s.auditPut event 0xFF 0 0 detail [] none

/-- Can an audit record be written: only once NV writes are enabled (R465, R492)? Log entry 36 (DESIGN CHOICE, unsafe). -/
def State.auditOk (s : State) : Bool := s.writesEnabled

/-- A refusal with AUTH or NONCE that repeats the newest record within 1 s of it adds to its COUNT (R493). -/
def State.auditRepeat (s : State) (op status : Nat) (src : Bool × Nat) : Option State :=
  match s.nv.audit.getLast? with
  | none => none
  | some r =>
    if r.event = 1 ∧ r.detail / 65536 = op ∧ r.outcome = 1 ∧ r.src = some src ∧ (status = stAuth ∨ status = stNonce) ∧
        (r.detail % 65536 = stAuth ∨ r.detail % 65536 = stNonce) ∧ s.stamp < r.stamp + ticks1s then
      let rest := s.nv.audit.dropLast
      let prev := match rest.getLast?, s.nv.cps.getLast? with
        | some x, _ => x.chain
        | none, some c => c.chainEnd
        | none, none => chainStart
      some ((s.modNv fun n => { n with audit := rest ++ [AuditRec.link { r with count := satAdd 32 r.count 1 } prev] }).secShow)
    else none

/-- The action is refused because its record cannot be written (R492). -/
def State.auditFail (s : State) : State := (s.put Reg.SEC_STATUS_AUDIT_FAIL 1).partFault 14 0 Flt.SEC_AUDIT 0

/-! Management requests (R394 to R396). -/

/-- OP codes of Table 16-9. -/
def opNonce : Nat := 0x0001
def opDcsRead : Nat := 0x0010
def opDcsWrite : Nat := 0x0011
def opServeStart : Nat := 0x0020
def opServeStop : Nat := 0x0021
def opSetShares : Nat := 0x0022
def opLoadWeights : Nat := 0x0023
def opPowerGrant : Nat := 0x0030
def opSubscribe : Nat := 0x0040
def opMacsec : Nat := 0x0041
def opWindow : Nat := 0x0042
def opQp : Nat := 0x0043
def opStage : Nat := 0x0050
def opRecord : Nat := 0x0051
def opAttest : Nat := 0x0060
def opAudit : Nat := 0x0061
def opEnrol : Nat := 0x0070

/-- A request as Table 16-8 lays it out. -/
structure MgmtReq where
  op : Nat
  role : Nat
  key : Nat
  nonce : List Byte
  body : List Byte
  signed : List Byte
  r : Nat
  sg : Nat
  odd : Bool
  deriving DecidableEq, Repr

/-- Little-endian field of a byte list. -/
def leAt (b : List Byte) (o n : Nat) : Nat := leNat ((b.drop o).take n)

/-- The fields of a request where Table 16-8 places them; `odd` where a reserved field is not zero. -/
def MgmtReq.read (m : CspMsg) : MgmtReq :=
  let b := m.body
  let n := leAt b 56 4
  { op := leAt b 0 2, role := leAt b 2 1, key := leAt b 4 4, nonce := padTo 48 ((b.drop 8).take 48), body := (b.drop 64).take n,
    signed := beBytes 8 m.id ++ b.take (64 + n), r := beNat ((b.drop (64 + n)).take 48), sg := beNat ((b.drop (112 + n)).take 48),
    odd := leAt b 3 1 != 0 || leAt b 60 4 != 0 }

/-- Read a request; none where its layout is malformed: too short, or a length that does not fit. -/
def MgmtReq.parse (m : CspMsg) : Option MgmtReq :=
  let b := m.body
  let n := leAt b 56 4
  let unsigned := leAt b 2 1 = 0 ∧ leAt b 0 2 = opNonce
  if b.length < 64 ∨ b.length ≠ 64 + n + (if unsigned then 0 else 96) ∨ m.part ≠ 0xFF then none else some (MgmtReq.read m)

/-- The first management message waiting. -/
def isMgmt (m : CspMsg) : Bool := m.typ == cspMgmt

/-- Is Hjelmar at work (R472, R512)? -/
def State.hjmUp (s : State) : Bool := !s.eth.hjmDown && !s.plane.hjmStopped

/-- The management request served next. -/
def State.mgmtHead (s : State) : Option (CspMsg × MgmtReq) :=
  if !s.hjmUp then none
  else match s.eth.msgs.find? isMgmt with
    | some m => (MgmtReq.parse m).map fun q => (m, q)
    | none => none

/-- The request leaves the queue. -/
def State.mgmtPop (s : State) : State := s.modEth fun e => { e with msgs := dropFirst isMgmt e.msgs }

/-- The answer to a request: same layout, ROLE 0, the request's NONCE, signed by the device identity key (R395). -/
def State.mgmtAnswer (s : State) (m : CspMsg) (q : MgmtReq) (status : Nat) (body : List Byte) : State :=
  let head := leBytes 2 q.op ++ leBytes 1 0 ++ leBytes 1 0 ++ leBytes 4 1 ++ q.nonce ++ leBytes 4 body.length ++ leBytes 4 0
  (s.cspAnswer m.src cspMgmt status 0xFF m.id (head ++ body ++ s.signed)).bumpFresh

/-- The answer to a NONCE request: the same layout without a key or a signature (R395). -/
def State.nonceAnswer (s : State) (m : CspMsg) (q : MgmtReq) (status : Nat) (body : List Byte) : State :=
  s.cspAnswer m.src cspMgmt status 0xFF m.id (leBytes 2 q.op ++ leBytes 2 0 ++ leBytes 4 0 ++ q.nonce ++ leBytes 4 body.length ++ leBytes 4 0 ++ body)

/-- A key of the key table, or the maker root key (R481). -/
def State.keyOf (s : State) (id : Nat) : Option (Nat × Nat) :=
  if id = 0x01000000 then some Config.rootKey else (s.nv.keys.find? fun k => k.id == id).map fun k => (k.x, k.y)

/-- Is a nonce outstanding: issued within 60 s and not used (R395)? Log entry 33 (DEDUCED, unsafe). -/
def State.nonceOk (s : State) (n : List Byte) : Bool :=
  s.eth.nonces.any fun x => x.bytes == n && decide (s.stamp < x.at' + 60 * ticks1s)

/-- Is an operation privileged (R490)? Log entry 33 (DEDUCED, unsafe). -/
def privileged (op : Nat) : Bool := op != opNonce && op != opDcsRead && op != opAttest && op != opAudit

/-- What a request's checks come to before its own body is looked at (R394, R477, R478, R481): a status where it is refused. Log entry 33 (DEDUCED, unsafe). -/
def State.mgmtRefusal (s : State) (q : MgmtReq) (key : Option (Nat × Nat)) (allowed : Bool) : Option Nat :=
  if !s.nonceOk q.nonce then some stNonce
  else if q.role = 0 ∨ q.key / 2 ^ 24 ≠ q.role then some stAuth
  else match key with
    | none => some stAuth
    | some k => if !ecdsaVerify k (sha384 q.signed) q.r q.sg then some stAuth else if !allowed then some stDenied else none

/-- Note a refusal or a malformed body in telemetry (R399). -/
def State.mgmtNote (s : State) (status : Nat) : State :=
  if status = stAuth ∨ status = stNonce ∨ status = stDenied then s.ethFault Flt.CSP_AUTH 0
  else if status = stMalformed then s.ethFault Flt.CSP_MALFORMED 0
  else s

/-- Enter a request in the audit log (R490, R493). -/
def State.mgmtAudit (s : State) (m : CspMsg) (q : MgmtReq) (status : Nat) : State :=
  match s.auditRepeat q.op status (m.src.v6, m.src.ip) with
  | some t => t
  | none => s.auditPut 1 q.role (if status = stOk then 0 else 1) q.key (65536 * q.op + status) (sha384 q.body) (some (m.src.v6, m.src.ip))

/-- A refusal of a body. Log entry 32 (DEDUCED, unsafe). -/
def malformed (s : State) : State × Nat × List Byte := (s, stMalformed, [])

/-- A request of a bad layout or an unknown operation is refused as it comes: it is noted, entered in the audit log where it is privileged, and answered
(R384, R394, R395). Log entry 92 (DEDUCED, unsafe). -/
def State.mgmtTurnAway (s : State) (m : CspMsg) (q : MgmtReq) (status : Nat) : State :=
  let t := if privileged q.op && s.auditOk then s.mgmtAudit m q status else s
  let u := (t.modEth fun e => { e with nonces := if status = stNonce then e.nonces else e.nonces.filter fun x => x.bytes != q.nonce }).mgmtNote status
  if q.op = opNonce then u.nonceAnswer m q status [] else u.mgmtAnswer m q status []

/-- Serve the request at the head of Hjelmar's queue where it is one of `mine`: checks in the order of R394, audit record before effect (R492),
effect, answer. `go` answers the state after the effect, the status and the answer's body. Log entry 32 (DEDUCED, unsafe). Log entry 33 (DEDUCED, unsafe). -/
def State.mgmtServe (s : State) (mine : MgmtReq → Bool) (keyOf : MgmtReq → Option (Nat × Nat)) (allowed : MgmtReq → Bool)
    (go : State → CspMsg → MgmtReq → State × Nat × List Byte) : State :=
  match s.mgmtHead with
  | none => s
  | some (m, q) =>
    if !mine q then s
    else
      let t := s.mgmtPop
      match s.mgmtRefusal q (keyOf q) (allowed q) with
      | some st =>
        let u := if privileged q.op && t.auditOk then t.mgmtAudit m q st else t
        let used := if st = stNonce then u else u.modEth fun e => { e with nonces := e.nonces.filter fun x => x.bytes != q.nonce }
        (used.mgmtNote st).mgmtAnswer m q st []
      | none =>
        let u := t.modEth fun e => { e with nonces := e.nonces.filter fun x => x.bytes != q.nonce }
        let go := if q.odd then fun v _ _ => malformed v else go
        if !privileged q.op then
          let (v, st, body) := go u m q
          (v.mgmtNote st).mgmtAnswer m q st body
        else if !u.auditOk then (u.auditFail.mgmtNote stDenied).mgmtAnswer m q stDenied []
        else
          let (_, st, _) := go u m q
          let (v, _, body) := go (u.mgmtAudit m q st) m q
          (v.mgmtNote st).mgmtAnswer m q st body

/-- The common form: the operation `op`, with the key of the key table. -/
def State.mgmtOp (s : State) (op : Nat) (roles : List Nat) (go : State → CspMsg → MgmtReq → State × Nat × List Byte) : State :=
  s.mgmtServe (fun q => q.op == op) (fun q => s.keyOf q.key) (fun q => roles.contains q.role) go

/-- Are the bytes `[o, o + n)` of a body zero? Log entry 32 (DEDUCED, unsafe). -/
def zeroAt (b : List Byte) (o n : Nat) : Bool := leAt b o n == 0

/-! NONCE (R395). -/

/-- NONCE: a fresh nonce; of 64 the oldest is displaced. The answer is not signed. Log entry 34 (DESIGN CHOICE, unsafe). -/
def State.nonceServe (s : State) : State :=
  match s.mgmtHead with
  | none => s
  | some (m, q) =>
    if q.op ≠ opNonce then s
    else if q.role ≠ 0 ∨ q.body ≠ [] ∨ q.odd = true then (s.mgmtPop.mgmtNote stMalformed).nonceAnswer m q stMalformed []
    else
      let n := s.random48
      let t := (s.mgmtPop.modEth fun e =>
        { e with nonces := (if e.nonces.length < 64 then e.nonces else e.nonces.drop 1) ++ [{ bytes := n, at' := s.stamp }] }).bumpFresh
      t.nonceAnswer m q stOk n

def execNonce (s : State) : Host.Outcome State Fault Refusal := answer s.nonceServe

/-- NONCE_EXPIRY: nonces older than 60 s go. Log entry 34 (DESIGN CHOICE, unsafe). -/
def execNonceExpiry (s : State) : Host.Outcome State Fault Refusal :=
  answer (s.modEth fun e => { e with nonces := e.nonces.filter fun x => decide (s.stamp < x.at' + 60 * ticks1s) })

/-! Attestation and the audit log over MGMT (R487, R488, R496). -/

/-- The quote of Table 20-5, bytes 0 to 495. -/
def State.quote (s : State) (nonce : List Byte) : List Byte :=
  let golden := s.on Reg.CFG_BOOT_STATUS_GOLDEN
  let fw := s.nvSlot (if s.plane.goldenFw then 2 else if s.nv.trial then 1 - s.nv.active else s.nv.active)
  let grid := if s.plane.goldenGrid then s.nvSlot 5 else s.nvSlot (3 + s.nv.gridForce)
  let flags := b2n golden + 2 * b2n s.nv.trial + 4 * b2n s.nv.record.locked + 8 * b2n s.nv.claimed + 16 * b2n (s.plane.activating ≠ [])
  let counters := leBytes 8 s.nv.boots ++ leBytes 8 (s.nv.auditNext - 1) ++ leBytes 4 fw.version ++ leBytes 4 grid.version ++
    leBytes 4 s.nv.record.version ++ leBytes 4 0
  [0x43, 0x58, 0x41, 0x51] ++ leBytes 2 1 ++ leBytes 2 flags ++
    leBytes 4 (s.get Reg.XLT_DEVICE_ID_DEVICE + 2 ^ 31 * s.get Reg.XLT_DEVICE_ID_VALID) ++ leBytes 4 (s.rdN Reg.aSEC_ROM_ID) ++
    padTo 48 (nonce.take 48) ++ beBytes 48 Config.romHash ++ beBytes 48 fw.hash ++ beBytes 48 grid.hash ++ beBytes 48 (s.nvSlot 2).hash ++
    beBytes 48 (s.nvSlot 5).hash ++ beBytes 48 s.nv.recordHash ++ beBytes 48 (Config.spareMapHash s.nv.mapGen) ++ sha384 counters ++ counters ++
    leBytes 8 s.stamp ++ leBytes 8 0

/-- ATTEST: the signed quote and the device certificate. -/
def State.attest (s : State) : State :=
  s.mgmtOp opAttest [1, 2, 3] fun t _ q =>
    if q.body.length ≠ 48 then malformed t
    else (t.bumpFresh, stOk, t.quote q.body ++ t.signBlock ++ Config.certificate.take 2048)

def execAttest (s : State) : Host.Outcome State Fault Refusal := answer s.attest

/-- A record of Table 20-7 as bytes. Log entry 36 (DESIGN CHOICE, unsafe). -/
def AuditRec.bytes (r : AuditRec) : List Byte := r.head ++ padTo 48 r.chain

/-- A checkpoint of Table 20-8 as bytes. -/
def AuditCp.bytes (c : AuditCp) : List Byte :=
  [0x43, 0x58, 0x41, 0x43] ++ leBytes 4 0 ++ leBytes 8 c.first ++ leBytes 8 c.last ++ padTo 48 c.chainStart ++ padTo 48 c.chainEnd ++
    leBytes 8 c.refused ++ c.sign

/-- AUDIT_READ (R496). Log entry 36 (DESIGN CHOICE, unsafe). -/
def State.auditRead (s : State) : State :=
  s.mgmtOp opAudit [1, 2, 3] fun t _ q =>
    let first := leAt q.body 0 8
    let n := leAt q.body 8 4
    if q.body.length ≠ 12 ∨ n = 0 ∨ 2048 < n then malformed t
    else
      let items := ((t.nv.cps.filter fun c => decide (first ≤ c.last)).map AuditCp.bytes ++
        (t.nv.audit.filter fun r => decide (first ≤ r.seq)).map AuditRec.bytes).take n
      (t, stOk, leBytes 8 items.length ++ leBytes 8 (t.nv.auditNext - 1) ++ items.flatten)

def execAuditRead (s : State) : Host.Outcome State Fault Refusal := answer s.auditRead

/-! Enrolment (R484 to R486, Tables 20-3 and 20-4). -/

/-- KIND of an ENROL body. -/
def enKind (b : List Byte) : Nat := leAt b 0 2
/-- SUBJECT_ID. -/
def enId (b : List Byte) : Nat := leAt b 4 4
/-- SUBJECT_KEY as bytes. -/
def enKey (b : List Byte) : List Byte := (b.drop 8).take 97
/-- SUBJECT_KEY as a point, where it is one. -/
def enPoint (b : List Byte) : Option (Nat × Nat) :=
  let k := enKey b
  let q := (beNat ((k.drop 1).take 48), beNat ((k.drop 49).take 48))
  if k.take 1 = [0x04] ∧ onCurve q then some q else none

/-- Slots of a key class (Table 20-2). -/
def keySlots : Nat → Nat | 1 => 8 | 2 => 4 | _ => 16

/-- May a key be added: a free slot of its class, its id not in use, a point of the curve? Log entry 35 (DESIGN CHOICE, safe). -/
def State.mayEnrol (s : State) (b : List Byte) : Bool :=
  let cls := enId b / 2 ^ 24
  (enPoint b).isSome && zeroAt b 108 96 && !s.nv.keys.any (·.id == enId b) && enId b != 0x01000000 &&
    decide ((s.nv.keys.filter fun k => k.id / 2 ^ 24 == cls).length < keySlots cls)

/-- Add a key; the key table change is recorded (Table 20-6). -/
def State.enrol (s : State) (b : List Byte) : State :=
  match enPoint b with
  | some (x, y) =>
    ((s.modNv fun n => { n with keys := n.keys ++ [{ id := enId b, x := x, y := y }] }).auditSelf 7 (enKind b)).secShow
  | none => s

/-- The rule of a kind holds (Table 20-4)? -/
def State.enrolOk (s : State) (q : MgmtReq) : Bool :=
  let b := q.body
  let id := enId b
  let cls := id / 2 ^ 24
  match enKind b with
  | 1 => q.key == id && cls == 2 && !s.nv.claimed && s.mayEnrol b && (s.nv.nextHash == 0 || s.nv.nextHash == beNat (sha384 (enKey b)))
  | 2 => s.nv.claimed && cls == 3 && s.mayEnrol b
  | 3 => zeroAt b 8 97 && zeroAt b 108 96 && s.nv.keys.any (·.id == id) && (if q.role = 1 then cls == 1 else cls == 2 || cls == 3) &&
      !(cls == 2 && decide ((s.nv.keys.filter fun k => k.id / 2 ^ 24 == 2).length ≤ 1))
  | 4 => zeroAt b 8 97 && beNat ((b.drop 108).take 48) == Config.identityHash
  | 5 => q.key == 0x01000000 && cls == 1 && s.mayEnrol b
  | 6 => s.nv.claimed && cls == 2 && s.mayEnrol b
  | _ => false

/-- The effect of a kind. Log entry 35 (DESIGN CHOICE, safe). -/
def State.enrolDo (s : State) (b : List Byte) : State :=
  match enKind b with
  | 1 => (s.modNv fun n => { n with claimed := true, nextHash := 0 }).enrol b
  | 3 => ((s.modNv fun n => { n with keys := n.keys.filter fun k => k.id != enId b }).auditSelf 7 3).secShow
  | 4 => ((s.modNv fun n =>
      { n with keys := n.keys.filter fun k => k.id / 2 ^ 24 == 1, claimed := false, nextHash := beNat ((b.drop 156).take 48) }).auditSelf 7 4).secShow
  | _ => s.enrol b

/-- The role a kind asks of its request. -/
def enrolRole (q : MgmtReq) : Bool :=
  match enKind q.body with
  | 1 => q.role == 2 | 2 => q.role == 2 | 3 => q.role == 1 || q.role == 2 | 4 => q.role == 1 | 5 => q.role == 1 | 6 => q.role == 2
  | _ => q.role == 1 || q.role == 2

/-- ENROL: one row for each kind; a claim is signed by the key it names, every other kind by an enrolled key. Log entry 35 (DESIGN CHOICE, safe). -/
def State.enrolServe (s : State) (mine : Nat → Bool) : State :=
  s.mgmtServe (fun q => q.op == opEnrol && mine (enKind q.body))
    (fun q => if enKind q.body = 1 then enPoint q.body else s.keyOf q.key) enrolRole fun t _ q =>
      if q.body.length ≠ 208 ∨ !zeroAt q.body 2 2 ∨ !zeroAt q.body 105 3 ∨ !zeroAt q.body 204 4 then malformed t
      else if t.enrolOk q then (t.enrolDo q.body, stOk, [])
      else (t.partFault 14 0 Flt.SEC_ENROL 0, stDenied, [])

/-- INSTALLER_CLAIM; a kind that Table 20-4 does not list is refused here. Log entry 35 (DESIGN CHOICE, safe). -/
def execInstallerClaim (s : State) : Host.Outcome State Fault Refusal := answer (s.enrolServe fun k => k == 1 || k == 0 || decide (6 < k))
def execOperatorAdd (s : State) : Host.Outcome State Fault Refusal := answer (s.enrolServe fun k => k == 2)
def execKeyRevoke (s : State) : Host.Outcome State Fault Refusal := answer (s.enrolServe fun k => k == 3)
def execInstallerRelease (s : State) : Host.Outcome State Fault Refusal := answer (s.enrolServe fun k => k == 4)
def execMakerKeyAdd (s : State) : Host.Outcome State Fault Refusal := answer (s.enrolServe fun k => k == 5)
def execInstallerKeyAdd (s : State) : Host.Outcome State Fault Refusal := answer (s.enrolServe fun k => k == 6)

end Sys2Proof.Machine
end

