-- ==== Sys2Proof/Machine/Translation.lean ====
section
/-!
DEFINITION. Translation commands (chapter 14): TLB walks and fills, the fault queues, invalidation, and the answers to
translation faults.
-/

namespace Sys2Proof.Machine

/-- The pointer entries a walk reads, for the walk cache (R330). The fuel is the levels left. -/
def State.walkPtrs (s : State) (c va : Nat) : Nat → Nat → Nat → List PtrEntry
  | 0, _, _ => []
  | fuel + 1, level, t =>
    let e := leNat (s.mread (t + 8 * tableIndex level va) 8)
    if bit e 0 && !bit e 1 && !entryMalformed level e then
      { level := level, ctx := c, prefixVa := va / (if level = 1 then 2 ^ 30 else 2 ^ 21), next := bits e 40 8 * 256 } ::
        State.walkPtrs s c va fuel (level + 1) (bits e 40 8 * 256)
    else []

/-- Entries of a list with `x` added, the oldest entry of its group dropped when the group is full. -/
def addCapped {α : Type} [DecidableEq α] (same : α → Bool) (cap : Nat) (x : α) (l : List α) : List α :=
  if (l.filter same).length < cap then l ++ [x] else dropFirst same l ++ [x]

/-- The TLB set of a page (R330): 2,048 entries, 8 ways, 256 sets by page number. -/
def tlbSet (vbase size : Nat) : Nat := (vbase / size) % 256

/-- Put a leaf into a TLB (R330). Log entry 79 (DESIGN CHOICE, unsafe). -/
def State.tlbFill (s : State) (p c : Nat) (l : Leaf) : State :=
  let e : TlbEntry := { ctx := c, vbase := l.vbase, size := l.size, frame := l.frame, rights := l.rights }
  s.modField p fun f =>
    if f.tlb.contains e then f
    else { f with tlb := addCapped (fun x => tlbSet x.vbase x.size == tlbSet e.vbase e.size) 8 e f.tlb }

/-- Put pointer entries into a walk cache: 64 of level 1 and 256 of level 2 (R330). Log entry 79 (DESIGN CHOICE, unsafe). -/
def State.ptrFill (s : State) (p : Nat) (es : List PtrEntry) : State :=
  es.foldl (fun t e => t.modField p fun f =>
    if f.walkCache.contains e then f
    else { f with walkCache := addCapped (fun x => x.level == e.level) (if e.level = 1 then 64 else 256) e f.walkCache }) s

/-- Is an agent bound to local pages (Table 14-5)? MU generators and DMA engines are not. -/
def agentLocalOnly (agent : Nat) : Bool := agent != 4 && agent != 5

/-- TLB_WALK: a miss of an agent walks the tables and fills the TLB; an agent whose access the leaf does not allow stops with its translation
fault (R324 to R331, R333). An access that hits makes no walk. Log entry 79 (DESIGN CHOICE, unsafe). -/
def State.tlbWalk (s : State) (p slot agent index va : Nat) (need : Need) : State :=
  match s.ctxOf p slot with
  | none => s
  | some c =>
    let hit := s.on (Reg.XLT_CTX_ROOT_EN c) && (s.tlbHit p c va).isSome
    match s.leafOf p c va need.writes with
    | .error e => s.accFail p agent index slot e
    | .ok l =>
      let t := if hit then s else (s.tlbFill p c l).ptrFill p (s.walkPtrs c va 3 1 (s.get (Reg.XLT_CTX_ROOT_ROOT c) * 2 ^ 21))
      match t.leafTarget l (agentLocalOnly agent) need va with
      | .error e => t.accFail p agent index slot e
      | .ok _ => t

def execTlbWalk (p : Fin 72) (slot : Fin 4) (agent : Fin 8) (index : Fin 64) (va : Nat) (need : Fin 4) (s : State) :
    Host.Outcome State Fault Refusal :=
  answer (s.tlbWalk p slot agent index va
    (match need with | 0 => .read | 1 => .write | 2 => .scatterAdd | 3 => .atomic))

/-- The 32 bytes of a fault-queue entry (Table 14-7). -/
def FqEntry.bytes (e : FqEntry) : List Byte :=
  leBytes 8 (e.va % 2 ^ 48) ++ leBytes 8 e.rga ++ leBytes 2 e.code ++ leBytes 1 e.agent ++ leBytes 1 e.index ++
  leBytes 1 e.lfield ++ leBytes 1 (e.ctx + 128 * b2n e.write) ++ leBytes 1 e.retries ++ leBytes 1 0 ++ leBytes 8 e.stamp

/-- FAULT_QUEUE_WRITE: the oldest entry that waits for quadrant `q` is written once the queue has space (R333, R334). One
entry always stays unused. -/
def State.fqWrite (s : State) (q : Nat) : State :=
  match s.xlt.fqWait.find? fun e => e.1 == q with
  | none => s
  | some (_, e) =>
    let w := s.get (Reg.XLT_FQ_WPTR_WPTR q)
    if (w + 1) % 1024 = s.get (Reg.XLT_FQ_RPTR_RPTR q) then s
    else match s.stackWrite (s.get (Reg.XLT_FQ_BASE_BASE q) * 2 ^ 15 + 32 * w) e.bytes with
      | .error (.stkUncorr o) => s.stkUncorrSeen o false
      | .error e => s.wakeFor e
      | .ok t =>
        let u := t.put (Reg.XLT_FQ_WPTR_WPTR q) ((w + 1) % 1024)
        { u with xlt := { u.xlt with fqWait := dropFirst (fun x => x.1 == q) u.xlt.fqWait } }

def execFaultQueueWrite (q : Fin 4) (s : State) : Host.Outcome State Fault Refusal := answer (s.fqWrite q)

/-! Invalidation (R332). -/

/-- Change every Field that the state lists. -/
def State.eachField (s : State) (g : FieldState → FieldState) : State :=
  (s.fields.map (·.1)).foldl (fun t p => t.modField p g) s

/-- Remove from every TLB and walk cache the entries a test selects. -/
def State.invalidate (s : State) (e : TlbEntry → Bool) (w : PtrEntry → Bool) : State :=
  s.eachField fun f => { f with tlb := f.tlb.filter (!e ·), walkCache := f.walkCache.filter (!w ·) }

/-- The context of an access that a stack holds. -/
def State.stkReqCtx (s : State) : StkReq → Option Nat
  | .read _ _ by' _ => by'.map s.reqCtx
  | .write _ _ by' _ => by'.map s.reqCtx
  | .gather _ by' _ => by'.map s.reqCtx
  | .scatterAdd _ _ _ _ r => some (s.reqCtx r)
  | .atomic _ _ _ _ r => some (s.reqCtx r)

/-- The requests to other parts that contexts have outstanding, by port, tag and stamp. -/
def State.tagsOut (s : State) (f : Nat → Bool) : List (Nat × Nat × Nat) :=
  (List.range 4).flatMap fun n => ((s.port n).tags.filter fun g => f g.user.ctx && !g.timedOut).map fun g => (n, g.tag, g.issued)

/-- The accesses of contexts that stacks hold. -/
def State.stkHeldFor (s : State) (f : Nat → Bool) : List (Nat × StkReq) :=
  (List.range 32).flatMap fun k => (((s.stk k).held ++ (s.stk k).remapHeld).filter fun x => ((s.stkReqCtx x).map f).getD false).map (k, ·)

/-- Start an invalidation: OVERRUN while one runs, otherwise BUSY and the entries go; the accesses outstanding of the contexts that `f` selects
are those it waits for (R332). Log entry 142 (DESIGN CHOICE, unsafe). -/
def State.invalStart (s : State) (scope c : Nat) (f : Nat → Bool) (e : TlbEntry → Bool) (w : PtrEntry → Bool) : State :=
  if s.on Reg.XLT_INVAL_STATUS_BUSY then s.put Reg.XLT_INVAL_STATUS_OVERRUN 1
  else
    let t := (s.put Reg.XLT_INVAL_STATUS_BUSY 1).invalidate e w
    { t with xlt := { t.xlt with inval := some (scope, c), invalTags := s.tagsOut f, invalHeld := s.stkHeldFor f } }

/-- The VA range of the invalidation registers. -/
def State.invalBounds (s : State) : Nat × Nat :=
  let b := s.get Reg.XLT_INVAL_BASE_LO_BASE_LO * 65536 + s.get Reg.XLT_INVAL_BASE_HI_BASE_HI * 2 ^ 32
  (b, b + 65536 * s.get Reg.XLT_INVAL_LEN_LEN)

/-- Scope 1: every page of a context that the range touches; with LEN 0 the operation does nothing and sets DONE. -/
def State.invalRangeStart (s : State) (c : Nat) : State :=
  let (lo, hi) := s.invalBounds
  if lo = hi ∧ ¬ s.on Reg.XLT_INVAL_STATUS_BUSY then s.put Reg.XLT_INVAL_STATUS_DONE 1
  else s.invalStart 1 c (· == c)
    (fun e => e.ctx == c && decide (e.vbase < hi ∧ lo < e.vbase + e.size))
    (fun w => w.ctx == c &&
      (let sz := if w.level = 1 then 2 ^ 30 else 2 ^ 21
       decide (w.prefixVa * sz < hi ∧ lo < (w.prefixVa + 1) * sz)))

/-- Scope 2: a whole context. -/
def State.invalCtxStart (s : State) (c : Nat) : State := s.invalStart 2 c (· == c) (·.ctx == c) (·.ctx == c)

/-- Scope 3: every context. -/
def State.invalAllStart (s : State) : State := s.invalStart 3 0 (fun _ => true) (fun _ => true) (fun _ => true)

def execInvalRange (c : Fin 64) (s : State) : Host.Outcome State Fault Refusal := answer (s.invalRangeStart c)
def execInvalContext (c : Fin 64) (s : State) : Host.Outcome State Fault Refusal := answer (s.invalCtxStart c)
def execInvalAll (s : State) : Host.Outcome State Fault Refusal := answer s.invalAllStart

/-- Has every access that an invalidation waits for returned its data or been accepted (R332)? -/
def State.invalQuiet (s : State) : Bool :=
  s.xlt.invalTags.all (fun x => !(s.tagsOut fun _ => true).contains x) && s.xlt.invalHeld.all fun x => !(s.stkHeldFor fun _ => true).contains x

/-- INVAL_DONE: accesses through removed entries have finished, and DONE is set (R332). While one of them is outstanding the invalidation runs on. -/
def State.invalDone (s : State) : State :=
  match s.xlt.inval with
  | none => s
  | some _ =>
    if s.invalQuiet then
      let t := s.puts [(Reg.XLT_INVAL_STATUS_BUSY, 0), (Reg.XLT_INVAL_STATUS_DONE, 1)]
      { t with xlt := { t.xlt with inval := none, invalTags := [], invalHeld := [] } }
    else s

def execInvalDone (s : State) : Host.Outcome State Fault Refusal := answer s.invalDone

/-- A write to `XLT_INVAL_CTRL`: scope 0 has no effect. -/
def State.invalCtrlWrite (s : State) (v : Nat) : State :=
  match bits v 1 0 with
  | 1 => s.invalRangeStart (bits v 7 2)
  | 2 => s.invalCtxStart (bits v 7 2)
  | 3 => s.invalAllStart
  | _ => s

/-! Answers to translation faults (R335, R337). -/

/-- Is the stop one of a context's suspended agents? -/
def Stop.waits (x : Stop) (c : Nat) : Bool := x.kind == .suspended && x.ctx == c

/-- RESOLVE_RETRY: every suspended agent of the context resumes and repeats its access (R335). -/
def State.resolveRetry (s : State) (c : Nat) : State :=
  s.eachField fun f => { f with stops := f.stops.filter fun e => !e.2.waits c }

/-- RESOLVE_FAIL: every suspended agent of the context stops with its recorded code; the heat is rejected and firmware raises a
MAJ alarm (R335). -/
def State.resolveFail (s : State) (c : Nat) : State :=
  let hit := s.fields.any fun e => e.2.stops.any fun x => x.2.waits c
  let t := s.eachField fun f =>
    { f with stops := f.stops.map fun e => if e.2.waits c then (e.1, { e.2 with kind := .failed }) else e }
  if hit then (t.uncommitAs c 3 Flt.XLT_NOT_PRESENT).alarm 1 Flt.XLT_NOT_PRESENT 0 (some c) else t

/-- The demand regions that the image of a context declares, as base and length (R335, R459). -/
def State.demandOf (s : State) (c : Nat) : List (Nat × Nat) :=
  match (Tab.get (fun _ => CtxServe.reset) s.srv.ctxs c).load with
  | some d => d.decl.demand
  | none => []

/-- Does a VA lie in a demand region of a context? -/
def State.demandHolds (s : State) (c va : Nat) : Bool := (s.demandOf c).any fun r => decide (r.1 ≤ va ∧ va < r.1 + r.2)

/-- Does every agent of a context that is suspended for translation wait for a page of a demand region? -/
def State.demandOnly (s : State) (c : Nat) : Bool := s.fields.all fun e => e.2.stops.all fun x => !x.2.waits c || s.demandHolds c x.2.va

/-- The entry of a context's tables that is missing for a VA: its level and its part offset (R324, R325). The fuel is the levels left. -/
def State.missingEntry (s : State) (va : Nat) : Nat → Nat → Nat → Option (Nat × Nat)
  | 0, _, _ => none
  | fuel + 1, level, t =>
    let a := t + 8 * tableIndex level va
    let e := leNat (s.mread a 8)
    if !bit e 0 then some (level, a)
    else if bit e 1 then none
    else State.missingEntry s va fuel (level + 1) (bits e 40 8 * 256)

/-- Do two ranges meet? -/
def rangesMeet (a n b m : Nat) : Bool := decide (a < b + m ∧ b < a + n)

/-- The present entries that memory holds in a table of a context's tree. -/
def State.entriesIn (s : State) (t size : Nat) : List Nat :=
  (((s.mem.filter fun x => decide (t ≤ x.1 ∧ x.1 < t + size)).map fun x => x.1 / 8 * 8).eraseDups.map fun a => leNat (s.mread a 8)).filter (bit · 0)

/-- The ranges of stack memory that a tree of tables takes from a table of a level on: the tables, and the pages its leaves map on this part (R324,
R325). The fuel is the levels left. -/
def State.treeRanges (s : State) : Nat → Nat → Nat → List (Nat × Nat)
  | 0, _, _ => []
  | fuel + 1, level, t =>
    (t, tableSize level) :: (s.entriesIn t (tableSize level)).flatMap fun e =>
      if bit e 1 then (if bits e 50 41 = s.deviceId then [(bits e 40 16 * 65536, pageSize level)] else [])
      else State.treeRanges s fuel (level + 1) (bits e 40 8 * 256)

/-- The areas of stack memory that firmware keeps for itself: the fault queues (R333), the telemetry buffer (R531), the spill areas of reductions (R360)
and the result buffers (R401). -/
def State.firmwareAreas (s : State) : List (Nat × Nat) :=
  (List.range 4).map (fun q => (s.get (Reg.XLT_FQ_BASE_BASE q) * 2 ^ 15, 2 ^ 15)) ++ [(s.get Reg.TEL_BUF_BASE_BASE * 2 ^ 28, 2 ^ 28)] ++
    (List.range 4).map (fun n => (s.get (Reg.QPL_RSPILL_BASE_BASE n) * 65536, s.get (Reg.QPL_RSPILL_SIZE_SIZE_MIB n) * 2 ^ 20)) ++
    s.srv.bufAt.map fun e => (e.2, Tab.get (fun _ => 0) s.srv.bufSize e.1)

/-- Is a page of stack memory free, so that firmware may map it into a context (R328): it holds no area of firmware, no translation tables, no page
that a context's tables map and no memory granted to a loaded context? Log entry 143 (DESIGN CHOICE, unsafe). -/
def State.pageFree (s : State) (o size : Nat) : Bool :=
  let free (x : Nat × Nat) : Bool := !rangesMeet o size x.1 x.2
  s.firmwareAreas.all free &&
  ((List.range 64).all fun c => !s.on (Reg.XLT_CTX_ROOT_EN c) || (s.treeRanges 3 1 (s.get (Reg.XLT_CTX_ROOT_ROOT c) * 2 ^ 21)).all free) &&
  s.srv.ctxs.all fun x => match x.2.load with
    | some d => d.stackZero.all free
    | none => true

/-- Firmware maps zeroed stack memory at a VA of a demand region (R335): the page has the size of the entry that is missing, and all rights, and is free (R328). Log entry 143 (DESIGN CHOICE, unsafe). -/
def State.demandMap (s : State) (c va o : Nat) : State :=
  match s.missingEntry va 3 1 (s.get (Reg.XLT_CTX_ROOT_ROOT c) * 2 ^ 21) with
  | none => s
  | some (level, a) =>
    let size := pageSize level
    if s.demandHolds c va && decide (o % size = 0 ∧ o + size ≤ stackBytes) && s.pageFree o size then
      (s.mzero o size).mwrite a (leBytes 8 (0x1F + s.deviceId * 2 ^ 41 + o))
    else s

/-- Firmware's RETRY (R335): it maps the pages given, and its write resumes the agents. Outside every demand region it answers with FAIL. -/
def State.resolveDemand (s : State) (c : Nat) (pages : List (Nat × Nat)) : State :=
  if s.demandOnly c then (pages.foldl (fun t x => t.demandMap c x.1 x.2) s).resolveRetry c else s.resolveFail c

def execResolveRetry (c : Fin 64) (pages : List (Nat × Nat)) (s : State) : Host.Outcome State Fault Refusal := answer (s.resolveDemand c pages)
def execResolveFail (c : Fin 64) (s : State) : Host.Outcome State Fault Refusal := answer (s.resolveFail c)

/-- A write to `XLT_RESOLVE`: actions 0 and 3 have no effect. -/
def State.resolveWrite (s : State) (v : Nat) : State :=
  match bits v 9 8 with
  | 1 => s.resolveDemand (bits v 5 0) []
  | 2 => s.resolveFail (bits v 5 0)
  | _ => s

/-- REMOTE_RETRY_TIMER: a Field repeats a remote access answered NOT_PRESENT, or faults once RETRY_LIMIT repeats are made
(R337). -/
def State.remoteRetry (s : State) (p agent index : Nat) : State :=
  match (s.field p).stops.find? fun e => e.1 % 1024 == agent * 64 + index && e.2.kind == .remoteRetry with
  | none => s
  | some (key, x) =>
    let n := Tab.get (fun _ => 0) (s.field p).retryCount key
    if n < s.get Reg.XLT_REMOTE_RETRY_RETRY_LIMIT then
      (s.clearStop p key).modField p fun f => { f with retryCount := Tab.set (fun _ => 0) f.retryCount key (n + 1) }
    else ((s.clearStop p key).modField p fun f => { f with retryCount := Tab.set (fun _ => 0) f.retryCount key 0 }).xltFault p agent index x.ctx
      Flt.REMOTE_NOT_PRESENT x.va x.rga x.write n

def execRemoteRetryTimer (p : Fin 72) (agent : Fin 8) (index : Fin 64) (s : State) : Host.Outcome State Fault Refusal :=
  answer (s.remoteRetry p agent index)

end Sys2Proof.Machine
end

