-- ==== Sys2Proof/Machine/Walk.lean ====
section
/-!
DEFINITION. The graph walker (R230 to R233).
-/

namespace Sys2Proof.Machine

/-- WALK_ISSUE_POST: a write to FLD_WALK_ISSUE (R230, R404). -/
def State.walkPost (s : State) (p v : Nat) : State :=
  s.dcsPost p 6 0 (Reg.FLD_WALK_STATUS_ISSUE_OVERRUN p) (s.walkPostTo p (bits v 1 0) (64 * bits v 23 6))

def execWalkIssuePost (p : Fin 72) (value : Word) (s : State) : Host.Outcome State Fault Refusal := answer (s.walkPost p value.toNat)

/-! A walk descriptor (Table 9-6). -/

def wdColVa (d : List Byte) : Bool := fbit d 0 8
def wdFence (d : List Byte) : Bool := fbit d 0 9
def wdPlan (d : List Byte) : Nat := fw d 1 20 0
def wdRowPtr (d : List Byte) : Nat := fw d 2 23 0
def wdWork (d : List Byte) : Nat := fw d 3 23 0
def wdCol (d : List Byte) : Nat := fva d 4

/-- The banks of slices in cache mode lie in 2 MiB of every 16 MiB by bits 23 to 21: does a range keep to scratchpad slices? -/
def State.scratchOk (s : State) (p off n : Nat) : Bool :=
  decide (off + n ≤ 2 ^ 24) &&
  (n == 0 || (List.range ((off + n - 1) / 2 ^ 21 - off / 2 ^ 21 + 1)).all fun i =>
    !bit (s.get (Reg.FLD_FM_SLICE_MODE_ACTIVE_MODE p)) (off / 2 ^ 21 + i))

/-- The checks of a descriptor at issue that give FLT_WALK_MALFORMED (R232). Log entry 71 (DEDUCED, unsafe). -/
def State.walkWellFormed (s : State) (p : Nat) (d : List Byte) : Bool :=
  let n := wdPlan d
  fw d 0 7 0 == 0x50 && fw d 0 31 15 == 0 && decide (1 ≤ n ∧ n ≤ 1048576) && fw d 1 31 21 == 0 &&
  fw d 2 31 24 == 0 && wdRowPtr d % 4 == 0 && fw d 3 31 24 == 0 && wdWork d % 256 == 0 &&
  fw d 5 31 16 == 0 && wdCol d % 4 == 0 && fw d 6 31 30 == 0 && ((d.drop 28).take 36).all (· == 0) &&
  s.scratchOk p (wdRowPtr d) (4 * (n + 1)) && s.scratchOk p (wdWork d) (256 + 8 * n) && (wdColVa d || s.scratchOk p (wdCol d) 0)

/-- The effective node count (R122, R230). -/
def State.walkNodes (s : State) (p slot : Nat) (d : List Byte) : Nat :=
  if fbit d 0 14 then s.get (Reg.FLD_CTX_SHAPE_VALUE p (16 * slot + fw d 0 13 10)) else wdPlan d

/-- Row pointer `i` of a walk. -/
def State.walkPtr (s : State) (p slot : Nat) (d : List Byte) (i : Nat) : Acc (State × Nat) :=
  (s.fmRead p (some slot) (wdRowPtr d + 4 * i) 4).map fun r => (r.1, leNat r.2)

/-- The outcome of the checks at issue. -/
inductive WalkCheck where
  | wait (s : State)
  | refused (s : State) (code detail : Nat)
  | ok (s : State) (nodes : Nat)

/-- The first and the last row pointer of a walk. -/
def State.walkEnds (s : State) (p slot : Nat) (d : List Byte) (n : Nat) : Acc (State × Nat × Nat) := do
  let (t, a) ← s.walkPtr p slot d 0
  let (u, b) ← t.walkPtr p slot d n
  .ok (u, a, b)

/-- The checks of R232 at issue, and of the node count against the plan. With the number of edges known the columns at an FM offset lie in
scratchpad slices. Log entry 71 (DEDUCED, unsafe). -/
def State.walkCheck (s : State) (p slot : Nat) (d : List Byte) : WalkCheck :=
  let n := s.walkNodes p slot d
  if !s.walkWellFormed p d then .refused s Flt.WALK_MALFORMED 0
  else if wdPlan d < n then .refused s Flt.SHAPE_PLAN 0
  else match s.walkEnds p slot d n with
  | .ok (t, a, b) =>
    if a ≠ 0 ∨ 4194304 < b then .refused t Flt.WALK_CAPACITY 0
    else if !wdColVa d && !t.scratchOk p (wdCol d) (4 * b) then .refused t Flt.WALK_MALFORMED 0
    else .ok t n
  | .error (.fmUncorr w) => .refused (s.fmUncorrSeen (fieldOfWord p w) w false) Flt.FM_UNCORR (bits w 23 0)
  | .error e => if e.waits then .wait (s.wakeFor e) else .refused s Flt.FM_PROTECT (wdRowPtr d)

/-- The walk that runs on a Field: one at a time, of a scheduled context. -/
def State.walkRun (s : State) (p : Nat) : Option WalkRun := (s.field p).grid.walks.find? fun r => s.ctxActive r.ctx

/-- Replace a walk. -/
def State.setWalk (s : State) (p : Nat) (r : WalkRun) : State :=
  s.modGrid p fun g => { g with walks := g.walks.map fun x => if x.ctx == r.ctx then r else x }

/-- Must a walk with FENCE = 1 wait for earlier work of its context before it reads (R161, R230)? -/
def State.walkFenced (s : State) (p c post : Nat) (d : List Byte) : Bool :=
  wdFence d && (s.macrosBefore p c post none || s.engsBefore p c post)

/-- WALK_START: the walker takes a descriptor, makes its checks, and issues or refuses it. Its row pointers are read once FENCE allows. Log entry 71 (DEDUCED, unsafe). -/
def State.walkStart (s : State) (p : Nat) : State :=
  if (s.walkRun p).isSome || !s.gridRuns p then s
  else match s.engHead p (s.field p).grid.walkQ with
  | none => s.walkShow p
  | some (x, c) =>
    let take (t : State) : State := t.modGrid p fun g => { g with walkQ := dropFirst (· == x) g.walkQ }
    if s.walkFenced p c x.order x.desc then s
    else match s.walkCheck p x.slot x.desc with
    | .wait t => t
    | .refused t code detail =>
      (((take t).put (Reg.FLD_WALK_STATUS_LAST_FAULT p) code).fieldFault p 6 0 (some c) code detail).walkShow p
    | .ok t n =>
      let seq := Tab.get (fun _ => 0) (s.field p).grid.walkSeqs c + 1
      let r : WalkRun := { slot := x.slot, ctx := c, seq := seq, post := x.order, desc := x.desc, nodes := n, node := 0, edge := 0,
                           last := 0, edges := [], paused := false, suspended := false, rateDist := false, fault := none }
      ((take t).modGrid p fun g => { g with walks := g.walks ++ [r], walkSeqs := Tab.set (fun _ => 0) g.walkSeqs c seq }).walkShow p

def execWalkStart (p : Fin 72) (s : State) : Host.Outcome State Fault Refusal := answer (s.walkStart p)

/-- A walk stops with a fault: the heat is rejected without replay (R232). -/
def State.walkStop (s : State) (p : Nat) (r : WalkRun) (code : Nat) : State :=
  (((s.setWalk p { r with fault := some code }).put (Reg.FLD_WALK_STATUS_LAST_FAULT p) code)).walkShow p

/-- What a failed access does to a walk: it waits, or it stops with the code. -/
def State.walkFail (s : State) (p : Nat) (r : WalkRun) (err : AccErr) : State :=
  let t := s.accFail p 6 0 r.slot err
  match t.stopCode p 6 0 r.ctx with
  | some code => (t.clearStop p (agentKey 6 0 r.ctx)).walkStop p r code
  | none => t

/-- A column entry of a walk: an FM offset, or a VA that goes through a cache where there is one (R230, R240). Log entry 71 (DEDUCED, unsafe). -/
def State.walkCol (s : State) (p : Nat) (r : WalkRun) (e : Nat) : Acc (State × Nat) := do
  let a := wdCol r.desc + 4 * e
  let (t, bs) ← s.opRead p r.slot (wdColVa r.desc) (if wdColVa r.desc then a % 2 ^ 48 else a) 4
  .ok (t, leNat bs)

/-- One edge of the node in work, or the step to the next node. -/
def State.walkStep (s : State) (p : Nat) (r : WalkRun) : Acc State := do
  if r.edge < r.last then
    let (t, col) ← s.walkCol p r r.edge
    if r.nodes ≤ col then .ok ((t.fieldFault p 6 0 (some r.ctx) Flt.WALK_RANGE 0).walkStop p r Flt.WALK_RANGE)
    else .ok ((t.setWalk p { r with edge := r.edge + 1, suspended := false, rateDist := r.rateDist || (s.field p).pacer.disturbed, edges := r.edges ++ [(r.node - 1, col)] }).progress p r.slot)
  else
    let (t, a) ← s.walkPtr p r.slot r.desc r.node
    let (u, b) ← t.walkPtr p r.slot r.desc (r.node + 1)
    if Sys2Proof.signed 32 b < Sys2Proof.signed 32 a then .ok ((u.fieldFault p 6 0 (some r.ctx) Flt.CSR_ORDER 0).walkStop p r Flt.CSR_ORDER)
    else .ok ((u.setWalk p { r with node := r.node + 1, edge := a, last := b, suspended := false }).progress p r.slot)

/-- Has a walk no edge and no node left? -/
def WalkRun.over (r : WalkRun) : Bool := r.fault.isSome || (decide (r.nodes ≤ r.node) && decide (r.last ≤ r.edge))

/-- WALK_EDGE_STEP: the walker processes one edge or node. A walk of a descheduled context is suspended between two steps (R233). -/
def State.walkEdge (s : State) (p : Nat) : State :=
  match (s.field p).grid.walks.find? fun r => !s.ctxActive r.ctx && !r.suspended && r.fault.isNone with
  | some r => (s.setWalk p { r with suspended := true }).walkShow p
  | none =>
    match s.walkRun p with
    | none => s
    | some r =>
      if r.over || !s.mayStep p unitWalk then s
      else match s.stopCode p 6 0 r.ctx with
      | some code => (s.clearStop p (agentKey 6 0 r.ctx)).walkStop p r code
      | none =>
        if s.agentWaits p 6 0 r.ctx || s.walkFenced p r.ctx r.post r.desc then s
        else match s.walkStep p r with
        | .ok t => (t.stepTaken p unitWalk).walkShow p
        | .error e => s.walkFail p r e

def execWalkEdgeStep (p : Fin 72) (s : State) : Host.Outcome State Fault Refusal := answer (s.walkEdge p)

/-! Strongly connected components (R231). -/

/-- Nodes reached from a node along edges. The fuel bounds the rounds. -/
def walkReach (es : List (Nat × Nat)) : Nat → List Nat → List Nat
  | 0, v => v
  | fuel + 1, v =>
    let w := es.foldl (fun v e => if v.contains e.1 && !v.contains e.2 then e.2 :: v else v) v
    if w.length = v.length then v else walkReach es fuel w

/-- The component of a node: the nodes it reaches that reach it. -/
def component (es : List (Nat × Nat)) (n v : Nat) : List Nat :=
  let back := walkReach (es.map fun e => (e.2, e.1)) n [v]
  (walkReach es n [v]).filter fun u => back.contains u

/-- Is a component cyclic: more than one node, or an edge to itself? -/
def componentCyclic (es : List (Nat × Nat)) (c : List Nat) : Bool :=
  decide (1 < c.length) || c.any fun v => es.contains (v, v)

/-- The components of a graph: each node's least node, whether its component is cyclic, and its size. -/
def labels (es : List (Nat × Nat)) (n : Nat) : List (Nat × Bool × Nat) :=
  (List.range n).map fun v =>
    let c := component es n v
    (c.foldl min v, componentCyclic es c, c.length)

/-- The label word of a node (R231). -/
def labelWord (l : Nat × Bool × Nat) : Nat := l.1 + 2 ^ 31 * b2n l.2.1

/-- The completion record of Table 9-7. -/
def WalkRun.record (r : WalkRun) (ls : List (Nat × Bool × Nat)) : List Byte :=
  let roots := ls.zipIdx.filter fun x => x.1.1 == x.2
  let cyc := roots.filter fun x => x.1.2.1
  leBytes 4 r.node ++ leBytes 4 r.edges.length ++ leBytes 4 roots.length ++ leBytes 4 cyc.length ++
  leBytes 4 (cyc.map fun x => x.1.2.2).sum ++ leBytes 4 ((roots.map fun x => x.1.2.2).foldl max 0) ++ leBytes 2 (r.fault.getD 0) ++
  leBytes 1 (b2n r.rateDist + 2 * b2n r.paused) ++ leBytes 1 r.slot ++ leBytes 4 0

/-- The bytes of the labels: of a walk that stopped with a fault they are undefined. Log entry 16 (DESIGN CHOICE, safe). -/
def State.labelBytes (s : State) (r : WalkRun) (ls : List (Nat × Bool × Nat)) : List Byte :=
  if r.fault.isSome then (List.range r.nodes).flatMap fun v => leBytes 4 (Config.walkLabel (2 ^ 24 * s.fresh + v)).toNat
  else ls.flatMap fun l => leBytes 4 (labelWord l)

/-- WALK_COMPLETE: a walk that has finished or stopped writes its labels and its record, and arrives. The header of the work area and the
place behind the labels are the walker's own, and are left undefined. Log entry 16 (DESIGN CHOICE, safe). -/
def State.walkComplete (s : State) (p : Nat) : State :=
  match (s.field p).grid.walks.find? fun r => r.over && s.ctxActive r.ctx with
  | none => s
  | some r =>
    let crec := 32 * fw r.desc 6 29 11
    let work := 256 + 8 * r.nodes
    match s.sleepingBank? p crec 32, s.sleepingBank? p (wdWork r.desc) work with
    | some b, _ => s.wakeBank p b true
    | none, some b => s.wakeBank p b true
    | none, none =>
      let ls := if r.fault.isSome then [] else labels r.edges r.nodes
      let head := (List.range 256).map fun i => (Config.walkLabel (2 ^ 24 * s.fresh + 2 ^ 20 + i)).truncate 8
      let tail := (List.range (4 * r.nodes)).map fun i => (Config.walkLabel (2 ^ 24 * s.fresh + 2 ^ 21 + i)).truncate 8
      let t := if r.nodes = 0 then s
        else match s.fmWrite p (some r.slot) (wdWork r.desc) (head ++ s.labelBytes r ls ++ tail) with
          | .ok t => t.bumpFresh
          | .error e => if r.fault.isSome then s else s.walkFail p r e
      if r.fault.isNone ∧ ((t.field p).grid.walks.find? fun x => x.ctx == r.ctx && x.fault.isSome).isSome then t
      else
        let rcd := if r.nodes = 0 then List.replicate 32 0 else r.record ls
        let (u, _) := t.recordWrite p 6 0 r.slot crec rcd
        let v := (u.modGrid p fun g => { g with walks := g.walks.filter fun x => x.ctx != r.ctx }).progress p r.slot
        (if fbit r.desc 6 10 then v.arriveVid p r.slot (fw r.desc 6 9 0) 1 else v).walkShow p

def execWalkComplete (p : Fin 72) (s : State) : Host.Outcome State Fault Refusal := answer (s.walkComplete p)

end Sys2Proof.Machine
end

