-- ==== Sys2Proof/Machine/Results.lean ====
section
/-!
DEFINITION. Requests, their sequences and their RESULTs (R388 to R393, R401, R413), and what takes a context out of service.
-/

namespace Sys2Proof.Machine

/-- The payload of a RESULT (Table 16-7). -/
def resultPayload (i status heat len : Nat) (window : Option Nat) (data : List Byte) : List Byte :=
  leBytes 2 i ++ leBytes 2 status ++ leBytes 4 heat ++ leBytes 4 len ++ leBytes 4 0 ++ leBytes 8 (window.getD (2 ^ 64 - 1)) ++ data

/-- The first place of a partition's result buffer where so many bytes fit, as a part offset (R401). Log entry 95 (DESIGN CHOICE, unsafe). -/
def State.resultPlace (s : State) (part n : Nat) : Option Nat :=
  let used := (s.srv.reqs.filter fun r => r.part == part).flatMap fun r => r.kept.filterMap fun k => k.place.map fun a => (a, k.len)
  match s.srv.bufAt.find? fun e => e.1 == part with
  | none => none
  | some (_, o) => (o :: used.map fun u => u.1 + u.2).find? fun a =>
      decide (o ≤ a ∧ a + n ≤ o + s.bufTotal part) && used.all fun u => decide (a + n ≤ u.1 ∨ u.1 + u.2 ≤ a)

/-- A RESULT datagram enters the result buffer in stack memory (R401) and takes the next STREAM number; one that finds no room stays with the serving
loop, since no result is dropped (R389). Log entry 95 (DESIGN CHOICE, unsafe). -/
def State.resultKeep (s : State) (r : Request) (d : List Byte) : State :=
  let at' := s.resultPlace r.part d.length
  let t := match at' with
    | some a => s.stkPut a d
    | none => s
  t.modReq r.order fun q =>
    { q with stream := (q.stream + 1) % 2 ^ 32,
             kept := q.kept ++ [{ stream := q.stream, len := d.length, place := at', bytes := if at'.isSome then [] else d }] }

/-- Send a RESULT of a request: its datagrams take the next STREAM numbers, enter the result buffer and are kept for resend (R383, R390,
R391, R401). -/
def State.resultSend (s : State) (r : Request) (i status len : Nat) (window : Option Nat) (data : List Byte) (final : Bool) : State :=
  let ds := cspDatagrams cspResult (if final then flFinal else 0) 0 r.part r.id (some r.stream) (resultPayload i status r.heats len window data)
  (ds.foldl (fun t d => t.resultKeep r d) (s.cspSend r.src ds)).trimAll

/-- Send a kept RESULT datagram again, from the result buffer; one that an uncorrectable transfer has lost is not sent (R304, R391). Log entry 95 (DESIGN
CHOICE, unsafe). -/
def State.resultAgain (s : State) (r : Request) (k : KeptResult) : State :=
  match k.place with
  | none => s.cspQueue r.src k.bytes
  | some a =>
    let t := s.coreAwake a k.len false
    match t.badWord? a k.len with
    | some w => t.stkUncorrSeen w false
    | none => t.cspQueue r.src (t.mread a k.len)

/-- A request whose sequences have all ended has ended (R390). -/
def State.reqCheck (s : State) (order : Nat) : State :=
  s.modReq order fun r => if r.ended.isNone && r.seqs.all (·.ended) then { r with ended := some s.stamp } else r

/-- A sequence ends, with a FINAL RESULT of its own (R390, R413). -/
def State.seqFinal (s : State) (order i status : Nat) : State :=
  match s.reqOf order with
  | none => s
  | some r =>
    match r.seqs[i]? with
    | none => s
    | some q =>
      if q.ended then s
      else ((s.resultSend r i status 0 none [] true).modSeq order i fun x => { x with ended := true, slot := none }).reqCheck order

/-- Every sequence of a request that has not ended takes a FINAL RESULT. -/
def State.reqFinal (s : State) (r : Request) (status : Nat) : State :=
  (List.range r.seqs.length).foldl (fun t i => t.seqFinal r.order i status) s

/-! Discarding what a context has under way (R340, R423). -/

/-- Is leg `x` of a unit one of a resident slot? -/
def State.legOfSlot (s : State) (p slot u x : Nat) : Bool :=
  match s.leg p u x with
  | some l => l.slot == slot
  | none => false

/-- Does an entry on a link belong to a slot: to a leg of the slot, or to a grid port bound for it? -/
def State.transitOf (s : State) (p slot : Nat) (t : Transit) : Bool :=
  if t.unit < 32 then s.legOfSlot p slot t.unit t.entry.leg
  else s.get (Reg.FLD_GP_BIND_CTX_SLOT p (t.unit - 32)) == slot && s.on (Reg.FLD_GP_BIND_PEER p (t.unit - 32))

/-- Discard a slot's macros, tiles and pair visits. -/
def State.dropMacros (s : State) (p slot c : Nat) : State :=
  let t := [0, 1].foldl (fun t a =>
    let mine := (t.ma p a).tiles.filter fun e => e.2.ctx == c
    let u := mine.foldl (fun u e => u.setSlot p a e.1 0) t
    u.modMa p a fun m =>
      { m with queue := m.queue.filter (·.slot != slot), runs := m.runs.filter (·.ctx != c), tiles := m.tiles.filter fun e => e.2.ctx != c,
               saved := m.saved.filter fun e => e.2.ctx != c }) s
  (t.modField p fun f => { f with pairBuf := f.pairBuf.filter fun v => v.ctx != c }).seqShow p

/-- Discard a slot's engine operations and transfers, with the ports and relay entries they hold. -/
def State.dropOps (s : State) (p slot c : Nat) : State :=
  let t := (s.eng p 0).runs.foldl (fun t r => if r.ctx == c then t.veUnbind p r.desc else t) s
  let t := (s.field p).dmas.foldl (fun t d => d.2.runs.foldl (fun t r =>
    if r.ctx == c then (t.relayRelease r).dmaUnbind p r.desc else t) t) t
  let t := t.modField p fun f =>
    { f with ve := { f.ve with queue := f.ve.queue.filter (·.slot != slot), runs := f.ve.runs.filter (·.ctx != c) },
             re := { f.re with queue := f.re.queue.filter (·.slot != slot), runs := f.re.runs.filter (·.ctx != c) },
             dmas := f.dmas.map fun d => (d.1, { queue := d.2.queue.filter (·.slot != slot), runs := d.2.runs.filter (·.ctx != c) }),
             grid := { f.grid with walkQ := f.grid.walkQ.filter (·.slot != slot), walks := f.grid.walks.filter (·.ctx != c),
                                   reconfQ := f.grid.reconfQ.filter (·.1.slot != slot) } }
  let u := (List.range 4).foldl (fun t e => t.dmaShow p e) ((t.engShow p 0).engShow p 1)
  (u.walkShow p).reconfShow p

/-- Discard a slot's entries in queues, on links and in Silt, and restart its legs (R198). -/
def State.dropTokens (s : State) (p slot : Nat) : State :=
  let t := match (s.field p).grid.region with
    | some x => if x.slot == slot then s.regionAbandon p x else s
    | none => s
  let links := (t.field p).grid.links.map fun e => (e.1, e.2.filter fun z => !(t.transitOf p slot z))
  let units := (t.field p).grid.units.map fun e =>
    (e.1, { e.2 with
      queues := e.2.queues.map fun q => (q.1, q.2.filter fun z => !(t.legOfSlot p slot e.1 z.leg)),
      legs := e.2.legs.map fun l => if l.2.slot == slot then (l.1, l.2.restart) else l })
  let u := t.modGrid p fun g => { g with links := links, units := units, silt := g.silt.filter (·.slot != slot),
                                         windows := g.windows.filter (·.1 != slot) }
  u.siltShow p slot

/-- Discard what waits of a context at translation and on Quipel, and the routes that its work has opened (R55, R335, R337, R340). Entries of the fault
queues stay: none is dropped (R334). -/
def State.dropWaits (s : State) (c : Nat) : State :=
  let t := s.eachField fun f =>
    { f with stops := f.stops.filter (·.2.ctx != c), resps := f.resps.filter (·.ctx != c),
             retryCount := f.retryCount.filter fun e => e.1 / 1024 != c }
  let u := (List.range 4).foldl (fun t n => t.modPort n fun x =>
    { x with tags := x.tags.map fun g => if g.user.field < 72 && g.user.ctx == c then { g with user := { g.user with agent := deadAgent } } else g }) t
  let v : State := { u with trees := u.trees.filter (·.ctx != c) }
  (v.modCtx c fun x => { x with splits := [] }).routesDrop fun r => r.ctx == c && (match r.user with
    | .chan .. => false
    | _ => true)

/-- Drop the waiters of a context at every hurdle. -/
def State.dropWaiters (s : State) (c : Nat) : State :=
  (List.range 72).foldl (fun t q =>
    let ws := (t.field q).ch.waiters.filter (·.ctx == c)
    ws.foldl (fun v w => v.showWaiters q w.hurdle)
      (t.modCh q fun x => { x with waiters := x.waiters.filter (·.ctx != c), done := x.done.filter (·.ctx != c) })) s

/-- Record the channels of a slot at heat start (R267): its receive channels, and as 32 + n its endpoints that send to another part. -/
def State.channelsRecord (s : State) (p slot : Nat) : State :=
  let rxs : List ChSnap := ((s.field p).ch.rx.filter fun e => s.get (Reg.FLD_CH_RX_STATE_CTX p e.1) == slot).map fun e =>
    let far : Option (Nat × Nat) := (s.rxSender e.2).bind fun q => (s.txChan q e.2.txIdx).map fun y => (y.seq, s.txCredit q e.2.txIdx)
    { slot := slot, rx := e.1, gen := s.get (Reg.FLD_CH_RX_STATE_GEN p e.1), wptr := s.get (Reg.FLD_CH_WPTR_WPTR p e.1), rptr := s.get (Reg.FLD_CH_RPTR_RPTR p e.1),
      seq := (far.getD (0, 0)).1, credit := (far.getD (0, 0)).2, owed := e.2.owed }
  let txs : List ChSnap := ((s.field p).ch.tx.filter fun e => e.2.remote && s.get (Reg.FLD_CH_TX_STATE_CTX p e.1) == slot).map fun e =>
    { slot := slot, rx := 32 + e.1, gen := e.2.gen, wptr := e.2.woff, rptr := 0, seq := e.2.seq, credit := s.txCredit p e.1, owed := 0 }
  s.modCh p fun x => { x with snaps := (x.snaps.filter (·.slot != slot)) ++ rxs ++ txs }

/-- Drop the records that wait at a send endpoint: none waits for credit any more, and the send of a control core among them is over. -/
def State.txEmpty (s : State) (p n : Nat) : State :=
  match s.txChan p n with
  | none => s
  | some y =>
    let t := (s.setTx p n { y with queue := [] }).put (Reg.FLD_CH_TX_STATE_WAITING p n) 0
    if y.queue.any (·.fromCore) then t.put (Reg.FLD_CH_STATUS_BUSY p) 0 else t

/-- Close a channel at once (R267, R269): firmware writes RPTR equal to WPTR, and nothing is in flight any more. -/
def State.chCloseNow (s : State) (p n : Nat) : State :=
  match s.rxChan p n with
  | none => s
  | some r =>
    let t := match s.rxSender r with
      | some q => s.txEmpty q r.txIdx
      | none => s
    let t := (t.put (Reg.FLD_CH_RPTR_RPTR p n) (t.get (Reg.FLD_CH_WPTR_WPTR p n))).modRx p n fun x => { x with silt := [] }
    (if r.waitAck then t.put (Reg.FLD_CH_STATUS_BUSY p) 0 else t).chClosing p n

/-- Restore a receive channel, and its sender on this part (R267); one that is CLOSING may be free now (R269). -/
def State.rxRestore (s : State) (p : Nat) (x : ChSnap) (r : RxChan) : State :=
  let v := (s.puts [(Reg.FLD_CH_WPTR_WPTR p x.rx, x.wptr), (Reg.FLD_CH_RPTR_RPTR p x.rx, x.rptr), (Reg.FLD_CH_RX_STATE_EXTENDED p x.rx, 0)]).setRx
    p x.rx { r with silt := [], owed := x.owed, extended := 0 }
  let w := match s.rxSender r with
    | none => v
    | some q => match v.txChan q r.txIdx with
      | none => v
      | some y => ((v.txEmpty q r.txIdx).setTx q r.txIdx { y with woff := x.wptr, seq := x.seq, queue := [] }).setTxCredit q r.txIdx x.credit
  w.chTryFree p x.rx

/-- Restore the channels of a slot to what was recorded at heat start, and close those opened since (R267). -/
def State.channelsRestore (s : State) (p slot : Nat) : State :=
  let snap (n gen : Nat) : Option ChSnap := (s.field p).ch.snaps.find? fun x => x.slot == slot && x.rx == n && x.gen == gen
  let rxs := (s.field p).ch.rx.filter fun e => s.get (Reg.FLD_CH_RX_STATE_CTX p e.1) == slot
  let txs := (s.field p).ch.tx.filter fun e => e.2.remote && s.get (Reg.FLD_CH_TX_STATE_CTX p e.1) == slot
  let t := rxs.foldl (fun t e => match snap e.1 (s.get (Reg.FLD_CH_RX_STATE_GEN p e.1)) with
    | none => t.chCloseNow p e.1
    | some x => t.rxRestore p x e.2) s
  let u := txs.foldl (fun t e => match snap (32 + e.1) e.2.gen with
    | none => (t.txEmpty p e.1).put (Reg.FLD_CH_TX_STATE_CLOSING p e.1) 1
    | some x => ((t.txEmpty p e.1).setTx p e.1 { e.2 with woff := x.wptr, seq := x.seq, queue := [] }).setTxCredit p e.1 x.credit) t
  let mine (n : Nat) : Bool := rxs.any (·.1 == n)
  (u.modCh p fun x =>
    { x with selPos := x.selPos.filter fun e => !(mine (e.2 % 32)),
             legSkip := x.legSkip.filter fun e => s.get (Reg.FLD_GP_BIND_CTX_SLOT p e.1) != slot,
             outbound := x.outbound.filter fun e => !(e.1.agent == 9 && s.ctxOf p slot == some e.1.ctx) }).selShow p

/-- A context's cache lines are discarded without write-back (R242, R423). -/
def State.dropLines (s : State) (p slot : Nat) : State :=
  s.modFm p fun f => { f with lines := f.lines.filter (·.slot != slot) }

/-- Everything a context has under way is discarded on every Field where it is resident (R335, R340, R423). -/
def State.dropWork (s : State) (c : Nat) : State :=
  let t := (s.slotsOf c).foldl (fun t x =>
    (((((t.dropMacros x.1 x.2 c).dropOps x.1 x.2 c).dropTokens x.1 x.2).dropLines x.1 x.2).channelsRestore x.1 x.2).ringsReset x.1 x.2) s
  (t.dropWaits c).dropWaiters c

end Sys2Proof.Machine
end

