-- ==== Sys2Proof/Machine/Wear.lean ====
section
/-!
DEFINITION. Spares and wear (R497 to R501, R517, R519): the spare map, the actions of Table 21-2, and the words that firmware rewrites
before a replay (R244, R304).
-/

namespace Sys2Proof.Machine

/-! The spare map (R498). -/

/-- Physical Fields of a quadrant that are free to take a logical Field's place. -/
def State.freeFields (s : State) (q : Nat) : List Nat :=
  ((List.range 18).map (18 * q + ·)).filter fun p => (s.lfieldOf p).isNone && !s.nv.map.retired.contains p

/-- Control cores that hold no quadrant and have not failed. -/
def State.freeCores (s : State) : List Nat :=
  (List.range 6).filter fun n => !bit (s.get Reg.DEV_CORE_MAP_FAILED) n &&
    (List.range 4).all fun q => s.get (Reg.DEV_CORE_MAP_CORE q) != n

/-- Show the spares left (DEV_SPARE_STATUS). -/
def State.spareShow (s : State) : State :=
  let lost := ((List.range 64).filter fun m => s.on (Reg.DEV_FIELD_MAP_LOST m)).length
  let t := (List.range 4).foldl (fun t q => t.put (Reg.DEV_SPARE_STATUS_FIELDS_FREE q) (min 2 (s.freeFields q).length)) s
  t.puts [(Reg.DEV_SPARE_STATUS_CORES_FREE, min 2 s.freeCores.length), (Reg.DEV_SPARE_STATUS_LOGICAL_LOST, lost)]

/-- The lane roles, which the spare map holds. -/
def laneRegs : List Nat := (List.range 4).flatMap fun n => (List.range 10).map fun i => Reg.aQPL_LANE_STATE n i

/-- The retired columns of an array in service: those of its register while its Field is on, and otherwise those of the spare map (R109, R541). -/
def State.colWord (s : State) (p a : Nat) : Nat :=
  if s.domReady (32 + groupOfField p) then s.rdN (Reg.aFLD_MA_COLMAP p a) % 2 ^ 16
  else (((s.nv.map.regs.find? fun e => e.1 == Reg.aFLD_MA_COLMAP p a).map fun e => e.2.toNat % 2 ^ 16).getD 0xFFFF)

/-- The column maps that name a retired column, as the spare map holds them. -/
def State.colRegs (s : State) : List (Nat × Word) :=
  ((List.range 72).flatMap fun p => [0, 1].map fun a => (Reg.aFLD_MA_COLMAP p a, BitVec.ofNat 32 (s.colWord p a))).filter fun e => e.2 != 0xFFFF

/-- The spare map takes what the hardware has (R498, R500), with its audit record, where the NV store may be written (R465). Log entry 121 (DESIGN CHOICE, unsafe). -/
def State.spareSave (s : State) (code : Nat) : State :=
  let map : SpareMap :=
    { fields := (List.range 64).map fun m => (m, s.get (Reg.DEV_FIELD_MAP_PHYS m)),
      lost := (List.range 64).filter fun m => s.on (Reg.DEV_FIELD_MAP_LOST m),
      retired := s.nv.map.retired,
      cores := (List.range 4).map fun q => (q, s.get (Reg.DEV_CORE_MAP_CORE q)),
      failed := (List.range 6).filter fun n => bit (s.get Reg.DEV_CORE_MAP_FAILED) n,
      dies := (List.range 32).filterMap fun k => if (s.stk k).dieMap.isEmpty then none else some (k, (s.stk k).dieMap),
      rows := (List.range 32).filterMap fun k => if (s.stk k).remapped.isEmpty then none else some (k, (s.stk k).remapped),
      regs := s.colRegs ++ (laneRegs.filter fun a => s.rd a != resetWord a).map fun a => (a, s.rd a),
      wear := s.plane.wearLog.map fun e => (e.1, e.2.length) }
  if s.auditOk then ((s.modNv fun n => { n with map := map, mapGen := n.mapGen + 1 }).spareShow).auditSelf 8 code else s.spareShow

/-- The alarm of a spare brought in, by how many of its scope remain (R519, Table 21-5). -/
def State.spareAlarm (s : State) (src left : Nat) : State := s.alarm (if left = 0 then 2 else 3) 0 src none

/-- SOURCE of a Field. -/
def State.fieldSource (s : State) (p : Nat) : Nat := srcOf 1 ((s.lfieldOf p).getD 0)

/-! Die copies and row remaps (R307, R308). -/

/-- DIE_COPY_DONE: the die map switches, and the spare map records it. -/
def State.dieSpared (s : State) (k : Nat) : State :=
  if (s.stk k).copyDie.isNone then s else ((s.dieCopyDone k).spareAlarm (srcOf 2 k) 0).spareSave 0

def execDieCopyDone (k : Fin 32) (s : State) : Host.Outcome State Fault Refusal := answer (s.dieSpared k)

/-- A bank with no spare row left keeps its row in service, with an alarm where a request has just found it so (R517): `t` is the state after the request. -/
def State.noSpareRow (s t : State) (k : Nat) : State :=
  if t.on (Reg.STK_ROW_REMAP_NO_SPARE k) && !s.on (Reg.STK_ROW_REMAP_NO_SPARE k) then
    t.partFault 11 k Flt.SPARE_NONE (rowKey (t.get (Reg.STK_ROW_REMAP_PC k)) (t.get (Reg.STK_ROW_REMAP_BANK k)) (t.get (Reg.STK_ROW_REMAP_ROW k)))
  else t

/-- ROW_REMAP: a bank with no spare row left keeps the row in service, with an alarm (R517). Log entry 28 (DESIGN CHOICE, unsafe). -/
def State.rowRequest (s : State) (k pc bank row : Nat) : State := s.noSpareRow (s.rowRemap k pc bank row) k

def execRowRemap (k : Fin 32) (pc : Fin 32) (bank : Fin 64) (row : Fin 12288) (s : State) : Host.Outcome State Fault Refusal :=
  answer (s.rowRequest k pc bank row)

/-- ROW_REMAP_DONE: the row is redirected, and the spare map records it. -/
def State.rowSpared (s : State) (k : Nat) : State :=
  if s.on (Reg.STK_ROW_REMAP_BUSY k) then
    let b := 64 * s.get (Reg.STK_ROW_REMAP_PC k) + s.get (Reg.STK_ROW_REMAP_BANK k)
    let t := s.noSpareRow (s.rowRemapDone k) k
    (t.spareAlarm (srcOf 2 k) (16 - Tab.get (fun _ => 0) (t.stk k).spareUsed b)).spareSave 0
  else s

def execRowRemapDone (k : Fin 32) (s : State) : Host.Outcome State Fault Refusal := answer (s.rowSpared k)

/-- Firmware asks for the remap of a row, now or once the stack is free for it; a row that has been remapped since is left (R304, R308). -/
def State.rowRequestKey (s : State) (k key : Nat) : State :=
  s.noSpareRow (s.rowRemapWhenFree k (key / 2 ^ 20) (key / 2 ^ 14 % 64) (key % 2 ^ 14)) k

/-- Steering to a spare lane ends, and the spare map records it (R343). -/
def execSteerDone (n : Fin 4) (s : State) : Host.Outcome State Fault Refusal :=
  answer (if (s.port n).steer.isSome then (s.steerDone n).spareSave 0 else s)

/-! NV sectors (R450). -/

/-- Sectors of the NV store with an uncorrectable word, or that fail to verify after a write, are rebuilt at once from another copy in sectors
of the pool. Sectors beyond the pool leave their objects in the copies that remain (R450, R517, Table 21-2). -/
def State.sectorsRebuild (s : State) (uncorr : Bool) (n : Nat) : State :=
  let k := min n s.nv.spareSectors
  let t := if uncorr ∧ 0 < n then s.put Reg.CFG_NV_STATUS_UNCORR_SEEN 1 else s
  let t := if 0 < k then
      let u := t.modNv fun v => { v with spareSectors := v.spareSectors - k }
      (u.puts [(Reg.CFG_NV_STATUS_SPARES_FREE, u.nv.spareSectors), (Reg.CFG_NV_STATUS_REBUILT, 1)]).spareAlarm (srcOf 6 0) u.nv.spareSectors
    else t
  if k < n then t.partFault 14 0 Flt.SPARE_NONE (n - k) else t

/-! Columns and Fields. -/

/-- Ask for the migration of a logical Field; a request on fault (a code other than 0) takes the place of a planned one (R502). -/
def State.queueMigration (s : State) (m fault : Nat) : State :=
  let q := s.plane.queued
  if s.plane.migrations.any fun e => e.2.lfield == m then s
  else if q.any fun x => x.lfield == m then
    s.modPlane fun y => { y with queued := q.map fun x => if x.lfield = m ∧ x.fault = 0 then { x with fault := fault } else x }
  else s.modPlane fun y => { y with queued := q ++ [{ lfield := m, src := (s.physOf m).getD 0, dst := 0, fault := fault, phase := 0, since := s.stamp }] }

/-- Show the spare columns of an array that are not yet in use. -/
def State.colsShow (s : State) (p a : Nat) : State :=
  s.put (Reg.FLD_MA_STATUS_SPARE_COLS_FREE p a)
    (b2n (s.get (Reg.FLD_MA_COLMAP_RETIRED_A p a) == 0xFF) + b2n (s.get (Reg.FLD_MA_COLMAP_RETIRED_B p a) == 0xFF))

/-- Put a retired column in force: the map names it, in the register and in the spare map. Of a Field that is off only the spare map changes, where
the NV store may be written. -/
def State.colInForce (s : State) (p a col : Nat) : State :=
  let w := s.colWord p a
  let first := w % 256 == 0xFF
  let t :=
    if s.domReady (32 + groupOfField p) then
      (s.put (if first then Reg.FLD_MA_COLMAP_RETIRED_A p a else Reg.FLD_MA_COLMAP_RETIRED_B p a) col).colsShow p a
    else
      let w' := if first then setBits w 7 0 col else setBits w 15 8 col
      s.modNv fun n => { n with map := { n.map with regs :=
        (n.map.regs.filter fun e => e.1 != Reg.aFLD_MA_COLMAP p a) ++ [(Reg.aFLD_MA_COLMAP p a, BitVec.ofNat 32 w')] } }
  (t.spareAlarm (s.fieldSource p) (if first then 1 else 0)).spareSave Flt.ARRAY_RESIDUE

/-- Show in FLD_MA_COLMAP whether a new map of a Field waits. -/
def State.colsPending (s : State) (p : Nat) : State :=
  [0, 1].foldl (fun t a => t.put (Reg.FLD_MA_COLMAP_PENDING p a) (b2n (s.plane.colsWait.any fun e => e.1 == 2 * p + a))) s

/-- Retirements that waited for a heat boundary of every context on a Field take effect (R110). A Field that is off waits for the NV store. -/
def State.colsApply (s : State) (p : Nat) : State :=
  let mine := s.plane.colsWait.filter fun e => e.1 / 2 == p
  if mine.isEmpty || !(s.domReady (32 + groupOfField p) || s.auditOk) then s
  else
    (mine.foldl (fun t e => t.colInForce p (e.1 % 2) e.2)
      (s.modPlane fun y => { y with colsWait := y.colsWait.filter fun e => e.1 / 2 != p })).colsPending p

/-- The columns of an array that have been retired, the ones that wait for a boundary among them. -/
def State.colsGone (s : State) (p a : Nat) : List Nat :=
  ([s.colWord p a % 256, s.colWord p a / 256].filter (· != 0xFF)) ++ (s.plane.colsWait.filter fun e => e.1 == 2 * p + a).map (·.2)

/-- Retire a physical column of an array: a new map takes effect at once, or at the next boundary of every context on the Field, until which the map
in service is shown; a third column asks for the Field's migration (R109, R110, Table 21-2). The answer tells whether the Field must migrate. Log
entry 155 (DESIGN CHOICE, unsafe). -/
def State.retireColumn (s : State) (p a col : Nat) : State × Bool :=
  let gone := s.colsGone p a
  if gone.contains col then (s, false)
  else if 2 ≤ gone.length then (s, true)
  else
    let t := s.modPlane fun y => { y with colsWait := y.colsWait ++ [(2 * p + a, col)] }
    (if s.fieldInHeat p then t.colsPending p else t.colsApply p, false)

/-- Forget the events of a resource that has been acted on. Log entry 121 (DESIGN CHOICE, unsafe). -/
def State.wearClear (s : State) (key : Nat) : State :=
  s.modPlane fun y => { y with wearLog := Tab.set (fun _ => []) y.wearLog key [] }

/-- Events of a resource within 24 h. Log entry 124 (DESIGN CHOICE, unsafe). -/
def State.wearCount (s : State) (key : Nat) : Nat :=
  ((Tab.get (fun _ => []) s.plane.wearLog key).filter fun t => decide (s.stamp < t + ticks24h)).length

/-- Migrate a Field on fault, and hold the replay of a context until it is done. Log entry 124 (DESIGN CHOICE, unsafe). -/
def State.migrateOnFault (s : State) (c p fault key : Nat) : State :=
  match s.lfieldOf p with
  | none => s.wearClear key
  | some m => ((s.wearClear key).queueMigration m fault).modServe c fun x => { x with replayHold := m :: x.replayHold.filter (· != m) }

/-- The action on fault that a resource's count calls for, for the context whose heat has been abandoned (Table 21-2). -/
def State.wearAct (s : State) (c key : Nat) : State :=
  let n := s.wearCount key
  let x := key % 2 ^ 48
  match key / 2 ^ 48 with
  | 1 =>
    let p := x / 512
    let a := x / 256 % 2
    let full := decide (2 ≤ (s.colsGone p a).length)
    if n = 0 then s
    else if full then s.migrateOnFault c p Flt.ARRAY_RESIDUE key
    else if 2 ≤ n then (s.retireColumn p a (x % 256)).1.wearClear key
    else s
  | 2 => if 3 ≤ n then s.migrateOnFault c (x / 64) Flt.FM_UNCORR key else s
  | 3 => if 3 ≤ n then s.migrateOnFault c (x / 16) Flt.FM_UNCORR key else s
  | 4 => if 2 ≤ n then s.migrateOnFault c (x / 2) Flt.ACC_UNCORR key else s
  | 8 =>
    let k := x / 2 ^ 25
    if n = 0 then s else (s.rowRequestKey k (x % 2 ^ 25)).wearClear key
  | _ => s

/-- Actions on fault, after a heat of a context has been abandoned and before its replay (R499): those of its Fields and of the stacks. -/
def State.wearOnFault (s : State) (c : Nat) : State :=
  let here (p : Nat) : Bool := (s.slotsOf c).any (·.1 == p)
  (s.plane.wearLog.map (·.1)).foldl (fun t key =>
    let x := key % 2 ^ 48
    let p := match key / 2 ^ 48 with | 1 => x / 512 | 2 => x / 64 | 3 => x / 16 | _ => x / 2
    if key / 2 ^ 48 = 8 ∨ here p = true then t.wearAct c key else t) s

/-- Firmware starts a die copy where the spare die is free, and otherwise raises the alarm of Table 21-4. -/
def State.dieRequest (s : State) (k d : Nat) : State :=
  if s.on (Reg.STK_STATUS_SPARE_DIE_FREE k) then s.dieCopyStart k d else s.partFault 11 k Flt.SPARE_NONE d

/-- Planned actions at a heat boundary (R499, Table 21-2). -/
def State.wearPlanned (s : State) : State :=
  let t := (s.plane.wearLog.map (·.1)).foldl (fun t key =>
    let n := t.wearCount key
    let x := key % 2 ^ 48
    let migrate (p : Nat) : State := match t.lfieldOf p with
      | some m => (t.wearClear key).queueMigration m 0
      | none => t.wearClear key
    match key / 2 ^ 48 with
    | 5 => if 100000 ≤ n then migrate x else t
    | 6 => if 4 ≤ n then migrate x else t
    | 7 =>
      let k := x / 2 ^ 25
      if 16 ≤ n then (t.rowRequestKey k (x % 2 ^ 25)).wearClear key else t
    | 9 => if 10 ^ 7 ≤ n ∧ t.on (Reg.STK_SPARE_STATUS_COPY_ACTIVE (x / 16)) = false then (t.dieRequest (x / 16) (x % 16)).wearClear key else t
    | _ => t) s
  (List.range 32).foldl (fun t k =>
    match (List.range 16).find? fun d => decide (512 ≤ ((t.stk k).remapped.filter fun e => e.1 / 2 ^ 14 % 64 / 4 == d).length) with
    | some d =>
      if t.on (Reg.STK_STATUS_SPARE_DIE_FREE k) && !t.on (Reg.STK_SPARE_STATUS_COPY_ACTIVE k) then t.dieCopyStart k d else t
    | none => t) t

/-! A context goes out of service. -/

/-- The vector registers of a resident slot are zero again: no context reads those of another (R165). -/
def State.vregsClear (s : State) (p slot : Nat) : State :=
  s.modField p fun f => { f with vregs := f.vregs.filter fun e => e.1 / 2 ^ 14 != slot }

/-! Bandwidth of a partition (R411). -/

/-- Has a partition a resident context on a Field? -/
def State.partOn (s : State) (p part : Nat) : Bool :=
  (List.range 4).any fun k => (s.ctxOf p k).isSome && s.get (Reg.FLD_CTX_MAP_PART p k) == part

/-- Divide a partition's rates among the Fields where it has a resident context: its bucket set on each takes an equal share of the
stack rate (GB/s) and of the Quipel rate (100 MB/s), in units of 9.765625 MB/s; a rate of 0 is unlimited. -/
def State.divideRates (s : State) (part : Nat) : State :=
  let ps := (List.range 72).filter fun p => s.partOn p part
  let stk := s.get (Reg.SCH_PART_BW_STK_RATE part) * 1024 * 100
  let qpl := s.get (Reg.SCH_PART_BW_QPL_RATE part) * 1024 * 10
  ps.foldl (fun t p =>
    match (List.range 4).find? fun k => t.on (Reg.FLD_BW_SET_EN p k) && t.get (Reg.FLD_BW_SET_PART p k) == part with
    | none => t
    | some k => t.puts [(Reg.FLD_BW_CFG_RATE p (2 * k), min 65535 (stk / (1000 * ps.length))), (Reg.FLD_BW_CFG_UNLIM p (2 * k), b2n (stk == 0)),
        (Reg.FLD_BW_CFG_RATE p (2 * k + 1), min 65535 (qpl / (1000 * ps.length))), (Reg.FLD_BW_CFG_UNLIM p (2 * k + 1), b2n (qpl == 0))]) s

/-- Give a partition a bucket set on a Field, where it has none: a free one, or that of a partition with no resident context left there (R409). -/
def State.bucketSet (s : State) (p part : Nat) : State :=
  if (List.range 4).any fun k => s.on (Reg.FLD_BW_SET_EN p k) && s.get (Reg.FLD_BW_SET_PART p k) == part then s
  else match (List.range 4).find? fun k => !s.on (Reg.FLD_BW_SET_EN p k) || !s.partOn p (s.get (Reg.FLD_BW_SET_PART p k)) with
    | some k => s.puts [(Reg.FLD_BW_SET_PART p k, part), (Reg.FLD_BW_SET_EN p k, 1)]
    | none => s

/-- A context leaves its Fields: its work is discarded, its routes are closed, its slots and its root become invalid, and
its partition's rates are divided again (R165, R403, R411). -/
def State.evict (s : State) (c : Nat) : State :=
  let t := s.dropWork c
  let u := (t.slotsOf c).foldl (fun u x =>
    let v := u.modGrid x.1 fun g =>
      { g with units := g.units.map fun e => (e.1, { e.2 with legs := e.2.legs.filter fun l => l.2.slot != x.2 }) }
    let w := (List.range 16).foldl (fun w g =>
      let w := if w.get (Reg.FLD_CH_PORT_BIND_CTX x.1 g) = x.2 then w.put (Reg.FLD_CH_PORT_BIND_ROLE x.1 g) 0 else w
      if w.get (Reg.FLD_GP_BIND_CTX_SLOT x.1 g) = x.2 ∧ w.get (Reg.FLD_GP_BIND_PEER x.1 g) ≠ 0 then w.gpFree x.1 g else w) v
    (w.vregsClear x.1 x.2).puts [(Reg.FLD_CTX_MAP_VALID x.1 x.2, 0), (Reg.FLD_CTX_MAP_SCHED x.1 x.2, 0), (Reg.FLD_CTX_MAP_IN_HEAT x.1 x.2, 0)]) t
  let v := (u.puts [(Reg.SCH_CTX_STATE_STATE c, ctxUnloaded), (Reg.SCH_CTX_STATE_REPLAY c, 0), (Reg.SCH_CTX_STATE_UNCOMMITTABLE c, 0),
    (Reg.XLT_CTX_ROOT_EN c, 0)]).modServe c fun _ => CtxServe.reset
  let v := v.modCtx c fun x => { x with trees := [] }
  (((v.gangAsk c []).routesDrop (·.ctx == c)).invalidate (·.ctx == c) (·.ctx == c)).divideRates (s.partOf c)

/-- Unload a context: its sequences take a FINAL RESULT, and it leaves its Fields (R403, R517). -/
def State.unload (s : State) (c status : Nat) : State := ((s.openReqs c).foldl (fun t r => t.reqFinal r status) s).evict c

/-- A logical Field is lost: the contexts with work on it are unloaded and their sequences returned REJECTED (R517). -/
def State.fieldLost (s : State) (m : Nat) : State :=
  let cs := match s.physOf m with
    | some p => (List.range 4).filterMap fun k => s.ctxOf p k
    | none => []
  let t := cs.foldl (fun t c => t.unload c stRejected) s
  ((t.put (Reg.DEV_FIELD_MAP_LOST m) 1).partFault 14 0 Flt.FIELD_LOST m).spareSave Flt.FIELD_LOST

/-! Uncorrectable words before a replay (R244, R304). -/

/-- Entries of a table at a part offset that hold anything. -/
def State.entriesAt (s : State) (t size : Nat) : List Nat :=
  ((s.mem.filter fun c => decide (t ≤ c.1 ∧ c.1 < t + size)).map fun c => (c.1 - t) / 8).eraseDups

/-- The leaves below a table, with the VA of its first byte. -/
def State.leavesAt (s : State) : Nat → Nat → Nat → Nat → List Leaf
  | 0, _, _, _ => []
  | fuel + 1, level, t, va =>
    (s.entriesAt t (tableSize level)).flatMap fun i =>
      let e := leNat (s.mread (t + 8 * i) 8)
      let v := va + i * pageSize level
      if !bit e 0 then []
      else if bit e 1 then [{ vbase := v, size := pageSize level, frame := bits e 50 16 * 65536, rights := bits e 5 2 }]
      else State.leavesAt s fuel (level + 1) (bits e 40 8 * 256) v

/-- The tables of a context below a table, as part offset and length. -/
def State.tablesAt (s : State) : Nat → Nat → Nat → List (Nat × Nat)
  | 0, _, _ => []
  | fuel + 1, level, t =>
    (t, tableSize level) :: (s.entriesAt t (tableSize level)).flatMap fun i =>
      let e := leNat (s.mread (t + 8 * i) 8)
      if bit e 0 && !bit e 1 then State.tablesAt s fuel (level + 1) (bits e 40 8 * 256) else []

/-- Does a part offset lie in a page table of a context? -/
def State.inTables (s : State) (c o : Nat) : Bool :=
  s.on (Reg.XLT_CTX_ROOT_EN c) && (s.tablesAt 3 1 (s.get (Reg.XLT_CTX_ROOT_ROOT c) * 2 ^ 21)).any fun t => decide (t.1 ≤ o ∧ o < t.1 + t.2)

/-- The VAs at which a context maps a part offset of this part. -/
def State.vasOf (s : State) (c o : Nat) : List Nat :=
  let rga := s.deviceId * 2 ^ 41 + o
  if s.on (Reg.XLT_CTX_ROOT_EN c) then
    (s.leavesAt 3 1 (s.get (Reg.XLT_CTX_ROOT_ROOT c) * 2 ^ 21) 0).filterMap fun l =>
      if l.frame ≤ rga ∧ rga < l.frame + l.size then some (l.vbase + (rga - l.frame)) else none
  else []

/-- The bytes of a declared source that cover `n` bytes at a place: the first block that holds them all. -/
def sourceOf (blocks : List (Nat × List Byte)) (o n : Nat) : Option (List Byte) :=
  blocks.findSome? fun b => if b.1 ≤ o ∧ o + n ≤ b.1 + b.2.length then some ((b.2.drop (o - b.1)).take n) else none

/-- Bytes at a VA of a context, read by a control core: in a stack or Field memory of this part, or from another part by a request of agent 14.
None: they cannot be had. Log entry 102 (DESIGN CHOICE, unsafe). -/
def State.coreBytes (s : State) (c va n : Nat) : FarEnd (Option (List Byte)) :=
  let p := ((s.slotsOf c).head?.map (·.1)).getD 0
  let got (t : State) (a : Nat) : Option (List Byte) := if (t.badWord? a n).isSome then none else some (t.mread a n)
  match s.walk p c va false with
  | .error e => if e.waits then .wait (s.wakeFor e) else .ok s none
  | .ok l =>
    let rga := l.frame + (va - l.vbase)
    if bits rga 50 41 = s.deviceId then
      match offsetTarget (bits rga 40 0) with
      | some (.stack o) =>
        let t := s.coreAwake o n false
        (match t.stackWait? o n with
        | some e => .wait (t.wakeFor e)
        | none => .ok t (got t o))
      | some (.fm m off) => (match s.physOf m with
        | some q =>
          let t := s.coreAwake (fmLoc q off) n false
          .ok t (got t (fmLoc q off))
        | none => .ok s none)
      | _ => .ok s none
    else
      let lo := rga / 64 * 64
      match s.respFor p 14 0 va, s.stopCode p 14 0 c with
      | some r, _ => .ok (s.takeResp p 14 0 va) (some ((r.data.drop (rga - lo)).take n))
      | none, some _ => .ok (s.agentEnd p 14 0 c) none
      | none, none =>
        .wait (s.agentRequest p 14 0 c va 0 (QMsg.request 0x01 (bits rga 50 41) 0 lo 0 ((rga + n - 1) / 64 * 64 + 64 - lo) 0 []))

/-- A declared copy of a VA (R459). -/
def copyOf (copies : List (Nat × Nat × Nat)) (va : Nat) : Option Nat :=
  copies.findSome? fun x => if x.1 ≤ va ∧ va < x.1 + x.2.1 then some (x.2.2 + (va - x.1)) else none

/-- A declared source: a CONST block, or else the committed copy at a VA. -/
def State.declared (s : State) (c n : Nat) (block : Option (List Byte)) (copy : Option Nat) : FarEnd (Option (List Byte)) :=
  match block, copy with
  | some bs, _ => .ok s (some bs)
  | none, some v => s.coreBytes c v n
  | none, none => .ok s none

/-- The declared source of an uncorrectable word of Field memory (R244, R459). -/
def State.fmSource (s : State) (c : Nat) (d : CtxLoad) (p a : Nat) : FarEnd (Option (List Byte)) :=
  let off := bits a 23 0
  let mine := (d.blocks.filter fun b => s.physOf b.2.1 == some p).map fun b => (b.2.2.1, b.2.2.2)
  let copies := (d.decl.fmCopies.filter fun x => s.physOf x.1 == some p).map (·.2)
  s.declared c 32 (sourceOf mine off 32) (copyOf copies off)

/-- Rewrite an uncorrectable word of Field memory or MU storage of a context, once its declared source can be read: from that, or with zeros
(R244). -/
def State.fixFm (s : State) (c : Nat) (d : CtxLoad) (p a : Nat) : State :=
  if 2 ^ 45 ≤ a then s.mzero a 32
  else match s.fmSource c d p a with
  | .ok t (some bs) => t.corePut a bs
  | .ok t none => t.coreZero a 32
  | .wait t => t
  | .err _ => s

/-- Does a context use a block of stack memory: in a page table, or at a VA (R306)? -/
def State.usesBlock (s : State) (c o : Nat) : Bool := s.inTables c o || !(s.vasOf c o).isEmpty

/-- Firmware rewrites a block of stack memory, once its stack can serve and no remap holds its row (R308, R317, R318). -/
def State.blockFix (s : State) (o : Nat) (f : State → State) : State :=
  let t := s.coreAwake o 64 true
  match t.stackWait? o 64 with
  | some e => t.wakeFor e
  | none => f t

/-- A block that no source holds: zeros, and a CRIT alarm that names the context, where one uses it, and the place (R304). Log entry 124 (DESIGN CHOICE, unsafe). -/
def State.blockLost (s : State) (c : Option Nat) (o : Nat) : State :=
  (s.mzero o 64).faultWith (some 0) Flt.STK_UNCORR 11 (o / stackSize) none c o

/-- Firmware rewrites an uncorrectable block of stack memory that a context uses: a page table from its own copy, a resident region from its
declared source, shadow state with zeros; any other block is committed state that no source holds: it is zeroed, with a CRIT alarm, and the heat
is not replayed (R304, R331). Log entry 124 (DESIGN CHOICE, unsafe). -/
def State.fixStack (s : State) (c : Nat) (d : CtxLoad) (o : Nat) : State :=
  let vas := s.vasOf c o
  if s.inTables c o then s.blockFix o fun t => t.markBad o false
  else if vas.isEmpty then s
  else match s.declared c 64 (sourceOf d.stackData o 64) (vas.findSome? (copyOf d.decl.copies)) with
  | .wait t => t
  | .err _ => s
  | .ok t (some bs) => t.blockFix o fun u => u.mwrite o bs
  | .ok t none =>
    if vas.any fun v => d.decl.pairs.any fun pr => decide (pr.2 ≤ v ∧ v < pr.2 + 2 ^ 30) then t.blockFix o fun u => u.mzero o 64
    else t.blockFix o fun u =>
      let v := u.blockLost (some c) o
      if s.ctxState c = ctxIdle then v else v.modCtx c fun x => { x with pendRank := 3, pendCode := Flt.STK_UNCORR }

/-- Does an uncorrectable word belong to a context: to its tables or mappings, its windows, or the memory units that it shares? -/
def State.wordIsOf (s : State) (c a : Nat) : Bool :=
  if a < 2 ^ 44 then s.usesBlock c a
  else
    let p := fieldOfWord 0 a
    match s.slotOf p c with
    | some k => decide (2 ^ 45 ≤ a) || s.windowHolds p k (bits a 23 0)
    | none => false

/-- Firmware rewrites an uncorrectable word for a context that it belongs to. -/
def State.fixWord (s : State) (c a : Nat) : State :=
  match (s.serve c).load with
  | none => s
  | some d => if s.wordIsOf c a then (if a < 2 ^ 44 then s.fixStack c d a else s.fixFm c d (fieldOfWord 0 a) a) else s

/-- Firmware rewrites an uncorrectable page table from its own copy (R331). -/
def State.tableMend (s : State) (o : Nat) : State :=
  let b := eccWord o
  if s.isBad b then (s.stkUncorrSeen b false).markBad b false else s

/-- The uncorrectable words of memory. -/
def State.badWords (s : State) : List Nat := s.bad.filterMap fun e => if e.2 then some e.1 else none

/-- Rewrite every uncorrectable word that belongs to a context before its heat runs again (R244, R304). -/
def State.fixWords (s : State) (c : Nat) : State := s.badWords.foldl (fun t a => t.fixWord c a) s

/-- Is an uncorrectable word of a context left, whose rewriting waits for its source, its stack or its row? -/
def State.fixLeft (s : State) (c : Nat) : Bool := (s.serve c).load.isSome && s.badWords.any (s.wordIsOf c)

/-- Does a remap that firmware has noted and not started move a row that a context uses (R304)? -/
def State.remapDue (s : State) (c : Nat) : Bool :=
  (List.range 32).any fun k => (s.stk k).remapNext.any fun r =>
    (pageBlocks k (r.2.2 * 2 ^ 22 + r.2.1 * 2 ^ 16 + r.1 * 2 ^ 8)).any (s.usesBlock c)

/-! What firmware does about uncorrectable words that a scrubber finds (R246, R306). -/

/-- A word that no context within a heat holds is rewritten at once for the contexts that hold it; for the others it is rewritten before their replay. -/
def State.fixFound (s : State) (cs : List Nat) (a : Nat) : State :=
  if cs.any fun c => s.inHeat c then s else cs.foldl (fun t c => if t.isBad a then t.fixWord c a else t) s

/-- FM_SCRUB_TICK: the patrol scrubber of a Field reads a granule, and firmware acts on what it finds (R244, R246). -/
def State.fmScrubTick (s : State) (p : Nat) (ecc : Ecc) (word : Nat) : State :=
  let t := s.fmScrub p ecc word
  let a := scrubLoc p (s.field p).fm.scrubPos
  if s.on (Reg.FLD_FM_SCRUB_CTRL_EN p) then ((eccWords a 256).filter t.isBad).foldl (fun t w => t.fixFound (t.wordOwners p w) w) t else t

def execFmScrubTick (p : Fin 72) (ecc : Ecc) (word : Fin 8) (s : State) : Host.Outcome State Fault Refusal := answer (s.fmScrubTick p ecc word)

/-- The loaded contexts that use a block of stack memory. -/
def State.blockUsers (s : State) (o : Nat) : List Nat :=
  (List.range 64).filter fun c => (s.serve c).load.isSome && s.usesBlock c o

/-- STACK_SCRUB_PAGE: the patrol scrubber of a stack reads a page; the heats of the contexts whose mappings cover an uncorrectable transfer do not
commit, and firmware rewrites it and remaps its row (R304, R306). One that no context uses is lost. -/
def State.stackScrubPage (s : State) (k : Nat) (ecc : Ecc) (xfer : Nat) : State :=
  let (t, found) := s.stackScrub k ecc xfer
  found.foldl (fun t o =>
    let cs := t.blockUsers o
    let u := if cs.isEmpty then t.blockFix o fun v => v.blockLost none o
      else (cs.foldl (fun u c => u.uncommit c Flt.STK_UNCORR) t).fixFound cs o
    let a := o % stackSize
    if cs.any fun c => t.inHeat c then u else u.wearAct 0 (wearRowBad k (rowKey (bits a 12 8) (bits a 21 16) (bits a 35 22)))) t

def execStackScrubPage (k : Fin 32) (ecc : Ecc) (xfer : Fin 32) (s : State) : Host.Outcome State Fault Refusal :=
  answer (s.stackScrubPage k ecc xfer)

end Sys2Proof.Machine
end

