-- ==== Sys2Proof/Machine/Deploy.lean ====
section
/-!
DEFINITION. What the configuration registers show of the NV store, and the entries of a deployment record that take effect while the part
serves (R452, R455 to R457, R568).
-/

namespace Sys2Proof.Machine

/-- The firmware slot in force: the golden one after a golden start, the slot in trial while a trial runs (R468, R473). -/
def State.fwSlot (s : State) : Nat :=
  if s.plane.goldenFw then 2 else if s.nv.trial then 1 - s.nv.active else s.nv.active

/-- The grid image slot in force. -/
def State.gridSlot (s : State) : Nat := if s.plane.goldenGrid then 5 else 3 + s.nv.gridForce

/-- Show the slots of the NV store (CFG_FW_SLOT, CFG_FW_VERSION, CFG_IMAGE_STATUS, CFG_IMAGE_VERSION, CFG_NV_STATUS). -/
def State.cfgShow (s : State) : State :=
  let act := if s.nv.trial then 1 - s.nv.active else s.nv.active
  let valid (k : Nat) : Bool := decide (2 ≤ (s.nvSlot k).state) && (s.nvSlot k).ok
  s.puts [(Reg.CFG_FW_SLOT_ACTIVE, act), (Reg.CFG_FW_SLOT_TRIAL, b2n s.nv.trial), (Reg.CFG_FW_SLOT_OTHER_VALID, b2n (valid (1 - act))),
    (Reg.CFG_FW_SLOT_HANDOVER, b2n s.plane.handover.isSome), (Reg.CFG_FW_VERSION_VERSION, (s.nvSlot s.fwSlot).version),
    (Reg.CFG_IMAGE_STATUS_IN_FORCE, s.nv.gridForce), (Reg.CFG_IMAGE_STATUS_P0_STATE, (s.nvSlot 3).state),
    (Reg.CFG_IMAGE_STATUS_P1_STATE, (s.nvSlot 4).state), (Reg.CFG_IMAGE_VERSION_VERSION, (s.nvSlot s.gridSlot).version),
    (Reg.CFG_NV_STATUS_SPARES_FREE, s.nv.spareSectors)]

/-- The PARTITION entries of a record (R400, R455). -/
def State.applyParts (s : State) (r : DeployRec) : State :=
  (List.range 16).foldl (fun t p =>
    match r.parts.find? fun e => e.1.val == p with
    | some (_, buf, bw, share) =>
      ((t.puts [(Reg.SCH_PART_CFG_EXISTS p, 1), (Reg.PWR_PART_SHARE_SHARE p, share)]).setReg (Reg.aSCH_PART_BW p) bw) |> fun u =>
        { u with srv := { u.srv with bufSize := Tab.set (fun _ => 0) u.srv.bufSize p buf,
                                     bufAt := u.srv.bufAt.filter (·.1 != p) ++ ((r.results.find? fun e => e.1.val == p).map fun e => (p, e.2)).toList } }
    | none =>
      ((t.puts [(Reg.SCH_PART_CFG_EXISTS p, 0), (Reg.SCH_PART_CFG_SERVING p, 0), (Reg.PWR_PART_SHARE_SHARE p, 0)]).setReg
        (Reg.aSCH_PART_BW p) 0) |> fun u => { u with srv := { u.srv with bufSize := Tab.set (fun _ => 0) u.srv.bufSize p 0 } }) s

/-- The ADMIT entries of a record (R385, R455). -/
def State.applyAdmits (s : State) (r : DeployRec) : State :=
  let t := (List.range 64).foldl (fun t n =>
    t.setReg (Reg.aETH_ADMIT n) (((r.admits.find? fun e => e.1.val == n).map fun e => e.2.1).getD 0)) s
  { t with srv := { t.srv with prefixes := r.admits.filterMap fun e => e.2.2.map fun x => (e.1.val, x) } }

/-- The POWER and COMPARATOR entries of a record, or the values that stand in for them (R568). -/
def State.applyPower (s : State) (r : DeployRec) : State :=
  let (limit, grant) := r.power.getD (700, 700)
  let t := s.puts [(Reg.PWR_LIMIT_LIMIT_W, limit), (Reg.PWR_LIMIT_DEFAULT_GRANT_W, grant)]
  (List.range 6).foldl (fun t n =>
    let w := ((r.cmps.find? fun e => e.1.val == n).map fun e => e.2.toNat)
    if n < 4 then t.put (Reg.BRK_CMP_CFG_THRESH n) ((w.map fun v => bits v 11 0).getD 115)
    else if n = 4 then t
    else t.setReg (Reg.aBRK_CMP_CFG 5) (BitVec.ofNat 32 (w.getD 0 % 65536))) t

/-- The entries of a new record that do not wait for the next start-up, with the rates of every partition divided anew (R411, R457). Log entry
115 (DEDUCED, unsafe). -/
def State.applyEarly (s : State) : State :=
  let t := s.modPlane fun y => { y with applying := none }
  match s.nv.next with
  | some (r, _) => (List.range 16).foldl State.divideRates (((t.applyParts r).applyAdmits r).applyPower r)
  | none => t

/-- A context has reached a heat boundary: the early entries apply once every context they wait for has (R457). Log entry 115 (DEDUCED, unsafe). -/
def State.deployBoundary (s : State) (c : Nat) : State :=
  match s.plane.applying with
  | none => s
  | some cs =>
    let left := cs.filter (· != c)
    if left.isEmpty then s.applyEarly else s.modPlane fun y => { y with applying := some left }

/-- Partitions that a new record concerns: those whose definition it changes, and those of an admission entry it changes. Log entry 115 (DEDUCED, unsafe). -/
def changedParts (old new : DeployRec) : List Nat :=
  let part (r : DeployRec) (p : Nat) : Option (Nat × Word × Fin 256) := (r.parts.find? fun e => e.1.val == p).map (·.2)
  let adm (r : DeployRec) (n : Nat) : Option (Word × Option (Bool × Nat × Nat)) := (r.admits.find? fun e => e.1.val == n).map (·.2)
  let masks := (List.range 64).foldl (fun (a : Nat) n =>
    if adm old n = adm new n then a
    else a ||| bits (((adm old n).map fun x => x.1.toNat).getD 0) 31 16 ||| bits (((adm new n).map fun x => x.1.toNat).getD 0) 31 16) 0
  (List.range 16).filter fun p => decide (part old p ≠ part new p) || bit masks p

/-- Does a record change an entry that takes effect only at the next start-up (R457)? -/
def needsRestart (old new : DeployRec) : Bool :=
  decide ({ old with version := 0, locked := false, parts := [], admits := [], power := none, cmps := [] } ≠
    { new with version := 0, locked := false, parts := [], admits := [], power := none, cmps := [] })

/-- A new record is stored: its early entries apply at once where no context of the partitions concerned is within a heat, else at the next
boundary of each (R457). Log entry 115 (DEDUCED, unsafe). -/
def State.recordStored (s : State) (r : DeployRec) (hash : Nat) : State :=
  let ps := changedParts s.nv.record r
  let wait := (List.range 64).filter fun c => s.inHeat c && ps.contains (s.partOf c)
  let t := s.modNv fun n => { n with next := some (r, hash) }
  if wait.isEmpty then t.applyEarly else t.modPlane fun y => { y with applying := some wait }

end Sys2Proof.Machine
end

