-- ==== Sys2Proof/Machine/Selftimed.lean ====
section
/-!
DEFINITION. Self-timed stages, crossing queues, local oscillators and pacers (chapter 2).
-/

namespace Sys2Proof.Machine

/-! Handshakes (R39, R41). -/

/-- A stage at rest. Log entry 44 (DESIGN CHOICE, safe). -/
def Stage.reset : Stage := { req := false, ack := false, bundle := [], got := none }

/-- What stage `k` of a Field holds. -/
def State.stg (s : State) (p k : Nat) : Stage := Tab.get (fun _ => Stage.reset) (s.field p).stages k

/-- Replace what a stage holds. -/
def State.setStg (s : State) (p k : Nat) (x : Stage) : State :=
  s.modField p fun f => { f with stages := Tab.set (fun _ => Stage.reset) f.stages k x }

/-- HANDSHAKE_STEP: stage `k` passes data to stage `k + 1`: the data it has captured, or data that enters the chain there. It toggles
request only if its successor has acknowledged the last; the successor captures and acknowledges once it has passed on what it
captured before. Log entry 44 (DESIGN CHOICE, safe). -/
def State.handshake (s : State) (p k : Nat) (place : Option (List Byte)) : State :=
  let x := s.stg p k
  let y := s.stg p (k + 1)
  if !s.gridRuns p then s
  else
    let (x1, sent) : Stage × Bool :=
      if x.req = x.ack ∧ s.mayStep p (unitStage k) = true then
        match (match x.got with
          | some d => some d
          | none => place) with
        | some d => ({ x with bundle := d, req := !x.req, got := none }, true)
        | none => (x, false)
      else (x, false)
    let s := if sent then s.stepTaken p (unitStage k) else s
    if x1.req ≠ x1.ack ∧ y.got = none then
      (s.setStg p k { x1 with ack := x1.req }).setStg p (k + 1) { y with got := some x1.bundle }
    else if sent then s.setStg p k x1 else s

def execHandshakeStep (p : Fin 72) (stage : Nat) (place : Option (List Byte)) (s : State) : Host.Outcome State Fault Refusal :=
  answer (s.handshake p stage place)

/-! Crossing queues (R51, R52, R54). -/

/-- May an island take and give tokens: its power domain on and its clock locked? Islands 0 to 31 are stacks, 32 to 36 SerDes transmit,
37 to 41 SerDes receive, 42 to 49 seam directions, 50 Hjelmar, 51 Bedrock, on VBR with its crystal, 52 the boot flash, 53 the sideband, 54
JTAG, whose clock is external, 55 AVS and telemetry and 56 to 59 the control cores. Log entry 45 (DESIGN CHOICE, safe). -/
def State.islandOn (s : State) (i : Nat) : Bool :=
  if i < 32 then s.domReady i
  else if i < 37 then s.serdesReady (i - 32)
  else if i < 42 then s.serdesReady (i - 37)
  else if i < 50 then s.on (Reg.SEAM_DIR_STATUS_DOMAIN_ON (i - 42))
  else if i = 51 then s.board.vbr && s.board.xtal
  else i = 54 || (s.domReady 49 && s.board.held.isNone)

/-- An empty crossing queue. -/
def Crossing.reset : Crossing := { near := [], far := [], last := none }

/-- The key of the crossing queue of an island and direction. Log entry 45 (DESIGN CHOICE, safe). -/
def crossKey (island : Nat) (toIsland : Bool) : Nat := 2 * island + b2n toIsland

/-- A crossing queue. -/
def State.crossing (s : State) (k : Nat) : Crossing := Tab.get (fun _ => Crossing.reset) s.crossings k

/-- CROSSING_TOKEN: a token is accepted on the sender's side while it has space, tokens cross while the other side has space, and the
receiver may take the oldest. An island that is off accepts and offers nothing. Log entry 44 (DESIGN CHOICE, safe). -/
def State.cross (s : State) (island : Nat) (toIsland : Bool) (tok : Option (List Byte)) (take : Bool) : State :=
  if !s.islandOn island then s
  else
    let k := crossKey island toIsland
    let x := s.crossing k
    let near := match tok with
      | some t => if x.near.length < 8 then x.near ++ [t] else x.near
      | none => x.near
    let n := 8 - x.far.length
    let far := x.far ++ near.take n
    let y : Crossing :=
      if take then { near := near.drop n, far := far.drop 1, last := far.head?.or x.last }
      else { near := near.drop n, far := far, last := x.last }
    { s with crossings := Tab.set (fun _ => Crossing.reset) s.crossings k y }

def execCrossingToken (island : Fin 60) (toIsland : Bool) (tok : Option (List Byte)) (take : Bool) (s : State) :
    Host.Outcome State Fault Refusal := answer (s.cross island toIsland tok take)

/-! Pacers (R45 to R49). -/

/-- Put a pacer setting in force: FIXED_EN and RATE_CODE. -/
def State.pacerApply (s : State) (p en code : Nat) : State :=
  (s.puts [(Reg.FLD_PACER_STATUS_FIXED_ACTIVE p, en), (Reg.FLD_PACER_STATUS_RATE_CODE_ACTIVE p, code)]).modPacer p
    fun x => { x with waiting := none, disturbed := x.disturbed && en == 1 }

/-- PACER_SETTING_APPLIED: the setting that waited for a heat boundary takes effect (R48). -/
def State.pacerBoundary (s : State) (p : Nat) : State :=
  match (s.field p).pacer.waiting with
  | some (en, code) => s.pacerApply p en code
  | none => s

/-- The Fields that share a rate with a Field: the members of its gangs, or itself (R48). -/
def State.gangFields (s : State) (p : Nat) : List Nat :=
  match s.lfieldOf p with
  | none => [p]
  | some m =>
    let ms := (s.gangs.filter fun g => g.2.contains m).flatMap (·.2)
    ((p :: ms.filterMap s.physOf).eraseDups)

/-- PACER_CTRL_WRITE: a write to FLD_PACER_CTRL takes effect on every member of the Field's gang, at once or at the next heat boundary
(R47, R48). -/
def State.pacerWrite (s : State) (p v : Nat) : State :=
  let code := bits v 14 8
  let en := bits v 0 0
  if 80 < code then s
  else
    let ms := s.gangFields p
    let wait := bits v 1 1 == 1 && ms.any s.fieldInHeat
    ms.foldl (fun t q =>
      let u := t.puts [(Reg.FLD_PACER_CTRL_FIXED_EN q, en), (Reg.FLD_PACER_CTRL_AT_BOUNDARY q, bits v 1 1), (Reg.FLD_PACER_CTRL_RATE_CODE q, code)]
      if wait then u.modPacer q fun x => { x with waiting := some (en, code) } else u.pacerApply q en code) s

def execPacerCtrlWrite (p : Fin 72) (value : Word) (s : State) : Host.Outcome State Fault Refusal := answer (s.pacerWrite p value.toNat)

/-- PACER_PERMIT: in one oscillator period of 1,250 M/s the pacer adds its rate and issues a permit for each whole unit (R46). Log entry 46 (DEDUCED, unsafe). -/
def State.pacerPermit (s : State) (p : Nat) : State :=
  match s.permitRate p with
  | none => s
  | some r =>
    if (s.field p).pacer.stopped then s
    else s.modPacer p fun x =>
      let a := x.acc + r
      { x with acc := a % 1250, issued := x.issued + a / 1250 }

def execPacerPermit (p : Fin 72) (s : State) : Host.Outcome State Fault Refusal := answer (s.pacerPermit p)

/-- TRIM_LOCK: the local oscillator is within its tolerance (R45). -/
def execTrimLock (p : Fin 72) (s : State) : Host.Outcome State Fault Refusal := answer (s.put (Reg.FLD_PACER_STATUS_TRIM_LOCKED p) 1)

/-- The set rate in force. -/
def State.setRate (s : State) (p : Nat) : Nat := rateOf (s.get (Reg.FLD_PACER_STATUS_RATE_CODE_ACTIVE p))

/-- The macros of an array that have a tile in progress: one in a slot that is not HELD. -/
def State.rateMark (s : State) (p a : Nat) (m : MaState) : MaState :=
  { m with runs := m.runs.map fun r =>
      if m.tiles.any fun e => e.2.ctx == r.ctx && e.2.seq == r.seq && s.get (Reg.FLD_MA_SLOTS_SLOT_STATE p a e.1) != 5
      then { r with rateDist := true } else r }

/-- RATE_DISTURBED: the monitored natural rate, in M steps/s, is below the set rate in fixed-rate mode; macros that run a tile are flagged
(R49). Log entry 46 (DEDUCED, unsafe). -/
def State.rateDisturbed (s : State) (p natural : Nat) : State :=
  if s.on (Reg.FLD_PACER_STATUS_FIXED_ACTIVE p) ∧ natural < s.setRate p then
    (s.put (Reg.FLD_PACER_STATUS_RATE_DISTURBED p) 1).modField p fun f =>
      { f with pacer := { f.pacer with disturbed := true }, ma0 := s.rateMark p 0 f.ma0, ma1 := s.rateMark p 1 f.ma1 }
  else s

def execRateDisturbed (p : Fin 72) (natural : Fin 65536) (s : State) : Host.Outcome State Fault Refusal := answer (s.rateDisturbed p natural)

/-- RATE_RECOVERED: the natural rate is no longer below the set rate, and the Field returns to it (R49). Log entry 46 (DEDUCED, unsafe). -/
def State.rateRecovered (s : State) (p natural : Nat) : State :=
  if s.setRate p ≤ natural then s.modPacer p fun x => { x with disturbed := false } else s

def execRateRecovered (p : Fin 72) (natural : Fin 65536) (s : State) : Host.Outcome State Fault Refusal := answer (s.rateRecovered p natural)

/-- RATE_MON_UPDATE: the rate monitor's interval of 65,536 periods ends (R49). -/
def execRateMonUpdate (p : Fin 72) (natural actual : Fin 65536) (s : State) : Host.Outcome State Fault Refusal :=
  answer (s.puts [(Reg.FLD_RATE_MON_NATURAL_RATE p, natural), (Reg.FLD_RATE_MON_ACTUAL_RATE p, actual)])

end Sys2Proof.Machine
end

