-- ==== Sys2Proof/Machine/Serving.lean ====
section
/-!
DEFINITION. Scheduling and the heat life cycle (R400 to R426, R569, R570, R572): the start of a heat, its end checks and commit, and its
abandon.
-/

namespace Sys2Proof.Machine

/-- Contexts that are loaded. -/
def State.loaded (s : State) : List Nat := (List.range 64).filter fun c => s.ctxState c != ctxUnloaded && (s.serve c).load.isSome

/-- A HEAT trace (Table 22-4): 1 start, 2 commit, 3 abandon. -/
def State.heatTrace (s : State) (c event seqs : Nat) : State :=
  if s.on Reg.TEL_CTRL_HEAT_TRACE then
    s.traceRec (srcOf 5 (s.coreOf (s.homeQ c))) (some c) (.heat event (s.get (Reg.SCH_CTX_STATE_REPLAY c)) seqs (s.heatOf c))
  else s

/-! Memory of a context as its control core reaches it. -/

/-- Where a VA of a context leads in this part, for a control core; a fault code otherwise. -/
def State.coreTarget (s : State) (c va : Nat) (write : Bool) : Except Nat Nat :=
  match s.walk 0 c va write with
  | .error (.xlt code ..) => .error code
  | .error (.tableUncorr ..) => .error Flt.XLT_UNCORR
  | .error _ => .error Flt.XLT_NOT_PRESENT
  | .ok l =>
    let rga := l.frame + (va - l.vbase)
    if !(if write then Need.write else Need.read).granted l.rights then .error Flt.XLT_PERM
    else if bits rga 50 41 ≠ s.deviceId then .error Flt.XLT_REMOTE
    else match offsetTarget (bits rga 40 0) with
      | some (.stack o) => .ok o
      | some (.fm m off) => (match s.physOf m with | some p => .ok (fmLoc p off) | none => .error Flt.RGA_RANGE)
      | _ => .error Flt.RGA_RANGE

/-- A control core writes bytes at a VA of a context. Log entry 102 (DESIGN CHOICE, unsafe). -/
def State.coreWrite (s : State) (c : Nat) : List (Nat × Nat) → List Byte → Except Nat State
  | [], _ => .ok s
  | (va, n) :: ps, bs =>
    match s.coreTarget c va true with
    | .error e => .error e
    | .ok a => (s.corePut a (bs.take n)).coreWrite c ps (bs.drop n)

/-- The code of an uncorrectable word at a location: that of its memory (R244, R304). -/
def uncorrCode (a : Nat) : Nat := if a < 2 ^ 44 then Flt.STK_UNCORR else Flt.FM_UNCORR

/-- A control core reads bytes at a VA of a context; an uncorrectable word fails with the code of its memory. Log entry 102 (DESIGN CHOICE, unsafe). -/
def State.vaCoreRead (s : State) (c : Nat) : List (Nat × Nat) → Except Nat (State × List Byte)
  | [] => .ok (s, [])
  | (va, n) :: ps =>
    match s.coreTarget c va false with
    | .error e => .error e
    | .ok a =>
      let t := s.coreAwake a n false
      if (t.badWord? a n).isSome then .error (uncorrCode a)
      else match t.vaCoreRead c ps with
        | .error e => .error e
        | .ok (u, b) => .ok (u, t.mread a n ++ b)

/-- The fixed rate that phase 0 of a variant asks for. -/
def loadFixed (d : CtxLoad) (v : Nat) : Option Nat :=
  match d.decl.variants[v]? with
  | some x => (match x.phases with | (_, f) :: _ => f.map (·.val) | [] => none)
  | none => none

/-- Place LEGS sections through the reconfiguration ports, and MACROS or CONST blocks in Field memory (R458, R466). -/
def State.placeSections (s : State) (d : CtxLoad) (want : Nat → Bool) : State :=
  let t := d.legs.foldl (fun t y =>
    if want y.1 then (match t.physOf y.2.lfield with
      | some p => (t.loadLeg p y.2.unit y.2.leg y.2.bytes 10).1
      | none => t) else t) s
  d.blocks.foldl (fun t y =>
    if want y.1 then (match t.physOf y.2.1 with
      | some p => t.corePut (fmLoc p y.2.2.1) y.2.2.2
      | none => t) else t) t

/-- The configuration that an image holds for a leg, in the plan variant `v` or outside every variant. -/
def imageLeg (d : CtxLoad) (v lf u x : Nat) : Option (List Byte) :=
  let mine : List Nat := ((d.decl.variants[v]?).map fun y => y.legs).getD []
  (d.legs.find? fun y => y.2.lfield == lf && y.2.unit == u && y.2.leg == x && (mine.contains y.1 || d.decl.variants.all fun z => !z.legs.contains y.1)).map
    fun y => y.2.bytes

/-- Firmware reloads a leg that an upset has changed from the image slot in force (R513, R515). -/
def State.legReload (s : State) (key : Nat) : State :=
  let p := key / 256
  let u := key / 8 % 32
  let x := key % 8
  match s.leg p u x with
  | none => s
  | some l =>
    let img : Option (List Byte) := (s.ctxOf p l.slot).bind fun c => ((s.serve c).load).bind fun d =>
      (s.lfieldOf p).bind fun m => imageLeg d (s.serve c).variant m u x
    (s.loadLeg p u x (img.getD l.cfg) 10).1

/-- The legs of a context that wait for their reload are reloaded. -/
def State.legsReload (s : State) (c : Nat) : State :=
  let mine := s.plane.badLegs.filter fun k => match s.leg (k / 256) (k / 8 % 32) (k % 8) with
    | some l => s.ctxOf (k / 256) l.slot == some c
    | none => true
  let t := mine.foldl State.legReload s
  t.modPlane fun y => { y with badLegs := y.badLegs.filter fun k => !mine.contains k }

/-- Change the plan variant of a context: its legs go, those of the new variant are loaded (R414). -/
def State.setVariant (s : State) (c : Nat) (d : CtxLoad) (v : Nat) : State :=
  if (s.serve c).variant = v then s
  else
    let t := (s.slotsOf c).foldl (fun t x => t.modGrid x.1 fun g =>
      { g with units := g.units.map fun e => (e.1, { e.2 with legs := e.2.legs.filter fun l => l.2.slot != x.2 }) }) s
    let want (n : Nat) : Bool := match d.decl.variants[v]? with
      | some x => x.legs.contains n || x.macros.contains n
      | none => false
    (t.placeSections d want).modServe c fun x => { x with variant := v }

/-! The start of a heat (Table 17-2, Order 1). -/

/-- Has a hurdle a count or a waiter? -/
def State.hurdleUsed (s : State) (q h : Nat) : Bool := decide (s.get (Reg.FLD_HRD_STATE_COUNT q h) ≠ 0) || (s.field q).ch.waiters.any (·.hurdle == h)

/-- The hurdles a context owns return to zero, with no waiters (R275); its own completed WAITs are forgotten with them. -/
def State.hurdlesReset (s : State) (c : Nat) : State :=
  (List.range 72).foldl (fun t q => (List.range 256).foldl (fun t h =>
    if t.get (Reg.FLD_HRD_STATE_OWNER q h) == c && t.hurdleUsed q h then
      ((t.put (Reg.FLD_HRD_STATE_COUNT q h) 0).modCh q fun x => { x with waiters := x.waiters.filter (·.hurdle != h) }).showWaiters q h
    else t) (t.modCh q fun x => { x with done := x.done.filter (·.ctx != c) })) s

/-- The channel unit reads a slot's hurdle map afresh, where the slot has one (R271); an uncorrectable word makes the heat uncommittable. -/
def State.hurdleMapRead (s : State) (p slot c : Nat) : State :=
  if !s.on (Reg.FLD_HRD_MAP_BASE_EN p slot) then s.modCh p fun x => { x with hmap := x.hmap.filter fun e => e.1 / 1024 != slot }
  else
  let s := s.awake p (s.get (Reg.FLD_HRD_MAP_BASE_BASE p slot) * 8192) 8192 false
  let a := fmLoc p (s.get (Reg.FLD_HRD_MAP_BASE_BASE p slot) * 8192)
  let es := (List.range 1024).filterMap fun i => let e := leNat (s.mread (a + 8 * i) 8); if e = 0 then none else some (1024 * slot + i, e)
  let t := s.modCh p fun x => { x with hmap := (x.hmap.filter fun e => e.1 / 1024 != slot) ++ es }
  let t := t.modCh p fun x => { x with hmap := x.hmap.foldl (fun m e => Tab.insert m e.1 e.2) [] }
  match s.badWord? a 8192 with
  | some w => (t.fmUncorrSeen p w false).fieldFault p 9 0 (some c) Flt.FM_UNCORR (bits w 23 0)
  | none => t

/-- Outside a heat every virtual hurdle id is unmapped (R271). -/
def State.hurdleMapDrop (s : State) (p slot : Nat) : State :=
  s.modCh p fun x => { x with hmap := x.hmap.filter fun e => e.1 / 1024 != slot }

/-- What a Field resets for a slot at heat start: legs, hurdle map, channels, rings, the no-progress window (R198, R267, R271, R291). -/
def State.fieldHeatStart (s : State) (c : Nat) (x : Nat × Nat) : State :=
  let t := s.modGrid x.1 fun g =>
    { g with units := g.units.map fun e => (e.1, { e.2 with legs := e.2.legs.map fun l => if l.2.slot == x.2 then (l.1, l.2.restart) else l }),
             windows := g.windows.filter (·.1 != x.2) }
  ((t.channelsRecord x.1 x.2).ringsReset x.1 x.2).hurdleMapRead x.1 x.2 c

/-- Fetch the inputs of sequences that lie in a window (R386, R414), in order. The answer tells whether all are here. -/
def State.fetchInputs (s : State) : List (Nat × Nat) → State × Bool
  | [] => (s, true)
  | (o, i) :: rest =>
    match (s.reqOf o).bind fun r => (r.seqs[i]?).map fun q => (r, q) with
    | none => s.fetchInputs rest
    | some (r, q) =>
      if q.input.isSome || q.ended then s.fetchInputs rest
      else match r.place with
        | none => s.fetchInputs rest
        | some (w, off) =>
          match s.winAccess w (off + q.inOff) q.inLen none with
          | .wait t => (t, false)
          | .refused t => (t.seqFinal o i stRejected).fetchInputs rest
          | .done t d => (t.modSeq o i fun y => { y with input := some d }).fetchInputs rest

/-- The lowest batch slot that is free (R413). Irreducible, so that a match on it does not run through the slots. -/
@[irreducible] def lowestFree (used : List Nat) : Option Nat := (List.range 4096).find? fun b => !used.contains b

/-- Joining sequences take the lowest free batch slots (R413). Log entry 98 (DESIGN CHOICE, unsafe). -/
def State.join (s : State) (c : Nat) : List (Nat × Nat) → State
  | [] => s
  | (o, i) :: rest =>
    let used : List Nat := (s.srv.reqs.filter fun r => r.ctx == c).flatMap fun r => r.seqs.filterMap fun q => if q.ended then none else q.slot
    match lowestFree used with
    | some b => (s.modSeq o i fun q => { q with slot := some b }).join c rest
    | none => s

/-- Place the inputs of joining sequences in the context's input region at their batch slots; the fault codes of places that cannot be
written (R414). -/
def State.placeInputs (s : State) (c : Nat) (d : CtxLoad) : List (Nat × Nat) → State × List Nat
  | [] => (s, [])
  | (o, i) :: rest =>
    match (s.reqOf o).bind fun r => r.seqs[i]? with
    | none => s.placeInputs c d rest
    | some q =>
      let va := d.decl.input.1 + q.slot.getD 0 * d.decl.input.2
      let bs := q.input.getD []
      match s.coreWrite c (vaPieces va bs.length) bs with
      | .ok t => t.placeInputs c d rest
      | .error e => let (t, es) := s.placeInputs c d rest; (t, e :: es)

/-- The lengths of a batch. Log entry 98 (DESIGN CHOICE, unsafe). -/
def State.lengths (s : State) (batch : List (Nat × Nat)) : List Nat :=
  batch.map fun x => (((s.reqOf x.1).bind fun r => r.seqs[x.2]?).map (·.tracked)).getD 0

/-- Return the sequences of a batch that exceed the largest variant (R414, R425). -/
def State.dropLong (s : State) (d : CtxLoad) (batch : List (Nat × Nat)) : State :=
  batch.foldl (fun t x =>
    match (t.reqOf x.1).bind fun r => r.seqs[x.2]? with
    | some q => if loadLimit d (loadLast d) < q.tracked then t.seqFinal x.1 x.2 stShapePlan else t
    | none => t) s

/-- Copy a load heat's data into the SHD slots of the context's pairs, 1 GiB each in turn (R427). Log entry 100 (DESIGN CHOICE, unsafe). -/
def State.loadCopy (s : State) (c : Nat) (pairs : List (Nat × Nat)) (bs : List Byte) : State × List Nat :=
  pairs.zipIdx.foldl (fun (acc : State × List Nat) p =>
    let part := (bs.drop (2 ^ 30 * p.2)).take (2 ^ 30)
    match acc.1.coreWrite c (vaPieces p.1.2 part.length) part with
    | .ok t => (t, acc.2)
    | .error e => (acc.1, e :: acc.2)) (s, [])

/-- The heat begins: state RUNNING, everything of Order 1 reset (Table 17-2). `errs` are faults of the serving runtime's own writes (R569). Log entry 98 (DESIGN CHOICE, unsafe). -/
def State.heatBegin (s : State) (c : Nat) (d : CtxLoad) (batch : List (Nat × Nat)) (errs : List Nat) : State :=
  let len := ((s.lengths batch).max?).getD 0
  let t := (s.slotsOf c).foldl (fun (t : State) x => t.setReg (Reg.aFLD_CTX_SHAPE x.1 (16 * x.2 + d.decl.lenShape)) (BitVec.ofNat 32 len)) s
  let t := (t.modServe c fun x =>
    { x with batch := batch, results := [], rerun := false, votes := [], decision := none, ran := 0, ranFrom := t.stamp, swapped := 0,
             tripped := false }).modCtx c fun x => { x with pendRank := 0, pendCode := 0, splits := [], desched := false, waitSusp := false, siltOut := [], stopDue := false }
  let t := (t.put (Reg.SCH_CTX_STATE_UNCOMMITTABLE c) 0).modSrv fun v =>
    { v with lastRun := Tab.set (fun _ => 63) v.lastRun (16 * s.homeQ c + s.partOf c) c }
  let t := match loadFixed d (t.serve c).variant with
    | some code => (t.slotsOf c).foldl (fun (t : State) (x : Nat × Nat) => t.pacerWrite x.1 (1 + 2 + 256 * code)) t
    | none => t
  let t := (t.setCtxState c ctxRunning).hurdlesReset c
  let t := (t.slotsOf c).foldl (fun (t : State) (x : Nat × Nat) => t.fieldHeatStart c x) t
  let t := errs.foldl (fun t e => (t.ctxFault 14 (t.coreOf (t.homeQ c)) c e 0).uncommitAs c 3 e) t
  (t.heatTrace c 1 batch.length).prefShow

/-- Start the heat with its batch formed: choose the variant, place the inputs of `joins` (R414). -/
def State.heatWith (s : State) (c : Nat) (d : CtxLoad) (joins : List (Nat × Nat)) : State :=
  let lo := (s.serve c).minVariant
  let kept := s.dropLong d (s.batchOf c)
  let batch := kept.batchOf c
  if batch.isEmpty then kept
  else
    let len := ((kept.lengths batch).max?).getD 0
    let v := ((loadCover d lo len).getD (loadLast d))
    let t := (kept.setVariant c d v).modServe c fun x => { x with minVariant := 0 }
    let (u, errs) := t.placeInputs c d (joins.filter fun x => batch.contains x)
    u.heatBegin c d batch errs

/-- HEAT_START: once firmware has rewritten the uncorrectable words of the context and started the remaps of their rows (R244, R304), the serving loop starts the next heat of a context: a replay with its batch, a load heat, or a heat with the sequences
that join (R389, R412 to R414, Tables 17-2 and 17-3). Log entry 98 (DESIGN CHOICE, unsafe). -/
def State.heatStart (s : State) (c : Nat) : State :=
  match (s.serve c).load with
  | none => s
  | some d =>
    let s := s.schedPoint (s.homeQ c)
    let v := s.fixWords c
    if !(s.startable c && s.chosen c) then s
    else if v.fixLeft c || v.remapDue c then v
    else
      let s := v
      let x := s.serve c
      match (if x.rerun then x.loading else x.loads.head?) with
      | some l =>
        (match s.winAccess l.window l.off l.len none with
        | .wait t => t
        | .refused t => t.modServe c fun y => { y with loading := none, rerun := false, loads := if x.rerun then y.loads else y.loads.drop 1 }
        | .done t bs =>
          let (u, errs) := t.loadCopy c d.decl.pairs bs
          (u.modServe c fun y => { y with loading := some l, loads := if x.rerun then y.loads else y.loads.drop 1 }).heatBegin c d [] errs)
      | none =>
        if x.rerun then s.heatWith c d x.batch
        else
          let js := s.joiners c
          let (t, here) := s.fetchInputs js
          if !here then t
          else
            let js := js.filter fun y => (((t.reqOf y.1).bind fun r => r.seqs[y.2]?).map fun q => !q.ended).getD false
            (t.join c js).heatWith c d js

def execHeatStart (c : Fin 64) (s : State) : Host.Outcome State Fault Refusal := answer (s.heatStart c)

/-! Loading (R403, R404, R466). -/

/-- The content of a context in an image slot. -/
def State.loadIn (s : State) (k c : Nat) : Option CtxLoad := ((s.nvSlot k).ctxs.find? fun e => e.1 == c).map (·.2)

/-- May a context be loaded now: it is not resident, its Fields are in service with the slots free and every context on them outside a heat,
and the deployment record gives it to its partition (R400, R403)? Log entry 122 (DESIGN CHOICE, unsafe). -/
def State.mayLoad (s : State) (c : Nat) (d : CtxLoad) : Bool :=
  s.ctxState c == ctxUnloaded && (s.deploy.ctxs.any fun e => e.1.val == c && e.2 == d.decl.part) && !d.decl.fields.isEmpty && s.gangOk c d.decl &&
  d.decl.fields.all fun f => match s.physOf f.1 with
    | some p => (s.ctxOf p f.2).isNone && !s.fieldInHeat p && s.domReady (32 + groupOfField p)
    | none => false

/-- What is left of ranges outside others. -/
def rangesBut (kept : List (Nat × Nat)) (rs : List (Nat × Nat)) : List (Nat × Nat) :=
  kept.foldl (fun ps k => ps.flatMap fun r =>
    if r.1 + r.2 ≤ k.1 ∨ k.1 + k.2 ≤ r.1 then [r]
    else [(r.1, k.1 - r.1), (k.1 + k.2, r.1 + r.2 - (k.1 + k.2))].filter fun x => x.2 != 0) rs

/-- Zero what a context is newly granted: its windows, MU storage and stack ranges but for those it keeps (R403). Log entry 114 (DEDUCED, unsafe). -/
def State.zeroGrants (s : State) (d : CtxLoad) (kept : List (Nat × Nat)) : State :=
  let t := d.decl.fields.foldl (fun t f => match t.physOf f.1 with
    | none => t
    | some p => [2 * f.2.val, 2 * f.2.val + 1].foldl (fun t w =>
        let base := t.get (Reg.FLD_FM_WIN_BASE p w)
        let len := t.get (Reg.FLD_FM_WIN_COUNT p w)
        t.coreZero (fmLoc p (65536 * base)) (65536 * len)) t) s
  let t := d.muZero.foldl (fun t z => match t.physOf z.1 with
    | some p => t.mzero (muLoc p z.2.1 z.2.2.1) z.2.2.2
    | none => t) t
  (rangesBut kept d.stackZero).foldl (fun t z => t.coreZero z.1 z.2) t

/-- Set up a context on its Fields from its content in an image slot: registers, zeroing, data, the legs and macros of variant 0 and every
CONST block, its root, its gang, its ends of trees; then it is IDLE (R30, R403, R411, R466). -/
def State.loadCtx (s : State) (k c : Nat) (d : CtxLoad) (kept : List (Nat × Nat)) : State :=
  let t := d.regs.foldl (fun t r => match t.physOf r.1 with
    | some p => t.setReg (0x2000000 + 0x100000 * p + r.2.1) (definedBits (0x2000000 + 0x100000 * p + r.2.1) r.2.2)
    | none => t) s
  let t := d.decl.fields.foldl (fun t f => match t.physOf f.1 with
    | some p => ((t.puts [(Reg.FLD_CTX_MAP_CTX_ID p f.2, c), (Reg.FLD_CTX_MAP_PART p f.2, d.decl.part), (Reg.FLD_CTX_MAP_VALID p f.2, 1),
        (Reg.FLD_CTX_MAP_SCHED p f.2, 0), (Reg.FLD_CTX_MAP_IN_HEAT p f.2, 0)]).vregsClear p f.2).bucketSet p d.decl.part
    | none => t) t
  let t := t.zeroGrants d kept
  let t := d.stackData.foldl (fun t b => (rangesBut kept [(b.1, b.2.length)]).foldl (fun t r => t.corePut r.1 ((b.2.drop (r.1 - b.1)).take r.2)) t) t
  let variantOnly (n : Nat) : Bool := d.decl.variants.tail.any fun v => v.legs.contains n || v.macros.contains n
  let first (n : Nat) : Bool := match d.decl.variants.head? with
    | some v => v.legs.contains n || v.macros.contains n
    | none => false
  let t := t.placeSections d fun n => first n || !variantOnly n
  let home := ((d.decl.fields.map fun f => f.1.val).min?).getD 0 / 16
  let t := (t.setReg (Reg.aXLT_CTX_ROOT c) (definedBits (Reg.aXLT_CTX_ROOT c) d.root)).puts
    [(Reg.SCH_CTX_STATE_PART c, d.decl.part), (Reg.SCH_CTX_STATE_HOME_Q c, home), (Reg.SCH_CTX_STATE_REPLAY c, 0),
     (Reg.SCH_CTX_STATE_UNCOMMITTABLE c, 0), (Reg.SCH_CTX_STATE_GROUPED c, b2n d.group.isSome),
     (Reg.SCH_CTX_STATE_LEADER c, b2n (match d.group with | some g => g.me == g.leader | none => false)), (Reg.SCH_CTX_STATE_STATE c, ctxIdle)]
  let t := (t.modServe c fun _ => { CtxServe.reset with load := some d, slot := k }).modCtx c fun x => { x with desched := false, waitSusp := false, trees := d.trees }
  ((t.gangForm c d.decl).invalidate (·.ctx == c) (·.ctx == c)).divideRates d.decl.part

/-- Has the start-up come to its Order 7 without being stopped (R466 to R468)? -/
def State.mayServe (s : State) : Bool :=
  decide (7 ≤ s.get Reg.CFG_BOOT_STATUS_PHASE) && !bit s.board.faultHold 5 && !bit s.board.faultHold 6

/-- CONTEXT_LOAD: firmware loads a context of the image in force. Log entry 122 (DESIGN CHOICE, unsafe). -/
def State.contextLoad (s : State) (c : Nat) : State :=
  match s.loadIn s.gridSlot c with
  | some d => if s.mayLoad c d && s.mayServe then s.loadCtx s.gridSlot c d [] else s
  | none => s

def execContextLoad (c : Fin 64) (s : State) : Host.Outcome State Fault Refusal := answer (s.contextLoad c)

/-! Image activation (R474, R475). -/

/-- The staging slot that an activation moves to. -/
def State.newSlot (s : State) : Nat := 4 - s.nv.gridForce

/-- The windows that a context's content sets on its Fields. -/
def windowRegs (d : CtxLoad) : List (Fin 64 × Nat × Word) :=
  d.regs.filter fun r => d.decl.fields.any fun f => f.1 == r.1 && (r.2.1 == Reg.aFLD_FM_WIN 0 (2 * f.2) % 2 ^ 20 || r.2.1 == Reg.aFLD_FM_WIN 0 (2 * f.2 + 1) % 2 ^ 20)

/-- Replace every leg of a context, and load the new MACROS and CONST sections: those of variant 0. Log entry 114 (DEDUCED, unsafe). -/
def State.replaceLegs (s : State) (k c : Nat) (d : CtxLoad) : State :=
  let t := (s.slotsOf c).foldl (fun (t : State) (x : Nat × Nat) => t.modGrid x.1 fun g =>
    { g with units := g.units.map fun e => (e.1, { e.2 with legs := e.2.legs.filter fun l => l.2.slot != x.2 }) }) s
  let later (n : Nat) : Bool := d.decl.variants.tail.any fun v => v.legs.contains n || v.macros.contains n
  let first (n : Nat) : Bool := match d.decl.variants.head? with
    | some v => v.legs.contains n || v.macros.contains n
    | none => false
  let u := d.stackData.foldl (fun (u : State) b => u.corePut b.1 b.2) (t.placeSections d fun n => first n || !later n)
  (u.gangForm c d.decl).modServe c fun x => { x with load := some d, slot := k, variant := 0 }

/-- The level-1 entry of a VA of a context, as its part offset. -/
def State.rootEntry (s : State) (c va : Nat) : Nat := s.get (Reg.XLT_CTX_ROOT_ROOT c) * 2 ^ 21 + 8 * tableIndex 1 va

/-- The memory of a context's state behind a VA of a pair (R415): its level-2 table with the tables below it, and the pages of this part's stacks. -/
def State.pairRanges (s : State) (c va : Nat) : List (Nat × Nat) :=
  let e := leNat (s.mread (s.rootEntry c va) 8)
  let here (l : Leaf) : Option (Nat × Nat) :=
    if bits l.frame 50 41 = s.deviceId ∧ bits l.frame 40 0 < stackBytes then some (bits l.frame 40 0, l.size) else none
  if !bit e 0 then []
  else if bit e 1 then (here { vbase := va, size := pageSize 1, frame := bits e 50 16 * 65536, rights := bits e 5 2 }).toList
  else s.tablesAt 2 2 (bits e 40 8 * 256) ++ (s.leavesAt 2 2 (bits e 40 8 * 256) va).filterMap here

/-- Load a context again under a changed declaration: the pairs that both declare keep their memory and their places (R403, R474). Log entry 114 (DEDUCED,
unsafe). -/
def State.loadAgain (s : State) (k c : Nat) (a b : CtxLoad) : State :=
  let vas := (a.decl.pairs.filter b.decl.pairs.contains).flatMap fun p => [p.1, p.2]
  let kept := vas.flatMap (s.pairRanges c)
  let t := (s.evict c).loadCtx k c b kept
  vas.foldl (fun t va => t.corePut (t.rootEntry c va) (s.mread (s.rootEntry c va) 8)) t

/-- Move a context to the staged set (R474): its legs are replaced; a changed declaration loads it again, which keeps what both declare; a
context that the new set does not declare is unloaded. Log entry 114 (DEDUCED, unsafe). -/
def State.moveCtx (s : State) (c : Nat) : State :=
  let k := s.newSlot
  match (s.serve c).load, s.loadIn k c with
  | some _, none => s.unload c stNoContext
  | some a, some b =>
    if a.decl.pairs = b.decl.pairs ∧ a.decl.fields = b.decl.fields ∧ windowRegs a = windowRegs b then s.replaceLegs k c b
    else
      let x := s.serve c
      (s.loadAgain k c a b).modServe c fun y =>
        { y with loads := x.loads, held := x.held, groupLost := x.groupLost }
  | none, _ => s

/-- The last context has moved: the new slot is in force and the old one becomes the staging slot. -/
def State.activationEnd (s : State) : State :=
  let old := s.nvSlot (3 + s.nv.gridForce)
  let new := s.nvSlot s.newSlot
  ((((s.setNvSlot (3 + s.nv.gridForce) { old with state := if old.ok then 2 else 0 }).setNvSlot s.newSlot { new with state := 3 }).modNv fun n =>
    { n with gridForce := 1 - n.gridForce }).modPlane fun y => { y with goldenGrid := false }).cfgShow

/-- May a context move now: where it is loaded again, goes, or its gang changes, every context on the Fields concerned is outside a heat (R30, R403, R475)? -/
def State.mayMove (s : State) (c : Nat) : Bool :=
  let quiet (d : CtxDecl) : Bool := d.fields.all fun f => match s.physOf f.1 with
    | some p => !s.fieldInHeat p
    | none => true
  s.ctxState c == ctxIdle && !(s.serve c).rerun &&
  (match (s.serve c).load, s.loadIn s.newSlot c with
   | some a, some b =>
     (a.decl.pairs == b.decl.pairs && a.decl.fields == b.decl.fields && windowRegs a == windowRegs b && a.decl.gang == b.decl.gang) ||
       (quiet a.decl && quiet b.decl)
   | some a, none => quiet a.decl
   | none, _ => true)

/-- A context that has still to move does so. Log entry 114 (DEDUCED, unsafe). -/
def State.activateOne (s : State) (c : Nat) : State :=
  let t := (s.moveCtx c).modPlane fun y => { y with activating := y.activating.filter (· != c) }
  let t := t.put Reg.CFG_IMAGE_STATUS_CTX_MOVED (t.get Reg.CFG_IMAGE_STATUS_CTX_MOVED + 1)
  if t.plane.activating.isEmpty then t.activationEnd else t

/-- At a boundary the contexts move that have still to move and may: each at its own, or at the latest of those of the contexts it shares Fields
with; after an abandon whose replay is due a context waits for the next (R30, R475). Log entry 114 (DEDUCED, unsafe). -/
def State.activateAt (s : State) : State :=
  s.plane.activating.foldl (fun t c => if t.mayMove c then t.activateOne c else t) s

/-! The boundary (Table 17-3). -/

/-- Cancelled sequences leave, with a FINAL RESULT of status CANCELLED (R393). -/
def State.leave (s : State) (c : Nat) : State :=
  ((s.openReqs c).filter (·.cancelled)).foldl (fun t r => t.reqFinal r stCancelled) s

/-- Silt is released at the boundary: the extensions of queues and rings (R216), and the leftovers of drains (R228). A ring gives back the credit its
chunks stood for (R217); one with records that still wait in Silt keeps it. Log entry 69 (DESIGN CHOICE, unsafe). -/
def State.siltRelease (s : State) (p slot : Nat) : State :=
  let waits (u : SiltUse) : Bool := u.kind == 1 && (((s.rxChan p u.key).map fun r => !r.silt.isEmpty).getD false)
  let mine := (s.field p).grid.silt.filter fun u => u.slot == slot && !waits u && (u.kind != 0 || u.places.isEmpty)
  let t := mine.foldl (fun t u =>
    if u.kind = 1 then
      match t.rxChan p u.key with
      | none => t
      | some r =>
        let v := (t.setRx p u.key { r with extended := 0 }).put (Reg.FLD_CH_RX_STATE_EXTENDED p u.key) 0
        match v.physOf r.txLf with
        | some q => if r.remote then v else v.setTxCredit q r.txIdx (v.txCredit q r.txIdx - 16384 * r.extended)
        | none => v
    else t) s
  (t.modGrid p fun g => { g with silt := g.silt.filter fun u => !(mine.any fun m => m == u) }).siltShow p slot

/-- Deferred settings of a Field take effect once no context of it is within a heat; the pacer's at the boundary of the context that runs
on it, on every member of its gang together (R48, R110, R216, R238). Log entry 69 (DESIGN CHOICE, unsafe). -/
def State.fieldBoundary (s : State) (x : Nat × Nat) : State :=
  let t := ((s.gangFields x.1).foldl (fun (t : State) p => t.pacerBoundary p) s).siltRelease x.1 x.2
  if t.fieldInHeat x.1 then t
  else (t.sliceModeChange x.1).colsApply x.1

/-- A context that a migration or a handover holds at its boundary (R472, R503). -/
def State.holdAt (s : State) (c why : Nat) : State := s.modServe c fun x => { x with held := why :: x.held.filter (· != why) }

/-- Let a hold go. -/
def State.unhold (s : State) (c why : Nat) : State := s.modServe c fun x => { x with held := x.held.filter (· != why) }

/-- Reasons for a hold: a migration of logical Field m is m, a handover of quadrant q is 65 + q. -/
def holdQuad (q : Nat) : Nat := 65 + q

/-- Can the quadrant that a handover has reached be handed over once its contexts are at a boundary: a core has started from the new slot, or
no spare is free and the quadrant's own core restarts (R472)? Log entry 116 (DESIGN CHOICE, safe). -/
def State.handoverDue (s : State) : Option Nat :=
  match s.plane.handover with
  | some h =>
    if h.quad < 4 ∧ h.since.isNone = true ∧ h.paused.isNone = true ∧ (h.ready ≠ [] ∨ (s.freeCores = [] ∧ h.restarting = [])) then some h.quad else none
  | none => none

/-- Routes of R27 that carry traffic again are restored at a boundary (R518). Log entry 126 (DESIGN CHOICE, unsafe). -/
def State.routesRestore (s : State) : State :=
  s.modPlane fun y => { y with routesAway := y.routesAway.filter fun d => !y.routesBack.contains d, routesBack := [] }

/-- Actions at the heat boundary of a context (Table 17-3, Orders 1 to 3 and 6). Cancelled sequences stay in the batch of a heat that is to run again
(R393, R412). -/
def State.boundary (s : State) (c : Nat) : State :=
  let t := if (s.serve c).rerun then s.setCtxState c ctxIdle else (s.setCtxState c ctxIdle).leave c
  let t := (t.slotsOf c).foldl (fun t x => (t.fieldBoundary x).hurdleMapDrop x.1 x.2) t
  let migrating := t.plane.migrations.filter fun e => (t.slotsOf c).any fun x => x.1 == e.2.src
  let t := migrating.foldl (fun t e => t.holdAt c e.2.lfield) t
  let t := t.activateAt.deployBoundary c
  let t := match t.handoverDue with
    | some q => if q = t.homeQ c then t.holdAt c (holdQuad q) else t
    | none => t
  ((t.routesAgain c).routesRestore.wearPlanned.divideRates (t.partOf c)).gangSettle.schedPoint (t.homeQ c)

/-! End checks and commit (Table 17-2, Orders 3 to 7). -/

/-- Has every agent of a context finished, with nothing queued? -/
def State.allDone (s : State) (c : Nat) : Bool :=
  (s.slotsOf c).all fun x =>
    let f := s.field x.1
    let q (l : List Posted) : Bool := l.all (·.slot != x.2)
    q f.ma0.queue && q f.ma1.queue && q f.ve.queue && q f.re.queue && (f.dmas.all fun d => q d.2.queue) && q f.grid.walkQ &&
    ((f.ma0.runs ++ f.ma1.runs).all (·.ctx != c)) && ((f.ve.runs ++ f.re.runs).all (·.ctx != c)) &&
    (f.dmas.all fun d => d.2.runs.all (·.ctx != c)) && (f.grid.walks.all (·.ctx != c)) && (f.grid.reconfQ.all fun r => r.1.slot != x.2) &&
    (match f.grid.region with | some r => r.slot != x.2 | none => true)

/-- Slots still PINNED by a context are freed, in the buffer and in its save area, and the heat is rejected (R155). -/
def State.pinCheck (s : State) (p slot c : Nat) : State :=
  [0, 1].foldl (fun t a =>
    let mine (e : Nat × Tile) : Bool := e.2.ctx == c && e.2.pinned
    let open' := (t.ma p a).tiles.filter mine
    let saved := (t.ma p a).saved.filter mine
    if open'.isEmpty && saved.isEmpty then t
    else
      let u := (open'.foldl (fun u e => u.freeSlot p a e.1) t).modMa p a fun m => { m with saved := m.saved.filter fun e => !mine e }
      (u.fieldFault p a slot (some c) Flt.PIN_OPEN (open'.length + saved.length)).seqShow p) s

/-- Does an entry of a slot remain in a queue, on a link or in Silt, or has a one-shot chain of its legs not halted (R210)? -/
def State.residue (s : State) (p slot : Nat) : Bool :=
  let g := (s.field p).grid
  (g.units.any fun e => e.2.queues.any fun q => q.2.any fun z => s.legOfSlot p slot e.1 z.leg) ||
  (g.links.any fun e => e.2.any fun z => s.transitOf p slot z) ||
  (g.silt.any fun u => u.slot == slot && u.kind == 0 && !u.places.isEmpty) ||
  (g.units.any fun e => e.2.legs.any fun l => l.2.slot == slot && l.2.valid && (decide (!l.2.due.isEmpty) ||
    (l.2.kind == 1 && (List.range 4).any fun k => decide (0 < l.2.levels k) && l.2.ctrOnce (4 * k + l.2.levels k - 1) && !l.2.halted.contains k)))

/-- The grid check of a Field: what remains is discarded and the heat is rejected (R210). -/
def State.gridCheck (s : State) (p slot c : Nat) : State :=
  if s.residue p slot then (s.dropTokens p slot).fieldFault p 14 (s.coreOf (s.homeQ c)) (some c) Flt.GRID_RESIDUE 0 else s

/-- Flush the lines of a slot before the commit (R242): a bad dirty line is discarded and sets ERR (R245). The answer tells whether memory has accepted every
byte. -/
def State.heatFlush (s : State) (p slot c : Nat) : State × Bool :=
  let (t, bad, todo) := s.cmoLines p false (s.linesWhole p (·.slot == slot))
  (if bad then t.put (Reg.FLD_FM_CMO_STATUS_ERR p) 1 else t, todo.isEmpty && !t.cacheSending p c)

/-- Flush the lines of a context on every Field. -/
def State.heatFlushes (s : State) (c : Nat) : State × Bool :=
  (s.slotsOf c).foldl (fun (r : State × Bool) x =>
    let (t, ok) := r.1.heatFlush x.1 x.2 c
    (t, r.2 && ok)) (s, true)

/-- Read the inline outputs into the result buffer (R572). Log entry 99 (DESIGN CHOICE, unsafe). -/
def State.takeOutputs (s : State) (c : Nat) (outs : List SeqOut) : State :=
  outs.foldl (fun t o =>
    match ((t.serve c).batch.find? fun x => (((t.reqOf x.1).bind fun r => r.seqs[x.2]?).bind (·.slot)) == some o.slot.val) with
    | none => t
    | some (r, i) =>
      let inline' := t.inlineOut r
      match (if inline' then t.vaCoreRead c (vaPieces o.va o.len) else .ok (t, [])) with
      | .error e =>
        let u := t.ctxFault 14 (t.coreOf (t.homeQ c)) c e o.va
        if e = Flt.STK_UNCORR ∨ e = Flt.FM_UNCORR then u else u.uncommitAs c 3 e
      | .ok (t, bs) => t.modServe c fun x =>
          { x with results := x.results ++ [{ order := r, seq := i, len := o.len, window := if inline' then none else some o.va, data := bs,
                                              ended := o.ended, grow := o.grow }] }) s

/-- Swap the level-1 entries of a pair (R416), once an uncorrectable block of theirs has been rewritten. -/
def State.swapPair (s : State) (c : Nat) (p : Nat × Nat) : State :=
  let a := s.rootEntry c p.1
  let b := s.rootEntry c p.2
  let t := (((s.coreAwake a 8 true).coreAwake b 8 true).tableMend a).tableMend b
  (t.mwrite a (t.mread b 8)).mwrite b (t.mread a 8)

/-- Swap pairs from the first not yet swapped, up to `upTo` of them in all; the cache lines of the context, clean by now, are invalidated before
its mapping changes (R242). -/
def State.swapTo (s : State) (c upTo : Nat) : State :=
  match (s.serve c).load with
  | none => s
  | some d =>
    let n := (s.serve c).swapped
    let todo := (d.decl.pairs.take upTo).drop n
    let t := (s.slotsOf c).foldl (fun (t : State) x => t.dropLines x.1 x.2) s
    (todo.foldl (fun t p => t.swapPair c p) t).modServe c fun x => { x with swapped := max n (min upTo d.decl.pairs.length) }

/-- Release the RESULTs of a committed heat (R390): one for each sequence with output, FINAL where it ends; a sequence that ends without
output takes a FINAL RESULT of its own. -/
def State.resultsOut (s : State) (c : Nat) : State :=
  let x := s.serve c
  let reqs := (x.batch.map (·.1)).eraseDups
  let t := x.batch.foldl (fun t b =>
    match t.reqOf b.1, (t.reqOf b.1).bind fun r => r.seqs[b.2]? with
    | some r, some q =>
      if q.ended then t
      else
        let out := x.results.find? fun o => o.order == b.1 && o.seq == b.2
        let full := r.maxHeats != 0 && decide (r.maxHeats ≤ r.heats + 1)
        let fin := full || ((out.map (·.ended)).getD false)
        let u := match out with
          | some o => if o.len = 0 ∧ fin = false then t else t.resultSend r b.2 stOk o.len o.window o.data fin
          | none => if fin then t.resultSend r b.2 stOk 0 none [] true else t
        (u.modSeq b.1 b.2 fun y =>
          { y with tracked := y.tracked + ((out.map (·.grow)).getD 0), ended := fin, slot := if fin then none else y.slot }).reqCheck b.1
    | _, _ => t) s
  let t := reqs.foldl (fun t o => t.modReq o fun r => { r with heats := r.heats + 1 }) t
  reqs.foldl (fun t o =>
    match t.reqOf o with
    | some r => if r.ended.isNone && r.maxHeats != 0 && decide (r.maxHeats ≤ r.heats) then t.reqFinal r stOk else t
    | none => t) t

/-- The commit: pairs swapped, one invalidation, the heat number rises, RESULTs leave, the boundary follows (Table 17-2, Orders 5 to 7). -/
def State.commit (s : State) (c : Nat) : State :=
  match (s.serve c).load with
  | none => s
  | some d =>
    let t := (s.swapTo c d.decl.pairs.length).invalidate (·.ctx == c) (·.ctx == c)
    let t := t.heatTrace c 2 (t.serve c).batch.length
    let t := (t.setPair (Reg.aSCH_CTX_HEAT_LO c) (t.heatOf c + 1)).put (Reg.SCH_CTX_STATE_REPLAY c) 0
    let t := if (t.serve c).loading.isSome then
        (t.put (Reg.SCH_CTX_STATE_LOAD_DONE c) 1).logRec 2 (srcOf 5 (t.coreOf (t.homeQ c))) (some c) .none
      else t
    let t := t.resultsOut c
    (t.modServe c fun x => { x with batch := [], results := [], loading := none, awaitDecision := false, swapped := 0 }).boundary c

/-- The 16 bytes of a vote or decision record (Table 17-4). Log entry 101 (DESIGN CHOICE, unsafe). -/
def groupRecord (heat member what replay : Nat) : List Byte :=
  leBytes 8 heat ++ leBytes 1 member ++ leBytes 1 what ++ leBytes 1 replay ++ List.replicate 5 0

/-- Send a record to a member of the group over its remote channel (R420). Log entry 99 (DESIGN CHOICE, unsafe). -/
def State.groupSend (s : State) (c mem what : Nat) (me : Nat) : State :=
  s.modSrv fun v => { v with grpSent := v.grpSent ++ [(c, mem, groupRecord (s.heatOf c) me what (s.get (Reg.SCH_CTX_STATE_REPLAY c)))] }

/-- The leader acts on its decision (R421, R422): it records it, sends it to every other member, and commits or lets its heat go. -/
def State.groupDecide (s : State) (c : Nat) (g : GroupDecl) (yes : Bool) : State :=
  let others := (List.range g.members).filter (· != g.me)
  let t := others.foldl (fun t m => t.groupSend c m (if yes then 3 else 4) g.me) s
  let t := t.modServe c fun x => { x with decision := some yes, awaitDecision := false, undelivered := others }
  let t := t.mwrite g.word (groupRecord (s.heatOf c) g.me (if yes then 3 else 4) (s.get (Reg.SCH_CTX_STATE_REPLAY c)))
  if yes then t.commit c else if t.inHeat c then t.uncommitAs c 1 (t.ctx c).pendCode else t

/-- A vote reaches the leader (R421): ABANDON decides at once; READY from every member decides COMMIT. Log entry 101 (DESIGN CHOICE, unsafe). -/
def State.voteIn (s : State) (c : Nat) (g : GroupDecl) (member : Nat) (ready : Bool) : State :=
  let t := s.modServe c fun x => { x with votes := (x.votes.filter (·.member != member)) ++ [{ member := member, ready := ready }] }
  if (t.serve c).decision.isSome then t
  else if !ready then t.groupDecide c g false
  else if (List.range g.members).all fun m => (t.serve c).votes.any fun v => v.member == m && v.ready then t.groupDecide c g true
  else t

/-- The context votes (R420, R421): a member sends its record to the leader, and the leader counts its own. Log entry 101 (DESIGN CHOICE, unsafe). -/
def State.vote (s : State) (c : Nat) (g : GroupDecl) (ready : Bool) : State :=
  let t := s.modServe c fun x => { x with awaitDecision := true, votedAt := s.stamp }
  let t := if ready then t.setCtxState c ctxVoted else t
  if g.me = g.leader then t.voteIn c g g.me ready else t.groupSend c g.leader (if ready then 1 else 2) g.me

/-- HEAT_END_CHECKS: once the last operation of the heat is done, the checks of Order 3, and then the vote or the commit. `outs` are what the
sequences produced. They wait until the cache has been flushed. `cut`, where present, is how many pairs a control core has swapped when it fails in the commit (R509). Log entry 151 (DESIGN CHOICE, unsafe). -/
def State.heatEnd (s : State) (c : Nat) (outs : List SeqOut) (cut : Option Nat) : State :=
  match (s.serve c).load with
  | none => s
  | some d =>
    if s.ctxState c ≠ ctxRunning ∨ s.on (Reg.SCH_CTX_STATE_UNCOMMITTABLE c) = true ∨ s.allDone c = false then s
    else
      let (s, flushed) := s.heatFlushes c
      if !flushed then s
      else
      let t := s.setCtxState c ctxCommitting
      let t := (t.slotsOf c).foldl (fun t x => (t.pinCheck x.1 x.2 c).gridCheck x.1 x.2 c) t
      let t := t.takeOutputs c outs
      if t.on (Reg.SCH_CTX_STATE_UNCOMMITTABLE c) then t
      else match d.group, cut with
        | some g, _ => t.vote c g true
        | none, none => t.commit c
        | none, some n => t.swapTo c (min n d.decl.pairs.length)

def execHeatEndChecks (c : Fin 64) (outs : List SeqOut) (cut : Option (Fin 9)) (s : State) : Host.Outcome State Fault Refusal :=
  answer (s.heatEnd c outs (cut.map (·.val)))

/-! Abandon (R423 to R425, R569, R570). -/

/-- Advance the GEN of every reduction node of a context's trees, and of its own ends of them; operands held for them go, and results that have
come for its Fields (R359, R423). Firmware doubles a spill area that was full, as far as the record allows (R360). -/
def State.treesAdvance (s : State) (c : Nat) : State :=
  let mine (key : Nat) : Bool := (s.ctx c).trees.any (·.key.val == key)
  if (s.ctx c).trees.isEmpty then s
  else
    let t := (List.range 4).foldl (fun t n =>
      let t := (List.range 64).foldl (fun t k =>
        if t.on (Reg.QPL_RNODE_CFG_EN n k) && mine (t.get (Reg.QPL_RNODE_KEY_TREE n k)) then
          t.put (Reg.QPL_RNODE_CFG_GEN n k) ((t.get (Reg.QPL_RNODE_CFG_GEN n k) + 1) % 16)
        else t) t
      let size := t.get (Reg.QPL_RSPILL_SIZE_SIZE_MIB n)
      let t := if (t.port n).grow then t.put (Reg.QPL_RSPILL_SIZE_SIZE_MIB n) (max size (min (2 * size) t.nv.record.rspill)) else t
      (t.modPort n fun x => { x with grow := false, operands := x.operands.filter fun o => !mine o.tree }).redShow n) s
    (t.modCtx c fun x => { x with trees := x.trees.map fun e => { e with gen := e.gen + 1 } }).eachField fun f =>
      { f with resps := f.resps.filter fun r => !(r.agent == 0 && r.index == 63 && mine (r.va / 2 ^ 32)) }

/-- The sequences of the heat are returned with a status, and the context is IDLE with its committed state (R424, R425). -/
def State.heatReject (s : State) (c status : Nat) : State :=
  let t := (s.serve c).batch.foldl (fun t x => t.seqFinal x.1 x.2 status) s
  (t.put (Reg.SCH_CTX_STATE_REPLAY c) 0).modServe c fun x => { x with batch := [], loading := none, rerun := false }

/-- Run the heat again with its batch. -/
def State.heatAgain (s : State) (c : Nat) : State := s.modServe c fun x => { x with rerun := true }

/-- Firmware doubles the Silt of the Fields on which a heat has run out of it, up to the largest count that the image declares; none where one has that
count already (R218). -/
def State.siltEnlarge (s : State) (c : Nat) (d : CtxLoad) : Option State :=
  (s.ctx c).siltOut.foldl (fun (t : Option State) p => t.bind fun u =>
    match u.slotOf p c with
    | none => some u
    | some k =>
      let n := u.get (Reg.FLD_SILT_CTRL_CHUNKS p k)
      let most := ((d.decl.silt.find? fun x => u.physOf x.1 == some p).map (·.2)).getD n
      if most ≤ n then none else some (u.put (Reg.FLD_SILT_CTRL_CHUNKS p k) (min most (2 * n)))) (some s)

/-- The replay of a heat, unless it has had three (R424). -/
def State.heatReplay (s : State) (c code : Nat) : State :=
  let replay := s.get (Reg.SCH_CTX_STATE_REPLAY c)
  if 3 ≤ replay then (s.ctxFault 14 (s.coreOf (s.homeQ c)) c Flt.REPLAY_LIMIT code).heatReject c stRejected
  else (s.put (Reg.SCH_CTX_STATE_REPLAY c) (replay + 1)).heatAgain c

/-- The next step after the abandon, by the highest rank among the heat's faults (R218, R424, R425, R446, R570). -/
def State.heatNext (s : State) (c : Nat) (d : CtxLoad) (rank code : Nat) : State :=
  let x := s.serve c
  if 3 ≤ rank then s.heatReject c stRejected
  else if rank = 2 then
    if x.variant < loadLast d then (s.modServe c fun y => { y with minVariant := x.variant + 1 }).heatAgain c
    else
      let long := x.batch.filter fun b => (((s.reqOf b.1).bind fun r => r.seqs[b.2]?).map fun q => decide (loadLimit d (loadLast d) < q.tracked)).getD false
      let gone := if long.isEmpty then x.batch else long
      let t := gone.foldl (fun t b => t.seqFinal b.1 b.2 stShapePlan) s
      let rest := x.batch.filter fun b => !gone.contains b
      if rest.isEmpty then t.heatReject c stShapePlan else (t.modServe c fun y => { y with batch := rest }).heatAgain c
  else match s.siltEnlarge c d with
  | none => s.heatReject c stRejected
  | some t => if x.tripped then t.heatAgain c else t.heatReplay c code

/-- Discard the heat: agents, queues, lines, channels, trees; then wear actions and the rewriting of bad words (R423, R499). -/
def State.discardHeat (s : State) (c : Nat) : State :=
  let t := (s.setCtxState c ctxAbandoning).heatTrace c 3 (s.serve c).batch.length
  let t := ((t.dropWork c).treesAdvance c).modCtx c fun x => { x with desched := false, waitSusp := false, stopDue := false }
  (((t.legsReload c).fixWords c).wearOnFault c).modServe c fun x => { x with results := [], votes := [] }

/-- HEAT_ABANDON: an uncommittable heat before its commit point is discarded, and replayed, re-dispatched or rejected. A member of a group
that has not voted READY votes ABANDON. Log entry 101 (DESIGN CHOICE, unsafe). -/
def State.heatAbandon (s : State) (c : Nat) : State :=
  match (s.serve c).load with
  | none => s
  | some d =>
    let x := s.serve c
    if !s.inHeat c || !s.on (Reg.SCH_CTX_STATE_UNCOMMITTABLE c) || decide (x.swapped ≠ 0) ||
        (s.ctxState c == ctxVoted && x.decision != some false) then s
    else
      let t := s.discardHeat c
      let code := (t.ctx c).pendCode
      let t := match d.group with
        | some g => if x.decision.isNone && !x.awaitDecision then t.vote c g false else t
        | none => t
      let t := (t.puts [(Reg.SCH_CTX_STATE_LAST_FAULT c, code), (Reg.SCH_CTX_STATE_UNCOMMITTABLE c, 0)]).heatNext c d (t.ctx c).pendRank code
      (t.modCtx c fun y => { y with pendRank := 0, pendCode := 0 }).boundary c

def execHeatAbandon (c : Fin 64) (s : State) : Host.Outcome State Fault Refusal := answer (s.heatAbandon c)

/-- HEAT_TIMEOUT: a heat that has been scheduled for longer than HEAT_LIMIT_MS is to be abandoned (R426). Log entry 97 (DESIGN CHOICE, unsafe). -/
def State.heatTimeout (s : State) (c : Nat) : State :=
  if (s.ctxState c = ctxRunning ∨ s.ctxState c = ctxSuspended) ∧ ticksOfMs (s.get Reg.SCH_CTRL_HEAT_LIMIT_MS) < s.heatTime c then
    s.ctxFault 14 (s.coreOf (s.homeQ c)) c Flt.HEAT_TIMEOUT 0
  else s

def execHeatTimeout (c : Fin 64) (s : State) : Host.Outcome State Fault Refusal := answer (s.heatTimeout c)

/-- SUSPENDED_WAIT_LIMIT: a context suspended on waits for 1,024 windows with no arrival is to be abandoned (R276). -/
def execSuspendedWaitLimit (c : Fin 64) (s : State) : Host.Outcome State Fault Refusal :=
  answer (if s.inHeat c && (s.ctx c).waitSusp then s.ctxFault 14 (s.coreOf (s.homeQ c)) c Flt.STALL_EXTERNAL 0 else s)

/-! Descheduling and pre-emption (R339, R407). -/

/-- CONTEXT_DESCHEDULE: the control core stops a running context from issuing, once no region of it is under reconfiguration (R229). -/
def execContextDeschedule (c : Fin 64) (s : State) : Host.Outcome State Fault Refusal :=
  answer (if s.ctxState c = ctxRunning ∧ s.ctxActive c = true then s.stopWhenFree c else s)

/-- CONTEXT_DESCHEDULED: the last agent has stopped; the context is SUSPENDED and another may run. A region under reconfiguration delays it
(R229, R339). -/
def State.descheduled (s : State) (c : Nat) : State :=
  if s.ctxState c = ctxRunning ∧ s.ctxActive c = false ∧ s.regionBusy c = false ∧ ((s.slotsOf c).all fun x => s.agentsStopped x.1 c) = true then
    (s.setCtxState c ctxSuspended).schedPoint (s.homeQ c)
  else s

def execContextDescheduled (c : Fin 64) (s : State) : Host.Outcome State Fault Refusal := answer (s.descheduled c)

/-- PREEMPT_WAIT_EXPIRY: context `c` has waited its time for a place on a Field: of the running contexts there whose partition has a greater
virtual time, the one with the greatest is descheduled, once no region of it is under reconfiguration (R229, R407). -/
def State.preempt (s : State) (p c : Nat) : State :=
  let t := s.schedPoint (quadOfField p)
  if !t.on Reg.SCH_CTRL_PREEMPT_EN || !t.ready c || t.placesFree c || !(t.slotsOf c).any (·.1 == p) then t
  else
    let run := (List.range 4).filterMap fun k => match t.ctxOf p k with
      | some d => if t.ctxState d = ctxRunning ∧ t.ctxActive d = true ∧ t.vtOf c < t.vtOf d then some d else none
      | none => none
    match run.foldl (fun (b : Option Nat) d => match b with
        | some e => if t.vtOf e < t.vtOf d then some d else b
        | none => some d) none with
    | some d => t.stopWhenFree d
    | none => t

def execPreemptWaitExpiry (p : Fin 72) (c : Fin 64) (s : State) : Host.Outcome State Fault Refusal := answer (s.preempt p c)

/-! Groups (R420 to R422). -/

/-- GROUP_VOTE: the leader receives a member's vote for the heat in progress. -/
def State.groupVote (s : State) (c : Nat) (rcd : List Byte) : State :=
  match ((s.serve c).load).bind (·.group) with
  | none => s
  | some g =>
    let what := leAt rcd 9 1
    if g.me ≠ g.leader ∨ rcd.length ≠ 16 ∨ leAt rcd 0 8 ≠ s.heatOf c ∨ leAt rcd 10 1 ≠ s.get (Reg.SCH_CTX_STATE_REPLAY c) ∨
        g.members ≤ leAt rcd 8 1 ∨ (what ≠ 1 ∧ what ≠ 2) then s
    else s.voteIn c g (leAt rcd 8 1) (what == 1)

def execGroupVote (c : Fin 64) (rcd : List Byte) (s : State) : Host.Outcome State Fault Refusal := answer (s.groupVote c rcd)

/-- A member acts on a decision: COMMIT commits a heat that is VOTED; ABANDON makes it one to abandon (R421). -/
def State.decided (s : State) (c : Nat) (yes : Bool) : State :=
  let t := s.modServe c fun x => { x with decision := some yes, awaitDecision := false }
  if yes then (if t.ctxState c = ctxVoted then t.commit c else t)
  else if t.inHeat c then t.uncommitAs c 1 (t.ctx c).pendCode else t

/-- GROUP_DECISION: a member receives the decision, writes it into its decision word, and acts on it. -/
def State.groupDecision (s : State) (c : Nat) (rcd : List Byte) : State :=
  match ((s.serve c).load).bind (·.group) with
  | none => s
  | some g =>
    let what := leAt rcd 9 1
    if g.me = g.leader ∨ rcd.length ≠ 16 ∨ leAt rcd 0 8 ≠ s.heatOf c ∨ (what ≠ 3 ∧ what ≠ 4) ∨ (s.serve c).decision.isSome = true then s
    else (s.mwrite g.word (groupRecord (leAt rcd 0 8) g.me what (leAt rcd 10 1))).decided c (what == 3)

def execGroupDecision (c : Fin 64) (rcd : List Byte) (s : State) : Host.Outcome State Fault Refusal := answer (s.groupDecision c rcd)

/-- GROUP_VOTE_TIMEOUT: GROUP_MS has passed. A leader without a decision decides ABANDON; with one, it sends it again to the members whose
channel credit does not show it read (`read` are those it does); a member still VOTED raises a MAJ alarm (R421). -/
def State.groupTimeout (s : State) (c : Nat) (read : List Nat) : State :=
  match ((s.serve c).load).bind (·.group) with
  | none => s
  | some g =>
    let x := s.serve c
    if g.me ≠ g.leader then
      if s.ctxState c = ctxVoted then s.alarm 1 0 (srcOf 5 (s.coreOf (s.homeQ c))) (some c) else s
    else match x.decision with
      | none =>
        if x.awaitDecision ∧ x.votedAt + ticksOfMs (s.get Reg.SCH_CTRL_GROUP_MS) ≤ s.stamp then s.groupDecide c g false else s
      | some yes =>
        let left := x.undelivered.filter fun m => !read.contains m
        left.foldl (fun t m => t.modSrv fun v =>
          { v with grpSent := v.grpSent ++ [(c, m, groupRecord (if yes then s.heatOf c - 1 else s.heatOf c) g.me (if yes then 3 else 4)
                                              (s.get (Reg.SCH_CTX_STATE_REPLAY c)))] })
          (s.modServe c fun y => { y with undelivered := left })

def execGroupVoteTimeout (c : Fin 64) (read : List (Fin 64)) (s : State) : Host.Outcome State Fault Refusal :=
  answer (s.groupTimeout c (read.map (·.val)))

/-- A member that has lost its leader reads the other members' decision words, each as its bytes or no answer (R422). -/
def State.wordsRead (s : State) (c : Nat) (answers : List (Option (List Byte))) : State :=
  let told (what : Nat) : Bool := answers.any fun a => match a with
    | some b => leAt b 0 8 == s.heatOf c && leAt b 9 1 == what
    | none => false
  if s.ctxState c ≠ ctxVoted ∨ (s.serve c).groupLost = false then s
  else if told 3 then s.decided c true
  else if told 4 then s.decided c false
  else if answers.all Option.isSome then s.decided c false
  else s

/-- LEADER_LOST: a member still VOTED after 16 × GROUP_MS, whose requests to the leader's device fail, records the loss and reads the decision
words (R422). Log entry 101 (DESIGN CHOICE, unsafe). -/
def State.leaderLost (s : State) (c : Nat) (answers : List (Option (List Byte))) : State :=
  match ((s.serve c).load).bind (·.group) with
  | none => s
  | some g =>
    if g.me = g.leader ∨ s.ctxState c ≠ ctxVoted ∨ (s.serve c).groupLost = true ∨
        s.stamp < (s.serve c).votedAt + ticksOfMs (16 * s.get Reg.SCH_CTRL_GROUP_MS) then s
    else (((s.modServe c fun x => { x with groupLost := true }).ctxFault 14 (s.coreOf (s.homeQ c)) c Flt.GROUP_LOST (s.heatOf c))).wordsRead c answers

def execLeaderLost (c : Fin 64) (answers : List (Option (List Byte))) (s : State) : Host.Outcome State Fault Refusal :=
  answer (s.leaderLost c answers)

def execDecisionWordPoll (c : Fin 64) (answers : List (Option (List Byte))) (s : State) : Host.Outcome State Fault Refusal :=
  answer (s.wordsRead c answers)

/-! Engine time and buckets (R408 to R410). -/

/-- BUSY_CHARGE: one Field-step in which agents of the slots in `active` are busy. Each of their partitions is charged once; a unit is 64
steps. -/
def State.busyCharge (s : State) (p active : Nat) : State :=
  let slots := (List.range 4).filter fun k => bit active k && (s.ctxOf p k).isSome
  let parts := (slots.map fun k => s.get (Reg.FLD_CTX_MAP_PART p k)).eraseDups
  let t := parts.foldl (fun t part =>
    let n := Tab.get (fun _ => 0) t.srv.rem (16 * p + part) + 1
    if n < 64 then t.modSrv fun v => { v with rem := Tab.set (fun _ => 0) v.rem (16 * p + part) n }
    else
      let q := 16 * quadOfField p + part
      (t.setPair (Reg.aSCH_BUSY_LO part) ((t.pair (Reg.aSCH_BUSY_LO part) + 1) % 2 ^ 64)).modSrv fun v =>
        { v with rem := Tab.set (fun _ => 0) v.rem (16 * p + part) 0,
                 charge := Tab.set (fun _ => 0) v.charge q (Tab.get (fun _ => 0) v.charge q + 1) }) s
  slots.foldl (fun t k =>
    let key := 64 * groupOfField p + (s.ctxOf p k).getD 0
    t.modSrv fun v => { v with busy := Tab.set (fun _ => 0) v.busy key (Tab.get (fun _ => 0) v.busy key + 1) }) t

def execBusyCharge (p : Fin 72) (active : Fin 16) (s : State) : Host.Outcome State Fault Refusal := answer (s.busyCharge p active)

/-- BUCKET_REFILL: 128 oscillator periods have passed: the bucket gains RATE bytes, up to its depth (R410). -/
def State.bucketRefill (s : State) (p b : Nat) : State :=
  let n := min (s.get (Reg.FLD_BW_CFG_DEPTH p b) * 4096) (s.bucket p b + s.get (Reg.FLD_BW_CFG_RATE p b))
  s.modField p fun f => { f with buckets := Tab.set (fun _ => 0) f.buckets b n }

def execBucketRefill (p : Fin 72) (b : Fin 8) (s : State) : Host.Outcome State Fault Refusal := answer (s.bucketRefill p b)

/-! Clearing a slot (R404). -/

/-- Discard every entry of a slot that waits in a queue of its Field, without a record or an arrival (R404). Log entry 94 (DESIGN CHOICE, unsafe). -/
def State.dropQueued (s : State) (p slot : Nat) : State :=
  let t := s.modField p fun f =>
    { f with ma0 := { f.ma0 with queue := f.ma0.queue.filter (·.slot != slot) }, ma1 := { f.ma1 with queue := f.ma1.queue.filter (·.slot != slot) },
             ve := { f.ve with queue := f.ve.queue.filter (·.slot != slot) }, re := { f.re with queue := f.re.queue.filter (·.slot != slot) },
             dmas := f.dmas.map fun d => (d.1, { d.2 with queue := d.2.queue.filter (·.slot != slot) }),
             grid := { f.grid with walkQ := f.grid.walkQ.filter (·.slot != slot), reconfQ := f.grid.reconfQ.filter (·.1.slot != slot) } }
  let u := (List.range 4).foldl (fun t e => t.dmaShow p e) (((t.seqShow p).engShow p 0).engShow p 1)
  (u.walkShow p).reconfShow p

/-- CTX_MAP_WRITE: a write to FLD_CTX_MAP; clearing VALID discards what the slot has queued (R404), and a slot that comes to hold another context, or
none, keeps no vector registers (R165). -/
def State.ctxMapWrite (s : State) (p k v : Nat) : State :=
  let t := s.puts [(Reg.FLD_CTX_MAP_CTX_ID p k, bits v 5 0), (Reg.FLD_CTX_MAP_PART p k, bits v 9 6), (Reg.FLD_CTX_MAP_VALID p k, bits v 10 10)]
  let u := if s.on (Reg.FLD_CTX_MAP_VALID p k) && !bit v 10 then t.dropQueued p k else t
  if u.ctxOf p k = s.ctxOf p k then u else u.vregsClear p k

def execCtxMapWrite (p : Fin 72) (k : Fin 4) (value : Word) (s : State) : Host.Outcome State Fault Refusal :=
  answer (s.ctxMapWrite p k value.toNat)

end Sys2Proof.Machine
end

