-- ==== Sys2Proof/Machine/Power.lean ====
section
/-!
DEFINITION. Power and thermal control (chapter 18): domains, the power manager's action, grants, energy, the regulator alert, trips and
comparator 5.
-/

namespace Sys2Proof.Machine

/-- Does firmware run on the control cores (Order 6 of Table 19-9)? Log entry 128 (DESIGN CHOICE, safe). -/
def State.fwRuns (s : State) : Bool := decide (6 ≤ s.get Reg.CFG_BOOT_STATUS_PHASE)

/-- A fault that the power manager records. It runs on the control core of Q0. -/
def State.pwrFault (s : State) (code detail : Nat) : State := s.partFault 14 (s.coreOf 0) code detail

/-- The physical Fields of a quadrant and of a Field group. -/
def quadFields (q : Nat) : List Nat := (List.range 18).map (18 * q + ·)
def groupFields (g : Nat) : List Nat := (List.range 9).map (18 * (g / 2) + 9 * (g % 2) + ·)

/-! Domains (R429 to R431). -/

/-- Set or clear the bit of a domain in a pair of registers. -/
def State.domPut (s : State) (reg : Nat → Nat) (n : Nat) (on : Bool) : State :=
  let w := s.rdN (reg (n / 32))
  let b := 2 ^ (n % 32)
  s.setReg (reg (n / 32)) (BitVec.ofNat 32 (w - (w &&& b) + (if on then b else 0)))

/-- Is a domain requested on? -/
def State.domAsked (s : State) (n : Nat) : Bool := bit (s.rdN (Reg.aPWR_DOM_REQ (n / 32))) (n % 32)

/-- Does a context of the part map memory of a stack (R318)? Log entry 109 (DEDUCED, unsafe). -/
def State.stackMapped (s : State) (k : Nat) : Bool :=
  let lo := s.deviceId * 2 ^ 41 + k * stackSize
  (List.range 64).any fun c => s.on (Reg.XLT_CTX_ROOT_EN c) &&
    (s.leavesAt 3 1 (s.get (Reg.XLT_CTX_ROOT_ROOT c) * 2 ^ 21) 0).any fun l => decide (l.frame < lo + stackSize ∧ lo < l.frame + l.size)

/-- The condition for OFF of a domain (Table 18-1). Log entry 109 (DEDUCED, unsafe). -/
def State.mayTurnOff (s : State) (n : Nat) : Bool :=
  if n < 32 then !s.stackMapped n
  else if n < 40 then (groupFields (n - 32)).all fun p => (List.range 4).all fun k => !s.on (Reg.FLD_CTX_MAP_VALID p k)
  else if n < 44 then s.get (Reg.QPL_PORT_CTRL_MODE (n - 40)) == 0
  else if n = 44 then !s.on Reg.ETH_PORT_CTRL_EN
  else if n < 49 then s.openRoutes.all fun r => r.2.all fun d => d / 2 != n - 45
  else false

/-- What a Field of a group that loses its supply holds is lost; a trip's stop and an alert's clamp stay (R431, R541). Log entry 108 (DEDUCED, unsafe). -/
def State.fieldOff (s : State) (p : Nat) : State :=
  let x := (s.field p).pacer
  let lo := 0x2000000 + 0x100000 * p
  let t := s.setField p { FieldState.reset with pacer := { FieldState.reset.pacer with stopped := x.stopped, clamp := x.clamp } }
  let away (a : Nat) : Bool := decide (a < lo ∨ lo + 0x100000 ≤ a)
  { ((t.mzero (fmLoc p 0) (2 ^ 24)).mzero (muLoc p 0 0) (2 ^ 22)) with
      regs := t.regs.filter fun e => away e.1, holds := t.holds.filter fun e => away (e.1 % 2 ^ 27) }

/-- The column maps of a Field from the spare map; 0xFF names no column (R541, R498). -/
def State.fieldLoad (s : State) (p : Nat) : State :=
  [0, 1].foldl (fun (t : State) a =>
    let u : State := match s.nv.map.regs.find? fun e => e.1 == Reg.aFLD_MA_COLMAP p a with
      | some e => t.setReg e.1 e.2
      | none => t.puts [(Reg.FLD_MA_COLMAP_RETIRED_A p a, 0xFF), (Reg.FLD_MA_COLMAP_RETIRED_B p a, 0xFF)]
    u.colsShow p a) s

/-- The same, and retirements that waited take effect where no heat runs on the Field (R110). -/
def State.fieldOn (s : State) (p : Nat) : State :=
  let t := s.fieldLoad p
  if t.fieldInHeat p then t.colsPending p else t.colsApply p

/-- A domain turns off. -/
def State.domOff (s : State) (n : Nat) : State :=
  let t := s.domPut Reg.aPWR_DOM_STATE n false
  if n < 32 then t.stackOff n
  else if n < 40 then
    let u := (groupFields (n - 32)).foldl State.fieldOff t
    u.modBoard fun b => { b with released := b.released - (b.released &&& 2 ^ (n - 32)) }
  else if 45 ≤ n ∧ n < 49 then
    [2 * (n - 45), 2 * (n - 45) + 1].foldl (fun u d => u.puts [(Reg.SEAM_DIR_STATUS_DOMAIN_ON d, 0), (Reg.SEAM_DIR_STATUS_LINK_UP d, 0)]) t
  else t

/-- A domain is ready: a stack zeroed, a Field group loaded with its NV fields and, once RELEASE_GRID has run, out of set-reset. Log entry 110 (DESIGN CHOICE, unsafe). -/
def State.domOn (s : State) (n : Nat) : State :=
  let t := s.domPut Reg.aPWR_DOM_STATE n true
  if n < 32 then t.stackOn n
  else if n < 40 then
    let u := (groupFields (n - 32)).foldl State.fieldOn t
    if u.board.gridStarted then u.modBoard fun b => { b with released := b.released ||| 2 ^ (n - 32) } else u
  else if 45 ≤ n ∧ n < 49 then
    [2 * (n - 45), 2 * (n - 45) + 1].foldl (fun u d => u.puts [(Reg.SEAM_DIR_STATUS_DOMAIN_ON d, 1),
      (Reg.SEAM_DIR_STATUS_LINK_UP d, b2n (!u.plane.routesAway.contains d))]) t
  else t

/-- One bit of a write to PWR_DOM_REQ (R430). Log entry 109 (DEDUCED, unsafe). -/
def State.domRequest (s : State) (n : Nat) (on : Bool) : State :=
  if 49 ≤ n then s
  else if on then s.domPut Reg.aPWR_DOM_REQ n true
  else if !s.domAsked n then s
  else if s.mayTurnOff n then (s.domPut Reg.aPWR_DOM_REQ n false).domOff n
  else s.puts [(Reg.PWR_DOM_ERR_DOMAIN, n), (Reg.PWR_DOM_ERR_REFUSED, 1)]

/-- DOM_REQ_WRITE: each domain of the word in turn; domain 49 reads 1 and ignores writes. -/
def State.domReqWrite (s : State) (w v : Nat) : State := (List.range 32).foldl (fun t i => t.domRequest (32 * w + i) (bit v i)) s

def execDomReqWrite (w : Fin 2) (value : Word) (s : State) : Host.Outcome State Fault Refusal := answer (s.domReqWrite w value.toNat)

/-- DOMAIN_READY: a domain that is requested on and was off completes its power-on. -/
def State.domainReady (s : State) (n : Nat) : State :=
  if s.domAsked n && !s.domReady n && s.board.rails then s.domOn n else s

def execDomainReady (n : Fin 50) (s : State) : Host.Outcome State Fault Refusal := answer (s.domainReady n)

/-- DOMAIN_FAIL: a domain that is not ready in ten times its typical time; its request stays. -/
def State.domainFail (s : State) (n : Nat) : State :=
  if s.domAsked n && !s.domReady n then
    (s.puts [(Reg.PWR_DOM_ERR_DOMAIN, n), (Reg.PWR_DOM_ERR_FAILED, 1)]).pwrFault Flt.PWR_DOMAIN n
  else s

def execDomainFail (n : Fin 50) (s : State) : Host.Outcome State Fault Refusal := answer (s.domainFail n)

/-! Trips as the power manager sees them. -/

/-- The trip state of a quadrant. -/
def TripState.reset : TripState := { stopped := false, byRail := false, byExt := false, final := false, stamps := [] }
def State.trip (s : State) (q : Nat) : TripState := Tab.get (fun _ => TripState.reset) s.power.trips q
def State.setTrip (s : State) (q : Nat) (x : TripState) : State :=
  s.modPower fun v => { v with trips := Tab.set (fun _ => TripState.reset) v.trips q x }

/-- Does a quadrant's grid have its supply: not tripped, with a Field group on? -/
def State.quadLive (s : State) (q : Nat) : Bool := !(s.trip q).stopped && (s.domReady (32 + 2 * q) || s.domReady (33 + 2 * q))

/-! Points (R432 to R435). -/

/-- The minimum rate of an operating point in M steps/s (Table 2-1). Log entry 132 (DEDUCED, unsafe). -/
def minRate : Nat → Nat | 0 => 665 | 1 => 810 | 2 => 920 | 3 => 1030 | 4 => 1190 | 5 => 1260 | 6 => 1330 | _ => 1380

/-- The fixed-rate floor of a quadrant, where it has one (R434). Log entry 132 (DEDUCED, unsafe). -/
def State.floorOf (s : State) (q : Nat) : Option Nat :=
  let rates := ((quadFields q).filter fun p => s.on (Reg.FLD_PACER_CTRL_FIXED_EN p)).map fun p => rateOf (s.get (Reg.FLD_PACER_CTRL_RATE_CODE p))
  rates.max?.map fun r => ((List.range 8).find? fun op => decide (r ≤ minRate op)).getD 7

/-- Point in force, ceiling, and the point R436 aims at. -/
def State.opOf (s : State) (q : Nat) : Nat := s.get (Reg.PWR_Q_STATUS_OP q)
def State.ceilingOf (s : State) (q : Nat) : Nat := s.get (Reg.PWR_Q_STATUS_CEILING q)
def State.targetOf (s : State) (q : Nat) : Nat := min (s.ceilingOf q) (max (s.get (Reg.PWR_Q_PREF_PREF q)) ((s.floorOf q).getD 0))

/-- Does an alert's clamp hold on some Field? -/
def State.clamped (s : State) : Bool := (List.range 72).any fun p => (s.field p).pacer.clamp != 0

/-- A point step (R435): the supply first; a clamp goes once the quadrant is at OP1 (R443). -/
def State.pointStep (s : State) (q op : Nat) : State :=
  let t := s.put (Reg.PWR_Q_STATUS_OP q) op
  if t.power.alert || op = 0 then t
  else
    let u := (quadFields q).foldl (fun (u : State) p => u.modPacer p fun x => { x with clamp := 0 }) t
    if u.clamped then u else u.put Reg.PWR_STATUS_ALERT_ACTIVE 0

/-- The rank of Table 18-3 that decides a quadrant's point; 0 where it is off. -/
def State.limiter (s : State) (q : Nat) : Nat :=
  let op := s.opOf q
  let pref := s.get (Reg.PWR_Q_PREF_PREF q)
  let fl := (s.floorOf q).getD 0
  if (s.trip q).stopped then 1
  else if !s.quadLive q then 0
  else if s.power.alert then 2
  else if s.ceilingOf q < max pref fl ∧ s.ceilingOf q ≤ op then 3
  else if (s.floorOf q).isSome ∧ op = fl ∧ op ≠ pref then 4
  else if op < s.targetOf q then 5
  else 6

/-- Show what sets the points. Log entry 132 (DEDUCED, unsafe). -/
def State.pointShow (s : State) : State :=
  (List.range 4).foldl (fun t q =>
    t.puts [(Reg.PWR_Q_STATUS_FLOOR q, (t.floorOf q).getD 0), (Reg.PWR_Q_STATUS_HAS_FLOOR q, b2n (t.floorOf q).isSome),
      (Reg.PWR_Q_STATUS_LIMITER q, t.limiter q)]) s

/-! The budget (R436 to R439). -/

/-- The budget that limits, grant and default give, in mW. -/
def State.budget (s : State) : Nat :=
  min 700000 (min (1000 * s.get Reg.PWR_LIMIT_LIMIT_W) (s.power.grant.getD (1000 * s.get Reg.PWR_LIMIT_DEFAULT_GRANT_W)))

/-- Put the budget in force. -/
def State.budgetSet (s : State) : State :=
  let l := s.budget
  (s.put Reg.PWR_STATUS_L_W (l / 1000)).modPower fun v => { v with lMw := l }

/-- Is a power in tenths of a watt at or below Lm = 0.98 L? -/
def State.within (s : State) (w : Nat) : Bool := decide (w * 10000 ≤ 98 * s.power.lMw)

/-- The temperature of a quadrant moves its thermal ceiling (R444). -/
def State.ceilingStep (s : State) (q tj : Nat) : State :=
  let t := s.put (Reg.PWR_Q_STATUS_TJ_C q) tj
  let cool (t : State) (n : Nat) : State := t.modPower fun v => { v with coolRuns := Tab.set (fun _ => 0) v.coolRuns q n }
  if 105 ≤ tj then
    let c := t.ceilingOf q
    let u := cool (t.put (Reg.PWR_Q_STATUS_CEILING q) (c - 1)) 0
    if c = 7 then u.pwrFault Flt.THERM_THROTTLE q else u
  else if tj < 100 then
    let n := Tab.get (fun _ => 0) t.power.coolRuns q + 1
    if n < 100 then cool t n else cool (t.put (Reg.PWR_Q_STATUS_CEILING q) (min 7 (t.ceilingOf q + 1))) 0
  else cool t 0

/-- The highest share that heat leaves a stack (R437). Log entry 104 (DESIGN CHOICE, safe). -/
def State.shareCap (s : State) (k : Nat) : Nat :=
  if 100 ≤ s.get (Reg.STK_THERMAL_TEMP_C k) then 4 else if bit s.power.hot k then 8 else 16

/-- Set the share of a stack, within its cap. Log entry 105 (DEDUCED, unsafe). -/
def State.shareSet (s : State) (k v : Nat) : State := s.put (Reg.STK_THROTTLE_SHARE k) (min v (s.shareCap k))

/-- Move every stack's share by one. -/
def State.sharesDown (s : State) : State :=
  (List.range 32).foldl (fun t k => t.shareSet k (max 1 (t.get (Reg.STK_THROTTLE_SHARE k) - 1))) s
/-- Log entry 104 (DESIGN CHOICE, safe). -/
def State.sharesUp (s : State) : State :=
  (List.range 32).foldl (fun t k => t.shareSet k (t.get (Reg.STK_THROTTLE_SHARE k) + 1)) s

/-- What the power manager reads (R444, R550, R560): power, estimates, temperatures, and AVSBus frames that have failed twice. Log entry 106 (DESIGN CHOICE, unsafe). -/
def State.powerRead (s : State) (r : PowerReading) : State :=
  let rs := (r.p100.val :: s.power.readings).take 10
  let t := (s.puts [(Reg.PWR_AVG_LAST_100US, r.p100), (Reg.PWR_AVG_AVG_1MS, rs.sum / rs.length)]).modPower fun v =>
    { v with readings := rs, wantMw := r.wantMw, floorMw := r.floorMw, waitFrac := r.waitFrac,
             avsFail := (List.range 9).foldl (fun (a : Nat) k => if r.avsFail.any (·.val == k) then a + 2 ^ k else a) 0 }
  let t := r.avsFail.foldl (fun t k => t.pwrFault Flt.PWR_DOMAIN k) t
  let t := (r.tj.take 4).zipIdx.foldl (fun t x => t.ceilingStep x.2 x.1) t
  (List.range 32).foldl (fun t k => t.shareSet k (t.get (Reg.STK_THROTTLE_SHARE k))) t

/-- The first of a list of quadrants that no other comes before. -/
def firstBy (before : Nat → Nat → Bool) : List Nat → Option Nat
  | [] => none
  | q :: qs => match firstBy before qs with
    | some b => some (if before b q then b else q)
    | none => some q

/-- Power is above Lm: a quadrant down, or every stack's share down, or RATE_HELD (R436, R438). Log entry 104 (DESIGN CHOICE, safe). -/
def State.overBudget (s : State) (r : PowerReading) (may : List Nat) : State :=
  let cand := may.filter fun q => decide ((s.floorOf q).getD 0 < s.opOf q)
  let ex (q : Nat) : Nat := r.excess.getD q 0
  match firstBy (fun a b => decide (s.opOf b < s.opOf a) || (s.opOf a == s.opOf b && decide (ex b < ex a))) cand with
  | some q => s.pointStep q (s.opOf q - 1)
  | none =>
    if (List.range 32).any fun k => decide (1 < s.get (Reg.STK_THROTTLE_SHARE k)) then s.sharesDown
    else if s.on Reg.PWR_STATUS_RATE_HELD then s
    else (s.put Reg.PWR_STATUS_RATE_HELD 1).pwrFault Flt.PWR_RATE_HELD 0

/-- Power is at or below Lm: every stack's share up, or a quadrant up, where the estimate stays within (R436). Log entry 104 (DESIGN CHOICE, safe). -/
def State.underBudget (s : State) (r : PowerReading) (may : List Nat) : State :=
  let room (w : Nat) : Bool := s.within (r.p100.val + w)
  if ((List.range 32).any fun k => decide (s.get (Reg.STK_THROTTLE_SHARE k) < s.shareCap k)) && room r.stackStep then s.sharesUp
  else
    let cand := may.filter fun q => decide (s.opOf q < s.targetOf q) && room (r.quadStep.getD q 0)
    let ex (q : Nat) : Nat := r.excess.getD q 0
    match firstBy (fun a b => decide (s.opOf a < s.opOf b) || (s.opOf a == s.opOf b && decide (ex a < ex b))) cand with
    | some q => s.pointStep q (s.opOf q + 1)
    | none => s

/-- The loop of R436. -/
def State.powerLoop (s : State) (r : PowerReading) : State :=
  let may := (List.range 4).filter fun q => s.quadLive q && !bit s.power.avsFail q
  let down := may.filter fun q => decide (s.targetOf q < s.opOf q)
  let t := down.foldl (fun t q => t.pointStep q (t.opOf q - 1)) s
  if t.within r.p100 then t.underBudget r may else t.overBudget r (may.filter fun q => !down.contains q)

/-- RATE_HELD clears after 10 ms, 100 actions, at or below Lm (R438). -/
def State.heldClear (s : State) (p100 : Nat) : State :=
  let n := if s.within p100 then s.power.belowRuns + 1 else 0
  let t := s.modPower fun v => { v with belowRuns := n }
  if 100 ≤ n then t.put Reg.PWR_STATUS_RATE_HELD 0 else t

/-- POWER_MANAGER_ACTION. -/
def State.powerAction (s : State) (r : PowerReading) : State :=
  if !s.fwRuns then s
  else
    let t := (s.powerRead r).budgetSet
    let t := if t.power.alert || !t.on Reg.PWR_CTRL_EN then t else t.powerLoop r
    (t.heldClear r.p100).pointShow

def execPowerManagerAction (r : PowerReading) (s : State) : Host.Outcome State Fault Refusal := answer (s.powerAction r)

/-- The answer body of Table 18-5. Log entry 106 (DESIGN CHOICE, unsafe). -/
def State.powerBody (s : State) : List Byte :=
  let v := s.power
  let flags := s.get Reg.PWR_STATUS_RATE_HELD + 2 * s.get Reg.PWR_STATUS_ALERT_ACTIVE +
    4 * b2n ((List.range 4).any fun q => decide (s.ceilingOf q < 7)) + 8 * b2n v.expired + 16 * b2n v.grantSeq.isNone
  leBytes 2 (v.grantSeq.getD 0) ++ leBytes 2 flags ++ leBytes 4 v.lMw ++ leBytes 4 (100 * s.get Reg.PWR_AVG_AVG_1MS) ++ leBytes 4 v.wantMw ++
    leBytes 4 v.floorMw ++ leBytes 2 v.waitFrac ++ leBytes 2 0

/-- What a POWER_GRANT body does (R439): its status, and the state after it. Log entry 32 (DEDUCED, unsafe). -/
def State.powerGrant (s : State) (b : List Byte) : State × Nat × List Byte :=
  let mw := leAt b 0 4
  let ttl := leAt b 4 4
  let seq := leAt b 8 2
  if b.length ≠ 16 ∨ leAt b 10 6 ≠ 0 ∨ mw < 250000 ∨ 700000 < mw ∨ ttl < 100 ∨ 60000 < ttl then (s, stMalformed, [])
  else
    let newer := match s.power.grantSeq with
      | none => true
      | some l => decide (1 ≤ (seq + 65536 - l) % 65536 ∧ (seq + 65536 - l) % 65536 ≤ 32767)
    let t := if newer then s.modPower fun v => { v with grant := some mw, ttlMs := ttl, grantAt := s.stamp, grantSeq := some seq, expired := false } else s
    (t, stOk, t.powerBody)

/-- GRANT_EXPIRY: a grant that has not been renewed within its TTL_MS. Log entry 97 (DESIGN CHOICE, unsafe). -/
def State.grantExpiry (s : State) : State :=
  if s.power.grant.isSome ∧ s.power.grantAt + ticksOfMs s.power.ttlMs ≤ s.stamp then
    (((s.modPower fun v => { v with grant := none, grantSeq := none, expired := true }).put Reg.PWR_STATUS_GRANT_EXPIRED 1).budgetSet).pwrFault
      Flt.PWR_GRANT_EXPIRED 0
  else s

def execGrantExpiry (s : State) : Host.Outcome State Fault Refusal := answer s.grantExpiry

/-- POWER_RECORD: the answer body as a record of the telemetry stream. Log entry 106 (DESIGN CHOICE, unsafe). -/
def execPowerRecord (s : State) : Host.Outcome State Fault Refusal :=
  answer (if s.fwRuns then s.logRec 1 (srcOf 5 (s.coreOf 0)) none (.power (s.powerBody ++ List.replicate 8 0)) else s)

/-! Energy (R440, R441). -/

/-- Charge energy in pJ to a counter with its remainder; the whole µJ charged. Log entry 107 (DESIGN CHOICE, safe). -/
def State.energyAdd (s : State) (key pj : Nat) : State × Nat :=
  let e := Tab.get (fun _ => 0) s.power.remPj key + pj
  (s.modPower fun v => { v with remPj := Tab.set (fun _ => 0) v.remPj key (e % 10 ^ 6) }, e / 10 ^ 6)

/-- Add whole µJ to a 64-bit counter. -/
def State.energyCount (s : State) (lo uj : Nat) : State := s.setPair lo ((s.pair lo + uj) % 2 ^ 64)

/-- ENERGY_ATTRIBUTION: `total` nJ measured in the interval, of which `groups` are the shares of the eight Field groups. A group's share goes to
contexts by their busy Field-steps there, stack energy at 1.25 pJ/bit to the contexts charged, and the rest to the unattributed counter. Log entry 107 (DESIGN CHOICE, safe). -/
def State.energyAttribute (s : State) (total : Nat) (groups : List Nat) : State :=
  let busy (g c : Nat) : Nat := Tab.get (fun _ => 0) s.srv.busy (64 * g + c)
  let all (g : Nat) : Nat := (List.range 64).foldl (fun a c => a + busy g c) 0
  let share (c : Nat) : Nat := (groups.take 8).zipIdx.foldl (fun a x =>
    if all x.2 = 0 then a else a + 1000 * x.1 * busy x.2 c / all x.2) (10 * Tab.get (fun _ => 0) s.srv.stackBytes c)
  let sum := (List.range 64).foldl (fun a c => a + share c) 0
  let t := (List.range 64).foldl (fun t c =>
    if share c = 0 then t
    else
      let (u, uj) := t.energyAdd c (share c)
      (u.energyCount (Reg.aPWR_E_STREAM_LO c) uj).energyCount (Reg.aPWR_E_PART_LO (s.partOf c)) uj) s
  let (u, uj) := t.energyAdd 64 (1000 * total - sum)
  (u.energyCount Reg.aPWR_E_UNATTR_LO uj).modSrv fun v => { v with busy := [], stackBytes := [] }

def execEnergyAttribution (total : Nat) (groups : List Nat) (s : State) : Host.Outcome State Fault Refusal :=
  answer (s.energyAttribute total groups)

/-! The regulator alert (R442, R443). -/

/-- The path of R442: every pacer clamped, every quadrant at OP0, every stack at its ALERT_SHARE. -/
def State.alertOn (s : State) : State :=
  if s.power.alert then s
  else
    let t := (List.range 72).foldl (fun (t : State) p =>
      (t.modPacer p fun x => { x with clamp := 700 }).rateDisturbed p 700) s
    let t := (List.range 4).foldl (fun (t : State) q => t.put (Reg.PWR_Q_STATUS_OP q) 0) t
    let t := (List.range 32).foldl (fun (t : State) k => t.put (Reg.STK_THROTTLE_ALERT_ACTIVE k) 1) t
    let t := ((t.put Reg.PWR_STATUS_ALERT_ACTIVE 1).modPower fun v => { v with alert := true, alertSince := s.stamp }).pointShow
    if t.fwRuns then t.pwrFault Flt.PWR_ALERT 0 else t

/-- The alert has ended: the loop raises points and shares step by step; the clamps stay until a quadrant is at OP1 (R443). Log entry 105 (DEDUCED, unsafe). -/
def State.alertOff (s : State) : State :=
  if !s.power.alert || s.board.alertPin || s.board.alertExt then s
  else
    let t := (List.range 32).foldl (fun (t : State) k =>
      (t.put (Reg.STK_THROTTLE_ALERT_ACTIVE k) 0).shareSet k (min (t.get (Reg.STK_THROTTLE_SHARE k)) (t.get (Reg.STK_THROTTLE_ALERT_SHARE k)))) s
    (t.modPower fun v => { v with alert := false }).pointShow

/-- Is the part out of reset? -/
def State.outOfReset (s : State) : Bool := s.board.held.isNone

/-- REG_ALERT_ASSERT. -/
def State.regAlert (s : State) : State :=
  let t := s.modBoard fun b => { b with alertPin := true }
  if t.outOfReset && t.board.vbr then t.alertOn else t

def execRegAlertAssert (s : State) : Host.Outcome State Fault Refusal := answer s.regAlert

/-- ALERT_ESCALATE: the alert lasts beyond 10 ms, and its alarm is raised to MAJ. -/
def execAlertEscalate (s : State) : Host.Outcome State Fault Refusal :=
  answer (if s.power.alert ∧ s.power.alertSince + ticks10ms ≤ s.stamp then s.alarm 1 Flt.PWR_ALERT (srcOf 5 (s.coreOf 0)) none else s)

/-- REG_ALERT_DEASSERT: REG_ALERT_N has been deasserted for 100 µs. -/
def execRegAlertDeassert (s : State) : Host.Outcome State Fault Refusal :=
  answer (s.modBoard fun b => { b with alertPin := false }).alertOff

/-! Trips (R446, R447, R554). -/

/-- Contexts with a Field on a quadrant. -/
def State.ctxsOn (s : State) (q : Nat) : List Nat :=
  s.loaded.filter fun c => match (s.serve c).load with
    | some d => d.decl.fields.any fun f => f.1.val / 16 == q
    | none => false

/-- The reason of a hold by a stopped quadrant. Log entry 108 (DEDUCED, unsafe). -/
def holdTrip (q : Nat) : Nat := 128 + q

/-- An hour in Bedrock periods. -/
def ticks1h : Nat := 3600 * ticks1s

/-- A quadrant stops as Table 18-7 states, from Order 2 on: pacers, FAULT_N, the record, the heats, the Field groups and OP0. A third stop
within one hour leaves it off and returns the sequences of its contexts. Log entry 108 (DEDUCED, unsafe). -/
def State.tripQuad (s : State) (q code : Nat) (rail ext : Bool) : State :=
  let x := s.trip q
  if x.stopped then s.setTrip q { x with byRail := x.byRail || rail, byExt := x.byExt || ext }
  else
    let stamps := (x.stamps.filter fun t => decide (s.stamp < t + ticks1h)) ++ [s.stamp]
    let final := decide (3 ≤ stamps.length)
    let t := (quadFields q).foldl (fun (t : State) p => t.modPacer p fun y => { y with stopped := true }) s
    let t := ((t.modBoard fun b => { b with faultHold := b.faultHold ||| 2 ^ (1 + q) }).setTrip q
      { stopped := true, byRail := rail, byExt := ext, final := final, stamps := stamps }).put (Reg.PWR_Q_STATUS_TRIPPED q) 1
    let t := t.partFault 14 (t.coreOf q) code q
    let cs := t.ctxsOn q
    let t := cs.foldl (fun (t : State) c =>
      let u := t.holdAt c (holdTrip q)
      if u.inHeat c && (u.serve c).swapped == 0 then ((u.modServe c fun y => { y with tripped := true }).uncommitAs c 1 code).heatAbandon c else u) t
    let t := if final then
        cs.foldl (fun (t : State) c => (t.openReqs c).foldl (fun t r => t.reqFinal r stRejected) t)
          (t.modSrv fun v => { v with offQuads := q :: v.offQuads.filter (· != q) })
      else t
    let t := [32 + 2 * q, 33 + 2 * q].foldl (fun (t : State) n => (t.domPut Reg.aPWR_DOM_REQ n false).domOff n) t
    (t.put (Reg.PWR_Q_STATUS_OP q) 0).pointShow

/-- A comparator crosses its threshold: LIVE and LATCHED. -/
def State.cmpCross (s : State) (n : Nat) : State :=
  s.puts [(Reg.BRK_CMP_STATUS_LIVE, s.get Reg.BRK_CMP_STATUS_LIVE ||| 2 ^ n), (Reg.BRK_CMP_STATUS_LATCHED, s.get Reg.BRK_CMP_STATUS_LATCHED ||| 2 ^ n)]

/-- A comparator is back within its threshold. -/
def State.cmpBack (s : State) (n : Nat) : State :=
  s.put Reg.BRK_CMP_STATUS_LIVE (s.get Reg.BRK_CMP_STATUS_LIVE - (s.get Reg.BRK_CMP_STATUS_LIVE &&& 2 ^ n))

/-- OVER_TEMPERATURE_TRIP: comparator q crosses its threshold. -/
def execOverTemperatureTrip (q : Fin 4) (s : State) : Host.Outcome State Fault Refusal :=
  answer (if s.outOfReset then (s.cmpCross q).tripQuad q Flt.THERM_TRIP false false else s)

/-- What a context holds on the Fields of a quadrant is loaded again: registers, blocks and the legs of its variant (Table 18-7, Order 7). Log entry 108 (DEDUCED, unsafe). -/
def State.reloadOn (s : State) (q c : Nat) : State :=
  match (s.serve c).load with
  | none => s
  | some d =>
    let here (f : Fin 64) : Bool := f.val / 16 == q
    let only : CtxLoad :=
      { d with regs := d.regs.filter fun r => here r.1, legs := d.legs.filter fun l => here l.2.lfield, blocks := d.blocks.filter fun b => here b.2.1 }
    let t := only.regs.foldl (fun (t : State) r => match t.physOf r.1 with
      | some p => t.setReg (0x2000000 + 0x100000 * p + r.2.1) (definedBits (0x2000000 + 0x100000 * p + r.2.1) r.2.2)
      | none => t) s
    let t := (d.decl.fields.filter fun f => here f.1).foldl (fun (t : State) f => match t.physOf f.1 with
      | some p => (t.puts [(Reg.FLD_CTX_MAP_CTX_ID p f.2, c), (Reg.FLD_CTX_MAP_PART p f.2, d.decl.part), (Reg.FLD_CTX_MAP_VALID p f.2, 1),
          (Reg.FLD_CTX_MAP_SCHED p f.2, 0), (Reg.FLD_CTX_MAP_IN_HEAT p f.2, 0)]).bucketSet p d.decl.part
      | none => t) t
    let v := (s.serve c).variant
    let mine (n : Nat) : Bool := match d.decl.variants[v]? with
      | some x => x.legs.contains n || x.macros.contains n
      | none => false
    let other (n : Nat) : Bool := d.decl.variants.any fun x => x.legs.contains n || x.macros.contains n
    (t.placeSections only fun n => mine n || !other n).divideRates d.decl.part

/-- A stopped quadrant comes back: its groups on, its contexts loaded, FAULT_N released; heats that wait are replayed. Log entry 108 (DEDUCED, unsafe). -/
def State.quadRestore (s : State) (q : Nat) : State :=
  let t := (quadFields q).foldl (fun (t : State) p => t.modPacer p fun y => { y with stopped := false }) s
  let t := [32 + 2 * q, 33 + 2 * q].foldl (fun (t : State) n => (t.domPut Reg.aPWR_DOM_REQ n true).domOn n) t
  let t := (t.modBoard fun b => { b with faultHold := b.faultHold - (b.faultHold &&& 2 ^ (1 + q)) }).setTrip q
    { t.trip q with stopped := false, byRail := false, byExt := false, final := false }
  let t := (t.ctxsOn q).foldl (fun (t : State) c => (t.reloadOn q c).unhold c (holdTrip q)) t
  (((t.modSrv fun v => { v with offQuads := v.offQuads.filter (· != q) }).pointShow).cmpBack q).schedPoint q

/-- TRIP_RECOVERY: Tj has been below 95 °C for 1 s and, after a trip by comparator 5, EXT_SENSE back within its threshold for 1 s. -/
def State.tripRecovery (s : State) (q : Nat) : State :=
  let x := s.trip q
  if x.stopped ∧ x.final = false ∧ x.byRail = false ∧ s.get (Reg.PWR_Q_STATUS_TJ_C q) < 95 ∧ (x.byExt && s.board.extBeyond) = false then s.quadRestore q
  else s

def execTripRecovery (q : Fin 4) (s : State) : Host.Outcome State Fault Refusal := answer (s.tripRecovery q)

/-- GRID_RAIL_RECOVERY: the rail has been in range for 1 s. Where a comparator has stopped the quadrant as well, its own condition holds too. -/
def State.railRecovery (s : State) (q : Nat) : State :=
  let x := s.trip q
  if x.stopped ∧ x.byRail = true then
    let t := s.setTrip q { x with byRail := false }
    if x.final ∨ 95 ≤ s.get (Reg.PWR_Q_STATUS_TJ_C q) ∨ (x.byExt && s.board.extBeyond) = true then t else t.quadRestore q
  else s

def execGridRailRecovery (q : Fin 4) (s : State) : Host.Outcome State Fault Refusal := answer (s.railRecovery q)

/-- EXT_SENSE_CROSSING: comparator 5, where it is enabled, acts as ACTION says (R448). -/
def State.extSense (s : State) : State :=
  if !s.outOfReset then s
  else
    let t := s.modBoard fun b => { b with extBeyond := true }
    if !t.on (Reg.BRK_CMP_CFG_EN 5) then t
    else
      let u := t.cmpCross 5
      match u.get (Reg.BRK_CMP_CFG_ACTION 5) with
      | 0 => u.partFault 15 0 Flt.PWR_EXT 0
      | 1 => (u.modBoard fun b => { b with alertExt := true }).alertOn
      | 2 => (List.range 4).foldl (fun (u : State) q => u.tripQuad q Flt.THERM_TRIP false true) u
      | _ => u

def execExtSenseCrossing (s : State) : Host.Outcome State Fault Refusal := answer s.extSense

/-- EXT_SENSE_RETURN: EXT_SENSE is back within its threshold; an alert that it held ends. -/
def execExtSenseReturn (s : State) : Host.Outcome State Fault Refusal :=
  answer ((s.modBoard fun b => { b with extBeyond := false, alertExt := false }).cmpBack 5).alertOff

end Sys2Proof.Machine
end

