-- ==== Sys2Proof/Machine/Staging.lean ====
section
/-!
DEFINITION. Objects on their way into the NV store: how an image and a deployment record are verified (R454, R455, R458 to R463), staging
(R470, R471), and the handover of firmware (R472, R473).
-/

namespace Sys2Proof.Machine

/-! Faults of the configuration (Table 19-12). -/

/-- Hjelmar records a configuration fault; LAST_FAULT shows its code. -/
def State.cfgFault (s : State) (code detail : Nat) : State :=
  (s.put Reg.CFG_BOOT_STATUS_LAST_FAULT code).partFault 14 0 code detail

/-! Verification (R462). -/

/-- A key class: the role its KEY_IDs name (Table 20-2). -/
def roleMaker : Nat := 1
def roleInstaller : Nat := 2

/-- The role that signs an object of a directory kind (Table 19-7). -/
def signerOf (kind : Nat) : Nat := if kind = 2 ∨ kind = 5 then roleMaker else roleInstaller

/-- The class of a directory kind whose lowest version the boot control block keeps: 1 records, 2 firmware, 3 grid sets. -/
def versionClass : Nat → Nat | 5 => 2 | 4 => 3 | k => k

/-- Are the bytes `[o, o + n)` zero? -/
def allZero (b : List Byte) (o n : Nat) : Bool := ((b.drop o).take n).all (· == 0)

/-- The signature at the end of an object (Table 19-6), over everything before it, by an enrolled key of a role. -/
def State.signatureOk (s : State) (b : List Byte) (role : Nat) : Bool :=
  let n := b.length
  let sig := b.drop (n - 128)
  let id := leAt sig 96 4
  decide (id / 2 ^ 24 = role) && (match s.keyOf id with
    | some k => ecdsaVerify k (sha384 (b.take (n - 128))) (beNat (sig.take 48)) (beNat ((sig.drop 48).take 48))
    | none => false)

/-- The trailer: a CRC-32C over what precedes it, before the signature block. -/
def trailerOk (b : List Byte) : Bool := crc32c (b.take (b.length - 132)) == leAt b (b.length - 132) 4

/-- An entry of a section table (Table 19-5). -/
structure Section where
  kind : Nat
  flags : Nat
  number : Nat
  off : Nat
  len : Nat
  crc : Nat
  reserved : Nat
  deriving DecidableEq, Repr

/-- Section `i` of an image. -/
def sectionAt (b : List Byte) (i : Nat) : Section :=
  let o := 256 + 32 * i
  { kind := leAt b o 2, flags := leAt b (o + 3) 1, number := leAt b (o + 4) 4, off := leAt b (o + 8) 8, len := leAt b (o + 16) 8,
    crc := leAt b (o + 24) 4, reserved := leAt b (o + 28) 4 }

/-- The sections of an image. -/
def sections (b : List Byte) : List Section := (List.range (leAt b 16 4)).map (sectionAt b)

/-- Is byte `i` of an image outside every section? Log entry 111 (DESIGN CHOICE, unsafe). -/
def inGap (ss : List Section) (i : Nat) : Bool := ss.all fun x => decide (i < x.off ∨ x.off + x.len ≤ i)

/-- Magic, format, reserved fields, lengths and table bounds of an image of KIND `kind` (Tables 19-4 to 19-6, R458). Log entry 111 (DESIGN CHOICE, unsafe). -/
def imageForm (b : List Byte) (kind role : Nat) : Bool :=
  let n := b.length
  let count := leAt b 16 4
  let tab := 256 + 32 * count
  let ss := sections b
  decide (388 ≤ n) && b.take 4 == [0x53, 0x59, 0x4E, 0x58] && leAt b 4 2 == 1 && leAt b 6 1 == role && leAt b 7 1 == kind &&
    decide (1 ≤ count ∧ count ≤ 4096) && leAt b 20 4 == n && leAt b 36 4 == 0x0C64 && allZero b 40 216 && allZero b (n - 28) 28 &&
    (kind != 1 || leAt b 32 4 == 0) && decide (tab + 132 ≤ n) &&
    (ss.all fun x => [1, 2, 3, 4, 5, 0x10].contains x.kind && decide (x.flags ≤ 1) && x.reserved == 0 && x.off % 256 == 0 &&
      decide (tab ≤ x.off ∧ x.off + x.len + 132 ≤ n)) &&
    decide ((ss.map (·.number)).Nodup) &&
    ((b.drop tab).take (n - 132 - tab)).zipIdx.all fun x => x.1 == 0 || !inGap ss (tab + x.2)

/-- Does no shape limit decrease from one plan variant to the next (R461)? -/
def shapesRise : List PlanVariant → Bool
  | a :: b :: vs => ((List.range 16).all fun r => decide (a.shapes.getD r 0 ≤ b.shapes.getD r 0)) && shapesRise (b :: vs)
  | _ => true

/-- What a context declares keeps R415 and R461: at most 8 state pairs, at most 16 shape limits in each variant, and limits that never decrease. -/
def declOk (d : CtxDecl) : Bool :=
  decide (d.pairs.length ≤ 8) && (d.variants.all fun v => decide (v.shapes.length ≤ 16)) && shapesRise d.variants

/-- The rules of R461 on an image's contexts: those its declarations show, and the rest as the image's reader found them. Log entry 111 (DESIGN CHOICE, unsafe). -/
def rulesHold : StageBody → Bool
  | .image ok cs => ok && cs.all fun c => declOk c.2.decl
  | .firmware => true
  | .record _ => false

/-- The order of R462 for an image; the fault code of the first failure. -/
def State.verifyImage (s : State) (b : List Byte) (kind role : Nat) (body : StageBody) : Option Nat :=
  let form := match body with
    | .firmware => kind == 1
    | .image .. => kind == 2
    | .record _ => false
  if !(imageForm b kind role && form && rulesHold body) then some Flt.CFG_IMAGE
  else if (sections b).any fun x => crc32c ((b.drop x.off).take x.len) != x.crc then some Flt.CFG_CRC
  else if !trailerOk b then some Flt.CFG_CRC
  else if !s.signatureOk b role then some Flt.CFG_SIG
  else none

/-- The entries of a record from offset `o` on, `n` of them: where the last ends, if each is aligned and of a known type (R455). -/
def entriesEnd (b : List Byte) : Nat → Nat → Option Nat
  | 0, o => some o
  | n + 1, o =>
    let typ := leAt b o 2
    let next := o + 4 + (leAt b (o + 2) 2 + 3) / 4 * 4
    if typ = 0 ∨ 0xB < typ ∨ b.length < next then none else entriesEnd b n next

/-- A COMPARATOR entry within the ranges of BRK_CMP_CFG (R568). -/
def cmpOk (e : Fin 6 × Word) : Bool :=
  let v := e.2.toNat
  if e.1.val < 4 then decide (100 ≤ bits v 7 0 ∧ bits v 7 0 ≤ 115) && bits v 11 8 == 0
  else e.1.val == 5 && decide (bits v 11 0 ≤ 1800) && bits v 13 12 != 3 && bits v 31 16 == 0

/-- A step within the ranges of CFG_STEP. -/
def stepOk (w : Word) : Bool :=
  let v := w.toNat
  bits v 2 0 != 7 && !bit v 3 && (bits v 2 0 != 5 || decide (bits v 9 4 < 50))

/-- Every value of a record lies in the range that the register of its field states (R455, R568). -/
def recordRangesOk (r : DeployRec) : Bool :=
  (match r.power with | some (l, g) => decide (250 ≤ l ∧ l ≤ 700 ∧ 250 ≤ g ∧ g ≤ l) | none => true) && r.cmps.all cmpOk &&
  (match r.steps with | some ss => decide (ss.length ≤ 16) && ss.all stepOk | none => true) &&
  (r.admits.all fun e => bits e.2.1.toNat 15 13 == 0) &&
  (match r.csp with | some w => bits w.toNat 15 0 != 0 && decide (1 ≤ bits w.toNat 27 16) && bits w.toNat 31 28 == 0 | none => true) &&
  (match r.pfc with | some w => bits w.toNat 31 14 == 0 | none => true) &&
  (r.routes.all fun e => match decodeAddr e.1 with
    | some (.qpl, _, off) => (off == 0 || off == 0x70 || off == 0x74 || decide (0x1000 ≤ off ∧ off < 0x2000)) && (regRow? e.1).isSome &&
        definedBits e.1 e.2 == e.2
    | _ => false) &&
  decide (r.mac < 2 ^ 48 ∧ r.ipv4 < 2 ^ 32 ∧ r.ipv6 < 2 ^ 128 ∧ r.linkLocal < 2 ^ 128)

/-- The form of a record (R455): header, entries, and the trailer directly after the last. Log entry 111 (DESIGN CHOICE, unsafe). -/
def recordForm (b : List Byte) : Bool :=
  let n := b.length
  decide (196 ≤ n ∧ n ≤ 2 ^ 21) && b.take 4 == [0x43, 0x58, 0x44, 0x52] && leAt b 4 2 == 1 && decide (leAt b 6 2 ≤ 1) && allZero b (n - 28) 28 &&
    entriesEnd b (min n (leAt b 12 4)) 64 == some (n - 132)

/-- The order of R462 for a deployment record; the fault code of the first failure. -/
def State.verifyRecord (s : State) (b : List Byte) (body : StageBody) : Option Nat :=
  let own := beNat ((b.drop 16).take 48)
  let fine := match body with | .record r => recordRangesOk r | _ => false
  if !(recordForm b && fine) then some Flt.CFG_IMAGE
  else if !trailerOk b then some Flt.CFG_CRC
  else if (own ≠ 0 ∧ own ≠ Config.identityHash) ∨ s.signatureOk b roleInstaller = false then some Flt.CFG_SIG
  else none

/-- Verify an object of a directory kind. Log entry 111 (DESIGN CHOICE, unsafe). -/
def State.verifyObj (s : State) (kind : Nat) (b : List Byte) (body : StageBody) : Option Nat :=
  match kind with
  | 1 => s.verifyRecord b body
  | 2 | 5 => s.verifyImage b 1 roleMaker body
  | 3 | 4 => s.verifyImage b 2 roleInstaller body
  | _ => some Flt.CFG_IMAGE

/-! Writing a slot (R452, R471). -/

/-- The lowest version accepted of a kind. -/
def State.lowest (s : State) (kind : Nat) : Nat := Tab.get (fun _ => 0) s.nv.minVer (versionClass kind)

/-- VERSION of an object: bytes 8 to 11 of both headers. -/
def versionOf (b : List Byte) : Nat := leAt b 8 4

/-- The slot that an object of a directory kind is written to: the one not in force, or the golden one. -/
def State.targetSlot (s : State) : Nat → Nat
  | 2 => 1 - s.nv.active
  | 3 => s.newSlot
  | 4 => 5
  | _ => 2

/-- Where a slot lies in the NV store, and its size (Table 19-1). -/
def slotPlace (k : Nat) : Nat × Nat :=
  if k < 3 then (nvLoc k 0x800000, 24 * 2 ^ 20) else (nvLoc (k - 3) 0x2000000, 64 * 2 ^ 20)

/-- A slot's contexts, as the image declares them. -/
def bodyCtxs : StageBody → List (Nat × CtxLoad)
  | .image _ cs => cs.map fun c => (c.1.val, c.2)
  | _ => []

/-- Write a verified image into a slot: the bytes, then VALID in the boot control block; MIN_VERSION raises the lowest version of its kind. -/
def State.writeSlot (s : State) (kind k : Nat) (b : List Byte) (body : StageBody) : State :=
  let t := s.mwrite (slotPlace k).1 b
  let t := t.setNvSlot k { state := 2, version := versionOf b, len := b.length, hash := beNat (sha384 (b.take (b.length - 128))), ok := true,
                           ctxs := bodyCtxs body }
  t.modNv fun n =>
    { n with gen := n.gen + 1, trialFailed := n.trialFailed.filter (· != k),
             minVer := Tab.set (fun _ => 0) n.minVer (versionClass kind) (max (s.lowest kind) (leAt b 12 4)) }

/-- A verified record as it is kept: the values of its entries, with the version and the flag of its header. -/
def recordOf (b : List Byte) : StageBody → DeployRec
  | .record r => { r with version := versionOf b, locked := bit (leAt b 6 2) 0 }
  | _ => DeployRec.none

/-- SHA-384 of an object from its header to its trailer. -/
def objHash (b : List Byte) : Nat := beNat (sha384 (b.take (b.length - 128)))

/-! Firmware handover (R472, R473). -/

/-- Change the handover. -/
def State.modHand (s : State) (g : HandOver → HandOver) : State := s.modPlane fun y => { y with handover := y.handover.map g }

/-- Contexts homed on a quadrant that are loaded. -/
def State.homed (s : State) (q : Nat) : List Nat := s.loaded.filter fun c => s.homeQ c == q

/-- Is every context homed on a quadrant at a boundary? -/
def State.quadAtBoundary (s : State) (q : Nat) : Bool := (s.homed q).all fun c => s.ctxState c == ctxIdle

/-- Once its takeover is due, contexts of the quadrant that are IDLE already are held. Log entry 116 (DESIGN CHOICE, safe). -/
def State.handoverHold (s : State) : State :=
  match s.handoverDue with
  | some q => ((s.homed q).filter fun c => s.ctxState c == ctxIdle).foldl (fun t c => t.holdAt c (holdQuad q)) s
  | none => s

/-- Start a handover: a spare core restarts from the slot. -/
def State.handoverStart (s : State) (slot : Nat) (back : Bool) : State :=
  let h : HandOver := { quad := 0, slot := slot, back := back, since := none, ready := [], restarting := s.freeCores.take 1, paused := none }
  ((s.modPlane fun y => { y with handover := some h }).cfgShow).handoverHold

/-- Firmware activation puts the slot in trial, and the handover begins. -/
def State.trialStart (s : State) : State := (s.modNv fun n => { n with trial := true, gen := n.gen + 1 }).handoverStart (1 - s.nv.active) false

/-- The last cores restart, and then Hjelmar. -/
def State.handoverRest (s : State) : State :=
  match s.plane.handover with
  | none => s
  | some h =>
    if h.quad < 4 ∨ h.since.isSome = true then s
    else
      let late := s.freeCores.filter fun n => !h.ready.contains n && !h.restarting.contains n
      let t := s.modHand fun h => { h with restarting := h.restarting ++ late }
      if h.restarting = [] ∧ late = [] then t.modEth fun e => { e with hjmDown := true } else t

/-- The handover of a quadrant is complete: its contexts go on, and the next quadrant's turn comes. Log entry 116 (DESIGN CHOICE, safe). -/
def State.handoverNext (s : State) (q : Nat) : State :=
  let t := s.modHand fun h => { h with quad := q + 1, paused := none }
  let t := (t.homed q).foldl (fun t c => t.unhold c (holdQuad q)) t
  ((t.schedPoint q).handoverHold).handoverRest

/-- QUADRANT_TAKEOVER: with every context of the quadrant at a boundary, a core on the new slot takes its serving loop, and the old core
restarts. With no spare, the quadrant is paused while its core restarts. -/
def State.quadTakeover (s : State) : State :=
  match s.plane.handover, s.handoverDue with
  | some h, some q =>
    if !s.quadAtBoundary q then s
    else match h.ready with
      | n :: rest =>
        let old := s.coreOf q
        ((s.put (Reg.DEV_CORE_MAP_CORE q) n).modHand fun h => { h with ready := rest, restarting := h.restarting ++ [old] }).handoverNext q
      | [] => s.modHand fun h => { h with paused := some q, restarting := [s.coreOf q] }
  | _, _ => s

def execQuadrantTakeover (s : State) : Host.Outcome State Fault Refusal := answer s.quadTakeover

/-- CONTROL_CORE_RESTART_DONE: a core that restarted from the new slot is the spare for the next quadrant, or its paused quadrant goes on. -/
def State.coreRestarted (s : State) (n : Nat) : State :=
  match s.plane.handover with
  | none => s
  | some h =>
    if !h.restarting.contains n then s
    else
      let t := s.modHand fun h => { h with restarting := h.restarting.filter (· != n) }
      match h.paused with
      | some q => t.handoverNext q
      | none => ((t.modHand fun h => { h with ready := h.ready ++ [n] }).handoverHold).handoverRest

def execControlCoreRestartDone (n : Fin 6) (s : State) : Host.Outcome State Fault Refusal := answer (s.coreRestarted n)

/-- HJELMAR_RESTART_DONE: Hjelmar takes MGMT requests again. At the end of a handover the trial's 60 s begin; the way back ends. -/
def State.hjelmarUp (s : State) : State :=
  if !s.eth.hjmDown || s.plane.hjmStopped then s
  else
    let t := s.modEth fun e => { e with hjmDown := false }
    match t.plane.handover with
    | some h =>
      if 4 ≤ h.quad ∧ h.since.isNone = true then
        (if h.back then t.modPlane fun y => { y with handover := none } else t.modHand fun h => { h with since := some t.stamp }).cfgShow
      else t
    | none => t

def execHjelmarRestartDone (s : State) : Host.Outcome State Fault Refusal := answer s.hjelmarUp

/-- FW_TRIAL_END: every core and Hjelmar have run the slot in trial for 60 s without a firmware fault, and it becomes active; or one of them has
faulted, or has not restarted in its bound, and every core returns to the previous slot. -/
def State.trialEnd (s : State) (fault : Bool) : State :=
  if !s.nv.trial then s
  else
    let k := 1 - s.nv.active
    if fault then
      let t := (s.modNv fun n => { n with trial := false, trialFailed := k :: n.trialFailed, gen := n.gen + 1 }).auditSelf 6 Flt.CFG_FW_TRIAL
      (t.cfgFault Flt.CFG_FW_TRIAL k).handoverStart s.nv.active true
    else match s.plane.handover.bind (·.since) with
      | some t0 =>
        if s.stamp < t0 + 60 * ticks1s then s
        else
          let old := s.nvSlot s.nv.active
          let new := s.nvSlot k
          let t := (s.setNvSlot s.nv.active { old with state := if old.ok then 2 else 0 }).setNvSlot k { new with state := 3 }
          (((t.modNv fun n => { n with active := k, trial := false, gen := n.gen + 1 }).modPlane fun y =>
            { y with handover := none, goldenFw := false }).auditSelf 6 0).cfgShow
      | none => s

def execFwTrialEnd (fault : Bool) (s : State) : Host.Outcome State Fault Refusal := answer (s.trialEnd fault)

/-! Staging over MGMT (R470, R471). -/

/-- The directory kind of a staging. -/
def Staging.kind (g : Staging) : Nat :=
  if g.record then 1 else match g.target with | 0 => 3 | 1 => 4 | 2 => 2 | _ => 5

/-- The largest object of a kind. -/
def sizeLimit (kind : Nat) : Nat := if kind = 1 then 2 ^ 21 else if kind = 2 ∨ kind = 5 then 24 * 2 ^ 20 else 64 * 2 ^ 20

/-- Read the body of Table 19-11. -/
def stagingOf (record : Bool) (b : List Byte) : Option Staging :=
  if b.length ≠ 32 ∨ 63 < leAt b 0 4 ∨ 3 < leAt b 4 4 ∨ 2 < leAt b 24 4 ∨ leAt b 28 4 ≠ 0 ∨ (record = true ∧ (leAt b 4 4 ≠ 0 ∨ leAt b 24 4 ≠ 0)) then none
  else some { record := record, target := leAt b 4 4, window := leAt b 0 4, off := leAt b 8 8, len := leAt b 16 8, activate := leAt b 24 4 }

/-- The check before the start: a window that may be read and holds the object, and a length that its slot can hold. -/
def State.stagingRefused (s : State) (g : Staging) : Option Nat :=
  if !s.on (Reg.ETH_ROCE_WIN_CFG_EN g.window) || !s.on (Reg.ETH_ROCE_WIN_CFG_R g.window) ||
      decide (s.get (Reg.ETH_ROCE_WIN_LEN_LEN g.window) * 65536 < g.off + g.len) || decide (sizeLimit g.kind < g.len) || g.len == 0 then some Flt.CFG_IMAGE
  else none

/-- Does work in progress hold the slot that a staging would write: another staging, an activation, a handover or trial? Log entry 112 (DEDUCED, unsafe). -/
def State.stagingBusy (s : State) (g : Staging) : Bool :=
  s.plane.staging.isSome || (g.kind == 3 && s.plane.activating != []) || (g.kind == 2 && (s.nv.trial || s.plane.handover.isSome))

/-- A request to stage: the answer's body tells STARTED, or the code of the check that failed. A primary slot is
WRITING from now on; of a golden set one good copy stands throughout (R469, R471). Log entry 112 (DEDUCED, unsafe). -/
def State.stageStart (s : State) (record : Bool) (b : List Byte) : State × Nat × List Byte :=
  match stagingOf record b with
  | none => malformed s
  | some g =>
    if s.stagingBusy g then (s, stQueueFull, [])
    else match s.stagingRefused g with
      | some code => (s, stOk, leBytes 4 (256 * code))
      | none =>
        let t := s.modPlane fun y => { y with staging := some g }
        let t := if record || 4 ≤ g.kind then t
          else
            let k := s.targetSlot g.kind
            (t.setNvSlot k { (s.nvSlot k) with state := 1, ok := false }).modNv fun n => { n with gen := n.gen + 1, onStart := n.onStart.filter (· != k) }
        ((t.puts [(Reg.CFG_STAGE_STATUS_BUSY, 1), (Reg.CFG_STAGE_STATUS_TARGET, g.target), (Reg.CFG_STAGE_STATUS_PROGRESS, 0),
          (Reg.CFG_STAGE_STATUS_DONE, 0), (Reg.CFG_STAGE_STATUS_FAILED, 0), (Reg.CFG_STAGE_STATUS_RESTART_NEEDED, 0)]).cfgShow, stOk, leBytes 4 2)

/-- The roles that may stage a target (Table 20-1): the maker firmware, the installer grid sets. -/
def stageRole (q : MgmtReq) : Bool :=
  let t := leAt q.body 4 4
  if t ≤ 1 then q.role == 2 else if t ≤ 3 then q.role == 1 else q.role == 1 || q.role == 2

def execStageImage (s : State) : Host.Outcome State Fault Refusal :=
  answer (s.mgmtServe (fun q => q.op == opStage) (fun q => s.keyOf q.key) stageRole fun t _ q => t.stageStart false q.body)

def execDeploymentRecord (s : State) : Host.Outcome State Fault Refusal :=
  answer (s.mgmtOp opRecord [2] fun t _ q => t.stageStart true q.body)

/-- A grid set is activated: contexts at a boundary move at once, the others at their next (R474). Log entry 114 (DEDUCED, unsafe). -/
def State.activationStart (s : State) : State :=
  let cs := s.loaded
  let t := (s.setNvSlot s.newSlot { (s.nvSlot s.newSlot) with state := 4 }).modPlane fun y => { y with activating := cs }
  let t := (t.put Reg.CFG_IMAGE_STATUS_CTX_MOVED 0).cfgShow
  if cs.isEmpty then t.activationEnd
  else t.activateAt

/-- What follows a staging that is done (ACTIVATE of Table 19-11). Log entry 112 (DEDUCED, unsafe). -/
def State.stagedNext (s : State) (g : Staging) (k : Nat) : State :=
  match g.kind, g.activate with
  | 3, 1 => s.activationStart
  | 2, 1 => s.trialStart
  | 3, 2 | 2, 2 => s.modNv fun n => { n with onStart := k :: n.onStart }
  | _, _ => s

/-- The staging has ended: its outcome in CFG_STAGE_STATUS. Log entry 112 (DEDUCED, unsafe). -/
def State.stageShow (s : State) (ok : Bool) : State :=
  ((s.modPlane fun y => { y with staging := none }).puts
    [(Reg.CFG_STAGE_STATUS_BUSY, 0), (if ok then Reg.CFG_STAGE_STATUS_DONE else Reg.CFG_STAGE_STATUS_FAILED, 1)]).cfgShow

/-- A staging fails: a primary slot is empty, a golden set stands, the fault is recorded, and the audit log takes a record with OUTCOME 2 (R470, R492). Log entry 112 (DEDUCED, unsafe). -/
def State.stageFail (s : State) (g : Staging) (code : Nat) : State :=
  let t := if g.record || 4 ≤ g.kind then s else s.setNvSlot (s.targetSlot g.kind) NvSlot.empty
  let op := if g.record then opRecord else opStage
  ((t.auditPut 1 0xFF 2 0 (65536 * op) [] none).cfgFault code g.target).stageShow false

/-- A staging is done: the object is written, sectors that fail to verify are rebuilt (R450), and an INFO log says so. -/
def State.stageDone (s : State) (g : Staging) (b : List Byte) (body : StageBody) (sectorsBad : Nat) : State :=
  let s := if sectorsBad = 0 then s else (s.sectorsRebuild false sectorsBad).spareSave 0
  let t := (s.put Reg.CFG_STAGE_STATUS_PROGRESS 100).logRec 2 (srcOf 5 0) none .none
  if g.record then
    let r := recordOf b body
    let u := t.put Reg.CFG_STAGE_STATUS_RESTART_NEEDED (b2n (needsRestart s.nv.record r))
    (((u.modNv fun n => { n with gen := n.gen + 1 }).recordStored r (objHash b)).secShow).stageShow true
  else
    let k := s.targetSlot g.kind
    (t.writeSlot g.kind k b body).stageShow true |>.stagedNext g k

/-- STAGING_COMPLETE: the object has been read from its window; it is verified under R462 and written. `body` is what it holds beyond the parts
whose layout the spec gives. -/
def State.stagingComplete (s : State) (body : StageBody) (sectorsBad : Nat) : State :=
  match s.plane.staging with
  | none => s
  | some g =>
    match s.winAccess g.window g.off g.len none with
    | .wait t => t
    | .refused t => t.stageFail g Flt.CFG_IMAGE
    | .done t b =>
      match t.verifyObj g.kind b body with
      | some code => t.stageFail g code
      | none => if versionOf b < t.lowest g.kind then t.stageFail g Flt.CFG_VERSION else t.stageDone g b body sectorsBad

def execStagingComplete (body : StageBody) (sectorsBad : Nat) (s : State) : Host.Outcome State Fault Refusal :=
  answer (s.stagingComplete body sectorsBad)

end Sys2Proof.Machine
end

