-- ==== Sys2Proof/Machine/Boot.lean ====
section
/-!
DEFINITION. Power-up, reset, start-up and loss of supplies and clocks (R448, R453 to R456, R463 to R468, R494, R551 to R556).
-/

namespace Sys2Proof.Machine

/-! Reset. -/

/-- What a reset leaves (R553): the NV store, the MACsec associations that the Hjelmar region holds (R480), the Bedrock counters, the board's
side, and the commands that wait; everything else is as it leaves power-on. FAULT_N is asserted. Log entry 39 (DESIGN CHOICE, unsafe). Log entry 119 (DESIGN CHOICE, unsafe). -/
def State.resetBy (s : State) (cause : ResetCause) : State :=
  let b : Board := { Board.reset with vbr := s.board.vbr, rails := s.board.rails, porHigh := s.board.porHigh, held := some cause,
                                      strap := s.board.strap, refclkSd := s.board.refclkSd, xtal := s.board.xtal,
                                      xtalSeen := s.board.xtalSeen, xtalLost := s.board.xtalLost, alertPin := s.board.alertPin,
                                      extBeyond := s.board.extBeyond, tapIr := s.board.tapIr }
  { State.reset with pending := s.pending, regs := s.regs.filter fun e => e.1 == Reg.aBRK_TIME_LO || e.1 == Reg.aBRK_TIME_HI,
                     mem := s.mem.filter fun c => decide (2 ^ 46 ≤ c.1), bad := s.bad.filter fun c => decide (2 ^ 46 ≤ c.1),
                     board := b, nv := s.nv, eth := { EthState.reset with sas := s.eth.sas, txAn := s.eth.txAn }, fresh := s.fresh }

/-! The flash (R453, R454). -/

/-- Is a flash directory good: magic, format, ENTRIES and CRC (Table 19-2)? Log entry 113 (DEDUCED, unsafe). -/
def directoryOk (b : List Byte) : Bool :=
  decide (972 ≤ b.length) && b.take 4 == [0x43, 0x58, 0x46, 0x44] && leAt b 4 2 == 1 && decide (leAt b 6 2 ≤ 30) &&
    crc32c (b.take 968) == leAt b 968 4

/-- The version of a kind that the NV store holds: the largest among its slots, or of the record. -/
def State.heldVersion (s : State) (kind : Nat) : Nat :=
  let slot (k : Nat) : Nat := if 2 ≤ (s.nvSlot k).state then (s.nvSlot k).version else 0
  match kind with
  | 1 => max s.nv.record.version ((s.nv.next.map fun x => x.1.version).getD 0)
  | 2 => max (slot 0) (slot 1)
  | 3 => max (slot 3) (slot 4)
  | 4 => slot 5
  | _ => slot 2

/-- An object of the flash is refused or passed over: its fault and its audit record. -/
def State.flashRefuse (s : State) (code : Nat) (hash : List Byte) : State :=
  (s.auditPut 4 0xFF 1 0 code hash none).cfgFault code 0

/-- A newer verified object is staged. Firmware and primary grid sets come into force at this start-up. Log entry 113 (DEDUCED, unsafe). -/
def State.flashStage (s : State) (kind : Nat) (b : List Byte) (body : StageBody) : State :=
  let t := (s.auditPut 4 0xFF 0 0 0 (sha384 (b.take (b.length - 128))) none).put Reg.CFG_BOOT_STATUS_STAGED 1
  if kind = 1 then t.modNv fun n => { n with next := some (recordOf b body, objHash b), gen := n.gen + 1 }
  else
    let k := t.targetSlot kind
    let u := t.writeSlot kind k b body
    if kind = 2 ∨ kind = 3 then u.modNv fun n => { n with onStart := k :: n.onStart.filter (· != k) } else u

/-- One entry of the directory. Log entry 113 (DEDUCED, unsafe). -/
def State.flashEntry (s : State) (f : Flash) (i : Nat) : State :=
  let o := 8 + 32 * i
  let kind := leAt f.bytes o 2
  let b := (f.bytes.drop (leAt f.bytes (o + 8) 8)).take (leAt f.bytes (o + 16) 8)
  let body := f.bodies.getD i .firmware
  let form := kind ≤ 5 ∧ kind ≠ 0 ∧ allZero f.bytes (o + 2) 6 ∧ allZero f.bytes (o + 24) 8 ∧ b.length = leAt f.bytes (o + 16) 8 ∧ b.length ≤ sizeLimit kind
  let hash := sha384 (b.take (b.length - 128))
  match (if form then s.verifyObj kind b body else some Flt.CFG_IMAGE) with
  | some code => s.flashRefuse code hash
  | none =>
    if versionOf b < s.lowest kind then s.flashRefuse Flt.CFG_VERSION hash
    else if versionOf b ≤ s.heldVersion kind then s
    else s.flashStage kind b body

/-- The flash is read once; a bad directory, or a device that does not offer the mode, leaves the NV store in charge. -/
def State.flashRead (s : State) (f : Option Flash) : State :=
  match f with
  | some f =>
    if directoryOk f.bytes then
      ((List.range (leAt f.bytes 6 2)).foldl (fun t i => t.flashEntry f i) s).put Reg.CFG_BOOT_STATUS_FLASH_READ 1
    else s.cfgFault Flt.CFG_FLASH 0
  | none => s.cfgFault Flt.CFG_FLASH 0

/-! Slots and golden fallback (R463, R468, R473). -/

/-- Can a slot be started from? -/
def State.slotGood (s : State) (k : Nat) : Bool := decide (2 ≤ (s.nvSlot k).state) && (s.nvSlot k).ok

/-- Firmware slot good, and not failed in trial. -/
def State.fwGood (s : State) (k : Nat) : Bool := s.slotGood k && !s.nv.trialFailed.contains k

/-- The slots that no longer pass R463. A golden copy is repaired from the other, so a bad golden slot is one that both copies fail. Log entry 121 (DESIGN CHOICE, unsafe). -/
def State.slotsCheck (s : State) (bad : List Nat) : State :=
  bad.foldl (fun t k => if 2 ≤ (t.nvSlot k).state then (t.setNvSlot k { (t.nvSlot k) with ok := false }).cfgFault Flt.CFG_CRC k else t) s

/-- A start-up that finds a trial or an activation unfinished starts from the previous slot (R471, R473). Log entry 116 (DESIGN CHOICE, safe). -/
def State.slotsSettle (s : State) : State :=
  let t := s.modNv fun n => { n with trial := false }
  let t := [3, 4].foldl (fun (t : State) k =>
    if (t.nvSlot k).state = 4 then t.setNvSlot k { (t.nvSlot k) with state := 2 } else t) t
  t

/-- Slots staged for this start-up come into force: a grid set at once, firmware in trial. Log entry 113 (DEDUCED, unsafe). -/
def State.slotsForce (s : State) : State :=
  let t := s.nv.onStart.foldl (fun (t : State) k =>
    if !t.slotGood k then t
    else if 3 ≤ k then
      if t.nv.gridForce = k - 3 then t
      else
        let old := t.nvSlot (3 + t.nv.gridForce)
        ((t.setNvSlot (3 + t.nv.gridForce) { old with state := if old.state = 3 then 2 else old.state }).setNvSlot k { (t.nvSlot k) with state := 3 }).modNv
          fun n => { n with gridForce := k - 3 }
    else if t.nv.active = k then t
    else (t.modNv fun n => { n with trial := true }).modPlane fun y =>
      { y with handover := some { quad := 4, slot := k, back := false, since := some t.stamp, ready := [], restarting := [], paused := none } }) s
  t.modNv fun n => { n with onStart := [] }

/-- Start from the golden sets, with a CRIT alarm that names the cause (R468): 0 BOOT_MODE, 1 firmware, 2 grid. -/
def State.golden (s : State) (cause : Nat) (grid : Bool) : State :=
  ((((s.put Reg.CFG_BOOT_STATUS_GOLDEN 1).modPlane fun y => { y with goldenFw := true, goldenGrid := y.goldenGrid || grid }).modNv fun n =>
    { n with trial := false }).modPlane fun y => { y with handover := none }).cfgFault Flt.CFG_GOLDEN cause |>.auditSelf 5 Flt.CFG_GOLDEN

/-- The slots that the part starts from. -/
def State.slotsChoose (s : State) : State :=
  if s.get Reg.CFG_BOOT_STATUS_BOOT_MODE = 2 then s.golden 0 true
  else
    let t := if s.fwGood s.nv.active || !s.fwGood (1 - s.nv.active) then s else s.modNv fun n => { n with active := 1 - n.active }
    if !t.fwGood t.nv.active then t.golden 1 true
    else if t.slotGood (3 + t.nv.gridForce) then t
    else if t.slotGood (4 - t.nv.gridForce) then
      (t.setNvSlot (4 - t.nv.gridForce) { (t.nvSlot (4 - t.nv.gridForce)) with state := 3 }).modNv fun n => { n with gridForce := 1 - n.gridForce }
    else t.golden 2 true

/-! The audit log at start-up (R494). -/

/-- The newest record goes where it fails its chain in both copies. -/
def State.auditRepair (s : State) (missing : Nat) (torn : Bool) : State :=
  let t := if torn ∧ s.nv.audit ≠ [] then s.modNv fun n => { n with audit := n.audit.dropLast, auditNext := n.auditNext - 1 } else s
  if missing = 0 then t else t.auditSelf 0xA missing

/-! The spare map (R498, R500). -/

/-- The hardware takes the spare map. Log entry 124 (DESIGN CHOICE, unsafe). -/
def State.mapLoad (s : State) : State :=
  let m := s.nv.map
  let t := m.fields.foldl (fun (t : State) e => t.put (Reg.DEV_FIELD_MAP_PHYS e.1) e.2) s
  let t := m.lost.foldl (fun (t : State) f => t.put (Reg.DEV_FIELD_MAP_LOST f) 1) t
  let t := m.cores.foldl (fun (t : State) e => t.put (Reg.DEV_CORE_MAP_CORE e.1) e.2) t
  let t := t.put Reg.DEV_CORE_MAP_FAILED (m.failed.foldl (fun a n => a ||| 2 ^ n) 0)
  let t := (m.regs.filter fun e => match decodeAddr e.1 with | some (.qpl, _, _) => true | _ => false).foldl (fun (t : State) e => t.setReg e.1 e.2) t
  let t := (List.range 32).foldl (fun (t : State) k =>
    let dm := Tab.get (fun _ => []) m.dies k
    let rows := Tab.get (fun _ => []) m.rows k
    let used := rows.foldl (fun (u : List (Nat × Nat)) e =>
      Tab.set (fun _ => 0) u (e.1 / 2 ^ 14) (Tab.get (fun _ => 0) u (e.1 / 2 ^ 14) + 1)) []
    (t.puts [(Reg.STK_STATUS_SPARE_DIE_FREE k, b2n dm.isEmpty), (Reg.STK_SPARE_STATUS_RETIRED_DIE k, ((dm.head?).map (·.1)).getD 31),
      (Reg.STK_SPARE_STATUS_ROWS_REMAPPED k, rows.length)]).modStk k fun x => { x with dieMap := dm, remapped := rows, spareUsed := used }) t
  (t.modPlane fun y => { y with wearLog := m.wear.map fun e => (e.1, List.replicate e.2 t.stamp) }).spareShow

/-! The start-up order's steps (R467). -/

/-- The default of Table 19-10. -/
def defaultSteps : List Nat := [1, 2, 3, 4, 0]

/-- Load CFG_STEP from the record. -/
def State.stepsLoad (s : State) : State :=
  let ws : List Nat := match s.nv.record.steps with
    | some ss => ss.map (·.toNat)
    | none => defaultSteps
  (List.range 16).foldl (fun (t : State) n =>
    let w := ws.getD n 0
    t.setReg (Reg.aCFG_STEP n) (BitVec.ofNat 32 (w - (w &&& 8)))) s

/-! Deployment (R456). -/

/-- The record's entries for the network: identity and Ethernet settings. -/
def State.applyNet (s : State) (r : DeployRec) : State :=
  let t := match r.device with
    | some d => s.puts [(Reg.XLT_DEVICE_ID_DEVICE, d), (Reg.XLT_DEVICE_ID_VALID, 1)]
    | none => s.puts [(Reg.XLT_DEVICE_ID_DEVICE, 0), (Reg.XLT_DEVICE_ID_VALID, 0)]
  let t := t.put Reg.ETH_PORT_CTRL_UNTAGGED_EN (b2n r.untagged)
  let t := match r.pfc with | some w => t.setReg Reg.aETH_PFC_CTRL (definedBits Reg.aETH_PFC_CTRL w) | none => t
  match r.csp with | some w => t.setReg Reg.aETH_CSP_CTRL (definedBits Reg.aETH_CSP_CTRL w) | none => t

/-- The whole record; no reserved bit of a register is set (R8). -/
def State.applyRecord (s : State) : State :=
  let r := s.nv.record
  let t := (((s.applyNet r).applyParts r).applyAdmits r).applyPower r
  (r.routes.foldl (fun (t : State) e => t.setReg e.1 (definedBits e.1 e.2)) t).budgetSet

/-- A part that serves only MGMT: FAULT_N asserted for a reason, DEV_OK low, the Ethernet port and its outputs on (R467, R468). Log entry 117 (DESIGN CHOICE, unsafe). -/
def State.mgmtOnly (s : State) (why : Nat) : State :=
  let t := s.modBoard fun b => { b with faultHold := b.faultHold ||| 2 ^ why, devOk := false, outputs := true, step := none }
  ((t.applyNet t.nv.record).put Reg.ETH_PORT_CTRL_EN 1).domRequest 44 true

/-! Start-up (Table 19-9). -/

/-- Domains that firmware powers on at Order 7: stacks, SerDes ports, seams, and each Field group that holds a logical Field granted to a
context (R466). Domain 49 is on. Log entry 118 (DEDUCED, unsafe). -/
def State.bootDomains (s : State) : State :=
  let granted := (s.nvSlot s.gridSlot).ctxs.filter fun c => s.nv.record.ctxs.any fun e => e.1.val == c.1
  let groups := (granted.flatMap fun c => c.2.decl.fields.filterMap fun f => (s.physOf f.1).map groupOfField).eraseDups
  let t := ((List.range 32) ++ groups.map (32 + ·) ++ [40, 41, 42, 43, 44, 45, 46, 47, 48]).foldl (fun (t : State) n => t.domRequest n true) s
  ((t.domPut Reg.aPWR_DOM_REQ 49 true).domPut Reg.aPWR_DOM_STATE 49 true)

/-- Order 2: Bedrock out of reset; a regulator alert acts at once, and a brown-out or the loss of a supply is recorded (R448, R554, R556). Log entry 119 (DESIGN CHOICE, unsafe). -/
def State.bedrockOut (s : State) : State :=
  let cause := s.board.held
  let t := s.modBoard fun b => { b with held := none, faultHold := 0 }
  let t := t.puts [(Reg.CFG_BOOT_STATUS_BOOT_MODE, s.board.strap), (Reg.CFG_BOOT_STATUS_PHASE, 2)]
  let t := if t.board.alertPin then t.alertOn else t
  match cause with
  | some .brownOut => (t.put Reg.BRK_CMP_STATUS_BROWNOUT 1).partFault 15 0 Flt.PWR_BROWNOUT Config.vbrDetail
  | some (.supply d) => (t.put Reg.BRK_CMP_STATUS_BROWNOUT 1).partFault 15 0 Flt.PWR_BROWNOUT d
  | _ => t

/-- Order 3: the boot ROM; the audit log is repaired, the boot counted, bad sectors are rebuilt, and the start-up recorded. -/
def State.romRuns (s : State) (b : BootInput) : State :=
  let t := (s.put Reg.CFG_BOOT_STATUS_PHASE 3).auditRepair b.auditMissing b.auditTorn
  let t := (t.modNv fun n => { n with boots := n.boots + 1 }).sectorsRebuild true b.sectorsBad
  ((t.auditSelf 3 s.board.strap).put Reg.SEC_STATUS_IDENTITY_OK 1).secShow

/-- Orders 6 and 7: firmware runs, the maps and points are loaded, the domains are asked for. Log entry 118 (DEDUCED, unsafe). -/
def State.firmwareStarts (s : State) : State :=
  let t := ((s.put Reg.CFG_BOOT_STATUS_PHASE 6).mapLoad).stepsLoad
  let t := if t.power.alert then t.partFault 14 (t.coreOf 0) Flt.PWR_ALERT 0
    else (List.range 4).foldl (fun (t : State) q => t.put (Reg.PWR_Q_STATUS_OP q) 4) t
  let t := (t.bootDomains.budgetSet.pointShow).put Reg.CFG_BOOT_STATUS_PHASE 7
  t.modBoard fun b => { b with step := some 0 }

/-- The start-up up to Order 7; the steps of Order 8 follow. Firmware places the telemetry buffer in the stacks of Q1, whose memory begins at the
1,536th unit of 256 MiB (R531). Log entry 152 (DESIGN CHOICE, safe). -/
def State.startUp (s : State) (b : BootInput) : State :=
  let t := s.bedrockOut.romRuns b
  if s.board.strap = 3 then t.cfgShow
  else
    let t := (t.slotsSettle).slotsCheck (b.slotsBad.map (·.val))
    let t := if s.board.strap = 0 then t.flashRead b.flash else t
    let t := match t.nv.next with
      | some (r, h) => t.modNv fun n => { n with record := r, recordHash := h, next := none }
      | none => t
    let t := ((t.slotsForce).slotsChoose).secShow
    if (t.plane.goldenFw && !t.slotGood 2) || (t.plane.goldenGrid && !t.slotGood 5) then (t.mgmtOnly 6).cfgShow
    else (t.firmwareStarts.put Reg.TEL_BUF_BASE_BASE (1536 + b.telBuf.val)).cfgShow

/-- The part leaves reset once POR_N is high, VBR is in range, and every rail and REFCLK_SYS have been (R552). -/
def State.leaveReset (s : State) (b : BootInput) : State :=
  if s.board.held.isSome && s.board.porHigh && s.board.vbr && s.board.rails then s.startUp b else s

/-! Events of the board (R551 to R556). -/

/-- POR_ASSERT. -/
def execPorAssert (s : State) : Host.Outcome State Fault Refusal :=
  answer ((s.modBoard fun b => { b with porHigh := false }).resetBy .por)

/-- The instruction in the TAP after a release of POR_N: one that drives lands stays only under BOOT_MODE 0b11 (R562). Log entry 41 (DESIGN CHOICE, unsafe). -/
def tapKept (strap ir : Nat) : Nat := if strap ≠ 3 ∧ 5 ≤ ir ∧ ir ≤ 7 then 1 else ir

/-- POR_RELEASE: BOOT_MODE is sampled; the start-up begins, or waits for the supplies. -/
def execPorRelease (strap : Fin 4) (b : BootInput) (s : State) : Host.Outcome State Fault Refusal :=
  answer (if s.board.porHigh then s else (s.modBoard fun x => { x with porHigh := true, strap := strap, tapIr := tapKept strap x.tapIr }).leaveReset b)

/-- RAILS_AND_CLOCK_READY. -/
def execRailsAndClockReady (b : BootInput) (s : State) : Host.Outcome State Fault Refusal :=
  answer ((s.modBoard fun x => { x with rails := true }).leaveReset b)

/-- VBR_IN_RANGE: the Bedrock counters start from zero (R533); the hold of a brown-out ends. -/
def execVbrInRange (b : BootInput) (s : State) : Host.Outcome State Fault Refusal :=
  answer (if s.board.vbr then s
    else (((s.setPair Reg.aBRK_TIME_LO 0).modBoard fun x => { x with vbr := true, xtal := false, xtalSeen := false, xtalLost := false })).leaveReset b)

/-- BROWN_OUT. -/
def execBrownOut (s : State) : Host.Outcome State Fault Refusal :=
  answer ((s.modBoard fun b => { b with vbr := false, xtal := false }).resetBy .brownOut)

/-- A rail other than VBR and the grid rails, or REFCLK_SYS, fails: the part is reset as for a brown-out. Log entry 119 (DESIGN CHOICE, unsafe). -/
def State.supplyLost (s : State) (detail : Nat) : State :=
  let t := s.modBoard fun b => { b with rails := false }
  if t.outOfReset then t.resetBy (.supply detail) else t

/-- RAIL_FAULT: rails 0 to 8 by their select of Table 24-5, 9 for VDD_IO. A grid rail stops its quadrant; any other resets the part. -/
def State.railFault (s : State) (r : Nat) : State :=
  if r < 4 then (if s.outOfReset then s.tripQuad r Flt.PWR_RAIL true false else s)
  else s.supplyLost (if r = 9 then Config.ioDetail else r)

def execRailFault (r : Fin 10) (s : State) : Host.Outcome State Fault Refusal := answer (s.railFault r)

/-- REFCLK_SYS_LOSS. -/
def execRefclkSysLoss (s : State) : Host.Outcome State Fault Refusal := answer (s.supplyLost 0x10)

/-- REFCLK_SD_LOSS: every SerDes port loses lock. -/
def execRefclkSdLoss (s : State) : Host.Outcome State Fault Refusal :=
  answer (((List.range 4).foldl (fun (t : State) n => if t.on (Reg.QPL_PORT_STATUS_LINK_UP n) then t.linkDown n else t)
    (s.modBoard fun b => { b with refclkSd := false })).ethDown)

/-- REFCLK_SD_RETURN: each port trains again. Log entry 120 (DESIGN CHOICE, safe). -/
def execRefclkSdReturn (s : State) : Host.Outcome State Fault Refusal :=
  answer ((List.range 4).foldl (fun (t : State) n => t.portTraining n) (s.modBoard fun b => { b with refclkSd := true }))

/-! The steps (R467). -/

/-- Is the step to run next one with this action? Past step 15 the order is complete. Log entry 118 (DEDUCED, unsafe). -/
def State.stepIs (s : State) (action : Nat) : Bool :=
  match s.board.step with
  | some n => (if n < 16 then s.get (Reg.CFG_STEP_ACTION n) else 0) == action
  | none => false

/-- The step is complete. -/
def State.stepNext (s : State) : State :=
  (s.put Reg.CFG_BOOT_STATUS_PHASE 8).modBoard fun b => { b with step := b.step.map (· + 1) }

/-- WAIT_LOCK completes: every PLL of every island that is on has locked. -/
def execWaitLock (s : State) : Host.Outcome State Fault Refusal := answer (if s.stepIs 1 then s.stepNext else s)

/-- RELEASE_OUTPUTS. -/
def execReleaseOutputs (s : State) : Host.Outcome State Fault Refusal :=
  answer (if s.stepIs 2 then (s.modBoard fun b => { b with outputs := true }).stepNext else s)

/-- RELEASE_GRID: the handshakes of every Field group that is on start. -/
def execReleaseGrid (s : State) : Host.Outcome State Fault Refusal :=
  answer (if s.stepIs 3 then
    (s.modBoard fun b => { b with gridStarted := true,
                                  released := (List.range 8).foldl (fun a g => if s.domReady (32 + g) then a ||| 2 ^ g else a) b.released }).stepNext
  else s)

/-- ENABLE_WRITES. -/
def execEnableWrites (s : State) : Host.Outcome State Fault Refusal :=
  answer (if s.stepIs 4 then (s.put Reg.CFG_BOOT_STATUS_WRITES_EN 1).stepNext else s)

/-- POWER_ON: the domain of ARG is requested, and the step is complete once it is ready. -/
def State.powerOn (s : State) : State :=
  match s.board.step with
  | some n =>
    if s.stepIs 5 then
      let d := s.get (Reg.CFG_STEP_ARG n)
      let t := s.domRequest d true
      if t.domReady d then t.stepNext else t
    else s
  | none => s

def execPowerOn (s : State) : Host.Outcome State Fault Refusal := answer s.powerOn

/-- WAIT: its time has passed. -/
def execStartupWait (s : State) : Host.Outcome State Fault Refusal := answer (if s.stepIs 6 then s.stepNext else s)

/-- END: the order is complete; the record is applied and serving may begin (Order 9). Log entry 118 (DEDUCED, unsafe). -/
def execEnd (s : State) : Host.Outcome State Fault Refusal :=
  answer (if s.stepIs 0 then
    (((s.applyRecord).puts [(Reg.CFG_BOOT_STATUS_PHASE, 9), (Reg.ETH_PORT_CTRL_EN, 1)]).modBoard fun b => { b with step := none, devOk := true }).cfgShow
  else s)

/-- STARTUP_STEP_FAIL: a WAIT_LOCK or POWER_ON fails to complete. -/
def execStartupStepFail (s : State) : Host.Outcome State Fault Refusal :=
  answer (if s.stepIs 1 || s.stepIs 5 then
    (s.cfgFault Flt.CFG_STEP ((s.board.step).getD 0)).mgmtOnly 5
  else s)

end Sys2Proof.Machine
end

