-- ==== Sys2Proof/Machine/Avail.lean ====
section
/-!
DEFINITION. Continuous service (chapter 21): Field migration, the failure of control cores and of Hjelmar, configuration scrubbing, seams
and the copy of wear counts.
-/

namespace Sys2Proof.Machine

/-! Field migration (R502 to R507, Table 21-3). -/

/-- The reason of a hold by the migration of a logical Field. -/
def holdField (m : Nat) : Nat := m

/-- The migration that runs in a quadrant. -/
def State.migration (s : State) (q : Nat) : Option Migration := (s.plane.migrations.find? fun e => e.1 == q).map (·.2)

/-- Replace, or end, the migration of a quadrant. -/
def State.setMigration (s : State) (q : Nat) (x : Option Migration) : State :=
  s.modPlane fun y => { y with migrations := (y.migrations.filter (·.1 != q)) ++ (x.map fun m => (q, m)).toList }

/-- Show the Order that a migration has reached (DEV_MIGRATE_STATUS). -/
def State.migrationShow (s : State) (x : Migration) : State :=
  s.puts [(Reg.DEV_MIGRATE_STATUS_BUSY, b2n (decide (x.phase < 8))), (Reg.DEV_MIGRATE_STATUS_PHASE, x.phase), (Reg.DEV_MIGRATE_STATUS_LFIELD, x.lfield),
    (Reg.DEV_MIGRATE_STATUS_TARGET, x.dst), (Reg.DEV_MIGRATE_STATUS_LAST_FAULT, x.fault)]

/-- Move a migration to an Order. -/
def State.migrationAt (s : State) (q : Nat) (x : Migration) : State := (s.setMigration q (some x)).migrationShow x

/-- Contexts with a slot on a physical Field. -/
def State.ctxsAt (s : State) (p : Nat) : List Nat := (List.range 4).filterMap fun k => s.ctxOf p k

/-- The request to serve next: on fault first, then the lower logical number (R502). -/
def State.migrationNext (s : State) (q : Nat) : Option Migration :=
  let mine := s.plane.queued.filter fun x => x.lfield / 16 == q
  let urgent := mine.filter fun x => x.fault != 0
  let from' := if urgent.isEmpty then mine else urgent
  from'.find? fun x => from'.all fun y => decide (x.lfield ≤ y.lfield)

/-- Order 2: the legs of the contexts on Fa are written into Fb through its reconfiguration port. -/
def State.legsAhead (s : State) (src dst m : Nat) : State :=
  (s.ctxsAt src).foldl (fun (t : State) c =>
    match (t.serve c).load with
    | none => t
    | some d => (d.legs.filter fun y => y.2.lfield.val == m && imageLeg d (t.serve c).variant m y.2.unit y.2.leg == some y.2.bytes).foldl (fun (t : State) y =>
        (t.loadLeg dst y.2.unit y.2.leg y.2.bytes 10).1) t) s

/-- FIELD_MIGRATION: the next migration of a quadrant begins, where none runs there and a spare is free. A request on fault with no spare marks
the logical Field LOST (R517). Log entry 123 (DEDUCED, unsafe). -/
def State.migrationBegin (s : State) (q : Nat) : State :=
  if !s.fwRuns || (s.migration q).isSome then s
  else match s.migrationNext q with
    | none => s
    | some x =>
      let t := s.modPlane fun y => { y with queued := y.queued.filter fun z => z.lfield != x.lfield }
      match t.physOf x.lfield with
      | none => t
      | some src =>
        match t.freeFields q with
        | [] => if x.fault ≠ 0 then t.fieldLost x.lfield else t
        | dst :: _ =>
          let u := (t.put (Reg.DEV_FIELD_MAP_MIGRATING x.lfield) 1).domRequest (32 + groupOfField dst) true
          let u := if u.fieldPowered dst then u.legsAhead src dst x.lfield else u
          let u := u.migrationAt q { x with src := src, dst := dst, phase := 3, since := t.stamp }
          ((u.ctxsAt src).filter fun c => u.ctxState c == ctxIdle).foldl (fun (u : State) c => u.holdAt c (holdField x.lfield)) u

def execFieldMigration (q : Fin 4) (s : State) : Host.Outcome State Fault Refusal := answer (s.migrationBegin q)

/-- MIGRATE: a write to DEV_MIGRATE_CTRL. START has no effect while a migration runs in the quadrant, or when no spare is free. -/
def State.migrate (s : State) (v : Nat) : State :=
  if bits v 23 16 = 0 then s
  else
    let m := bits v 5 0
    let t := s.puts [(Reg.DEV_MIGRATE_CTRL_LFIELD, m), (Reg.DEV_MIGRATE_CTRL_MIGRATE_WAIT_MS, bits v 23 16)]
    if bit v 6 && (t.migration (m / 16)).isNone && t.freeFields (m / 16) != [] && (t.physOf m).isSome then t.queueMigration m 0 else t

def execMigrate (value : Word) (s : State) : Host.Outcome State Fault Refusal := answer (s.migrate value.toNat)

/-- MIGRATE_WAIT_EXPIRY: contexts on Fa still within a heat are descheduled for the copy (Order 4). -/
def State.migrateWait (s : State) (q : Nat) : State :=
  match s.migration q with
  | none => s
  | some x =>
    if x.phase ≠ 3 ∨ s.stamp < x.since + ticksOfMs (s.get Reg.DEV_MIGRATE_CTRL_MIGRATE_WAIT_MS) then s
    else
      let t := s.migrationAt q { x with phase := 4 }
      (t.ctxsAt x.src).foldl (fun (t : State) c =>
        let u := t.holdAt c (holdField x.lfield)
        if (u.ctxState c = ctxRunning ∨ u.ctxState c = ctxSuspended) ∧ u.ctxActive c = true then u.stopWhenFree c else u) t

def execMigrateWaitExpiry (q : Fin 4) (s : State) : Host.Outcome State Fault Refusal := answer (s.migrateWait q)

/-- Has a context on a Field that migrates nothing left in accumulator slots and in the row engine's working region (Table 21-3, Order 4)? -/
def State.spilledAll (s : State) (p c : Nat) : Bool :=
  ([0, 1].all fun a => (s.ma p a).tiles.all fun e => e.2.ctx != c) && (s.field p).re.runs.all fun r => r.ctx != c || r.outside || r.pairs.isEmpty

/-- May the copy run: Fb powered, every context on Fa IDLE and held, or descheduled with what it held saved, or waiting for its heat group; no
region under reconfiguration (R504)? -/
def State.copyReady (s : State) (x : Migration) : Bool :=
  s.fieldPowered x.dst && (s.ctxsAt x.src).all fun c =>
    (s.ctxState c == ctxIdle || (s.ctxState c == ctxSuspended && !s.ctxActive c && s.spilledAll x.src c) || s.ctxState c == ctxVoted) &&
      (s.serve c).held.contains (holdField x.lfield) && !s.regionBusy c

/-- Before the copy, FLUSH_INVAL_CTX of every context on the Field: the answer tells whether all it writes has been accepted. -/
def State.copyFlush (s : State) (p : Nat) : State × Bool :=
  let (t, bad, todo) := s.cmoLines p true (s.linesWhole p fun _ => true)
  (if bad then t.put (Reg.FLD_FM_CMO_STATUS_ERR p) 1 else t, todo.isEmpty && (t.ctxsAt p).all fun c => !t.cacheSending p c)

/-- Move the bytes of a range, and what is known of its words; the range is zero afterwards. -/
def State.moveMem (s : State) (a b n : Nat) : State :=
  let cells := s.mem.filter fun c => decide (a ≤ c.1 ∧ c.1 < a + n)
  let bads := s.bad.filter fun c => decide (a ≤ c.1 ∧ c.1 < a + n)
  let t := (s.mzero b n).mzero a n
  { t with mem := cells.foldl (fun m c => m.write (c.1 - a + b) c.2) t.mem,
           bad := bads.foldl (fun l c => Tab.set (fun _ => false) l (c.1 - a + b) c.2) t.bad }

/-- An uncorrectable word of MU storage met in the copy (R505): zeros, a CRIT alarm that names the context whose storage it is, and its running
sequences returned. Log entry 123 (DEDUCED, unsafe). -/
def State.muLost (s : State) (p m a : Nat) : State :=
  let owner := (s.ctxsAt p).find? fun c => match (s.serve c).load with
    | some d => d.muZero.any fun z => z.1.val == m && decide (muLoc p z.2.1 z.2.2.1 ≤ a ∧ a < muLoc p z.2.1 z.2.2.1 + z.2.2.2)
    | none => false
  let t := s.mzero a 32
  match owner with
  | none => t
  | some c =>
    let u := t.faultWith (some 0) Flt.FM_UNCORR 14 (t.coreOf (t.homeQ c)) (some m) (some c) 0
    let v := (u.serve c).batch.foldl (fun (v : State) b => v.seqFinal b.1 b.2 stRejected) u
    if v.inHeat c then v.uncommitAs c 3 Flt.FM_UNCORR else v.modServe c fun y => { y with batch := [], rerun := false }

/-- Does the Field memory or MU storage of a Field hold a word? -/
def fieldHolds (p a : Nat) : Bool :=
  decide ((fmLoc p 0 ≤ a ∧ a < fmLoc p 0 + 2 ^ 24) ∨ (muLoc p 0 0 ≤ a ∧ a < muLoc p 0 0 + 2 ^ 22))

/-- Uncorrectable words of Fa are handled before they are written to Fb (R505). -/
def State.copyFix (s : State) (p m : Nat) : State :=
  (s.bad.filterMap fun e => if e.2 then some e.1 else none).foldl (fun (t : State) a =>
    if fmLoc p 0 ≤ a ∧ a < fmLoc p 0 + 2 ^ 24 then
      (match (t.ctxsAt p).findSome? fun c => (t.serve c).load.bind fun d => if t.windowHolds p ((t.slotOf p c).getD 0) (bits a 23 0) then some (c, d) else none with
      | some (c, d) => t.fixFm c d p a
      | none => t.mzero a 32)
    else if muLoc p 0 0 ≤ a ∧ a < muLoc p 0 0 + 2 ^ 22 then t.muLost p m a
    else t) s

/-- Everything that names a physical Field as one end of work in progress names the new one, open routes among it (R504). -/
def State.renameField (s : State) (a b : Nat) : State :=
  let to' (p : Nat) : Nat := if p = a then b else p
  let user (u : QUser) : QUser := { u with field := to' u.field }
  let st (x : Station) : Station := { x with field := to' x.field }
  let wt (w : Waiter) : Waiter := { w with field := to' w.field }
  let rq (w : Requester) : Requester := if w.field.val = a then { w with field := Fin.ofNat 72 b } else w
  let sk : StkReq → StkReq
    | .read o n y e => .read o n (y.map rq) e
    | .write o bs y e => .write o bs (y.map rq) e
    | .gather os y e => .gather os (y.map rq) e
    | .scatterAdd o f m t y => .scatterAdd o f m t (rq y)
    | .atomic o k v n y => .atomic o k v n (rq y)
  let node (n : NetNode) : NetNode := if n = nodeOfField a then nodeOfField b else n
  let own : RouteUser → RouteUser
    | .chan p n k => .chan (to' p) n k
    | .dma p e n => .dma (to' p) e n
    | .tree m c k => .tree m c k
  let relay (x : RelayEntry) : RelayEntry := { x with headField := to' x.headField, next := x.next.map fun n => (to' n.1, n.2) }
  let fields := (List.range 72).foldl (fun (t : State) p => t.modField p fun f =>
    { f with relays := f.relays.map fun e => (e.1, relay e.2),
             dmas := f.dmas.map fun d => (d.1, { d.2 with runs := d.2.runs.map fun r => { r with stations := r.stations.map st } }),
             ch := { f.ch with waiters := f.ch.waiters.map wt, done := f.ch.done.map wt, outbound := f.ch.outbound.map fun o => (user o.1, o.2) } }) s
  let ports := (List.range 4).foldl (fun (t : State) n => t.modPort n fun x => { x with tags := x.tags.map fun g => { g with user := user g.user } }) fields
  let withStk := (List.range 32).foldl (fun (t : State) k => t.modStk k fun x => { x with held := x.held.map sk, remapHeld := x.remapHeld.map sk }) ports
  let ctxs := (List.range 64).foldl (fun (t : State) c => t.modCtx c fun x => { x with siltOut := x.siltOut.map to' }) withStk
  { ctxs with
    xlt := { ctxs.xlt with invalHeld := ctxs.xlt.invalHeld.map fun e => (e.1, sk e.2) },
    routes := ctxs.routes.map fun r =>
      let (x, y) := (node r.src, node r.dst)
      { r with user := own r.user, src := x, dst := y, hops := if x = r.src ∧ y = r.dst then r.hops else routeHops (ctxs.ctx r.ctx).away x y } }

/-- The legs of a Field as they go to another: the bits come from the image where an upset has changed them, the run-time state is copied. Log entry 123 (DEDUCED, unsafe). -/
def State.legsFor (s : State) (p m : Nat) (us : List (Nat × UnitState)) : List (Nat × UnitState) :=
  let fix (u : Nat) (l : Nat × Leg) : Nat × Leg :=
    if s.plane.badLegs.contains (legKey p u l.1) then
      let img := (s.ctxOf p l.2.slot).bind fun c => ((s.serve c).load).bind fun d => imageLeg d (s.serve c).variant m u l.1
      (l.1, { l.2 with cfg := img.getD l.2.cfg })
    else l
  us.map fun e => (e.1, { e.2 with legs := e.2.legs.map (fix e.1) })

/-- Registers of a Field's window that stay with the physical Field: its column maps and what they show. -/
def ownReg (off : Nat) : Bool :=
  [0, 1].any fun a => off == Reg.aFLD_MA_COLMAP 0 a % 2 ^ 20 || off == Reg.aFLD_MA_STATUS 0 a % 2 ^ 20

/-- Order 5: Field state and the run-time state of legs move from Fa to Fb, entries in switch boxes having reached their queues; Fa is left with
nothing. Log entry 123 (DEDUCED, unsafe). -/
def State.copyField (s : State) (x : Migration) : State :=
  let lo (p : Nat) : Nat := 0x2000000 + 0x100000 * p
  let s := s.gridSettle x.src
  let f := s.field x.src
  let keep := (s.field x.dst).pacer
  let moved : FieldState :=
    { f with pacer := { f.pacer with clamp := keep.clamp, stopped := keep.stopped },
             grid := { f.grid with units := s.legsFor x.src x.lfield f.grid.units } }
  let inWin (p a : Nat) : Bool := decide (lo p ≤ a ∧ a < lo p + 0x100000)
  let mine := s.regs.filter fun e => inWin x.src e.1 && !ownReg (e.1 - lo x.src)
  let own := s.regs.filter fun e => inWin x.dst e.1 && ownReg (e.1 - lo x.dst)
  let t := { s with regs := s.regs.filter fun e => !inWin x.src e.1 && !inWin x.dst e.1,
                    holds := s.holds.filter fun e => !inWin x.src (e.1 % 2 ^ 27) && !inWin x.dst (e.1 % 2 ^ 27) }
  let t := (own ++ mine.map fun e => (e.1 - lo x.src + lo x.dst, e.2)).foldl (fun (t : State) e => t.setReg e.1 e.2) t
  let t := (t.setField x.dst moved).setField x.src FieldState.reset
  let t := (t.moveMem (fmLoc x.src 0) (fmLoc x.dst 0) (2 ^ 24)).moveMem (muLoc x.src 0 0) (muLoc x.dst 0 0) (2 ^ 22)
  let t := moved.grid.units.foldl (fun (t : State) u => u.2.legs.foldl (fun (t : State) l => t.legCrc x.dst u.1 l.1 l.2.cfg) t) t
  (t.modPlane fun y =>
    { y with badLegs := y.badLegs.filter fun k => k / 256 != x.src,
             clean := (y.clean.filter fun e => e.1 / 256 == x.src).foldl (fun l e => Tab.set (fun _ => 0) l (e.1 % 256 + 256 * x.dst) e.2)
               (y.clean.filter fun e => e.1 / 256 != x.src && e.1 / 256 != x.dst) }).renameField x.src x.dst

/-- Orders 6 to 8: the map names Fb, Fa is retired, the contexts go on, and the spare map is written. Log entry 123 (DEDUCED, unsafe). -/
def State.copyDone (s : State) (q : Nat) (x : Migration) : State :=
  let t := s.copyField x
  let t := t.puts [(Reg.DEV_FIELD_MAP_PHYS x.lfield, x.dst), (Reg.DEV_FIELD_MAP_MIGRATING x.lfield, 0), (Reg.DEV_MIGRATE_STATUS_DONE, 1)]
  let t := t.modNv fun n => { n with map := { n.map with retired := n.map.retired ++ [x.src] } }
  let t := (t.setMigration q none).migrationShow { x with phase := 8 }
  let t := (t.spareAlarm (srcOf 1 x.lfield) (t.freeFields q).length).spareSave x.fault
  let cs := t.ctxsAt x.dst
  let t := cs.foldl (fun (t : State) c =>
    (t.unhold c (holdField x.lfield)).modServe c fun y => { y with replayHold := y.replayHold.filter (· != x.lfield) }) t
  (cs.map t.homeQ).eraseDups.foldl (fun (t : State) h => t.schedPoint h) t

/-- An error on Fb abandons the migration: Fb is retired, Lm stays on Fa, and a new migration is asked for where a spare is left (R506). -/
def State.migrationAbandon (s : State) (q : Nat) (x : Migration) : State :=
  let t := s.modNv fun n => { n with map := { n.map with retired := n.map.retired ++ [x.dst] } }
  let t := (t.fieldOff x.dst).puts [(Reg.DEV_FIELD_MAP_MIGRATING x.lfield, 0), (Reg.DEV_MIGRATE_STATUS_ABANDONED, 1)]
  let t := ((t.setMigration q none).migrationShow { x with phase := 8 }).spareSave x.fault
  let t := (t.ctxsAt x.src).foldl (fun (t : State) c => t.unhold c (holdField x.lfield)) t
  if t.freeFields q ≠ [] ∨ x.fault ≠ 0 then t.queueMigration x.lfield x.fault else t

/-- MIGRATION_COPY_DONE: the copy of Order 5 has ended, without or with an error on Fb. While the source of an uncorrectable word of Fa cannot be
read, the copy goes on (R505). -/
def State.migrationCopy (s : State) (q : Nat) (error : Bool) : State :=
  match s.migration q with
  | none => s
  | some x =>
    if error then s.migrationAbandon q x
    else if !s.copyReady x then s
    else
      let (t, ok) := s.copyFlush x.src
      let u := t.copyFix x.src x.lfield
      if !ok then t else if u.badWords.any (fieldHolds x.src) then u else u.copyDone q x

def execMigrationCopyDone (q : Fin 4) (error : Bool) (s : State) : Host.Outcome State Fault Refusal := answer (s.migrationCopy q error)

/-! Control cores (R508 to R511). -/

/-- The partner of a quadrant. Log entry 123 (DEDUCED, unsafe). -/
def partnerOf (q : Nat) : Nat := if q % 2 = 0 then q + 1 else q - 1

/-- The spare, or the partner's core, takes a quadrant: heats left in COMMITTING are finished where a pair has been swapped, and otherwise
abandoned and replayed (R509). -/
def State.takeover (s : State) (q : Nat) : State :=
  let t := (s.homed q).foldl (fun (t : State) c =>
    if t.ctxState c ≠ ctxCommitting then t
    else if (t.serve c).swapped ≠ 0 then t.commit c
    else (t.uncommitAs c 1 Flt.CTL_FAIL).heatAbandon c) s
  t.schedPoint q

/-- A quadrant's core has failed: its place goes to a spare, to the core of its partner, or to none (R508, R511). -/
def State.coreReplace (s : State) (n q : Nat) : State :=
  match s.freeCores with
  | m :: _ => (((s.put (Reg.DEV_CORE_MAP_CORE q) m).takeover q).spareAlarm (srcOf 5 m) (s.freeCores.length - 1)).spareSave Flt.CTL_FAIL
  | [] =>
    let m := s.coreOf (partnerOf q)
    if m = 7 ∨ m = n ∨ bit (s.get Reg.DEV_CORE_MAP_FAILED) m = true then
      ((s.put (Reg.DEV_CORE_MAP_CORE q) 7).alarm 0 Flt.CTL_FAIL (srcOf 5 n) none).spareSave Flt.CTL_FAIL
    else (((s.put (Reg.DEV_CORE_MAP_CORE q) m).takeover q).alarm 1 Flt.CTL_FAIL (srcOf 5 n) none).spareSave Flt.CTL_FAIL

/-- An active control core has failed. -/
def State.coreFailed (s : State) (n : Nat) : State :=
  let mine := (List.range 4).filter fun q => s.coreOf q == n
  if !s.fwRuns || mine.isEmpty || bit (s.get Reg.DEV_CORE_MAP_FAILED) n then s
  else
    let t := (s.put Reg.DEV_CORE_MAP_FAILED (s.get Reg.DEV_CORE_MAP_FAILED ||| 2 ^ n)).partFault 14 n Flt.CTL_FAIL n
    mine.foldl (fun (t : State) q => t.coreReplace n q) t

/-- HEARTBEAT_MISS: core `n` has missed three heartbeats. -/
def execHeartbeatMiss (n : Fin 6) (s : State) : Host.Outcome State Fault Refusal := answer (s.coreFailed n)

/-- CONTROL_CORE_UNCORR_REPORT: core `n` reports an uncorrectable error in its own memories. -/
def execControlCoreUncorrReport (n : Fin 6) (s : State) : Host.Outcome State Fault Refusal := answer (s.coreFailed n)

/-! Hjelmar (R512). -/

/-- HJELMAR_LOCKSTEP: Hjelmar alone is reset; a third mismatch within one hour leaves it in reset with FAULT_N asserted. Log entry 116 (DESIGN CHOICE, safe). Log entry 126 (DESIGN CHOICE, unsafe). -/
def State.lockstep (s : State) : State :=
  if !s.fwRuns || s.plane.hjmStopped then s
  else
    let ms := (s.plane.mismatches.filter fun t => decide (s.stamp < t + ticks1h)) ++ [s.stamp]
    let t := (s.modPlane fun y => { y with mismatches := ms }).modEth fun e => { e with hjmDown := true, nonces := [] }
    let t := t.partFault 14 0 Flt.HJM_LOCKSTEP ms.length
    if ms.length < 3 then t
    else ((t.modPlane fun y => { y with hjmStopped := true }).modBoard fun b => { b with faultHold := b.faultHold ||| 2 ^ 7 }).alarm 0 Flt.HJM_LOCKSTEP
      (srcOf 6 0) none

def execHjelmarLockstep (s : State) : Host.Outcome State Fault Refusal := answer s.lockstep

/-! Leg upsets and scrubbing (R513 to R516). -/

/-- The leg is to be reloaded when its context's heat has been abandoned. -/
def State.legBad (s : State) (key : Nat) : State := s.modPlane fun y => { y with badLegs := key :: y.badLegs.filter (· != key) }

/-- LEG_PARITY_UPSET: a parity error stops an active leg. -/
def State.parityUpset (s : State) (p u x : Nat) : State :=
  match s.leg p u x with
  | none => s
  | some l =>
    if s.legLive p u x l && s.gridRuns p then
      ((s.legFault p u x 8 u l Flt.LEG_UPSET).wearNote (wearLegs p)).legBad (legKey p u x)
    else s

def execLegParityUpset (p : Fin 72) (u : Fin 32) (x : Fin 8) (s : State) : Host.Outcome State Fault Refusal := answer (s.parityUpset p u x)

/-- Legs that an engine scrubs in a pass. -/
def scrubLegs : Nat := 2304

/-- The place of a position of engine `e`: physical Field, unit and leg. -/
def scrubPlace (e pos : Nat) : Nat × Nat × Nat := ((groupFields e).getD (pos / 256) 0, pos / 8 % 32, pos % 8)

/-- An engine reloads its configuration and state, and restarts its pass (R516). -/
def State.scrubReload (s : State) (e : Nat) : State :=
  ((s.put (Reg.CFG_SCRUB_STATUS_RELOADS e) (min 255 (s.get (Reg.CFG_SCRUB_STATUS_RELOADS e) + 1))).modPlane fun y =>
    { y with scrubs := Tab.set (fun _ => 0) y.scrubs e 0 }).faultFrom (srcOf 8 e) none Flt.SCRUB_RELOAD 14 e none none 0

/-- The engine goes on to the next leg. -/
def State.scrubNext (s : State) (e pos : Nat) : State :=
  let n := (pos + 1) % scrubLegs
  let t := s.modPlane fun y => { y with scrubs := Tab.set (fun _ => 0) y.scrubs e n }
  if n = 0 then t.put (Reg.CFG_SCRUB_STATUS_PASSES e) ((s.get (Reg.CFG_SCRUB_STATUS_PASSES e) + 1) % 65536) else t

/-- A configuration with the bits flipped that an upset has changed. Log entry 125 (DESIGN CHOICE, unsafe). -/
def flipBits (flips : List Nat) (bs : List Byte) : List Byte :=
  bs.zipIdx.map fun b => flips.foldl (fun (a : Byte) f => if f / 8 = b.2 then a ^^^ BitVec.ofNat 8 (2 ^ (f % 8)) else a) b.1

/-- Is a leg passed over: under reconfiguration or migration? -/
def State.scrubSkips (s : State) (p u x : Nat) : Bool :=
  (match (s.field p).grid.region with | some r => (rrLegs r.rcd).contains (x, u) | none => false) || s.plane.migrations.any fun e => e.2.src == p || e.2.dst == p

/-- A CRC mismatch (R515). Log entry 125 (DESIGN CHOICE, unsafe). -/
def State.crcMismatch (s : State) (e p u x : Nat) (l : Leg) : State :=
  let key := legKey p u x
  let c := s.ctxOf p l.slot
  let t := (s.put (Reg.CFG_SCRUB_STATUS_MISMATCH e) 1).wearNote (wearLegs p)
  match c with
  | none => (t.faultFrom (srcOf 8 e) none Flt.LEG_UPSET 8 u (t.lfieldOf p) none 0).legReload key
  | some c =>
    let since := Tab.get (fun _ => 0) t.plane.clean key
    let t := if since < t.heatOf c then
        t.telPush (stageOfSource (srcOf 8 e))
          { cls := 1, level := 1, source := srcOf 8 e, stamp := t.stamp, code := Flt.LEG_UPSET, ctx := some c, part := some (t.partOf c), count := 1,
            body := .heat 2 0 (t.heatOf c - since) since }
      else t
    let t := t.faultFrom (srcOf 8 e) none Flt.LEG_UPSET 8 u (t.lfieldOf p) (some c) 0
    if t.inHeat c then (t.uncommit c Flt.LEG_UPSET).legBad key else t.legReload key

/-- One leg is read and its CRC compared. -/
def State.scrubRead (s : State) (e pos : Nat) (flips : List Nat) : State :=
  let (p, u, x) := scrubPlace e pos
  match s.leg p u x with
  | none => s
  | some l =>
    if !l.valid || s.scrubSkips p u x then s
    else if crc32c (flipBits flips l.cfg) = Tab.get (fun _ => 0) s.plane.crcs (legKey p u x) then
      (match s.ctxOf p l.slot with
      | some c => s.modPlane fun y => { y with clean := Tab.set (fun _ => 0) y.clean (legKey p u x) (s.heatOf c) }
      | none => s)
    else s.crcMismatch e p u x l

/-- LEG_SCRUB: engine `e` reads the next leg. `flips` are the bits of that leg that an upset has changed, `copy` whether a copy of the engine's
state disagrees with the other two, `peerBad` whether the other engine's configuration fails its CRC, checked once a pass. Log entry 125 (DESIGN CHOICE, unsafe). -/
def State.legScrub (s : State) (e : Nat) (flips : List Nat) (copy peerBad : Bool) : State :=
  if !s.fwRuns || !s.on (Reg.CFG_SCRUB_CTRL_EN e) then s
  else if copy then s.scrubReload e
  else
    let pos := Tab.get (fun _ => 0) s.plane.scrubs e
    let peer := if e % 2 = 0 then e + 1 else e - 1
    let t := if peerBad ∧ pos = 0 then (s.put (Reg.CFG_SCRUB_STATUS_PEER_BAD e) 1).scrubReload peer else s
    (t.scrubRead e pos flips).scrubNext e pos

def execLegScrub (e : Fin 8) (flips : List (Fin 2048)) (copy peerBad : Bool) (s : State) : Host.Outcome State Fault Refusal :=
  answer (s.legScrub e (flips.map (·.val)) copy peerBad)

/-! Seams (R518). -/

/-- SEAM_DIRECTION_FAIL: direction `d` has failed; heats with a route across it are abandoned, and the routes go the other way round. Log entry 126 (DESIGN CHOICE, unsafe). -/
def State.seamFail (s : State) (d : Nat) : State :=
  if !s.on (Reg.SEAM_DIR_STATUS_LINK_UP d) then s
  else
    let hit := (s.openRoutes.filter fun r => r.2.contains d).map (·.1)
    let t := (s.put (Reg.SEAM_DIR_STATUS_LINK_UP d) 0).faultFrom (srcOf 9 d) (faultSev Flt.SEAM_DOWN) Flt.SEAM_DOWN 14 d none none d
    let t := hit.foldl (fun (t : State) c => t.uncommitAs c 1 Flt.SEAM_DOWN) t
    t.modPlane fun y => { y with routesAway := d :: y.routesAway.filter (· != d), routesBack := y.routesBack.filter (· != d) }

def execSeamDirectionFail (d : Fin 8) (s : State) : Host.Outcome State Fault Refusal := answer (s.seamFail d)

/-- SEAM_RETRAIN: a failed direction retrains; where it carries traffic again, its routes are restored at a later boundary. Log entry 126 (DESIGN CHOICE, unsafe). -/
def State.seamRetrain (s : State) (d : Nat) (ok : Bool) : State :=
  if s.plane.routesAway.contains d && s.domReady (45 + d / 2) && ok && !s.on (Reg.SEAM_DIR_STATUS_LINK_UP d) then
    (s.put (Reg.SEAM_DIR_STATUS_LINK_UP d) 1).modPlane fun y => { y with routesBack := d :: y.routesBack.filter (· != d) }
  else s

def execSeamRetrain (d : Fin 8) (ok : Bool) (s : State) : Host.Outcome State Fault Refusal := answer (s.seamRetrain d ok)

/-! Wear counts (R500). -/

/-- WEAR_COUNT_COPY: every 10 minutes the counts go into the spare map. -/
def execWearCountCopy (s : State) : Host.Outcome State Fault Refusal := answer (if s.fwRuns then s.spareSave 0 else s)

end Sys2Proof.Machine
end

