-- ==== Sys2Proof/Machine/Csp.lean ====
section
/-!
DEFINITION. CSP messages as they come in: reassembly, admission, SUBMIT, CANCEL and STATUS (R384 to R393).
-/

namespace Sys2Proof.Machine

/-! Reassembly (R384). -/

/-- Do two messages come from one source: address, port and VLAN? Log entry 92 (DEDUCED, unsafe). -/
def samePeer (a b : Peer) : Bool := a.v6 == b.v6 && a.ip == b.ip && a.port == b.port && a.vlan == b.vlan

/-- Refuse a message as MALFORMED (R384, R399). -/
def State.cspBad (s : State) (p : Peer) (typ part id : Nat) : State :=
  (s.ethFault Flt.CSP_MALFORMED 0).cspAnswer p typ stMalformed part id []

/-- Does a header name a message that the part takes, with fragments that fit its length? Log entry 92 (DEDUCED, unsafe). -/
def CspHead.fits (h : CspHead) : Bool :=
  (h.typ == cspSubmit || h.typ == cspCancel || h.typ == cspStatus || h.typ == cspMgmt) &&
    decide (h.len ≤ 2 ^ 20) && h.frags == max 1 ((h.len + 8191) / 8192) && decide (h.frag < h.frags)

/-- Is the payload of a fragment as long as its place in the message says? Log entry 92 (DEDUCED, unsafe). -/
def CspHead.sized (h : CspHead) (n : Nat) : Bool := n == min 8192 (h.len - 8192 * h.frag)

/-- Is the length of a message one that its type allows (Table 16-4)? -/
def lengthOk (typ len : Nat) : Bool :=
  if typ = cspCancel then len == 0
  else if typ = cspStatus then len == 0 || len == 4
  else true

/-- Does a management request name an operation of Table 16-9? Log entry 92 (DEDUCED, unsafe). -/
def knownOp (op : Nat) : Bool :=
  [opNonce, opDcsRead, opDcsWrite, opServeStart, opServeStop, opSetShares, opLoadWeights, opPowerGrant, opSubscribe, opMacsec, opWindow, opQp,
    opStage, opRecord, opAttest, opAudit, opEnrol].contains op

/-- A message is whole: it is queued, or refused where its status, its length or its management layout is bad, or its operation unknown. While Hjelmar is away the
control core of Q1 answers management requests with QUEUE_FULL (R512). -/
def State.messageIn (s : State) (status : Nat) (m : CspMsg) : State :=
  if m.typ = cspMgmt then
    if !s.hjmUp then s.cspAnswer m.src m.typ stQueueFull m.part m.id []
    else match (if status = 0 then MgmtReq.parse m else none) with
      | some q => if knownOp q.op then s.modEth fun e => { e with msgs := e.msgs ++ [m] } else s.mgmtTurnAway m q ((s.mgmtRefusal q (s.keyOf q.key) true).getD stMalformed)
      | none => s.mgmtTurnAway m (MgmtReq.read m) stMalformed
  else if status ≠ 0 ∨ lengthOk m.typ m.body.length = false then s.cspBad m.src m.typ m.part m.id
  else s.modEth fun e => { e with msgs := e.msgs ++ [m] }

/-- The message of a reassembly whose fragments are all here. -/
def Reasm.whole (r : Reasm) : Option CspMsg :=
  if (List.range r.count).all fun i => r.frags.any (·.1 == i) then
    some { src := r.src, typ := r.typ, flags := r.flags, part := r.part, id := r.id,
           body := (List.range r.count).flatMap fun i => ((r.frags.find? (·.1 == i)).map (·.2)).getD [] }
  else none

/-- A fragment joins the reassembly of its message. Log entry 92 (DEDUCED, unsafe). -/
def State.fragmentIn (s : State) (p : Peer) (h : CspHead) (bs : List Byte) : State :=
  let mine (r : Reasm) : Bool := samePeer r.src p && r.id == h.id
  let r := match s.eth.reasm.find? mine with
    | some r => r
    | none => { src := p, id := h.id, typ := h.typ, flags := h.flags, status := h.status, len := h.len, count := h.frags, part := h.part,
                frags := [], at' := s.stamp }
  let r := { r with status := max r.status h.status, frags := if r.frags.any (·.1 == h.frag) then r.frags else r.frags ++ [(h.frag, bs)] }
  match r.whole with
  | some m => (s.modEth fun e => { e with reasm := e.reasm.filter fun x => !mine x }).messageIn r.status m
  | none => s.modEth fun e => { e with reasm := (e.reasm.filter fun x => !mine x) ++ [r] }

/-- Is a reassembly open for the message of a fragment whose first fragment says otherwise (R384)? -/
def State.otherMessage (s : State) (p : Peer) (h : CspHead) : Bool :=
  match s.eth.reasm.find? fun r => samePeer r.src p && r.id == h.id with
  | some r => decide (r.typ ≠ h.typ ∨ r.len ≠ h.len ∨ r.count ≠ h.frags ∨ r.part ≠ h.part)
  | none => false

/-- A datagram to the CSP port. Log entry 92 (DEDUCED, unsafe). -/
def State.datagramIn (s : State) (p : Peer) (d : List Byte) : State :=
  match CspHead.parse d with
  | none => s.ethDrop
  | some (h, bs) =>
    if h.typ = cspResult ∨ h.typ = cspTelemetry ∨ bit h.flags 2 = true then s.ethDrop
    else if s.otherMessage p h then s.ethDrop
    else if h.fits && h.sized bs.length then s.fragmentIn p h bs
    else s.cspBad p h.typ h.part h.id

/-- A frame that carries a datagram. -/
def isUdp (f : EthFrame) : Bool := match f.body with | .udp .. => true | _ => false

/-- CSP_DATAGRAM: the first datagram in the receive buffer. -/
def State.cspDatagram (s : State) : State :=
  match s.eth.rxq.find? isUdp with
  | none => s
  | some f => match f.body with
    | .udp sport _ d => (s.rxTake isUdp).datagramIn (framePeer f sport) d
    | _ => s

def execCspDatagram (s : State) : Host.Outcome State Fault Refusal := answer s.cspDatagram

/-- REASSEMBLY_TIMEOUT: messages that are not whole 10 ms after their first fragment are discarded without answer. -/
def execReassemblyTimeout (s : State) : Host.Outcome State Fault Refusal :=
  answer (s.modEth fun e => { e with reasm := e.reasm.filter fun r => decide (s.stamp < r.at' + ticks10ms) })

/-! Admission (R385). -/

/-- Does an address lie within a prefix of `len` bits? -/
def inPrefix (v6 : Bool) (addr ip len : Nat) : Bool :=
  let w := if v6 then 128 else 32
  addr / 2 ^ (w - len) == ip / 2 ^ (w - len)

/-- Does admission entry `n` match a source? -/
def State.admitMatch (s : State) (n : Nat) (p : Peer) : Bool :=
  s.on (Reg.ETH_ADMIT_EN n) && s.get (Reg.ETH_ADMIT_VLAN n) == p.vlan.getD 0 &&
    (match s.srv.prefixes.find? (·.1 == n) with
     | some (_, v6, a, len) => v6 == p.v6 && inPrefix v6 a p.ip len
     | none => true)

/-- May a source use a partition: has its first matching entry the partition's bit set? -/
def State.admits (s : State) (p : Peer) (part : Nat) : Bool :=
  match (List.range 64).find? fun n => s.admitMatch n p with
  | some n => bit (s.get (Reg.ETH_ADMIT_PART_MASK n)) part
  | none => false

/-! SUBMIT (R386 to R388). -/

/-- A SUBMIT payload as Table 16-6 lays it out. -/
structure Submit where
  model : Nat
  window : Nat
  prio : Nat
  maxHeats : Nat
  inputs : Option Nat
  outAt : Option Nat
  seqs : List (Nat × Nat)
  data : List Byte
  deriving DecidableEq, Repr

/-- Read a SUBMIT payload; none where it is malformed. -/
def Submit.parse (b : List Byte) : Option Submit :=
  let n := leAt b 4 2
  let head := 32 + 8 * n
  let seqs := (List.range n).map fun i => (leAt b (32 + 8 * i) 4, leAt b (36 + 8 * i) 4)
  let total := seqs.foldl (fun a x => a + x.2) 0
  let inl := bit (leAt b 6 1) 0
  if b.length < 32 ∨ n = 0 ∨ 1024 < n ∨ 1 < leAt b 6 1 ∨ 7 < leAt b 7 1 ∨ 63 < leAt b 12 4 ∨
      b.length ≠ head + (if inl then total else 0) then none
  else some
    { model := leAt b 0 4, window := leAt b 12 4, prio := leAt b 7 1, maxHeats := leAt b 8 4,
      inputs := if inl then none else some (leAt b 16 8), outAt := if leAt b 24 8 = 2 ^ 64 - 1 then none else some (leAt b 24 8),
      seqs := seqs, data := b.drop head }

/-- The sequences of a request, with inline inputs cut out of the payload. -/
def Submit.runs (q : Submit) : Nat → List (Nat × Nat) → List SeqRun
  | _, [] => []
  | off, (tokens, n) :: rest =>
    { inLen := n, inOff := off, input := if q.inputs.isNone then some ((q.data.drop off).take n) else none, tracked := tokens, slot := none,
      ended := false } :: q.runs (off + n) rest

/-- The context that serves a model in a partition: of several, the lowest number. Log entry 93 (DEDUCED, unsafe). -/
def State.serves (s : State) (part model : Nat) : Option (Nat × CtxLoad) :=
  (s.loaded.filterMap fun c => ((s.serve c).load).map fun d => (c, d)).find? fun x => s.partOf x.1 == part && x.2.decl.model == model

/-- Requests of a partition with a sequence not yet in a batch. -/
def State.queueLen (s : State) (part : Nat) : Nat := (s.srv.reqs.filter fun r => r.part == part && r.queued).length

/-- What a SUBMIT that is well formed and admitted comes to (R387, points 3 to 7). Log entry 93 (DEDUCED, unsafe). -/
def State.submitCheck (s : State) (part : Nat) (q : Submit) : Nat × Option (Nat × CtxLoad) :=
  if !s.on (Reg.SCH_PART_CFG_EXISTS part) then (stNoContext, none)
  else if !s.on (Reg.SCH_PART_CFG_SERVING part) then (stNotServing, none)
  else match s.serves part q.model with
    | none => (stNoContext, none)
    | some (c, d) =>
      if q.seqs.any fun x => decide (loadLimit d (loadLast d) < x.1) then (stShapePlan, none)
      else if s.get Reg.ETH_CSP_CTRL_QUEUE_MAX < s.queueLen part + 1 ∨
          s.bufTotal part < q.seqs.length * loadOutMax d then (stQueueFull, none)
      else (stOk, some (c, d))

/-- Admit a request: it enters the queue; a context that it makes ready is a scheduling point (R406). Log entry 93 (DEDUCED, unsafe). -/
def State.admitReq (s : State) (m : CspMsg) (q : Submit) (c : Nat) : State :=
  let r : Request :=
    { order := s.srv.orders, src := m.src, id := m.id, part := m.part, ctx := c, prio := q.prio, maxHeats := q.maxHeats,
      place := q.inputs.map fun o => (q.window, o), outAt := q.outAt, seqs := q.runs 0 q.seqs, heats := 0, stream := 0, kept := [],
      cancelled := false, admitted := s.stamp, ended := none }
  let t := s.modSrv fun v => { v with reqs := v.reqs ++ [r], orders := v.orders + 1 }
  if s.ready c then t else t.schedPoint (t.homeQ c)

/-- A duplicate of a request admitted within the last 60 s (R388). -/
def State.duplicate (s : State) (m : CspMsg) : Bool :=
  s.srv.reqs.any fun r => samePeer r.src m.src && r.id == m.id && decide (s.stamp < r.admitted + 60 * ticks1s)

/-- Take the first message of a type that waits. -/
def State.takeMsg (s : State) (typ : Nat) : Option (CspMsg × State) :=
  match s.eth.msgs.find? fun m => m.typ == typ with
  | some m => some (m, s.modEth fun e => { e with msgs := dropFirst (fun x => x.typ == typ) e.msgs })
  | none => none

/-- SUBMIT: the checks in order, one status. -/
def State.submit (s : State) : State :=
  match s.takeMsg cspSubmit with
  | none => s
  | some (m, t) =>
    let ans (u : State) (st : Nat) : State := u.cspAnswer m.src cspSubmit st m.part m.id []
    match (if m.part < 16 then Submit.parse m.body else none) with
    | none => t.cspBad m.src cspSubmit m.part m.id
    | some q =>
      if !t.admits m.src m.part then ans t stNotAllowed
      else if t.duplicate m then ans t stOk
      else match t.submitCheck m.part q with
        | (st, some (c, _)) => ans (t.admitReq m q c) st
        | (st, none) => ans t st

def execSubmit (s : State) : Host.Outcome State Fault Refusal := answer s.submit

/-! CANCEL and STATUS (R391, R393). -/

/-- A request by source, REQUEST_ID and partition: the newest. -/
def State.request (s : State) (m : CspMsg) : Option Request :=
  s.srv.reqs.reverse.find? fun r => samePeer r.src m.src && r.id == m.id && r.part == m.part

/-- Cancel a request: at once where it is queued or its context stands at a boundary, else at the next boundary. Log entry 94 (DESIGN CHOICE, unsafe). -/
def State.cancelReq (s : State) (r : Request) : State :=
  if r.ended.isSome then s
  else if !r.inBatch || (s.ctxState r.ctx == ctxIdle && !(s.serve r.ctx).rerun) then s.reqFinal r stCancelled
  else s.modReq r.order fun q => { q with cancelled := true }

/-- CANCEL. Log entry 94 (DESIGN CHOICE, unsafe). -/
def State.cancel (s : State) : State :=
  match s.takeMsg cspCancel with
  | none => s
  | some (m, t) =>
    if 16 ≤ m.part then t.cspBad m.src cspCancel m.part m.id
    else if !t.admits m.src m.part then t.cspAnswer m.src cspCancel stNotAllowed m.part m.id []
    else
      let u := t.cspAnswer m.src cspCancel stOk m.part m.id []
      match u.request m with
      | some r => u.cancelReq r
      | none => u

def execCancel (s : State) : Host.Outcome State Fault Refusal := answer s.cancel

/-- The 16 bytes of Table 16-11. -/
def statusAnswer (state running next oldest : Nat) : List Byte :=
  leBytes 1 state ++ leBytes 1 0 ++ leBytes 2 running ++ leBytes 4 next ++ leBytes 4 oldest ++ leBytes 4 0

/-- What a STATUS query of a request answers. -/
def Request.status (r : Request) : List Byte :=
  statusAnswer (if r.ended.isSome then 2 else if r.inBatch then 1 else 0) (r.seqs.filter fun q => !q.ended).length r.stream
    (match r.kept with | k :: _ => k.stream | [] => r.stream)

/-- Is stream number `a` at or after `b`, as numbers that wrap? Log entry 93 (DEDUCED, unsafe). -/
def streamFrom (a b : Nat) : Bool := decide ((a + 2 ^ 32 - b) % 2 ^ 32 < 2 ^ 31)

/-- STATUS about the subscription: a resend of its datagrams (R398). Log entry 95 (DESIGN CHOICE, unsafe). -/
def State.telStatus (s : State) (m : CspMsg) : State :=
  match s.tel.subscription with
  | none => s.cspAnswer m.src cspStatus stOk m.part m.id (statusAnswer 3 0 0 0)
  | some b =>
    if b.id ≠ m.id then s.cspAnswer m.src cspStatus stOk m.part m.id (statusAnswer 3 0 0 0)
    else
      let t := s.cspAnswer m.src cspStatus stOk m.part m.id (statusAnswer 1 0 b.stream ((s.tel.sent.head?.map (·.1)).getD b.stream))
      if bit m.flags 1 && m.body.length == 4 then t.telResend (leAt m.body 0 4) else t

/-- STATUS: the answer, and a resend of kept datagrams where it is asked for. -/
def State.statusQuery (s : State) : State :=
  match s.takeMsg cspStatus with
  | none => s
  | some (m, t) =>
    if m.part = 0xFF then t.telStatus m
    else if 16 ≤ m.part then t.cspBad m.src cspStatus m.part m.id
    else if !t.admits m.src m.part then t.cspAnswer m.src cspStatus stNotAllowed m.part m.id []
    else match t.request m with
      | none => t.cspAnswer m.src cspStatus stOk m.part m.id (statusAnswer 3 0 0 0)
      | some r =>
        let u := t.cspAnswer m.src cspStatus stOk m.part m.id r.status
        if bit m.flags 1 && m.body.length == 4 then
          (r.kept.filter fun k => streamFrom k.stream (leAt m.body 0 4)).foldl (fun v k => v.resultAgain r k) u
        else u

def execCspStatus (s : State) : Host.Outcome State Fault Refusal := answer s.statusQuery

/-- REQUEST_STATE_EXPIRY: an ended request is kept for 60 s, and for as long as a RESULT of it waits to be sent (R391, R392). -/
def execRequestStateExpiry (s : State) : Host.Outcome State Fault Refusal :=
  answer (s.modSrv fun v => { v with reqs := v.reqs.filter fun r => match r.ended with
    | some t => decide (s.stamp < t + 60 * ticks1s) || r.kept.any (s.resultWaits r)
    | none => true })

end Sys2Proof.Machine
end

