-- ==== Sys2Proof/Machine/DcsBus.lean ====
section
/-!
DEFINITION. The device control space as its requesters see it: reads, writes by the access codes of the fields, registers whose writes do more,
and what an access that cannot take place leaves (R11 to R18, R456, R477, R538 to R543).
-/

namespace Sys2Proof.Machine

/-- Record an access that was refused or found no register (R15, R540 to R542). Log entry 20 (DESIGN CHOICE, unsafe). Log entry 26 (DESIGN CHOICE, unsafe). -/
def State.dcsErr (s : State) (a : Nat) (write mgmt : Bool) (cause : Nat) : State :=
  s.puts [(Reg.DEV_DCS_ERR_ADDR, a), (Reg.DEV_DCS_ERR_WRITE, b2n write), (Reg.DEV_DCS_ERR_FROM_MGMT, b2n mgmt),
    (Reg.DEV_DCS_ERR_CAUSE, cause), (Reg.DEV_DCS_ERR_SEEN, 1)]

/-- Is the window of physical Field `p` unavailable: its group off, or the Field retired (R541)? Log entry 21 (DESIGN CHOICE, unsafe). -/
def State.windowGone (s : State) (p : Nat) : Bool := !s.domReady (32 + groupOfField p) || s.nv.map.retired.contains p

/-- The Field whose window an address lies in. -/
def windowOf (a : Nat) : Option Nat := match decodeAddr a with | some (.fld, p, _) => some p | _ => none

/-- Is the window of a Field one of a migration that runs (R542)? Log entry 25 (DEDUCED, unsafe). -/
def State.windowMoving (s : State) (p : Nat) : Option Migration := (s.plane.migrations.find? fun e => e.2.src == p || e.2.dst == p).map (·.2)

/-! Reads. -/

/-- Bits of a register that a read returns: WO fields read zero (Table 0-4). -/
def readMask : List FieldRow → Nat → Nat
  | [], w => w
  | f :: fs, w => readMask fs (if f.acc = .wo then setBits w f.hi f.lo 0 else w)

/-- The value a register shows. -/
def State.shown (s : State) (a : Nat) : Nat :=
  match regRow? a with
  | some r => readMask r.fields (s.rdN a)
  | none => 0

/-- A requester's read of an assigned register: the lower register of a wide counter captures the upper part for the next read of the
upper register by the same requester (R17, R18). Log entry 24 (DESIGN CHOICE, unsafe). -/
def State.wideRead (s : State) (req a : Nat) : State × Nat :=
  let key := 2 ^ 27 * req + a
  let t := if wideLower a then { s with holds := Tab.insert s.holds (key + 4) (s.rd (a + 4)) } else s
  match s.holds.find? fun e => e.1 == key with
  | some e => ({ t with holds := Tab.erase t.holds key }, e.2.toNat)
  | none => (t, s.shown a)

/-- Requesters of R17. Log entry 24 (DESIGN CHOICE, unsafe). -/
def reqMgmt : Nat := 1
/-- Log entry 24 (DESIGN CHOICE, unsafe). -/
def reqSmb : Nat := 2

/-- Where a management read of a moving window is served: from the old Field's window until Order 6 (R542). Log entry 25 (DEDUCED, unsafe). -/
def State.readPlace (s : State) (mgmt : Bool) (a : Nat) : Nat :=
  match (if mgmt then (windowOf a).bind s.windowMoving else none) with
  | some x => 0x2000000 + 0x100000 * x.src + a % 0x100000
  | none => a

/-- A read of the register at an address: zero where it is refused, unassigned or unavailable (R15, R540, R541). Log entry 20 (DESIGN CHOICE, unsafe). -/
def State.dcsRead (s : State) (req addr : Nat) : State × Nat :=
  let mgmt := req == reqMgmt
  if addr % 4 ≠ 0 then (s.dcsErr addr false mgmt 1, 0)
  else
    let a := s.readPlace mgmt addr
    match regRow? a with
    | none => (s.dcsErr addr false mgmt 0, 0)
    | some _ => if ((windowOf a).map s.windowGone).getD false then (s.dcsErr addr false mgmt 2, 0) else s.wideRead req a

/-! Writes. -/

/-- The word a register holds after a write, field by field (Table 0-4). `open'` says whether RWL fields may be written, `only` whether nothing
else may. Log entry 23 (DEDUCED, unsafe). -/
def mergeWord (open' only : Bool) : List FieldRow → Nat → Nat → Nat
  | [], old, _ => old
  | f :: fs, old, v =>
    let x := bits old f.hi f.lo
    let y := bits v f.hi f.lo
    let z := match f.acc with
      | .ro => x
      | .wo => x
      | .rw => if only then x else y
      | .w1c => if only then x else x - (x &&& y)
      | .w1s => if only then x else x ||| y
      | .rwl => if open' then y else x
    mergeWord open' only fs (setBits old f.hi f.lo z) v

/-- Has a register an RWL field? Log entry 23 (DEDUCED, unsafe). -/
def hasLocked (r : RegRow) : Bool := r.fields.any fun f => f.acc == .rwl

/-- A write by the access codes alone. -/
def State.dcsStore (s : State) (r : RegRow) (open' only : Bool) (a v : Nat) : State :=
  s.setReg a (BitVec.ofNat 32 (mergeWord open' only r.fields (s.rdN a) v))

/-- The index of an offset within a family of registers. -/
def famIdx (off base stride count : Nat) : Option Nat :=
  if base ≤ off ∧ (off - base) % stride = 0 ∧ (off - base) / stride < count then some ((off - base) / stride) else none

/-- Does a value break a range that leaves the whole register unchanged? Log entry 27 (DESIGN CHOICE, unsafe). -/
def breaksRange (s : State) (b : Block) (i off v : Nat) : Bool :=
  let out (x lo hi : Nat) : Bool := decide (x < lo ∨ hi < x)
  match b with
  | .pwr => off == 0x4 && (out (bits v 9 0) 250 700 || out (bits v 25 16) 250 (bits v 9 0))
  | .brk =>
    (match famIdx off 0x100 4 6 with
     | some 4 => false
     | some 5 => decide (1800 < bits v 11 0 ∨ bits v 13 12 = 3)
     | some _ => out (bits v 11 0) 100 115
     | none => false)
  | .eth =>
    (off == 0x10 && (bits v 15 0 == 0 || bits v 27 16 == 0)) ||
      (match famIdx off 0x408 0x10 64 with
       | some n => decide (2 ^ 25 < s.get (Reg.ETH_ROCE_WIN_BASE_OFFSET n) + bits v 25 0)
       | none => false)
  | .qpl =>
    (off == 0x60 && bits v 15 0 < 100) ||
      (off == 0x64 && (out (bits v 12 8) 14 24 || out (bits v 17 13) 12 (bits v 12 8)))
  | .xlt => off == 0x4 && bits v 15 0 == 0
  | .sch =>
    (off == 0 && (out (bits v 2 0) 1 4 || bits v 15 4 == 0 || bits v 23 16 == 0 || bits v 31 24 < 21)) ||
      ((famIdx off 0x100 0x10 16).isSome && bits v 15 0 == 0)
  | .tel => off == 0 && (bits v 3 2 == 3 || out (bits v 31 16) 1 10000)
  | .cfg => (famIdx off 0x300 0x10 8).isSome && out (bits v 15 1) 1 1000
  | .stk =>
    (off == 0x4 && (decide (4 < bits v 2 0) || out (bits v 7 3) 10 24)) || (off == 0x20 && out (bits v 15 1) 100 32767)
  | .fld =>
    (off == 0x3400 && out (bits v 5 1) 12 24) || ((famIdx off 0x4010 4 8).isSome && decide (256 < bits v 7 0 + bits v 16 8)) ||
      (off == 0x4080 && out (bits v 4 0) 8 20) || (off == 0x40A0 && out (bits v 5 1) 10 20) ||
      ((famIdx off 0x7404 0x20 16).isSome && (bits v 4 0 == 1 || bits v 4 0 == 2 || decide (16 < bits v 4 0))) ||
      ((famIdx off 0x8110 4 8).isSome && bits v 27 16 == 0) ||
      (match famIdx off 0x5300 8 4 with
       | some _ =>
         let ns := (List.range 32).filter fun n => bit v n
         decide (16 < ns.length) || decide (1 < ((ns.map fun n => s.get (Reg.FLD_CH_RX_STATE_CTX i n)).eraseDups).length)
       | none => false)
  | _ => false

/-- A write to `FLD_CH_PORT_BIND`: a channel that names a port bound to an engine waits until that binding ends (R182); a post port is left
alone. Log entry 31 (DESIGN CHOICE, unsafe). -/
def State.chPortBind (s : State) (p g v : Nat) : State :=
  let peer := s.get (Reg.FLD_GP_BIND_PEER p g)
  let t := s.setReg (Reg.aFLD_CH_PORT_BIND p g) (BitVec.ofNat 32 (bits v 8 0))
  if bits v 1 0 = 0 then (if peer = 3 then t.gpFree p g else t)
  else if s.get (Reg.FLD_GP_POST_TARGET p g) ≠ 0 then s
  else if peer = 0 ∨ peer = 3 then t.gpChan p g
  else t

/-- A write to `FLD_HRD_OP`: codes 1 and 3 have no effect. -/
def State.hrdOp (s : State) (p v : Nat) : State :=
  match bits v 1 0 with
  | 0 => s.arriveVid p (bits v 3 2) (bits v 13 4) (bits v 29 14)
  | 2 => s.claimVid p (bits v 3 2) (bits v 13 4) (bits v 29 14)
  | _ => s

/-- A write to `FLD_RING_OP`: codes 0 and 3 have no effect. -/
def State.ringOp (s : State) (p v : Nat) : State :=
  match bits v 1 0 with
  | 1 => s.ringProduce p (bits v 5 2) (bits v 7 6) (bits v 31 8)
  | 2 => s.ringFree p (bits v 5 2) (bits v 7 6)
  | _ => s

/-- A write to `FLD_CH_OPEN`, an OPEN or a CLOSE by its descriptor. -/
def State.chOpenWrite (s : State) (p v : Nat) : State :=
  match (s.chPost p v).2 with
  | some d => if fw d 0 7 0 = 0x61 then s.chClose p v else s.chOpen p v
  | none => s.chOpen p v

/-- A write to a register of a Field's window. `t` is the state after the access codes. -/
def State.fldWrite (s t : State) (p off v : Nat) : State :=
  if off = 0x200 then s.pacerWrite p v
  else if off = 0x2004 then s.cntClear p (bit v 0) (bit v 1)
  else if off = 0x3500 then s.reconfPost p v
  else if off = 0x3600 then s.walkPost p v
  else if off = 0x4000 then s.sliceModeWrite p v
  else if off = 0x404C then s.cmoCtrlWrite p v
  else if off = 0x5000 then s.chOpenWrite p v
  else if off = 0x5004 then s.chSend p v
  else if off = 0x6000 then s.hrdOp p v
  else if off = 0x7600 then s.ringOp p v
  else match famIdx off 0x1100 4 2, famIdx off 0x1400 4 2, famIdx off 0x7000 4 4, famIdx off 0x3080 4 16, famIdx off 0x5200 4 32 with
  | some a, _, _, _, _ => s.seqPost p a v
  | _, some e, _, _, _ => s.engPost p e v
  | _, _, some d, _, _ => s.dmaPost p d v
  | _, _, _, some g, _ => s.gpPostBind p g v
  | _, _, _, _, some n => s.rptrWrite p n (bits v 19 0)
  | _, _, _, _, _ =>
    match famIdx off 0x5300 8 4, famIdx off 0x5304 8 4, famIdx off 0x5340 4 16, famIdx off 0x8000 8 4, famIdx off 0x4060 4 4 with
    | some _, _, _, _, _ => t.selShow p
    | _, some _, _, _, _ => t.selShow p
    | _, _, some g, _, _ => s.chPortBind p g v
    | _, _, _, some k, _ => s.ctxMapWrite p k v
    | _, _, _, _, some n => t.bankReqWritten p n
    | _, _, _, _, _ => t

/-- A write to a register of Quipel port `n`. Log entry 29 (DESIGN CHOICE, unsafe). -/
def State.qplWrite' (s t : State) (n off v : Nat) : State :=
  if off = 0 then
    if bit v 0 then t
    else ((if s.on (Reg.QPL_PORT_STATUS_LINK_UP n) then t.linkDown n else t).put (Reg.QPL_PORT_STATUS_TRAINING n) 0)
  else if off = 0x40 then
    if !bit v 4 then t else if 4 < bits v 2 0 then t.put (Reg.QPL_STEER_FAIL n) 1 else t.qplSteer n (bits v 2 0) (bits v 3 3)
  else match famIdx off 0x1000 4 1024 with
    | some d => (List.range 4).foldl (fun (u : State) k => u.modPort k fun x => { x with rerouted := d :: x.rerouted.filter (· != d) }) t
    | none => t

/-- A write to a register of stack `k`. The row of a remap in progress stays. Log entry 27 (DESIGN CHOICE, unsafe). Log entry 28 (DESIGN CHOICE, unsafe). -/
def State.stkWrite (s t : State) (k off v : Nat) : State :=
  if off = 0x4 then t.stkReqWritten k
  else if off = 0x30 then
    let u := t.put (Reg.STK_SPARE_CTRL_DIE k) (bits v 3 0)
    if bit v 4 then u.dieCopyStart k (bits v 3 0) else u
  else if off = 0x38 then
    if s.on (Reg.STK_ROW_REMAP_BUSY k) then
      t.puts [(Reg.STK_ROW_REMAP_PC k, s.get (Reg.STK_ROW_REMAP_PC k)), (Reg.STK_ROW_REMAP_BANK k, s.get (Reg.STK_ROW_REMAP_BANK k)),
        (Reg.STK_ROW_REMAP_ROW k, s.get (Reg.STK_ROW_REMAP_ROW k))]
    else if bit v 25 && decide (bits v 24 11 < 12288) then t.rowRequest k (bits v 4 0) (bits v 10 5) (bits v 24 11)
    else t
  else t

/-- What a write does beyond the access codes, or in their place. Log entry 27 (DESIGN CHOICE, unsafe). Log entry 30 (DESIGN CHOICE, unsafe). -/
def State.regWrite (s t : State) (b : Block) (i off v : Nat) : State :=
  match b with
  | .dev => if off = 0x108 then s.migrate v else t
  | .pwr => (match famIdx off 0x200 4 2 with | some w => s.domReqWrite w v | none => t)
  | .eth =>
    if off ≠ 0 then t
    else if bit v 0 = false then (if s.on Reg.ETH_PORT_STATUS_LINK_UP then t.ethDown else t)
    else if bit v 1 then (t.ethRetry (Config.lanesFailed s.fresh)).bumpFresh
    else t
  | .qpl => s.qplWrite' t i off v
  | .xlt =>
    if off = 0x1C then
      (match bits v 1 0 with
       | 1 => s.invalRangeStart (bits v 7 2)
       | 2 => s.invalCtxStart (bits v 7 2)
       | 3 => s.invalAllStart
       | _ => s)
    else if off = 0x30 then s.resolveWrite v
    else t
  | .tel =>
    if off = 0x34 then (t.modTel fun x => { x with epoch := s.rdN Reg.aTEL_EPOCH_LO + 2 ^ 32 * v })
    else if off = 0x84 then s.alarmAck v
    else t
  | .stk => s.stkWrite t i off v
  | .fld => s.fldWrite t i off v
  | _ => t

/-- Who writes: a control core, or a management request of a role (R456, R477). -/
inductive DcsWriter where
  | core
  | mgmt (role : Nat)
  deriving DecidableEq, Repr

/-- What a management request may write of a register (Table 23-1, R456, R477): nothing and refused, nothing, RWL fields only, or
every field its codes allow. -/
inductive MgmtMode where
  | refused | nothing | locked | all
  deriving DecidableEq, Repr

/-- The right of a role to a register: 1 maker, 2 installer, 3 operator. -/
def State.mgmtMode (s : State) (role : Nat) (r : RegRow) (b : Block) (off : Nat) : MgmtMode :=
  let rwl := role = 2 ∧ s.nv.record.locked = false ∧ hasLocked r = true
  if role = 3 then (if b = .tel then .all else .refused)
  else match b with
    | .eth => .all
    | .tel => .all
    | .fld => .all
    | .seam => .nothing
    | .stk => if off = 0x30 ∨ off = 0x38 then .refused else .all
    | .dev => if off = 0x108 ∧ role = 1 then .all else .refused
    | _ => if rwl then .locked else .refused

/-- A write to a locked RWL field leaves it alone and is entered in the audit log (R12). Log entry 23 (DEDUCED, unsafe). -/
def State.lockNote (s : State) (r : RegRow) (a : Nat) : State :=
  if hasLocked r && s.nv.record.locked && s.auditOk then s.auditSelf 2 a else s

/-- The outcome of a write for its requester: performed or of no effect, refused as an access (R15), or refused by the block (R396). -/
inductive WriteEnd where
  | done | noAccess | refused
  deriving DecidableEq, Repr

/-- A write of a word to the register at an address. The spec does not list the blocks that a control core's firmware is allowed to access (R35); the
model lets it write every block: log entry 153 (DESIGN CHOICE, unsafe). Log entry 20 (DESIGN CHOICE, unsafe). Log entry 21 (DESIGN CHOICE, unsafe). Log entry 22 (DEDUCED, unsafe). Log entry 23 (DEDUCED, unsafe). -/
def State.dcsWrite (s : State) (who : DcsWriter) (a v : Nat) : State × WriteEnd :=
  let mgmt := who != .core
  if a % 4 ≠ 0 then (s.dcsErr a true mgmt 1, .noAccess)
  else match decodeAddr a, regRow? a with
  | some (b, i, off), some r =>
    let mode := match who with | .core => MgmtMode.all | .mgmt role => s.mgmtMode role r b off
    let noted := s.lockNote r a
    if mode = .refused then (noted, .refused)
    else if mgmt && decide (b = .fld) && (s.windowMoving i).isSome then (s.dcsErr a true true 3, .refused)
    else if decide (b = .fld) && s.windowGone i then (s.dcsErr a true mgmt 2, .done)
    else if mode = .nothing then (s, .done)
    else
      let mine := match who with | .core => true | .mgmt role => role == 2
      let open' := mine && !s.nv.record.locked
      if breaksRange s b i off v then (noted, .done)
      else (noted.regWrite (noted.dcsStore r open' (mode == .locked) a v) b i off v, .done)
  | _, _ => (s.dcsErr a true mgmt 0, .done)

/-- DCS_REGISTER_WRITE: a control core's access of `size` bytes; anything but an aligned word is refused (R15). -/
def State.dcsRegisterWrite (s : State) (addr size : Nat) (value : Word) : State :=
  if !s.outOfReset then s
  else if size ≠ 4 then s.dcsErr addr true false 1
  else (s.dcsWrite .core addr value.toNat).1

/-- Log entry 128 (DESIGN CHOICE, safe). -/
def execDcsRegisterWrite (addr : Word) (size : Nat) (value : Word) (s : State) : Host.Outcome State Fault Refusal :=
  answer (s.dcsRegisterWrite addr.toNat size value)

end Sys2Proof.Machine
end

