-- ==== Sys2Proof/Machine/Mgmt.lean ====
section
/-!
DEFINITION. Management operations on the DCS, on serving and on the port (R376, R377, R381, R396 to R398, R422, R427, R439, R447), with the
bodies of Tables 16-12 and 17-7.
-/

namespace Sys2Proof.Machine

/-! The DCS (R396, R397). -/

/-- DCS_READ. -/
def State.mgmtDcsRead (s : State) : State :=
  s.mgmtOp opDcsRead [1, 2, 3] fun t _ q =>
    let n := leAt q.body 0 4
    if q.body.length < 4 ∨ n = 0 ∨ 64 < n ∨ q.body.length < 4 + 4 * n then malformed t
    else
      let x := (List.range n).foldl (fun (x : State × List Byte) i =>
        let y := x.1.dcsRead reqMgmt (leAt q.body (4 + 4 * i) 4)
        (y.1, x.2 ++ leBytes 4 y.2)) (t, leBytes 4 n)
      (x.1, stOk, x.2)

def execDcsRead (s : State) : Host.Outcome State Fault Refusal := answer s.mgmtDcsRead

/-- Perform writes in order up to the first that a block refuses: the writes performed and the index of the refused one. Log entry 20 (DESIGN CHOICE, unsafe). Log entry 21 (DESIGN CHOICE, unsafe). -/
def State.writesGo (s : State) (role : Nat) (i done : Nat) : List (Nat × Nat) → State × Nat × Option Nat
  | [] => (s, done, none)
  | w :: ws =>
    match s.dcsWrite (.mgmt role) w.1 w.2 with
    | (t, .refused) => (t, done, some i)
    | (t, .done) => t.writesGo role (i + 1) (done + 1) ws
    | (t, .noAccess) => t.writesGo role (i + 1) done ws

/-- DCS_WRITE. Log entry 20 (DESIGN CHOICE, unsafe). Log entry 22 (DEDUCED, unsafe). -/
def State.mgmtDcsWrite (s : State) : State :=
  s.mgmtOp opDcsWrite [1, 2, 3] fun t _ q =>
    let n := leAt q.body 0 4
    if q.body.length < 4 ∨ n = 0 ∨ 64 < n ∨ q.body.length < 4 + 8 * n then malformed t
    else
      let ws := (List.range n).map fun i => (leAt q.body (4 + 8 * i) 4, leAt q.body (8 + 8 * i) 4)
      match t.writesGo q.role 0 0 ws with
      | (u, done, none) => (u, stOk, leBytes 4 done ++ leBytes 4 0xFFFFFFFF)
      | (u, done, some i) => (u, stDenied, leBytes 4 done ++ leBytes 4 i)

def execDcsWrite (s : State) : Host.Outcome State Fault Refusal := answer s.mgmtDcsWrite

/-! Serving (R422, R427, R447). -/

/-- Loaded contexts of the partitions of a mask. -/
def State.ctxsOfMask (s : State) (mask : Nat) : List Nat := s.loaded.filter fun c => bit mask (s.partOf c)

/-- A quadrant that a third trip has left off comes back when every partition with a context on it is started, and what stopped it
is over (R447). Log entry 37 (DESIGN CHOICE, unsafe). -/
def State.quadReturn (s : State) (mask q : Nat) : State :=
  let x := s.trip q
  if s.srv.offQuads.contains q && (s.ctxsOn q).all (fun c => bit mask (s.partOf c)) && !x.byRail && !(x.byExt && s.board.extBeyond) &&
      decide (s.get (Reg.PWR_Q_STATUS_TJ_C q) < 95) then s.quadRestore q
  else s

/-- Set SERVING of the partitions of a mask. -/
def State.setServing (s : State) (mask v : Nat) : State :=
  (List.range 16).foldl (fun (t : State) p => if bit mask p then t.put (Reg.SCH_PART_CFG_SERVING p) v else t) s

/-- SERVE_START: a group that lost its leader may start heats again; each quadrant has a scheduling point. Log entry 37 (DESIGN CHOICE, unsafe). -/
def State.serveStart (s : State) : State :=
  s.mgmtOp opServeStart [3] fun t _ q =>
    let mask := leAt q.body 0 2
    if q.body.length < 4 ∨ leAt q.body 2 2 ≠ 0 then malformed t
    else
      let u := t.setServing mask 1
      let u := (u.ctxsOfMask mask).foldl (fun (u : State) c =>
        if u.ctxState c = ctxVoted then u else u.modServe c fun x => { x with groupLost := false }) u
      let u := (List.range 4).foldl (fun (u : State) k => u.quadReturn mask k) u
      ((List.range 4).foldl (fun (u : State) k => u.schedPoint k) u, stOk, [])

def execServeStart (s : State) : Host.Outcome State Fault Refusal := answer s.serveStart

/-- A member left VOTED by the loss of its leader is released: its heat is abandoned and its sequences rejected (R422). Log entry 37 (DESIGN CHOICE, unsafe). -/
def State.votedRelease (s : State) (c : Nat) : State :=
  if s.ctxState c = ctxVoted ∧ (s.serve c).groupLost = true then
    ((s.modServe c fun x => { x with decision := some false, awaitDecision := false }).uncommitAs c 3 Flt.GROUP_LOST).heatAbandon c
  else s

/-- SERVE_STOP: with mode 0 what is admitted runs to its end; with mode 1 every request of the partitions is cancelled (Table 17-5). Log entry 37 (DESIGN CHOICE, unsafe). -/
def State.serveStop (s : State) : State :=
  s.mgmtOp opServeStop [3] fun t _ q =>
    let mask := leAt q.body 0 2
    let mode := leAt q.body 2 1
    if q.body.length < 4 ∨ 1 < mode ∨ leAt q.body 3 1 ≠ 0 then malformed t
    else
      let u := t.setServing mask 0
      if mode = 0 then (u, stOk, [])
      else
        let u := (u.ctxsOfMask mask).foldl State.votedRelease u
        ((u.srv.reqs.filter fun r => bit mask r.part).foldl (fun (v : State) r =>
          match v.reqOf r.order with | some x => v.cancelReq x | none => v) u, stOk, [])

def execServeStop (s : State) : Host.Outcome State Fault Refusal := answer s.serveStop

/-- SET_SHARES: weights wait for the next scheduling point. -/
def State.setShares (s : State) : State :=
  s.mgmtOp opSetShares [3] fun t _ q =>
    let mask := leAt q.body 0 2
    let ws := ((List.range 16).filter fun p => bit mask p).map fun p => (p, leAt q.body (4 + 2 * p) 2)
    if q.body.length < 36 ∨ leAt q.body 2 2 ≠ 0 ∨ ws.any (fun w => w.2 == 0) = true then malformed t
    else (t.modSrv fun v => { v with weights := v.weights ++ ws }, stOk, [])

def execSetShares (s : State) : Host.Outcome State Fault Refusal := answer s.setShares

/-- LOAD_WEIGHTS: a load heat waits for the next boundary of the model's context. Log entry 103 (DESIGN CHOICE, unsafe). -/
def State.loadWeights (s : State) : State :=
  s.mgmtOp opLoadWeights [3] fun t _ q =>
    let b := q.body
    let part := leAt b 4 1
    let n := leAt b 8 4
    let off := leAt b 16 8
    let len := leAt b 24 8
    if b.length < 32 ∨ leAt b 5 3 ≠ 0 ∨ 63 < n ∨ leAt b 12 4 ≠ 0 ∨ 15 < part ∨ len = 0 ∨ 65536 * t.get (Reg.ETH_ROCE_WIN_LEN_LEN n) < off + len then malformed t
    else match t.serves part (leAt b 0 4) with
      | none => (t, stNoContext, [])
      | some (c, _) =>
        let u := t.modServe c fun x => { x with loads := x.loads ++ [{ window := n, off := off, len := len }] }
        (u.schedPoint (u.homeQ c), stOk, [])

def execLoadWeights (s : State) : Host.Outcome State Fault Refusal := answer s.loadWeights

/-- POWER_GRANT (R439). -/
def execPowerGrant (s : State) : Host.Outcome State Fault Refusal :=
  answer (s.mgmtOp opPowerGrant [3] fun t _ q => t.powerGrant q.body)

/-! Telemetry and the port (R376, R377, R381, R398). -/

/-- An address field of 16 bytes by its family: none where bytes after an IPv4 address are not zero or the family is unknown. -/
def bodyAddr (b : List Byte) (family o : Nat) : Option (Bool × Nat) :=
  if family = 4 then (if zeroAt b (o + 4) 12 then some (false, beNat ((b.drop o).take 4)) else none)
  else if family = 6 then some (true, beNat ((b.drop o).take 16))
  else none

/-- A VLAN field: bit 15 for untagged; `none` inside for untagged. -/
def bodyVlan (v : Nat) : Option Nat := if bit v 15 then none else some (v % 4096)

/-- TELEMETRY_SUBSCRIBE: one subscription is in force; CLASSES zero ends it. -/
def State.subscribe (s : State) : State :=
  s.mgmtOp opSubscribe [3] fun t m q =>
    let b := q.body
    let classes := leAt b 1 1
    let vlan := leAt b 2 2
    if b.length < 32 ∨ 7 < classes ∨ leAt b 12 4 ≠ 0 then malformed t
    else match bodyAddr b (leAt b 0 1) 16 with
      | none => malformed t
      | some (v6, ip) =>
        let sub : Subscription :=
          { mac := beNat ((b.drop 6).take 6), vlan := bodyVlan vlan, pcp := bits vlan 14 12, v6 := v6, ip := ip, port := leAt b 4 2, id := m.id,
            classes := classes, stream := 0 }
        (t.modTel fun x => { x with subscription := if classes = 0 then none else some sub, exportPos := 0, sent := [] }, stOk, [])

def execTelemetrySubscribe (s : State) : Host.Outcome State Fault Refusal := answer s.subscribe

/-- Install a secure association: one of the same channel and number is replaced, and of two others the older goes. Log entry 39 (DESIGN CHOICE, unsafe). -/
def installSa (x : MacSa) (sas : List MacSa) : List MacSa :=
  let others := sas.filter fun a => a.chan != x.chan
  let mine := sas.filter fun a => a.chan == x.chan && a.an != x.an
  others ++ (if mine.length < 2 then mine else mine.drop (mine.length - 1)) ++ [x]

/-- MACSEC_SAK. Log entry 39 (DESIGN CHOICE, unsafe). -/
def State.macsecSak (s : State) : State :=
  s.mgmtOp opMacsec [3] fun t _ q =>
    let b := q.body
    let chan := leAt b 0 1
    let an := leAt b 1 1
    let suite := leAt b 2 1
    let sel := leAt b 3 1
    let gcm := suite = 0 ∧ (leAt b 16 4 ≠ 0 ∨ leAt b 20 4 ≠ 0 ∨ leAt b 24 12 ≠ 0)
    if b.length < 72 ∨ 4 < chan ∨ 3 < an ∨ 1 < suite ∨ 1 < sel ∨ leAt b 36 4 ≠ 0 ∨ gcm then malformed t
    else
      let x : MacSa := { chan := chan, an := an, xpn := suite == 1, sci := leAt b 4 8, pn := leAt b 12 8, ssci := leAt b 20 4,
                         salt := leAt b 24 12, sak := beNat ((b.drop 40).take 32) }
      (t.modEth fun e => { e with sas := installSa x e.sas, txAn := if chan = 0 ∧ sel = 1 then some an else e.txAn,
                                  pnAlarm := if chan = 0 then e.pnAlarm - (e.pnAlarm &&& 2 ^ an) else e.pnAlarm }, stOk, [])

def execMacsecSak (s : State) : Host.Outcome State Fault Refusal := answer s.macsecSak

/-- ROCE_WINDOW: the entry is written whole; the answer is its rkey. Log entry 27 (DESIGN CHOICE, unsafe). -/
def State.roceWindow (s : State) : State :=
  s.mgmtOp opWindow [3] fun t _ q =>
    let b := q.body
    let n := leAt b 0 1
    let r := leAt b 1 1
    let key := leAt b 4 4
    let dev := leAt b 8 2
    let off := leAt b 12 4
    let len := leAt b 16 4
    if b.length < 20 ∨ 63 < n ∨ 7 < r ∨ 15 < leAt b 2 1 ∨ leAt b 3 1 ≠ 0 ∨ 2 ^ 25 ≤ key ∨ 1023 < dev ∨ leAt b 10 2 ≠ 0 ∨ 2 ^ 25 ≤ off ∨ 2 ^ 26 ≤ len ∨
        2 ^ 25 < off + len then malformed t
    else
      (t.puts [(Reg.ETH_ROCE_WIN_CFG_EN n, r % 2), (Reg.ETH_ROCE_WIN_CFG_R n, r / 2 % 2), (Reg.ETH_ROCE_WIN_CFG_W n, r / 4),
        (Reg.ETH_ROCE_WIN_CFG_PARTITION n, leAt b 2 1), (Reg.ETH_ROCE_WIN_CFG_KEY n, key), (Reg.ETH_ROCE_WIN_BASE_OFFSET n, off),
        (Reg.ETH_ROCE_WIN_LEN_LEN n, len), (Reg.ETH_ROCE_WIN_DEV_DEVICE n, dev)], stOk, leBytes 4 (128 * key + n))

def execRoceWindow (s : State) : Host.Outcome State Fault Refusal := answer s.roceWindow

/-- Path MTU of its code. Log entry 38 (DESIGN CHOICE, unsafe). -/
def mtuOf (n : Nat) : Nat := if n = 1 then 1024 else if n = 2 then 2048 else 4096

/-- ROCE_QP: create takes the lowest free number of 256; destroy of an unknown number is answered OK and does nothing. Log entry 38 (DESIGN CHOICE, unsafe). -/
def State.roceQp (s : State) : State :=
  s.mgmtOp opQp [3] fun t _ q =>
    let b := q.body
    let op := leAt b 0 1
    let num := leAt b 4 4
    let vlan := leAt b 22 2
    if b.length < 56 ∨ (op ≠ 1 ∧ op ≠ 2) ∨ leAt b 2 2 ≠ 0 ∨ leAt b 30 2 ≠ 0 ∨ leAt b 52 4 ≠ 0 ∨ 2 ^ 24 ≤ num ∨ (op = 1 ∧ num ≠ 0) then malformed t
    else if op = 2 then (t.modEth fun e => { e with qps := e.qps.filter fun x => x.1 != num }, stOk, leBytes 4 num)
    else match bodyAddr b (leAt b 20 1) 32 with
      | none => malformed t
      | some (v6, ip) =>
        if leAt b 1 1 = 0 ∨ 3 < leAt b 1 1 ∨ 2 ^ 24 ≤ leAt b 8 4 ∨ 2 ^ 24 ≤ leAt b 12 4 ∨ 2 ^ 24 ≤ leAt b 16 4 ∨ 15 < leAt b 21 1 ∨ 63 < leAt b 48 1 ∨
            31 < leAt b 49 1 ∨ 2047 < leAt b 50 2 then malformed t
        else match (List.range 256).find? fun n => (t.qp n).isNone with
          | none => (t, stQueueFull, leBytes 4 0xFFFFFFFF)
          | some n =>
            let x : QueuePair :=
              { mtu := mtuOf (leAt b 1 1), remote := leAt b 8 4, sendPsn := leAt b 12 4, recvPsn := leAt b 16 4,
                peer := { mac := beNat ((b.drop 24).take 6), vlan := bodyVlan vlan, pcp := t.get Reg.ETH_PFC_CTRL_ROCE_PCP, v6 := v6, ip := ip, port := 4791 },
                part := leAt b 21 1, lfield := leAt b 48 1, rx := leAt b 49 1, gen := leAt b 50 2, seq16 := 0, cnpAt := none, alpha := 1,
                rate := t.lineRate, target := t.lineRate, periods := 0 }
            (t.modEth fun e => { e with qps := e.qps ++ [(n, x)] }, stOk, leBytes 4 n)

def execRoceQp (s : State) : Host.Outcome State Fault Refusal := answer s.roceQp

end Sys2Proof.Machine
end

