-- ==== Sys2Proof/Machine/Pins.lean ====
section
/-!
DEFINITION. The sideband pins: SMBus and JTAG (R477, R490, R559, R562).
-/

namespace Sys2Proof.Machine

/-! SMBus (R559, Table 24-10). -/

/-- Does the part acknowledge its SMBus address: from Order 3 of Table 19-9 on? Log entry 40 (DESIGN CHOICE, unsafe). -/
def State.smbUp (s : State) : Bool := s.outOfReset && decide (3 ≤ s.get Reg.CFG_BOOT_STATUS_PHASE)

/-- Change the SMBus answer. -/
def State.smbAnswer (s : State) (bs : List Byte) : State := s.modBoard fun b => { b with smbReply := bs }

/-- SET_ADDRESS. -/
def execSetAddress (addr : Word) (s : State) : Host.Outcome State Fault Refusal :=
  answer (if s.smbUp then s.modBoard fun b => { b with smbAddr := addr.toNat } else s)

/-- SMB_READ: the register at the address set, which then advances by 4. Log entry 26 (DESIGN CHOICE, unsafe). -/
def State.smbRead (s : State) : State :=
  if !s.smbUp then s
  else
    let x := s.dcsRead reqSmb s.board.smbAddr
    (x.1.smbAnswer (leBytes 4 x.2)).modBoard fun b => { b with smbAddr := (s.board.smbAddr + 4) % 2 ^ 32 }

def execSmbRead (s : State) : Host.Outcome State Fault Refusal := answer s.smbRead

/-- SMB_ALARM_ACK: byte 0 SLOT, byte 1 bit 0 ALL, written to TEL_ALARM_ACK. -/
def execSmbAlarmAck (slot : Byte) (all : Bool) (s : State) : Host.Outcome State Fault Refusal :=
  answer (if s.smbUp then s.alarmAck (slot.toNat + 256 * b2n all) else s)

/-- Is FAULT_N asserted? -/
def State.faultN (s : State) : Bool := s.board.faultHold != 0

/-- SMB_STATUS. -/
def execSmbStatus (s : State) : Host.Outcome State Fault Refusal :=
  answer (if s.smbUp then s.smbAnswer (leBytes 1 (b2n s.board.devOk + 2 * b2n s.faultN + 4 * b2n s.board.smbAlert)) else s)

/-- SMB_SCL_TIMEOUT: the interface is reset. Log entry 40 (DESIGN CHOICE, unsafe). -/
def execSmbSclTimeout (s : State) : Host.Outcome State Fault Refusal :=
  answer (s.modBoard fun b => { b with smbAddr := 0, smbReply := [] })

/-! JTAG (R562). -/

/-- Number of an instruction in the TAP. -/
def tapNumber : TapInstr → Nat
  | .idcode => 0 | .bypass => 1 | .samplePreload => 2 | .clamp => 3 | .highz => 4 | .extest => 5 | .extestPulse => 6 | .extestTrain => 7
  | .maker _ => 8

/-- Has the part been released with BOOT_MODE 0b11? -/
def State.makerMode (s : State) : Bool := s.board.porHigh && s.board.strap == 3

/-- May an instruction be taken? Log entry 41 (DESIGN CHOICE, unsafe). -/
def State.tapTakes (s : State) : TapInstr → Bool
  | .extest => !s.board.porHigh || s.makerMode
  | .extestPulse => !s.board.porHigh || s.makerMode
  | .extestTrain => !s.board.porHigh || s.makerMode
  | .maker _ => s.makerMode
  | _ => true

/-- JTAG_INSTRUCTION: an instruction that may not be taken loads as BYPASS. A maker command is entered in the audit log by the boot ROM, which
the gate of R465 does not hold (R490). What the command itself does the spec does not say. Log entry 42 (DESIGN CHOICE, unsafe). -/
def State.tapLoad (s : State) (i : TapInstr) : State :=
  if !s.tapTakes i then s.modBoard fun b => { b with tapIr := 1 }
  else match i with
    | .maker code =>
      if !s.outOfReset then s.modBoard fun b => { b with tapIr := 1 }
      else (s.auditPut 9 1 0 0 code.toNat [] none).modBoard fun b => { b with tapIr := 8 }
    | _ => s.modBoard fun b => { b with tapIr := tapNumber i }

/-- Log entry 42 (DESIGN CHOICE, unsafe). -/
def execJtagInstruction (i : TapInstr) (s : State) : Host.Outcome State Fault Refusal := answer (s.tapLoad i)

end Sys2Proof.Machine
end

