-- ==== Sys2Proof/Machine/Dispatch.lean ====
section
/-!
DEFINITION. One arm for each command: what it does to everything but the queue.
-/

namespace Sys2Proof.Machine

/-- The effect of a command. -/
def exec (i : Instr) (s : State) : Host.Outcome State Fault Refusal :=
  match i with
  | .dcsRegisterWrite addr size value => Sys2Proof.Machine.execDcsRegisterWrite addr size value s
  | .handshakeStep p stage place => Sys2Proof.Machine.execHandshakeStep p stage place s
  | .crossingToken island toIsland tok take => Sys2Proof.Machine.execCrossingToken island toIsland tok take s
  | .pacerPermit p => Sys2Proof.Machine.execPacerPermit p s
  | .trimLock p => Sys2Proof.Machine.execTrimLock p s
  | .pacerCtrlWrite p value => Sys2Proof.Machine.execPacerCtrlWrite p value s
  | .rateDisturbed p natural => Sys2Proof.Machine.execRateDisturbed p natural s
  | .rateRecovered p natural => Sys2Proof.Machine.execRateRecovered p natural s
  | .rateMonUpdate p natural actual => Sys2Proof.Machine.execRateMonUpdate p natural actual s
  | .seqIssuePost p a value => Sys2Proof.Machine.execSeqIssuePost p a value s
  | .gridPost p g => Sys2Proof.Machine.execGridPost p g s
  | .gpPostBind p g value => Sys2Proof.Machine.execGpPostBind p g value s
  | .macroIssue p a => Sys2Proof.Machine.execMacroIssue p a s
  | .bTileLoad p a ecc => Sys2Proof.Machine.execBTileLoad p a ecc s
  | .ktileRun p a residue ecc => Sys2Proof.Machine.execKtileRun p a residue ecc s
  | .slotResume p a ecc => Sys2Proof.Machine.execSlotResume p a ecc s
  | .tileDrain p a n ecc => Sys2Proof.Machine.execTileDrain p a n ecc s
  | .treeCombine c tree tidx level pos => Sys2Proof.Machine.execTreeCombine c tree tidx level pos s
  | .arraySuspend p a slot mask eccs => Sys2Proof.Machine.execArraySuspend p a slot mask eccs s
  | .haloExchange p a seg => Sys2Proof.Machine.execHaloExchange p a seg s
  | .macroComplete p a => Sys2Proof.Machine.execMacroComplete p a s
  | .pairIssue p => Sys2Proof.Machine.execPairIssue p s
  | .pairVisit p => Sys2Proof.Machine.execPairVisit p s
  | .pairSuspend p => Sys2Proof.Machine.execPairSuspend p s
  | .pairPartnerStop p => Sys2Proof.Machine.execPairPartnerStop p s
  | .engIssuePost p e value => Sys2Proof.Machine.execEngIssuePost p e value s
  | .engOpIssue p e => Sys2Proof.Machine.execEngOpIssue p e s
  | .veChainVector p ecc u q leg => Sys2Proof.Machine.execVeChainVector p ecc u q leg s
  | .reSegment p ecc => Sys2Proof.Machine.execReSegment p ecc s
  | .engSuspend p e spill => Sys2Proof.Machine.execEngSuspend p e spill s
  | .engComplete p e => Sys2Proof.Machine.execEngComplete p e s
  | .cuStep p u => Sys2Proof.Machine.execCuStep p u s
  | .legSwitch p u => Sys2Proof.Machine.execLegSwitch p u s
  | .agToken p m g eccs => Sys2Proof.Machine.execAgToken p m g eccs s
  | .agRingSlot p m g => Sys2Proof.Machine.execAgRingSlot p m g s
  | .stallCountTick p => Sys2Proof.Machine.execStallCountTick p s
  | .gridCntClear p units queues => Sys2Proof.Machine.execGridCntClear p units queues s
  | .noProgressWindow p slot => Sys2Proof.Machine.execNoProgressWindow p slot s
  | .reconfIssuePost p value => Sys2Proof.Machine.execReconfIssuePost p value s
  | .regionStart p => Sys2Proof.Machine.execRegionStart p s
  | .regionDrained p => Sys2Proof.Machine.execRegionDrained p s
  | .drainTimeout p => Sys2Proof.Machine.execDrainTimeout p s
  | .walkIssuePost p value => Sys2Proof.Machine.execWalkIssuePost p value s
  | .walkStart p => Sys2Proof.Machine.execWalkStart p s
  | .walkEdgeStep p => Sys2Proof.Machine.execWalkEdgeStep p s
  | .walkComplete p => Sys2Proof.Machine.execWalkComplete p s
  | .bankAccess p b rs => Sys2Proof.Machine.execBankAccess p b rs s
  | .bankWakeDone p b => Sys2Proof.Machine.execBankWakeDone p b s
  | .bankIdleExpiry p b => Sys2Proof.Machine.execBankIdleExpiry p b s
  | .gateFenceAck p b d => Sys2Proof.Machine.execGateFenceAck p b d s
  | .sliceModeWrite p value => Sys2Proof.Machine.execSliceModeWrite p value s
  | .cacheAccess p slot va n bs lineEcc => Sys2Proof.Machine.execCacheAccess p slot va n bs lineEcc s
  | .flush p slot => Sys2Proof.Machine.execFlush p slot s
  | .inval p slot => Sys2Proof.Machine.execInval p slot s
  | .flushInval p slot => Sys2Proof.Machine.execFlushInval p slot s
  | .zero p => Sys2Proof.Machine.execZero p s
  | .flushInvalCtx p slot => Sys2Proof.Machine.execFlushInvalCtx p slot s
  | .flushInvalAll p => Sys2Proof.Machine.execFlushInvalAll p s
  | .cmoDone p => Sys2Proof.Machine.execCmoDone p s
  | .fmScrubTick p ecc word => Sys2Proof.Machine.execFmScrubTick p ecc word s
  | .chOpen p value => Sys2Proof.Machine.execChOpen p value s
  | .chClose p value => Sys2Proof.Machine.execChClose p value s
  | .chOpenAck p a => Sys2Proof.Machine.execChOpenAck p a s
  | .chSend p value => Sys2Proof.Machine.execChSend p value s
  | .legRecordSend p g => Sys2Proof.Machine.execLegRecordSend p g s
  | .recordPlace p n => Sys2Proof.Machine.execRecordPlace p n s
  | .creditUpdate p n => Sys2Proof.Machine.execCreditUpdate p n s
  | .rptrWrite p n value => Sys2Proof.Machine.execRptrWrite p n value s
  | .selectDeliver p g u q leg => Sys2Proof.Machine.execSelectDeliver p g u q leg s
  | .arrive p src => Sys2Proof.Machine.execArrive p src s
  | .claim p src => Sys2Proof.Machine.execClaim p src s
  | .hurdleWait p g => Sys2Proof.Machine.execHurdleWait p g s
  | .waitComplete p h => Sys2Proof.Machine.execWaitComplete p h s
  | .dmaIssuePost p e value => Sys2Proof.Machine.execDmaIssuePost p e value s
  | .copy p e => Sys2Proof.Machine.execCopy p e s
  | .relay p e => Sys2Proof.Machine.execRelay p e s
  | .fill p e => Sys2Proof.Machine.execFill p e s
  | .relayReserve p e => Sys2Proof.Machine.execRelayReserve p e s
  | .dmaGranule p e u q leg => Sys2Proof.Machine.execDmaGranule p e u q leg s
  | .dmaSuspend p e => Sys2Proof.Machine.execDmaSuspend p e s
  | .dmaComplete p e => Sys2Proof.Machine.execDmaComplete p e s
  | .relayGranule p k => Sys2Proof.Machine.execRelayGranule p k s
  | .streamArbitrate p => Sys2Proof.Machine.execStreamArbitrate p s
  | .ringRelease p n => Sys2Proof.Machine.execRingRelease p n s
  | .ringProduce p n slot len => Sys2Proof.Machine.execRingProduce p n slot len s
  | .ringFree p n slot => Sys2Proof.Machine.execRingFree p n slot s
  | .stackRead k a by' ecc => Sys2Proof.Machine.execStackRead k a by' ecc s
  | .stackWrite k a bs by' ecc => Sys2Proof.Machine.execStackWrite k a bs by' ecc s
  | .gather k as by' ecc => Sys2Proof.Machine.execGather k as by' ecc s
  | .scatterAdd va fmt mask tok r => Sys2Proof.Machine.execScatterAdd va fmt mask tok r s
  | .atomic va op x new r => Sys2Proof.Machine.execAtomic va op x new r s
  | .stackRefresh k pc bank row => Sys2Proof.Machine.execStackRefresh k pc bank row s
  | .stackTempUpdate k t => Sys2Proof.Machine.execStackTempUpdate k t s
  | .stackScrubPage k ecc xfer => Sys2Proof.Machine.execStackScrubPage k ecc xfer s
  | .dieCopyStart k die => Sys2Proof.Machine.execDieCopyStart k die s
  | .dieCopyDone k => Sys2Proof.Machine.execDieCopyDone k s
  | .rowRemap k pc bank row => Sys2Proof.Machine.execRowRemap k pc bank row s
  | .rowRemapDone k => Sys2Proof.Machine.execRowRemapDone k s
  | .stackIdleExpiry k => Sys2Proof.Machine.execStackIdleExpiry k s
  | .stackWake k => Sys2Proof.Machine.execStackWake k s
  | .tlbWalk p slot agent index va need => Sys2Proof.Machine.execTlbWalk p slot agent index va need s
  | .faultQueueWrite q => Sys2Proof.Machine.execFaultQueueWrite q s
  | .invalRange c => Sys2Proof.Machine.execInvalRange c s
  | .invalContext c => Sys2Proof.Machine.execInvalContext c s
  | .resolveRetry c pages => Sys2Proof.Machine.execResolveRetry c pages s
  | .resolveFail c => Sys2Proof.Machine.execResolveFail c s
  | .remoteRetryTimer p agent index => Sys2Proof.Machine.execRemoteRetryTimer p agent index s
  | .contextDeschedule c => Sys2Proof.Machine.execContextDeschedule c s
  | .contextDescheduled c => Sys2Proof.Machine.execContextDescheduled c s
  | .portTraining n => Sys2Proof.Machine.execPortTraining n s
  | .linkUp n dev port switch nodeHost => Sys2Proof.Machine.execLinkUp n dev port switch nodeHost s
  | .laneErrorCheck n lane serLog exceeded => Sys2Proof.Machine.execLaneErrorCheck n lane serLog exceeded s
  | .qplSteer n lane dir => Sys2Proof.Machine.execQplSteer n lane dir s
  | .steerDone n => Sys2Proof.Machine.execSteerDone n s
  | .flitReceive n bs fec => Sys2Proof.Machine.execFlitReceive n bs fec s
  | .retrainTimeout n => Sys2Proof.Machine.execRetrainTimeout n s
  | .flitSend n => Sys2Proof.Machine.execFlitSend n s
  | .flitForward n vc => Sys2Proof.Machine.execFlitForward n vc s
  | .qplRead n => Sys2Proof.Machine.execQplRead n s
  | .qplWrite n => Sys2Proof.Machine.execQplWrite n s
  | .qplAtomic n => Sys2Proof.Machine.execQplAtomic n s
  | .qplScatterAdd n => Sys2Proof.Machine.execQplScatterAdd n s
  | .msg n => Sys2Proof.Machine.execMsg n s
  | .hurdleArrive n => Sys2Proof.Machine.execHurdleArrive n s
  | .chCredit n => Sys2Proof.Machine.execChCredit n s
  | .reduce n => Sys2Proof.Machine.execReduce n s
  | .ping n => Sys2Proof.Machine.execPing n s
  | .pong n => Sys2Proof.Machine.execPong n s
  | .rdData n => Sys2Proof.Machine.execRdData n s
  | .wrAck n => Sys2Proof.Machine.execWrAck n s
  | .atData n => Sys2Proof.Machine.execAtData n s
  | .saAck n => Sys2Proof.Machine.execSaAck n s
  | .msgAck n => Sys2Proof.Machine.execMsgAck n s
  | .haAck n => Sys2Proof.Machine.execHaAck n s
  | .qplResponseTimeout n tag => Sys2Proof.Machine.execQplResponseTimeout n tag s
  | .qplLinkDown n => Sys2Proof.Machine.execQplLinkDown n s
  | .ethLinkUp failed only400 => Sys2Proof.Machine.execEthLinkUp failed only400 s
  | .ethFallback lane => Sys2Proof.Machine.execEthFallback lane s
  | .retry800 failed => Sys2Proof.Machine.execRetry800 failed s
  | .frameReceive f => Sys2Proof.Machine.execFrameReceive f s
  | .pfcFrame pause resume sec => Sys2Proof.Machine.execPfcFrame pause resume sec s
  | .stagingComplete body sectorsBad => Sys2Proof.Machine.execStagingComplete body sectorsBad s
  | .heatStart c => Sys2Proof.Machine.execHeatStart c s
  | .heatEndChecks c outs cut => Sys2Proof.Machine.execHeatEndChecks c outs cut s
  | .groupVote c rcd => Sys2Proof.Machine.execGroupVote c rcd s
  | .groupDecision c rcd => Sys2Proof.Machine.execGroupDecision c rcd s
  | .groupVoteTimeout c read => Sys2Proof.Machine.execGroupVoteTimeout c read s
  | .leaderLost c answers => Sys2Proof.Machine.execLeaderLost c answers s
  | .decisionWordPoll c answers => Sys2Proof.Machine.execDecisionWordPoll c answers s
  | .heatAbandon c => Sys2Proof.Machine.execHeatAbandon c s
  | .heatTimeout c => Sys2Proof.Machine.execHeatTimeout c s
  | .preemptWaitExpiry p c => Sys2Proof.Machine.execPreemptWaitExpiry p c s
  | .busyCharge p active => Sys2Proof.Machine.execBusyCharge p active s
  | .bucketRefill p b => Sys2Proof.Machine.execBucketRefill p b s
  | .contextLoad c => Sys2Proof.Machine.execContextLoad c s
  | .ctxMapWrite p k value => Sys2Proof.Machine.execCtxMapWrite p k value s
  | .powerManagerAction r => Sys2Proof.Machine.execPowerManagerAction r s
  | .domReqWrite w value => Sys2Proof.Machine.execDomReqWrite w value s
  | .domainReady n => Sys2Proof.Machine.execDomainReady n s
  | .domainFail n => Sys2Proof.Machine.execDomainFail n s
  | .energyAttribution total groups => Sys2Proof.Machine.execEnergyAttribution total groups s
  | .overTemperatureTrip q => Sys2Proof.Machine.execOverTemperatureTrip q s
  | .tripRecovery q => Sys2Proof.Machine.execTripRecovery q s
  | .porRelease strap b => Sys2Proof.Machine.execPorRelease strap b s
  | .fwTrialEnd fault => Sys2Proof.Machine.execFwTrialEnd fault s
  | .fieldMigration q => Sys2Proof.Machine.execFieldMigration q s
  | .migrate value => Sys2Proof.Machine.execMigrate value s
  | .migrateWaitExpiry q => Sys2Proof.Machine.execMigrateWaitExpiry q s
  | .migrationCopyDone q error => Sys2Proof.Machine.execMigrationCopyDone q error s
  | .heartbeatMiss n => Sys2Proof.Machine.execHeartbeatMiss n s
  | .legParityUpset p u x => Sys2Proof.Machine.execLegParityUpset p u x s
  | .legScrub e flips copy peerBad => Sys2Proof.Machine.execLegScrub e flips copy peerBad s
  | .seamDirectionFail d => Sys2Proof.Machine.execSeamDirectionFail d s
  | .seamRetrain d ok => Sys2Proof.Machine.execSeamRetrain d ok s
  | .collectorWrite at' => Sys2Proof.Machine.execCollectorWrite at' s
  | .gapRecord at' level => Sys2Proof.Machine.execGapRecord at' level s
  | .alarmPeriodicRecord n => Sys2Proof.Machine.execAlarmPeriodicRecord n s
  | .telAlarmAck value => Sys2Proof.Machine.execTelAlarmAck value s
  | .epochWrite value => Sys2Proof.Machine.execEpochWrite value s
  | .railFault r => Sys2Proof.Machine.execRailFault r s
  | .setAddress addr => Sys2Proof.Machine.execSetAddress addr s
  | .smbAlarmAck slot all => Sys2Proof.Machine.execSmbAlarmAck slot all s
  | .jtagInstruction ir => Sys2Proof.Machine.execJtagInstruction ir s
  | .laneLossOfLock n dir lane => Sys2Proof.Machine.execLaneLossOfLock n dir lane s
  | .qplTagRelease n tag => Sys2Proof.Machine.execQplTagRelease n tag s
  | .dcqcnRateRecovery qp => Sys2Proof.Machine.execDcqcnRateRecovery qp s
  | .suspendedWaitLimit c => Sys2Proof.Machine.execSuspendedWaitLimit c s
  | .vbrInRange b => Sys2Proof.Machine.execVbrInRange b s
  | .railsAndClockReady b => Sys2Proof.Machine.execRailsAndClockReady b s
  | .gridRailRecovery q => Sys2Proof.Machine.execGridRailRecovery q s
  | .controlCoreRestartDone n => Sys2Proof.Machine.execControlCoreRestartDone n s
  | .controlCoreUncorrReport n => Sys2Proof.Machine.execControlCoreUncorrReport n s
  | .invalAll => Sys2Proof.Machine.execInvalAll s
  | .invalDone => Sys2Proof.Machine.execInvalDone s
  | .ethLinkDown => Sys2Proof.Machine.execEthLinkDown s
  | .frameSend => Sys2Proof.Machine.execFrameSend s
  | .cnpReceive => Sys2Proof.Machine.execCnpReceive s
  | .arpRequest => Sys2Proof.Machine.execArpRequest s
  | .neighbourSolicitation => Sys2Proof.Machine.execNeighbourSolicitation s
  | .echoRequest => Sys2Proof.Machine.execEchoRequest s
  | .rdmaWrite => Sys2Proof.Machine.execRdmaWrite s
  | .rdmaRead => Sys2Proof.Machine.execRdmaRead s
  | .rdmaSend => Sys2Proof.Machine.execRdmaSend s
  | .cspDatagram => Sys2Proof.Machine.execCspDatagram s
  | .reassemblyTimeout => Sys2Proof.Machine.execReassemblyTimeout s
  | .submit => Sys2Proof.Machine.execSubmit s
  | .cancel => Sys2Proof.Machine.execCancel s
  | .cspStatus => Sys2Proof.Machine.execCspStatus s
  | .requestStateExpiry => Sys2Proof.Machine.execRequestStateExpiry s
  | .nonce => Sys2Proof.Machine.execNonce s
  | .nonceExpiry => Sys2Proof.Machine.execNonceExpiry s
  | .dcsRead => Sys2Proof.Machine.execDcsRead s
  | .dcsWrite => Sys2Proof.Machine.execDcsWrite s
  | .serveStart => Sys2Proof.Machine.execServeStart s
  | .serveStop => Sys2Proof.Machine.execServeStop s
  | .setShares => Sys2Proof.Machine.execSetShares s
  | .loadWeights => Sys2Proof.Machine.execLoadWeights s
  | .powerGrant => Sys2Proof.Machine.execPowerGrant s
  | .telemetrySubscribe => Sys2Proof.Machine.execTelemetrySubscribe s
  | .macsecSak => Sys2Proof.Machine.execMacsecSak s
  | .roceWindow => Sys2Proof.Machine.execRoceWindow s
  | .roceQp => Sys2Proof.Machine.execRoceQp s
  | .stageImage => Sys2Proof.Machine.execStageImage s
  | .deploymentRecord => Sys2Proof.Machine.execDeploymentRecord s
  | .attest => Sys2Proof.Machine.execAttest s
  | .auditRead => Sys2Proof.Machine.execAuditRead s
  | .installerClaim => Sys2Proof.Machine.execInstallerClaim s
  | .operatorAdd => Sys2Proof.Machine.execOperatorAdd s
  | .keyRevoke => Sys2Proof.Machine.execKeyRevoke s
  | .installerRelease => Sys2Proof.Machine.execInstallerRelease s
  | .makerKeyAdd => Sys2Proof.Machine.execMakerKeyAdd s
  | .installerKeyAdd => Sys2Proof.Machine.execInstallerKeyAdd s
  | .grantExpiry => Sys2Proof.Machine.execGrantExpiry s
  | .powerRecord => Sys2Proof.Machine.execPowerRecord s
  | .regAlertAssert => Sys2Proof.Machine.execRegAlertAssert s
  | .alertEscalate => Sys2Proof.Machine.execAlertEscalate s
  | .regAlertDeassert => Sys2Proof.Machine.execRegAlertDeassert s
  | .brownOut => Sys2Proof.Machine.execBrownOut s
  | .extSenseCrossing => Sys2Proof.Machine.execExtSenseCrossing s
  | .porAssert => Sys2Proof.Machine.execPorAssert s
  | .waitLock => Sys2Proof.Machine.execWaitLock s
  | .releaseOutputs => Sys2Proof.Machine.execReleaseOutputs s
  | .releaseGrid => Sys2Proof.Machine.execReleaseGrid s
  | .enableWrites => Sys2Proof.Machine.execEnableWrites s
  | .powerOn => Sys2Proof.Machine.execPowerOn s
  | .startupWait => Sys2Proof.Machine.execStartupWait s
  | .endStep => Sys2Proof.Machine.execEnd s
  | .startupStepFail => Sys2Proof.Machine.execStartupStepFail s
  | .quadrantTakeover => Sys2Proof.Machine.execQuadrantTakeover s
  | .hjelmarLockstep => Sys2Proof.Machine.execHjelmarLockstep s
  | .wearCountCopy => Sys2Proof.Machine.execWearCountCopy s
  | .telemetryExport => Sys2Proof.Machine.execTelemetryExport s
  | .bedrockTick => Sys2Proof.Machine.execBedrockTick s
  | .xtal32kStart => Sys2Proof.Machine.execXtal32kStart s
  | .xtal32kStop => Sys2Proof.Machine.execXtal32kStop s
  | .refclkSysLoss => Sys2Proof.Machine.execRefclkSysLoss s
  | .refclkSdLoss => Sys2Proof.Machine.execRefclkSdLoss s
  | .smbRead => Sys2Proof.Machine.execSmbRead s
  | .smbStatus => Sys2Proof.Machine.execSmbStatus s
  | .smbSclTimeout => Sys2Proof.Machine.execSmbSclTimeout s
  | .extSenseReturn => Sys2Proof.Machine.execExtSenseReturn s
  | .refclkSdReturn => Sys2Proof.Machine.execRefclkSdReturn s
  | .hjelmarRestartDone => Sys2Proof.Machine.execHjelmarRestartDone s

end Sys2Proof.Machine
end

