-- ==== Sys2Proof/Safety.lean ====
section
/-!
DEFINITION. What counts as a sound state and a safe run of the part, in the terms the statements use.
-/

namespace Sys2Proof.Machine

/-- SMB_ALERT_N is asserted exactly while an alarm at or above ALERT_LEVEL is held in a slot (R530, R557), and TEL_ALARM_SUMMARY shows the
slots as they are (R530). -/
def State.AlarmsShown (s : State) : Prop :=
  s.board.smbAlert = s.alertDue ∧ s.rdN Reg.aTEL_ALARM_SUMMARY = s.summaryWord

/-- The byte memory is in its canonical form. -/
def State.MemoryCanonical (s : State) : Prop := s.mem.wf = true

/-- A command ends in a next state: it neither faults nor is refused. -/
def Completes (c : Instr) (s : State) : Prop := ∃ t, exec c s = .next t

/-- A command completes, and its next state has a property. -/
def CompletesWith (c : Instr) (s : State) (P : State → Prop) : Prop := ∃ t, exec c s = .next t ∧ P t

/-! Frames: what a command leaves as it was. -/

/-- Registers other than those listed are as before. TEL_ALARM_SUMMARY follows the alarm slots at the end of every command. -/
def RegsBut (s t : State) (as : List Nat) : Prop := ∀ a, a ∉ as → a ≠ Reg.aTEL_ALARM_SUMMARY → t.rd a = s.rd a

/-- Every byte of memory reads as before. -/
def SameMem (s t : State) : Prop := ∀ a, t.mem.read a = s.mem.read a

/-- Every byte of memory outside `[lo, lo + n)` reads as before. -/
def MemBut (s t : State) (lo n : Nat) : Prop := ∀ a, a < lo ∨ lo + n ≤ a → t.mem.read a = s.mem.read a

/-- Every byte of memory outside the result buffer of partition `part` reads as before. -/
def SameButBuffer (s t : State) (part : Nat) : Prop :=
  ∀ a, (∀ e ∈ s.srv.bufAt, e.1 = part → a < e.2 ∨ e.2 + s.bufTotal part ≤ a) → t.mem.read a = s.mem.read a

/-- Of the whole state only the listed registers may change, beside SMB_ALERT_N and TEL_ALARM_SUMMARY. -/
def OnlyRegs (s t : State) (as : List Nat) : Prop :=
  RegsBut s t as ∧ t = { s with regs := t.regs, board := { s.board with smbAlert := t.board.smbAlert } }

/-- Of the whole state only the listed registers and what physical Field `p` holds beside its registers may change. -/
def OnlyField (s t : State) (p : Nat) (as : List Nat) : Prop :=
  RegsBut s t as ∧ (∀ q, q ≠ p → t.field q = s.field q) ∧
    t = { s with regs := t.regs, fields := t.fields, board := { s.board with smbAlert := t.board.smbAlert } }

/-! Conditions that several statements share. -/

/-- A descriptor of `n` bytes can be copied for resident slot `slot`: the slot is VALID for context `c`, the bytes lie in its windows and in ACTIVE
banks, and no word of them is uncorrectable. -/
def State.Postable (s : State) (p slot off n c : Nat) : Prop :=
  s.ctxOf p slot = some c ∧ s.windowOk p slot off n = true ∧ s.sleepingBank? p off n = none ∧ s.badWord? (fmLoc p off) n = none

/-- A queue of `cap` entries has room for one of a slot that may hold `share` of them. -/
def HasRoom (q : List Posted) (cap share slot : Nat) : Prop := q.length < cap ∧ (q.filter (·.slot == slot)).length < share

/-- A queue after a descriptor of `n` bytes at offset `off` has been copied to its end for context `c`, as part of split `split` of its tree. -/
def State.postedQueue (s : State) (p slot off n c split : Nat) (q : List Posted) : List Posted :=
  q ++ [{ slot := slot, order := (s.ctx c).posts, split := split, desc := s.mread (fmLoc p off) n }]

/-- The macro of a context and sequence number on array `a`. -/
def State.macroOf (s : State) (p a c q : Nat) : Option MacroRun := (s.ma p a).runs.find? fun x => x.ctx == c && x.seq == q

/-- A macro is what array `a` walks, it may go on now, and it is the only one of its context and number. -/
def State.MacroGoes (s : State) (p a : Nat) (r : MacroRun) : Prop :=
  s.maCurrent p a = some r ∧ s.macroOf p a r.ctx r.seq = some r ∧ s.gridRuns p = true ∧ s.agentWaits p a 0 r.ctx = false ∧
    s.macroResolve p a r = none

/-- The value of a 48-bit counter whose lower register is at `a` (R18). -/
def State.count48At (s : State) (a : Nat) : Nat := s.rdN a + 2 ^ 32 * bits (s.rdN (a + 4)) 15 0

/-- Has a 48-bit counter overflowed (R18)? -/
def State.overflowAt (s : State) (a : Nat) : Bool := bit (s.rdN (a + 4)) 31

/-- The record that a 16-byte header begins, as it joins its endpoint's queue (R262). -/
def newRecord (h payload : List Byte) (fromCore : Bool) : ChRecord :=
  { typ := fw h 0 7 0, len := fw h 1 31 0, tag := fw h 3 31 0, payload := payload, claimed := false, padFirst := false, fromCore := fromCore }

/-- The flits that wait to leave by virtual channel `vc` in class `cls` of Quipel port `n`, and those it has received. -/
def State.txOf (s : State) (n vc cls : Nat) : List QFlit := Tab.get (fun _ => []) (s.port n).txq (2 * vc + cls)
def State.rxOf (s : State) (n vc cls : Nat) : List QFlit := Tab.get (fun _ => []) (s.port n).rx (2 * vc + cls)

/-- A response joins the end of its virtual channel, at the port its route names, or at the port the request came in by. -/
def Responded (s t : State) (n : Nat) (r : QMsg) : Prop :=
  t.txOf (s.backPort n r.dstDev) r.vc 0 = s.txOf (s.backPort n r.dstDev) r.vc 0 ++ r.flits r.vc 0

/-- A message of an opcode that is whole, for this part, and the first such of virtual channel `vc` of port `n`, in class `cls`: `k` flits. -/
def State.Arrived (s : State) (n vc op : Nat) (m : QMsg) (cls k : Nat) : Prop := s.rxHead n vc (s.takes op) = some (m, cls, k)

/-- A Quipel link that carries traffic, with no lane change at hand, no failed codeword behind it, and no request that no table names. -/
def State.LinkPlain (s : State) (n : Nat) : Prop :=
  s.on (Reg.QPL_PORT_STATUS_LINK_UP n) = true ∧ s.rxHead n 0 s.strange = none ∧ (s.port n).wordBad = false ∧ (s.port n).farSteer = none

/-- The leg `l` in place `x` is what a unit works for, and it may take a step of its own: its grid runs, its context is scheduled and within a
heat, and the unit does not only finish what it has to send (R206 to R209). -/
def State.LegSteps (s : State) (p u x : Nat) (l : Leg) : Prop :=
  s.unitLeg p u = x ∧ s.leg p u x = some l ∧ s.gridRuns p = true ∧ s.legLive p u x l = true ∧ s.flushOnly p u = false

/-- No queue of a Field's grid has entries in Silt. -/
def State.NoSilt (s : State) (p : Nat) : Prop := ∀ y ∈ (s.field p).grid.silt, y.kind ≠ 0 ∨ y.places = []

/-- Nothing in Silt waits for a queue of a Field's grid, no queue is extended, and no SEAL waits to be sent: entries that move on do so within the
grid alone. -/
def State.GridPlain (s : State) (p : Nat) : Prop :=
  (∀ y ∈ (s.field p).grid.silt, y.kind ≠ 0) ∧ ∀ r, (s.field p).grid.region = some r → r.seals = []

/-- The cache holds nothing of a context on any of its Fields, and no other part has still to accept what it has written there. -/
def State.CacheClean (s : State) (c : Nat) : Prop :=
  ∀ x ∈ s.slotsOf c, (∀ l ∈ (s.field x.1).fm.lines, l.slot ≠ x.2) ∧ s.cacheSending x.1 c = false

/-- A frame that waits in the receive buffer has been read and answered: the answer is queued last. A resume of its priority may go ahead of it. -/
def Answered (s t : State) (p : EthFrame → Bool) (x : TxFrame) : Prop :=
  ∃ pre : List TxFrame, (∀ y ∈ pre, ∃ a b, y.body = .pause a b) ∧ t.eth.txq = pre ++ s.eth.txq ++ [x] ∧ t.eth.rxq = dropFirst p s.eth.rxq

/-- The RoCEv2 request `k` is the first that waits, on queue pair `q`, and its PSN is the one expected (R376). -/
def State.RoceIn (s : State) (op : RoceOp) (k : RocePkt) (q : QueuePair) : Prop :=
  (∃ f, s.eth.rxq.find? roceHead = some f ∧ f.body = .roce k) ∧ s.qp k.qp = some q ∧ k.op = op ∧ k.psn = q.recvPsn

/-- The answer to a RoCEv2 request. -/
def State.roceFrame (s : State) (q : QueuePair) (psn : Nat) (a : RoceAns) : TxFrame :=
  { dst := q.peer, pcp := s.get Reg.ETH_PFC_CTRL_ROCE_PCP, ect := true, body := .roce q.remote psn a, sec := none }

/-- A CSP datagram of the part as it waits to be sent (R374, R383). -/
def State.cspFrame (s : State) (p : Peer) (d : List Byte) : TxFrame :=
  { dst := p, pcp := s.get Reg.ETH_PFC_CTRL_CSP_PCP, ect := true, body := .udp (s.get Reg.ETH_CSP_CTRL_UDP_PORT) d, sec := none }

/-- A message has been answered with a status and a payload; `post` is what is queued behind the answer. A resume may go ahead of the queue. -/
def Told (s t : State) (p : Peer) (typ status part id : Nat) (bs : List Byte) (post : List TxFrame) : Prop :=
  ∃ pre : List TxFrame, (∀ y ∈ pre, ∃ a b, y.body = .pause a b) ∧
    t.eth.txq = pre ++ s.eth.txq ++ (cspDatagrams typ flReply status part id none bs).map (t.cspFrame p) ++ post

/-- The first message of a type that waits. -/
def State.MsgIn (s : State) (typ : Nat) (m : CspMsg) : Prop := s.eth.msgs.find? (fun x => x.typ == typ) = some m

/-- A management request has been answered, signed (Table 16-8): it has left the queue, its nonce is used, and a privileged one is in the audit log.
`mid` is what its effect queued before the answer. -/
def MgmtTold (s t : State) (m : CspMsg) (q : MgmtReq) (status : Nat) (body : List Byte) (mid : List TxFrame) : Prop :=
  (∃ sign : List Byte, sign.length = 96 ∧ t.eth.txq = s.eth.txq ++ mid ++
      (cspDatagrams cspMgmt flReply status 0xFF m.id none
        (leBytes 2 q.op ++ leBytes 2 0 ++ leBytes 4 1 ++ q.nonce ++ leBytes 4 body.length ++ leBytes 4 0 ++ body ++ sign)).map (t.cspFrame m.src)) ∧
    t.eth.msgs = dropFirst isMgmt s.eth.msgs ∧
    (s.nonceOk q.nonce = true → t.eth.nonces = s.eth.nonces.filter fun x => x.bytes != q.nonce) ∧
    (privileged q.op = true → s.auditOk = true → ∃ r ∈ t.nv.audit, r.event = 1 ∧ r.detail / 65536 = q.op ∧ r.outcome = if status = 0 then 0 else 1)

/-- A management request waits whose nonce is outstanding, whose key is of its role, whose signature that key made, and whose reserved fields are zero
(R394, R397, R481). -/
def State.Signed (s : State) (key : Option (Nat × Nat)) (m : CspMsg) (q : MgmtReq) : Prop :=
  s.mgmtHead = some (m, q) ∧ q.odd = false ∧ s.nonceOk q.nonce = true ∧ q.role ≠ 0 ∧ q.key / 2 ^ 24 = q.role ∧
    ∃ k, key = some k ∧ ecdsaVerify k (sha384 q.signed) q.r q.sg = true

/-- A management request of an operation may take effect: signed, of a role that may ask for it, and its audit record can be written (R477, R492). -/
def State.Allowed (s : State) (op : Nat) (roles : List Nat) (m : CspMsg) (q : MgmtReq) : Prop :=
  s.Signed (s.keyOf q.key) m q ∧ q.op = op ∧ q.role ∈ roles ∧ s.auditOk = true

/-- An ENROL body of a kind, its reserved fields zero (Table 20-3). -/
def EnrolBody (b : List Byte) (kind : Nat) : Prop :=
  b.length = 208 ∧ zeroAt b 2 2 = true ∧ zeroAt b 105 3 = true ∧ zeroAt b 204 4 = true ∧ enKind b = kind

/-- Keys of a class (Table 20-2). -/
def State.keysOf (s : State) (cls : Nat) : Nat := (s.nv.keys.filter fun k => k.id / 2 ^ 24 == cls).length

/-- Stage `k` of the telemetry path takes record `x` as it is: an entry that is no part of the reserve is free, and no identical log waits (R525,
R526). -/
def State.StageTakes (s : State) (k : Nat) (x : TelRec) : Prop :=
  (s.stage k).recs.length < (stageCap k).1 - (stageCap k).2 ∧ ∀ y ∈ (s.stage k).recs, y.sameLog x = false

/-- A quadrant is stopped (Table 18-7): shown as tripped with FAULT_N asserted, its pacers stopped, its Field groups off, its point OP0. -/
def QuadStopped (t : State) (q : Nat) : Prop :=
  t.get (Reg.PWR_Q_STATUS_TRIPPED q) = 1 ∧ bit t.board.faultHold (1 + q) = true ∧ (t.trip q).stopped = true ∧ t.opOf q = 0 ∧
    (∀ p, p / 18 = q → (t.field p).pacer.stopped = true) ∧
    ∀ g, g = 2 * q ∨ g = 2 * q + 1 → t.domReady (32 + g) = false ∧ t.domAsked (32 + g) = false

/-- A quadrant has come back: its pacers run, its Field groups are on, FAULT_N is not asserted for it. -/
def QuadRestored (t : State) (q : Nat) : Prop :=
  (t.trip q).stopped = false ∧ bit t.board.faultHold (1 + q) = false ∧ (∀ p, p / 18 = q → p < 72 → (t.field p).pacer.stopped = false) ∧
    ∀ g, g = 2 * q ∨ g = 2 * q + 1 → t.domReady (32 + g) = true ∧ t.domAsked (32 + g) = true

/-- What a reset leaves: the NV store, the MACsec associations, the Bedrock counter and the board's side; everything else is as at power-on, and
FAULT_N is asserted (R480, R553). -/
def AfterReset (s t : State) (cause : ResetCause) : Prop :=
  t.board.held = some cause ∧ t.board.devOk = false ∧ t.board.outputs = false ∧ t.board.faultHold ≠ 0 ∧ t.board.strap = s.board.strap ∧
    t.nv = s.nv ∧ t.eth.sas = s.eth.sas ∧ t.eth.rxq = [] ∧ t.eth.txq = [] ∧ t.stamp = s.stamp ∧ t.fields = [] ∧ t.stks = [] ∧ t.ports = [] ∧ t.ctxs = [] ∧
    t.srv = State.reset.srv ∧ t.tel = State.reset.tel ∧ t.plane = State.reset.plane ∧ t.power = State.reset.power ∧
    (∀ a, a ≠ Reg.aBRK_TIME_LO → a ≠ Reg.aBRK_TIME_HI → a ≠ Reg.aTEL_ALARM_SUMMARY → t.rd a = State.reset.rd a) ∧
    ∀ a, t.mem.read a = if 2 ^ 46 ≤ a then s.mem.read a else State.reset.mem.read a

/-- The maps of the spare map name logical Fields and quadrants that the part has (R498). -/
def SpareMap.InRange (m : SpareMap) : Prop := (∀ e ∈ m.fields, e.1 < 64) ∧ (∀ f ∈ m.lost, f < 64) ∧ ∀ e ∈ m.cores, e.1 < 4

/-- The step to run next has an action; past step 15 the order ends (R467). -/
def State.StepAt (s : State) (action : Nat) : Prop :=
  ∃ n, s.board.step = some n ∧ (if n < 16 then s.get (Reg.CFG_STEP_ACTION n) else 0) = action

end Sys2Proof.Machine
end

