-- ==== Sys2Proof/Certificates/Slice0/Obligations.lean ====
section
/-!
DEFINITION. The statements about the part, chapter by chapter of the spec. Every statement about a command says of which next state it ends
in; TEL_ALARM_SUMMARY and SMB_ALERT_N follow the alarm slots at the end of every command, and are left out of the frames for that reason.
-/

open Sys2Proof Sys2Proof.Machine

/-! The queue, reset, the alarm pin. -/

/-- One step runs the command at the front of the queue with the rest of the queue waiting; on an empty queue the part idles (log entry 1). -/
def Obligations.StepRunsTheFrontCommand : Prop :=
  (∀ (s : State) (c : Instr) (rest : List Instr), s.pending = c :: rest → step s = exec c { s with pending := rest }) ∧
    ∀ s : State, s.pending = [] → step s = .next s

/-- Register values that the field tables give after reset: the part code, the power limit of R568, the pacers, the wait of a migration, the
scheduler's limits, the telemetry settings and the Quipel time-outs; that nothing waits; and that memory and the alarm pin have the forms that
every step keeps. -/
def Obligations.ResetLeavesTheStatedValues : Prop :=
  (State.reset.pending = [] ∧ State.reset.get Reg.DEV_ID_PART_CODE = 3172 ∧ State.reset.get Reg.PWR_LIMIT_LIMIT_W = 700 ∧
     (∀ p : Fin 72, State.reset.get (Reg.FLD_PACER_CTRL_RATE_CODE p) = 75 ∧ State.reset.get (Reg.FLD_PACER_CTRL_FIXED_EN p) = 0 ∧
       State.reset.get (Reg.FLD_PACER_STATUS_RATE_CODE_ACTIVE p) = 75) ∧
     State.reset.get Reg.DEV_MIGRATE_CTRL_MIGRATE_WAIT_MS = 20 ∧
     State.reset.get Reg.SCH_CTRL_MAX_CONC = 1 ∧ State.reset.get Reg.SCH_CTRL_PREEMPT_EN = 1 ∧ State.reset.get Reg.SCH_CTRL_PREEMPT_100US = 50 ∧
     State.reset.get Reg.SCH_CTRL_GROUP_MS = 50 ∧ State.reset.get Reg.SCH_CTRL_HEAT_LIMIT_MS = 100 ∧
     State.reset.get Reg.TEL_CTRL_MARK_EN = 1 ∧ State.reset.get Reg.TEL_CTRL_HEAT_TRACE = 0 ∧ State.reset.get Reg.TEL_CTRL_LOG_MIN = 2 ∧
     State.reset.get Reg.TEL_CTRL_ALERT_LEVEL = 1 ∧ State.reset.get Reg.TEL_CTRL_EXPORT_MBPS = 100 ∧
     ∀ n : Fin 4, State.reset.get (Reg.QPL_TIMEOUT_TIMEOUT_US n) = 2000) ∧
  State.reset.AlarmsShown ∧ State.reset.MemoryCanonical

/-- R530, R557: whatever the command, a step leaves SMB_ALERT_N asserted exactly while an alarm at or above ALERT_LEVEL is held in a slot with
the output released, and TEL_ALARM_SUMMARY counting the slots as they are. -/
def Obligations.EveryStepShowsTheAlarms : Prop :=
  ∀ s t : State, s.AlarmsShown → step s = .next t → t.AlarmsShown

/-! Chapter 0 and 23: registers. -/

/-- R11, R12: a control core's write to a register of SEC, BRK, SCH, CFG or SEAM gives each bit what its access code says, and nothing else
changes; a write that meets a locked RWL field leaves the field and enters the audit log where that can be written. -/
def Obligations.CoreWritesFollowTheAccessCodes : Prop :=
  ∀ (s : State) (a v : Word) (b : Block) (i off : Nat) (r : RegRow),
    s.outOfReset = true → a.toNat % 4 = 0 → decodeAddr a.toNat = some (b, i, off) → regRow? a.toNat = some r →
    b = .sec ∨ b = .brk ∨ b = .sch ∨ b = .cfg ∨ b = .seam → breaksRange s b i off v.toNat = false →
    CompletesWith (.dcsRegisterWrite a 4 v) s fun t =>
      (∀ f ∈ r.fields, ∀ k, f.lo ≤ k → k ≤ f.hi →
        (t.rdN a.toNat).testBit k =
          match f.acc with
          | .ro | .wo => (s.rdN a.toNat).testBit k
          | .rw => v.toNat.testBit k
          | .w1c => (s.rdN a.toNat).testBit k && !v.toNat.testBit k
          | .w1s => (s.rdN a.toNat).testBit k || v.toNat.testBit k
          | .rwl => if s.nv.record.locked then (s.rdN a.toNat).testBit k else v.toNat.testBit k) ∧
      (hasLocked r = false ∨ s.nv.record.locked = false → OnlyRegs s t [a.toNat]) ∧
      (hasLocked r = true → s.nv.record.locked = true → s.auditOk = true → t.nv.auditNext = s.nv.auditNext + 1)

/-- R15, R540, R541: a control core's access that is no aligned word, finds no register, or meets the window of a Field that is off or retired
changes nothing but the record in DEV_DCS_ERR; and a refused or empty read answers zero. -/
def Obligations.AccessesWithoutEffectAreRecorded : Prop :=
  (∀ (s : State) (a v : Word) (size cause : Nat), s.outOfReset = true →
    ((size ≠ 4 ∨ a.toNat % 4 ≠ 0) ∧ cause = 1) ∨ (size = 4 ∧ a.toNat % 4 = 0 ∧ regRow? a.toNat = none ∧ cause = 0) →
    CompletesWith (.dcsRegisterWrite a size v) s fun t =>
      OnlyRegs s t [Reg.aDEV_DCS_ERR] ∧ t.get Reg.DEV_DCS_ERR_ADDR = a.toNat % 2 ^ 27 ∧ t.get Reg.DEV_DCS_ERR_WRITE = 1 ∧
        t.get Reg.DEV_DCS_ERR_FROM_MGMT = 0 ∧ t.get Reg.DEV_DCS_ERR_CAUSE = cause ∧ t.get Reg.DEV_DCS_ERR_SEEN = 1) ∧
  (∀ (s : State) (a v : Word) (p off : Nat) (r : RegRow), s.outOfReset = true → a.toNat % 4 = 0 →
    decodeAddr a.toNat = some (.fld, p, off) → regRow? a.toNat = some r → s.windowGone p = true →
    CompletesWith (.dcsRegisterWrite a 4 v) s fun t =>
      OnlyRegs s t [Reg.aDEV_DCS_ERR] ∧ t.get Reg.DEV_DCS_ERR_CAUSE = 2 ∧ t.get Reg.DEV_DCS_ERR_SEEN = 1) ∧
  (∀ (s : State) (req a : Nat), a % 4 ≠ 0 ∨ regRow? (s.readPlace (req == reqMgmt) a) = none → (s.dcsRead req a).2 = 0)

/-! Chapter 2: stages, crossings, pacers. -/

/-- R39, R41: a step passes the sender's data to the next stage with one toggle of request and one of acknowledge; while the successor has not
acknowledged, nothing moves. R46: a stage begins no step without a permit where the pacer issues them, and takes the one it uses. R52, R54: a crossing queue loses, duplicates and reorders no token and holds 8 on each side; an island that is off
takes and gives none. -/
def Obligations.StagesAndCrossingsPassTokensInOrder : Prop :=
  (∀ (s : State) (p : Fin 72) (k : Nat) (place : Option (List Byte)), s.gridRuns p = true →
     (∀ d, s.mayStep p (unitStage k) = true → (s.stg p k).req = (s.stg p k).ack → (s.stg p k).got.or place = some d → (s.stg p (k + 1)).got = none →
       CompletesWith (.handshakeStep p k place) s fun t =>
         OnlyField s t p [] ∧ (t.stg p k).req = !(s.stg p k).req ∧ (t.stg p k).ack = (t.stg p k).req ∧ (t.stg p k).got = none ∧
           (t.stg p (k + 1)).got = some d ∧ (t.stg p (k + 1)).req = (s.stg p (k + 1)).req ∧ (t.stg p (k + 1)).ack = (s.stg p (k + 1)).ack ∧
           (∀ j, j ≠ k → j ≠ k + 1 → t.stg p j = s.stg p j) ∧
           ((s.permitRate p).isSome = true → t.mayStep p (unitStage k) = false)) ∧
     (s.mayStep p (unitStage k) = false → (s.stg p k).req = (s.stg p k).ack →
       CompletesWith (.handshakeStep p k place) s fun t => OnlyField s t p [] ∧ ∀ j, t.stg p j = s.stg p j) ∧
     ((s.stg p k).req ≠ (s.stg p k).ack →
       CompletesWith (.handshakeStep p k place) s fun t =>
         OnlyField s t p [] ∧ (t.stg p k).req = (s.stg p k).req ∧ (t.stg p k).bundle = (s.stg p k).bundle ∧ (t.stg p k).got = (s.stg p k).got) ∧
     ((s.stg p k).req ≠ (s.stg p k).ack → (s.stg p (k + 1)).got ≠ none →
       CompletesWith (.handshakeStep p k place) s fun t => OnlyField s t p [] ∧ ∀ j, t.stg p j = s.stg p j)) ∧
  (∀ (s : State) (island : Fin 60) (out : Bool) (tok : Option (List Byte)) (take : Bool),
     let k := crossKey island out
     let x := s.crossing k
     let all := x.far ++ x.near ++ (if x.near.length < 8 then tok.toList else [])
     (s.islandOn island = true → x.near.length ≤ 8 → x.far.length ≤ 8 →
       CompletesWith (.crossingToken island out tok take) s fun t =>
         (t.crossing k).far ++ (t.crossing k).near = (if take then all.drop 1 else all) ∧
           (t.crossing k).far.length ≤ 8 ∧ (t.crossing k).near.length ≤ 8 ∧
           (take = true → all ≠ [] → (t.crossing k).last = all.head?) ∧
           (∀ j, j ≠ k → t.crossing j = s.crossing j) ∧ RegsBut s t [] ∧ SameMem s t) ∧
     (s.islandOn island = false → CompletesWith (.crossingToken island out tok take) s fun t => ∀ j, t.crossing j = s.crossing j))

/-- R46 to R49: while a Field's pacer works at a rate it adds the rate once an oscillator period of 1,250 M/s and issues a permit for each whole
unit; in fixed-rate mode with no clamp that rate is 500 + 10 × RATE_CODE M steps/s. TRIM_LOCKED shows the lock of R45, and the rate monitor's
figures are those of its last interval. A natural rate below the set rate sets RATE_DISTURBED and marks the Field disturbed; once it recovers the
Field is no longer disturbed, and RATE_DISTURBED stays. A setting above RATE_CODE 80 changes nothing; any other goes to every member of the Field's
gang, in force at once unless AT_BOUNDARY holds it for a heat that runs on one of them, and a waiting setting is replaced. -/
def Obligations.PacersTakeSettingsAndIssueTheSetRate : Prop :=
  (∀ (s : State) (p : Fin 72),
     (∀ r, s.permitRate p = some r → (s.field p).pacer.stopped = false →
       CompletesWith (.pacerPermit p) s fun t =>
         OnlyField s t p [] ∧ (t.field p).pacer.acc < 1250 ∧
           1250 * (t.field p).pacer.issued + (t.field p).pacer.acc = 1250 * (s.field p).pacer.issued + (s.field p).pacer.acc + r) ∧
     (s.on (Reg.FLD_PACER_STATUS_FIXED_ACTIVE p) = true → (s.field p).pacer.clamp = 0 →
       s.permitRate p = some (500 + 10 * s.get (Reg.FLD_PACER_STATUS_RATE_CODE_ACTIVE p))) ∧
     (CompletesWith (.trimLock p) s fun t =>
       OnlyRegs s t [Reg.aFLD_PACER_STATUS p] ∧ t.get (Reg.FLD_PACER_STATUS_TRIM_LOCKED p) = 1 ∧
         t.get (Reg.FLD_PACER_STATUS_FIXED_ACTIVE p) = s.get (Reg.FLD_PACER_STATUS_FIXED_ACTIVE p) ∧
         t.get (Reg.FLD_PACER_STATUS_RATE_DISTURBED p) = s.get (Reg.FLD_PACER_STATUS_RATE_DISTURBED p) ∧
         t.get (Reg.FLD_PACER_STATUS_RATE_CODE_ACTIVE p) = s.get (Reg.FLD_PACER_STATUS_RATE_CODE_ACTIVE p)) ∧
     ∀ natural actual : Fin 65536, CompletesWith (.rateMonUpdate p natural actual) s fun t =>
       OnlyRegs s t [Reg.aFLD_RATE_MON p] ∧ t.get (Reg.FLD_RATE_MON_NATURAL_RATE p) = natural ∧ t.get (Reg.FLD_RATE_MON_ACTUAL_RATE p) = actual) ∧
  (∀ (s : State) (p : Fin 72) (natural : Fin 65536),
     (s.on (Reg.FLD_PACER_STATUS_FIXED_ACTIVE p) = true → (natural : Nat) < 500 + 10 * s.get (Reg.FLD_PACER_STATUS_RATE_CODE_ACTIVE p) →
       CompletesWith (.rateDisturbed p natural) s fun t =>
         OnlyField s t p [Reg.aFLD_PACER_STATUS p] ∧ t.get (Reg.FLD_PACER_STATUS_RATE_DISTURBED p) = 1 ∧
           t.get (Reg.FLD_PACER_STATUS_FIXED_ACTIVE p) = 1 ∧ (t.field p).pacer.disturbed = true) ∧
     (500 + 10 * s.get (Reg.FLD_PACER_STATUS_RATE_CODE_ACTIVE p) ≤ natural →
       CompletesWith (.rateRecovered p natural) s fun t =>
         OnlyField s t p [] ∧ (t.field p).pacer.disturbed = false)) ∧
  ∀ (s : State) (p : Fin 72) (v : Word),
    (80 < bits v.toNat 14 8 → CompletesWith (.pacerCtrlWrite p v) s fun t => OnlyRegs s t []) ∧
    (bits v.toNat 14 8 ≤ 80 →
      CompletesWith (.pacerCtrlWrite p v) s fun t =>
        RegsBut s t ((s.gangFields p).flatMap fun q => [Reg.aFLD_PACER_CTRL q, Reg.aFLD_PACER_STATUS q]) ∧ SameMem s t ∧
        (p : Nat) ∈ s.gangFields p ∧
        ∀ q ∈ s.gangFields p,
          t.get (Reg.FLD_PACER_CTRL_FIXED_EN q) = bits v.toNat 0 0 ∧ t.get (Reg.FLD_PACER_CTRL_AT_BOUNDARY q) = bits v.toNat 1 1 ∧
          t.get (Reg.FLD_PACER_CTRL_RATE_CODE q) = bits v.toNat 14 8 ∧
          if bits v.toNat 1 1 = 1 ∧ (s.gangFields p).any s.fieldInHeat = true then
            (t.field q).pacer.waiting = some (bits v.toNat 0 0, bits v.toNat 14 8) ∧
              t.get (Reg.FLD_PACER_STATUS_FIXED_ACTIVE q) = s.get (Reg.FLD_PACER_STATUS_FIXED_ACTIVE q) ∧
              t.get (Reg.FLD_PACER_STATUS_RATE_CODE_ACTIVE q) = s.get (Reg.FLD_PACER_STATUS_RATE_CODE_ACTIVE q)
          else
            (t.field q).pacer.waiting = none ∧ t.get (Reg.FLD_PACER_STATUS_FIXED_ACTIVE q) = bits v.toNat 0 0 ∧
              t.get (Reg.FLD_PACER_STATUS_RATE_CODE_ACTIVE q) = bits v.toNat 14 8)


/-! Posts (R112, R159, R222, R230, R279, R404). -/

/-- R111, R112, R159, R222, R230, R279: a DCS post copies its descriptor from Field memory to the end of its unit's queue, in the order of its
context's posts; a post to a queue without room changes nothing but ISSUE_OVERRUN. -/
def Obligations.DcsPostsQueueTheDescriptorOrOverrun : Prop :=
  (∀ (s : State) (p : Fin 72) (v : Word) (c : Nat),
     let k := bits v.toNat 1 0
     (∀ a : Fin 2, s.Postable p k (128 * bits v.toNat 23 7) 128 c → HasRoom (s.ma p a).queue 16 4 k →
       CompletesWith (.seqIssuePost p a v) s fun t =>
         (t.ma p a).queue = s.postedQueue p k (128 * bits v.toNat 23 7) 128 c (s.splitOf c (s.mread (fmLoc p (128 * bits v.toNat 23 7)) 128)) (s.ma p a).queue ∧
           (t.ctx c).posts = (s.ctx c).posts + 1 ∧ SameMem s t) ∧
     (∀ e : Fin 2, s.Postable p k (64 * bits v.toNat 23 6) (64 * (e + 1)) c → HasRoom (s.eng p e).queue 16 4 k →
       ((e : Nat) = 1 → bit v.toNat 6 = false) →
       CompletesWith (.engIssuePost p e v) s fun t =>
         (t.eng p e).queue = s.postedQueue p k (64 * bits v.toNat 23 6) (64 * (e + 1)) c 0 (s.eng p e).queue ∧
           (t.ctx c).posts = (s.ctx c).posts + 1 ∧ SameMem s t) ∧
     (∀ e : Fin 4, s.Postable p k (64 * bits v.toNat 23 6) 64 c → HasRoom (s.dma p e).queue 16 4 k →
       CompletesWith (.dmaIssuePost p e v) s fun t =>
         (t.dma p e).queue = s.postedQueue p k (64 * bits v.toNat 23 6) 64 c 0 (s.dma p e).queue ∧
           (t.ctx c).posts = (s.ctx c).posts + 1 ∧ SameMem s t) ∧
     (s.Postable p k (64 * bits v.toNat 23 6) 64 c →
       (HasRoom ((s.field p).grid.reconfQ.map (·.1)) 4 4 k →
         CompletesWith (.reconfIssuePost p v) s fun t =>
           (t.field p).grid.reconfQ.map (·.1) =
             s.postedQueue p k (64 * bits v.toNat 23 6) 64 c 0 ((s.field p).grid.reconfQ.map (·.1)) ∧
             (t.ctx c).posts = (s.ctx c).posts + 1 ∧ SameMem s t) ∧
       (HasRoom (s.field p).grid.walkQ 4 4 k →
         CompletesWith (.walkIssuePost p v) s fun t =>
           (t.field p).grid.walkQ = s.postedQueue p k (64 * bits v.toNat 23 6) 64 c 0 (s.field p).grid.walkQ ∧
             (t.ctx c).posts = (s.ctx c).posts + 1 ∧ SameMem s t))) ∧
  (∀ (s : State) (p : Fin 72) (v : Word) (c : Nat),
     let k := bits v.toNat 1 0
     s.ctxOf p k = some c →
     (∀ a : Fin 2, ¬HasRoom (s.ma p a).queue 16 4 k →
       CompletesWith (.seqIssuePost p a v) s fun t =>
         OnlyRegs s t [Reg.aFLD_SEQ_STATUS p a] ∧ t.get (Reg.FLD_SEQ_STATUS_ISSUE_OVERRUN p a) = 1 ∧
           t.get (Reg.FLD_SEQ_STATUS_QUEUED p a) = s.get (Reg.FLD_SEQ_STATUS_QUEUED p a)) ∧
     (∀ e : Fin 2, ¬HasRoom (s.eng p e).queue 16 4 k →
       CompletesWith (.engIssuePost p e v) s fun t =>
         OnlyRegs s t [Reg.aFLD_ENG_STATUS p e] ∧ t.get (Reg.FLD_ENG_STATUS_ISSUE_OVERRUN p e) = 1) ∧
     (∀ e : Fin 4, ¬HasRoom (s.dma p e).queue 16 4 k →
       CompletesWith (.dmaIssuePost p e v) s fun t =>
         OnlyRegs s t [Reg.aFLD_DMA_STATUS p e] ∧ t.get (Reg.FLD_DMA_STATUS_ISSUE_OVERRUN p e) = 1))

/-! Chapters 4 to 6: matrix arrays, macros, pairs. -/

/-- R29, R31, R113, R115, R88: a macro that passes the checks at issue leaves its queue, takes the context's next sequence number and joins the
macros of the array, in a gang on every member; one that fails a check leaves the queue with its code in LAST_FAULT and takes neither. B_TILE_LOAD
puts the B tile that the walk needs next into the cells' second registers while the tile in use stays; KTILE_RUN adds the products of the rows of A and
the columns of B into the tile of the walk's position; a macro at its end writes its record of 32 bytes and leaves its array. -/
def Obligations.MacrosIssueInOrder : Prop :=
  ∀ (s : State) (p : Fin 72) (a : Fin 2),
    (∀ (e : Posted) (c : Nat), s.maFree p a = true → s.seqHead p a = some (e, c) →
      (∀ u r, s.issueCheck p a c ((s.ctx c).macroSeq + 1) e = .ok (u, r) →
        CompletesWith (.macroIssue p a) s fun t =>
          (t.ctx c).macroSeq = (s.ctx c).macroSeq + 1 ∧ (t.ma p a).queue = dropFirst (· == e) (s.ma p a).queue ∧ SameMem s t ∧
            (r.gang = [] → (t.ma p a).runs.map (fun x => (x.ctx, x.seq)) =
              (s.ma p a).runs.map (fun x => (x.ctx, x.seq)) ++ [(c, (s.ctx c).macroSeq + 1)]) ∧
            (((u.runPlaces p r).map (·.1)).Nodup → ∀ x ∈ u.runPlaces p r, ∃ y ∈ (t.ma x.1 a).runs, y.ctx = c ∧ y.seq = (s.ctx c).macroSeq + 1 ∧ y.rank = x.2.1 ∧ y.slot = x.2.2)) ∧
      ∀ code detail, s.issueCheck p a c ((s.ctx c).macroSeq + 1) e = .refused code detail →
        CompletesWith (.macroIssue p a) s fun t =>
          (t.ctx c).macroSeq = (s.ctx c).macroSeq ∧ (t.ma p a).queue = dropFirst (· == e) (s.ma p a).queue ∧
            (t.ma p a).runs = (s.ma p a).runs ∧ t.get (Reg.FLD_SEQ_STATUS_LAST_FAULT p a) = code % 2 ^ 12 ∧ SameMem s t) ∧
    (∀ (r n : MacroRun) (u w : State) (cols sc : List (List Nat)), s.MacroGoes p a r → s.mayStep p (unitLoad a) = true → s.mayRead p a r = true →
      r.paired = false → r.bWanted = some n → r.bNext = none →
      let j := n.place.2.1
      let k := n.kRange n.place.2.2
      (s.bucketLend p r.ctx).readBlock p a 1 r.slot (mdBFmt r.desc) (r.base 1 n.b) (mdStride r.desc 1) (fbit r.desc 0 16) (!fbit r.desc 0 16)
        (j * mdTN r.desc) (n.colsIn n.b j) k.1 k.2 = .ok (u, cols) →
      u.readScales p r 1 n.b (j * mdTN r.desc) (n.colsIn n.b j) k.1 k.2 = .ok (w, sc) →
      CompletesWith (.bTileLoad p a .good) s fun t =>
        ∃ x, t.macroOf p a r.ctx r.seq = some x ∧
          x.bNext = some { b := n.b, j := j, kk := n.place.2.2, cols := cols, scales := sc } ∧ x.bTile = r.bTile ∧ x.q = r.q) ∧
    (∀ (r : MacroRun) (bt : BTile) (n : Nat) (x : Tile) (u w : State) (rows sc : List (List Nat)), s.MacroGoes p a r →
      s.mayStep p (unitMa a) = true → s.mayRead p a r = true → r.paired = false → mdAcc r.desc ≠ 2 → fw r.desc 28 11 0 = 0 →
      r.bSwitch.bTile = some bt → bt.serves r.b r.place.2.1 r.place.2.2 = true → s.slotOfTile p a r = some (n, x) →
      ((s.ma p a).saved.any fun e => e.2.ctx == r.ctx && e.2.pinned) = false →
      let i := r.place.1
      let k := r.kRange r.place.2.2
      k.2 ≠ 0 →
      ((s.setRun p a r.bSwitch).bucketLend p r.ctx).readBlock p a 0 r.slot (mdAFmt r.desc) (r.base 0 r.b) (mdStride r.desc 0) (fbit r.desc 0 15)
        (fbit r.desc 0 15) (i * mdTM r.desc) (r.rowsIn r.b i) k.1 k.2 = .ok (u, rows) →
      u.readScales p r.bSwitch 0 r.b (i * mdTM r.desc) (r.rowsIn r.b i) k.1 k.2 = .ok (w, sc) →
      CompletesWith (.ktileRun p a none .good) s fun t =>
        t.tileOf p a n = some { x.addBlock r.desc k.1 rows bt.cols sc bt.scales with
          kDone := x.kDone + 1, nextG := ceilDiv (k.1 + k.2) (mdG r.desc), row := 0 } ∧
          (∃ y, t.macroOf p a r.ctx r.seq = some y ∧ y.q = (r.goTo r.b (r.q + 1)).q ∧ y.fault = r.fault) ∧ SameMem w t) ∧
    ∀ r : MacroRun, ((s.ma p a).runs.find? fun r => s.macroEnded p a r) = some r → r.gang = [] → fbit r.desc 30 10 = false →
      let o := 32 * fw r.desc 30 29 11
      s.windowOk p r.slot o 32 = true → s.sleepingBank? p o 32 = none → s.badPartial? (fmLoc p o) 32 = none →
      CompletesWith (.macroComplete p a) s fun t =>
        (t.ma p a).runs = (s.ma p a).runs.filter (fun x => !(x.ctx == r.ctx && x.seq == r.seq)) ∧ t.mread (fmLoc p o) 32 = r.record s.stamp ∧
          MemBut s t (fmLoc p o) 32

/-- R88, R95, R113, R118, R124: the cells switch to the B tile that the walk needs, a K-tile is added into the accumulator slot of its output tile
and the walk goes on (MacrosIssueInOrder says the sum). R99 to R102, R136: a saved tile comes back from its frame, a finished tile leaves its slot, a
tree adds the parts of one split, and a macro whose walk is done writes its record and ends. -/
def Obligations.TilesRunDrainAndComplete : Prop :=
  (∀ (s : State) (p : Fin 72) (a : Fin 2) (r : MacroRun), s.MacroGoes p a r →
     (∀ (bt : BTile) (u : State), s.mayStep p (unitMa a) = true → s.mayRead p a r = true → r.paired = false →
       r.bSwitch.bTile = some bt → bt.serves r.b r.place.2.1 r.place.2.2 = true →
       ((s.setRun p a r.bSwitch).bucketLend p r.ctx).ktileGo p a r.bSwitch bt
         { ctx := r.ctx, seq := r.seq, rows := [], done0 := false, done1 := false } = .ok (some u) →
       (CompletesWith (.ktileRun p a none .good) s fun t =>
         (t.ma p a).tiles = (u.ma p a).tiles ∧ ∃ x, t.macroOf p a r.ctx r.seq = some x ∧ x.bTile = some bt ∧ x.order = r.order + 1 ∧
           (x.b, x.q, x.walkDone) = ((r.goTo r.b (r.q + 1)).b, (r.goTo r.b (r.q + 1)).q, (r.goTo r.b (r.q + 1)).walkDone)) ∧
       ∀ col : Fin 130, (col : Nat) ∈ s.serviceCols p a → CompletesWith (.ktileRun p a (some col) .good) s fun t =>
         ∃ x, t.macroOf p a r.ctx r.seq = some x ∧ x.fault = some Flt.ARRAY_RESIDUE ∧ x.q = r.q ∧
           t.get (Reg.FLD_MA_STATUS_RESIDUE_ERR p a) = 1 ∧ SameMem s t) ∧
     ∀ (n m : Nat) (x : Tile) (bs : List Byte),
       s.savedNext p a r = some (m, (n, x)) → x.pinned = false → s.areaRead p r.ctx (s.saveFrame p r.slot a n) frameSize = .ok bs →
       x.matchesFrame 1 bs = true →
       CompletesWith (.slotResume p a .good) s fun t =>
         t.slotSt p a m = 1 ∧ (s.slotSt p a n = 0 → m = n) ∧ t.tileOf p a m = some { x.load bs with order := r.order } ∧
           (t.ma p a).saved = (s.ma p a).saved.filter (· != (n, x)) ∧ SameMem s t) ∧
  ((∀ (s : State) (p : Fin 72) (a : Fin 2) (n : Fin 8) (x : Tile) (r : MacroRun) (v : State),
     s.tileOf p a n = some x → s.runOf p a x = some r → s.mayStep p (unitDrain a) = true → s.agentWaits p a 0 r.ctx = false →
     r.fault = none →
     ((List.range 8).any fun m => m != n && s.slotSt p a m == 3) = false → s.slotSt p a n = 2 → s.ctxActive r.ctx = true →
     s.macroResolve p a r = none → mdP r.desc = 0 → (s.stepTaken p (unitDrain a)).pagesReady p r.ctx .write (r.drainSpans x) = .ok () →
     (((s.stepTaken p (unitDrain a)).setSlot p a n 3).putTile p a n x).drainRows p a n r 128 x = (v, none) →
     CompletesWith (.tileDrain p a n .good) s fun t => t.slotSt p a n = 0 ∧ t.tileOf p a n = none ∧ SameMem v t) ∧
   (∀ (s : State) (c : Fin 64) (tree : Fin 256) (tidx level pos : Nat) (w x y : TreeVal),
     (s.trees.find? fun v => v.ctx == (c : Nat) && v.tree == (tree : Nat) && v.tidx == tidx) = some w → w.chain = false →
     (∀ e ∈ (s.ctx c).trees, e.tree.val ≠ tree) →
     2 * pos + 1 < treeWidth w.parts level → s.treeAt c tree w.split tidx level (2 * pos) = some x →
     s.treeAt c tree w.split tidx level (2 * pos + 1) = some y → (s.treeWay x y).routeUp y.route = true →
     CompletesWith (.treeCombine c tree tidx level pos) s fun t =>
       t.trees = dropFirst (· == y) (dropFirst (· == x) s.trees) ++ [x.add y (level + 1) pos] ∧
         OnlyRegs { s with trees := t.trees, routes := t.routes } t []) ∧
   ∀ (s u : State) (p : Fin 72) (a : Fin 2) (r : MacroRun),
     ((s.ma p a).runs.find? fun r => s.macroEnded p a r) = some r → r.gang = [] → fbit r.desc 30 10 = false →
     s.fmWrite p (some r.slot) (32 * fw r.desc 30 29 11) (r.record s.stamp) = .ok u →
     CompletesWith (.macroComplete p a) s fun t =>
       (t.ma p a).runs = (s.ma p a).runs.filter (fun x => !(x.ctx == r.ctx && x.seq == r.seq)) ∧
         t.mread (fmLoc p (32 * fw r.desc 30 29 11)) 32 = r.record s.stamp ∧
         MemBut s t (fmLoc p (32 * fw r.desc 30 29 11)) 32)

/-- R108, R130, R133: once no drain of it is in progress, a descheduled context's macros stop on an array and its filling and pinned slots that the
mask does not name stay HELD, but for those whose frame is current, which are freed; a halo's lines go to the neighbour that named them, and both ends note
it. R99, R100, R102, R103, R132: a saved tile comes back into its slot or another and no other slot changes; a part of a split that is not its root
gives its tile to the tree, and a chain adds the next part to the sum so far. -/
def Obligations.ArraysSuspendAndExchangeHalos : Prop :=
  (∀ (s : State) (p : Fin 72) (a : Fin 2) (slot : Fin 4) (c : Nat), s.ctxOf p slot = some c → s.ctxActive c = false →
    ((s.ma p a).runs.any fun r => r.ctx == c && r.paired && !r.suspended && !r.walkDone) = false →
    ((s.ma p a).tiles.any fun e => e.2.ctx == c && s.slotSt p a e.1 == 3) = false → s.movesAway p = false →
    ((s.ma p a).tiles.map (·.1)).Nodup →
    CompletesWith (.arraySuspend p a slot 0 []) s fun t =>
      (∀ r ∈ (t.ma p a).runs, r.ctx = c → r.walkDone = false → r.suspended = true ∧ r.bTile = none) ∧
        (∀ e ∈ (s.ma p a).tiles, e.1 < 8 → e.2.ctx = c → s.slotSt p a e.1 = 1 ∨ s.slotSt p a e.1 = 4 ∨ s.slotSt p a e.1 = 5 →
          if s.frameCurrent p a e.2 = true then t.slotSt p a e.1 = 0 ∧ t.tileOf p a e.1 = none
          else t.slotSt p a e.1 = 5 ∧ t.tileOf p a e.1 = some e.2) ∧ SameMem s t) ∧
  (∀ (s : State) (p : Fin 72) (a : Fin 2) (r : MacroRun) (n m : Nat) (x : Tile) (bs : List Byte), s.MacroGoes p a r →
    s.savedNext p a r = some (m, (n, x)) → x.pinned = false → s.areaRead p r.ctx (s.saveFrame p r.slot a n) frameSize = .ok bs →
    x.matchesFrame 1 bs = true →
    CompletesWith (.slotResume p a .good) s fun t =>
      t.slotSt p a m = 1 ∧ t.tileOf p a m = some { x.load bs with order := r.order } ∧ (∀ k, k ≠ m → t.tileOf p a k = s.tileOf p a k) ∧
        (t.ma p a).saved = (s.ma p a).saved.filter (· != (n, x)) ∧ SameMem s t) ∧
  (∀ (s : State) (p : Fin 72) (a : Fin 2) (n : Fin 8) (x : Tile) (r : MacroRun), s.tileOf p a n = some x → s.runOf p a x = some r →
    s.mayStep p (unitDrain a) = true → s.agentWaits p a 0 r.ctx = false → r.fault = none → s.macroResolve p a r = none →
    ((List.range 8).any fun m => m != n && s.slotSt p a m == 3) = false → s.slotSt p a n = 2 → s.ctxActive r.ctx = true →
    mdP r.desc ≠ 0 → mdPart r.desc ≠ 0 →
    CompletesWith (.tileDrain p a n .good) s fun t =>
      t.trees = s.trees ++ [x.treeVal r ((s.lfieldOf p).getD 0)] ∧ t.slotSt p a n = 0 ∧ t.tileOf p a n = none ∧ SameMem s t) ∧
  (∀ (s : State) (c : Fin 64) (tree : Fin 256) (tidx level : Nat) (w x y : TreeVal),
    (s.trees.find? fun v => v.ctx == (c : Nat) && v.tree == (tree : Nat) && v.tidx == tidx) = some w → w.chain = true →
    (∀ e ∈ (s.ctx c).trees, e.tree.val ≠ tree) → level + 1 < w.parts → s.treeAt c tree w.split tidx level 0 = some x →
    s.treeAt c tree w.split tidx 0 (level + 1) = some y → x.home = y.home → (∀ r ∈ s.routes, r.user ≠ y.route) →
    CompletesWith (.treeCombine c tree tidx level 0) s fun t =>
      t.trees = dropFirst (· == y) (dropFirst (· == x) s.trees) ++ [x.add y (level + 1) 0] ∧ OnlyRegs { s with trees := t.trees } t []) ∧
  ∀ (s u : State) (p : Fin 72) (a : Fin 2) (i : Fin 4) (r r2 : MacroRun) (q a2 : Nat), q < 72 → q ≠ p →
    ((s.ma p a).runs.findSome? fun r => s.macroResolve p a r) = none →
    ((s.ma p a).runs.findSome? fun r => (s.haloReady p a i r).map fun x => (r, x)) = some (r, q, a2, r2) →
    s.macroOf p a r.ctx r.seq = some r → s.macroOf q a2 r2.ctx r2.seq = some r2 → s.gridRuns p = true →
    fw (r2.haloEntry (haloOpp i)) 0 23 16 = fw (r.haloEntry i) 0 23 16 →
    fw (r2.haloEntry (haloOpp i)) 3 15 0 = fw (r.haloEntry i) 3 15 0 →
    s.haloLines p r.slot q r2.slot (fw (r.haloEntry i) 1 31 0) (fw (r2.haloEntry (haloOpp i)) 2 31 0) (mdStride r.desc 0)
      (mdStride r2.desc 0) (fw (r.haloEntry i) 3 15 0) (fw (r.haloEntry i) 0 23 16) = .ok u →
    CompletesWith (.haloExchange p a i) s fun t =>
      (∃ x, t.macroOf p a r.ctx r.seq = some x ∧ x.haloSent = r.haloSent ||| 2 ^ (i : Nat)) ∧
        (∃ y, t.macroOf q a2 r2.ctx r2.seq = some y ∧ y.haloRecv = r2.haloRecv ||| 2 ^ haloOpp i) ∧ SameMem u t

/-- R141 to R147: two heads that form a pair issue together; each visit's dY rows are fetched once for both arrays and counted; a pair whose
context is descheduled stops between visits with its buffer dropped; the partner of a member that stopped with a fault stops too. -/
def Obligations.PairsIssueVisitAndStopTogether : Prop :=
  ∀ (s : State) (p : Fin 72),
    (∀ (c : Nat) (x w : Posted) (rx rw : MacroRun), s.maFree p 0 = true → s.maFree p 1 = true → s.pairHeads p = some (c, x, w) →
      ∀ s1 s2, s.issueCheck p 0 c ((s.ctx c).macroSeq + 1) x = .ok (s1, rx) →
      s1.issueCheck p 1 c ((s.ctx c).macroSeq + 2) w = .ok (s2, rw) →
      (pairOk x.desc w.desc = true →
        CompletesWith (.pairIssue p) s fun t =>
          (t.ma p 0).queue = dropFirst (· == x) (s.ma p 0).queue ∧ (t.ma p 1).queue = dropFirst (· == w) (s.ma p 1).queue ∧
            (t.ctx c).macroSeq = (s.ctx c).macroSeq + 2 ∧ (t.field p).pairBuf = [] ∧ SameMem s t) ∧
      (pairOk x.desc w.desc = false →
        CompletesWith (.pairIssue p) s fun t =>
          (t.ma p 0).queue = dropFirst (· == x) (s.ma p 0).queue ∧ (t.ma p 1).queue = dropFirst (· == w) (s.ma p 1).queue ∧
            (t.ma p 0).runs = (s.ma p 0).runs ∧ (t.ma p 1).runs = (s.ma p 1).runs ∧
            t.get (Reg.FLD_PAIR_STATUS_LAST_FAULT p) = Flt.PAIR_MISMATCH ∧ SameMem s t)) ∧
    (∀ (x w : MacroRun) (u : State) (rows : List (List Nat)),
      ((s.pairRuns p).find? fun y => s.runActive p 0 y.1 && s.ctxActive y.1.ctx) = some (x, w) → s.gridRuns p = true →
      w.fault = none → w.suspended = false → s.mayRead p 0 x = true → s.mayRead p 1 w = true → s.agentWaits p 0 0 x.ctx = false →
      (s.field p).pairBuf = [] → s.macroResolve p 0 x = none → x.q < x.mt 0 * x.nt 0 * x.kt →
      let w3 := walkPlace (mdLoop x.desc) (x.mt 0) (x.nt 0) x.kt x.q
      s.readBlock p 0 0 x.slot (mdAFmt x.desc) (x.base 0 0) (mdStride x.desc 0) false false (w3.1 * 128) (x.rowsIn 0 w3.1) (x.kRange w3.2.2).1
        (x.kRange w3.2.2).2 = .ok (u, rows) →
      u.overflowAt (Reg.aFLD_PAIR_FETCH_LO p) = false → u.count48At (Reg.aFLD_PAIR_FETCH_LO p) + 1 < 2 ^ 48 - 1 →
      CompletesWith (.pairVisit p) s fun t =>
        (t.field p).pairBuf = [{ ctx := x.ctx, seq := x.seq, rows := rows, done0 := false, done1 := false }] ∧
          t.count48At (Reg.aFLD_PAIR_FETCH_LO p) = u.count48At (Reg.aFLD_PAIR_FETCH_LO p) + 1 ∧ SameMem u t) ∧
    (∀ x w : MacroRun,
      (((s.pairRuns p).find? fun y => !s.ctxActive y.1.ctx && ([y.1, y.2].any fun r => !r.walkDone && !r.suspended)) = some (x, w) →
        s.midVisit p 0 x = false → s.midVisit p 1 w = false → s.draining p 0 x.ctx = false → s.draining p 1 x.ctx = false →
        s.movesAway p = false →
        CompletesWith (.pairSuspend p) s fun t =>
          (t.field p).pairBuf = ((s.field p).pairBuf.filter fun v => !v.isOf 0 x) ∧
            (∀ a : Fin 2, ∀ r ∈ (t.ma p a).runs, r.ctx = x.ctx → r.paired = true → r.walkDone = false → r.suspended = true) ∧ SameMem s t) ∧
      (∀ f, ((s.pairRuns p).find? fun y => y.1.fault.isSome != y.2.fault.isSome) = some (x, w) → x.fault = some f → w.fault = none →
        s.macroOf p 1 w.ctx w.seq = some w →
        CompletesWith (.pairPartnerStop p) s fun t =>
          (∃ y, t.macroOf p 1 w.ctx w.seq = some y ∧ y.fault = some Flt.PAIR_PARTNER) ∧
            t.get (Reg.FLD_PAIR_STATUS_LAST_FAULT p) = Flt.PAIR_PARTNER ∧ (t.ma p 0).runs = (s.ma p 0).runs ∧ SameMem s t))

/-! Chapter 7: vector and row engines. -/

/-- R159 to R163: an engine that is free takes the head of its queue: an operation that passes its checks joins the engine's operations with the
context's next number, one that fails leaves its code in LAST_FAULT; a finished operation writes its completion record and leaves. -/
def Obligations.EngineOperationsIssueAndComplete : Prop :=
  ∀ (s : State) (p : Fin 72) (e : Fin 2),
    (∀ (x : Posted) (c : Nat), s.engFree p e = true → s.engHead p (s.eng p e).queue = some (x, c) →
      let n := Tab.get (fun _ => 0) (s.eng p e).seqs c + 1
      let check := if (e : Nat) = 0 then s.veCheck p x.slot c n x.order x.desc else s.reCheck p x.slot c n x.order x.desc
      (∀ u r, check = .ok u r → ((e : Nat) = 0 → (u.veBind p x.slot x.desc).isSome = true) →
        CompletesWith (.engOpIssue p e) s fun t =>
          (t.eng p e).runs = (s.eng p e).runs ++ [r] ∧ (t.eng p e).queue = dropFirst (· == x) (s.eng p e).queue ∧
            Tab.get (fun _ => 0) (t.eng p e).seqs c = n ∧ SameMem s t) ∧
      ∀ code detail, check = .refused code detail →
        CompletesWith (.engOpIssue p e) s fun t =>
          (t.eng p e).runs = (s.eng p e).runs ∧ (t.eng p e).queue = dropFirst (· == x) (s.eng p e).queue ∧
            (t.eng p e).seqs = (s.eng p e).seqs ∧ t.get (Reg.FLD_ENG_STATUS_LAST_FAULT p e) = code % 2 ^ 12 ∧ SameMem s t) ∧
    ∀ (r0 r : EngRun) (s1 u : State), ((s.eng p e).runs.find? fun r => r.finished e && s.ctxActive r.ctx) = some r0 →
      (if (e : Nat) = 0 then s.veReduce p r0 else .ok (s, r0)) = .ok (s1, r) →
      let k := if (e : Nat) = 0 then 15 else 24
      s1.fmWrite p (some r.slot) (32 * fw r.desc k 29 11) (r.record s1.stamp) = .ok u → fbit r.desc k 10 = false →
      CompletesWith (.engComplete p e) s fun t =>
        (t.eng p e).runs = (s.eng p e).runs.filter (fun y => y.ctx != r.ctx) ∧
          t.mread (fmLoc p (32 * fw r.desc k 29 11)) 32 = r.record s1.stamp ∧ MemBut s1 t (fmLoc p (32 * fw r.desc k 29 11)) 32

/-- R160, R163, R170, R175: an engine takes its next vector or segment, and an operation whose context is descheduled is suspended. R164: integer
stages wrap, and saturating ones saturate. -/
def Obligations.VectorsAdvanceAndStagesCompute : Prop :=
  (∀ (s : State) (p : Fin 72),
     (∀ (r r2 r3 : EngRun) (s2 u : State) (un : Fin 32) (q : Fin 4) (leg : Fin 8),
       s.engTurn p 0 (fun r => fbit r.desc 0 21) = .go r → r.out = [] → 256 * r.pos < r.count →
       s.veGather p r (min 256 (r.count - 256 * r.pos)) = (s2, r2, true) →
       (s2.stepTaken p unitVe).veVector p r2 (256 * r.pos) (min 256 (r.count - 256 * r.pos)) = .ok (u, r3) →
       CompletesWith (.veChainVector p .good un q leg) s fun t =>
         ∃ x, ((t.eng p 0).runs.find? fun y => y.ctx == r.ctx) = some x ∧ x.pos = r.pos + 1 ∧ x.items = r.items + 1 ∧ x.suspended = false) ∧
     (∀ (r : EngRun) (u : State), s.engTurn p 1 (fun r => fbit r.desc 0 11) = .go r → r.outside = false → 128 * r.pos < r.count →
       (s.stepTaken p unitRe).reSegment p r = .ok u →
       CompletesWith (.reSegment p .good) s fun t =>
         ∃ x, ((t.eng p 1).runs.find? fun y => y.ctx == r.ctx) = some x ∧
           if r.seg + 1 < r.segs then x.seg = r.seg + 1 ∧ x.pos = r.pos ∧ x.pass2 = r.pass2
           else (x.seg, x.pos, x.pass2, x.items) = (r.nextPass.seg, r.nextPass.pos, r.nextPass.pass2, r.nextPass.items)) ∧
     ∀ (e : Fin 2) (r : EngRun), s.movesAway p = false → ((s.eng p e).runs.find? fun r => r.fault.isNone && !s.ctxActive r.ctx && !r.suspended) = some r →
       CompletesWith (.engSuspend p e false) s fun t =>
         OnlyField s t p [Reg.aFLD_ENG_STATUS p e] ∧ (t.eng p e).queue = (s.eng p e).queue ∧
           ∃ x, ((t.eng p e).runs.find? fun y => y.ctx == r.ctx) = some x ∧ x.suspended = true ∧ x.pos = r.pos) ∧
  (∀ x y z : Nat, x < 2 ^ 32 → y < 2 ^ 32 →
     (veOp 0x20 x y z).1 = wrapInt 32 (signed 32 x + signed 32 y) ∧
       (veOp 0x21 x y z).1 = wrapInt 32 (signed 32 x - signed 32 y) ∧
       (veOp 0x22 x y z).1 = wrapInt 32 (signed 32 x * signed 32 y) ∧
       signed 32 (veOp 0x23 x y z).1 = min (signed 32 x) (signed 32 y) ∧
       signed 32 (veOp 0x24 x y z).1 = max (signed 32 x) (signed 32 y) ∧
       (∀ k, k < 32 → (veOp 0x2A x y z).1.testBit k = x.testBit (min 31 (k + y % 32))) ∧
       signed 32 (veOp 0x2B x y z).1 = max (-2147483647) (min 2147483647 (signed 32 x + signed 32 y)) ∧
       ((veOp 0x2B x y z).2 = true ↔ signed 32 x + signed 32 y < -2147483647 ∨ 2147483647 < signed 32 x + signed 32 y))


/-! Chapter 8: the dataflow grid. -/

/-- R46, R185, R190, R194: a compute unit that may step, and whose queues have what its leg reads, takes exactly the heads of those queues, passes
them through the leg's stages, and offers the result on the ports its route names, in front of all else it has to send; it takes its permit, and
entries on their way move before and after. -/
def Obligations.ComputeUnitsPassOneToken : Prop :=
  ∀ (s : State) (p : Fin 72) (u : Fin 16) (x : Nat) (l : Leg),
    (s.gridSettle p).LegSteps p u x l → (s.gridSettle p).mayStep p u = true → l.kind = 1 →
    let b := (s.gridSettle p).stepTaken p u
    b.cuAct p u x l = .token → b.NoSilt p →
    let qs := l.segReads 6 0
    let v := b.cuPass p u x l 0 [] allLanes l.values
    let e : CuEnv :=
      { heads := (b.takeHeads p u x qs).2.1, vals := Tab.get (fun _ => 0) l.values, mask := (b.takeHeads p u x qs).2.2 &&& allLanes,
        idle := fun n => (Config.idleLane (32 * b.fresh + n)).toNat }
    ∃ k, v.leg p u x = some k ∧
      (CompletesWith (.cuStep p u) s fun t => t = ((((v.legDeliver p u x k).getD v).moveCheck p u x).gridSettle p).alerts) ∧
      (b.permitRate p ≠ none → b.mayStep p u = false) ∧
      (∀ q, q ∉ qs → v.iq p u q = b.iq p u q) ∧
      (qs.Nodup → ∀ q ∈ qs, v.iq p u q = dropFirst (·.leg == x) (b.iq p u q)) ∧
      (∀ lanes pred, l.pass e 8 0 [] = .out lanes pred → l.outPorts pred ≠ 0 →
        k.due.head? = some (.entry (l.outPorts pred) false lanes e.mask))

/-- R206 to R208: a switch, begun once the old leg has nothing left to send, ends; and a unit whose active leg cannot run moves on to a leg that can.
R211, R212: in each oscillator period the switch and fault counters of a unit advance exactly while their condition holds, and a clear makes the
selected counters and their overflow flags zero. -/
def Obligations.UnitsSwitchLegsAndCountStalls : Prop :=
  (∀ (s : State) (p : Fin 72) (u : Fin 32), s.gridRuns p = true → s.on (Reg.FLD_GRID_CTRL_RUN p) = true →
     (s.on (Reg.FLD_UNIT_STATE_SWITCHING p u) = true →
       CompletesWith (.legSwitch p u) s fun t =>
         t.get (Reg.FLD_UNIT_STATE_SWITCHING p u) = 0 ∧ (t.unit p u).old = none ∧
           t.get (Reg.FLD_UNIT_STATE_ACTIVE_LEG p u) = s.get (Reg.FLD_UNIT_STATE_ACTIVE_LEG p u) ∧ OnlyField s t p [Reg.aFLD_UNIT_STATE p u]) ∧
     ∀ (x y : Nat) (l : Leg), s.get (Reg.FLD_UNIT_STATE_ACTIVE_LEG p u) = x → s.on (Reg.FLD_UNIT_STATE_SWITCHING p u) = false →
       s.legRuns p u x = false → s.leg p u x = some l → l.due = [] ∨ s.legSends p u x l = false ∨ s.carryStuck p u x l = true → s.lapStop p u x = y → y ≠ x → y < 8 →
       CompletesWith (.legSwitch p u) s fun t =>
         t.get (Reg.FLD_UNIT_STATE_ACTIVE_LEG p u) = y ∧ t.get (Reg.FLD_UNIT_STATE_SWITCHING p u) = 1 ∧ (t.unit p u).old = some x ∧
           OnlyField s t p [Reg.aFLD_UNIT_STATE p u]) ∧
  (∀ (s : State) (p : Fin 72),
     (∀ (u : Fin 32) (k : Fin 2) (a : Nat), a = Reg.aFLD_UNIT_STALL_LO p (4 * u + 2 + k) →
       s.overflowAt a = false → s.count48At a + 1 < 2 ^ 48 - 1 →
       CompletesWith (.stallCountTick p) s fun t =>
         t.count48At a = s.count48At a +
             b2n (if (k : Nat) = 0 then s.on (Reg.FLD_UNIT_STATE_SWITCHING p u) else s.get (Reg.FLD_UNIT_STATE_FAULTED_LEGS p u) != 0) ∧
           t.overflowAt a = false ∧ SameMem s t) ∧
     ∀ units queues : Bool, CompletesWith (.gridCntClear p units queues) s fun t =>
       OnlyRegs s t ((if units then (List.range 128).flatMap fun n => [Reg.aFLD_UNIT_STALL_LO p n, Reg.aFLD_UNIT_STALL_LO p n + 4] else []) ++
           (if queues then (List.range 256).flatMap fun n => [Reg.aFLD_Q_STALL_LO p n, Reg.aFLD_Q_STALL_LO p n + 4] else [])) ∧
         (units = true → ∀ n, n < 128 → t.count48At (Reg.aFLD_UNIT_STALL_LO p n) = 0 ∧ t.overflowAt (Reg.aFLD_UNIT_STALL_LO p n) = false) ∧
         (queues = true → ∀ n, n < 256 → t.count48At (Reg.aFLD_Q_STALL_LO p n) = 0 ∧ t.overflowAt (Reg.aFLD_Q_STALL_LO p n) = false))

/-- R46, R198 to R203: a generator that may step takes its index token, reads the 128 bytes at the address it forms and sends them, or writes the
lanes of a data token there, and goes on to its next position; entries on their way move before and after. On a slot ring it takes the ring's next
free slot. -/
def Obligations.GeneratorsReadWriteAndHoldSlots : Prop :=
  ∀ (s : State) (p : Fin 72) (m : Fin 16) (g : Fin 4) (x : Nat) (l : Leg), l.kind = 2 →
    (∀ (e : QEntry) (c : Nat),
      let s0 := s.gridSettle p
      let b := s0.stepTaken p (16 + m)
      let v := b.agDo p (16 + m) x l g []
      s0.LegSteps p (16 + m) x l → s0.mayStep p (16 + m) = true →
      s0.ctxOf p l.slot = some c → s0.stopCode p 4 (agIndex (16 + m) g) c = none → l.due = [] → l.sealDone = false →
      s0.agentWaits p 4 (agIndex (16 + m) g) c = false → s0.muHead p (16 + m) x l = none → b.NoSilt p →
      (CompletesWith (.agToken p m g []) s fun t => t = ((v.moveCheck p (16 + m) x).gridSettle p).alerts) ∧
      (b.agAct p (16 + m) x l g = .index → b.headOfLeg p (16 + m) (l.agIq g) x = some e →
        (∃ k, v.leg p (16 + m) x = some k ∧ (k.agPos g).idx = (maskLanes e.valid).map (fun n => e.lanes.getD n 0) ∧ (k.agPos g).pos = 0) ∧
          v.iq p (16 + m) (l.agIq g) = dropFirst (·.leg == x) (b.iq p (16 + m) (l.agIq g)) ∧ SameMem b v) ∧
      (∀ a, b.agAct p (16 + m) x l g = .read (some a) → l.agTarget g = 0 → l.agMode g = 1 → b.agBadAddr p l g a = false →
        b.badWord? (muLoc p m a) 128 = none →
        let ls := lanesOf (b.mread (muLoc p m a) 128)
        (b.sendOut p (16 + m) x l (2 ^ l.agOut g) false ls allLanes).isSome = true →
        ∃ k, v.leg p (16 + m) x = some k ∧ (k.agPos g).pos = (l.agPos g).pos + 1 ∧ k.sent = l.sent + 1 ∧ k.lane0 = ls.headD 0) ∧
      (∀ a, b.agAct p (16 + m) x l g = .write (some a) → l.agTarget g = 0 → l.agMode g = 2 →
        a = l.agAffine g (l.agPos g).pos → b.headOfLeg p (16 + m) (l.agDq g) x = some e → e.valid = allLanes →
        b.agBadAddr p l g a = false → b.badPartial? (muLoc p m a) 128 = none →
        v.mread (muLoc p m a) 128 = laneBytes e.lanes ∧ MemBut b v (muLoc p m a) 128 ∧
          (∃ k, v.leg p (16 + m) x = some k ∧ (k.agPos g).pos = (l.agPos g).pos + 1) ∧
          v.iq p (16 + m) (l.agDq g) = dropFirst (·.leg == x) (b.iq p (16 + m) (l.agDq g)))) ∧
    (s.LegSteps p (16 + m) x l → s.agAct p (16 + m) x l g = .ring → l.agTarget g = 3 → (l.agPos g).ring = false → l.agWrites g = true →
      s.ringOpOk p (l.agRing g) l.slot = true → s.ringHeadFree p (l.agRing g) = true →
      CompletesWith (.agRingSlot p m g) s fun t =>
        ∃ k, t.leg p (16 + m) x = some k ∧ (k.agPos g).ring = true ∧ (k.agPos g).pos = (l.agPos g).pos ∧ SameMem s t)

/-- R182, R183: a free port binds to a post target from 1 to 10, any other target leaves the register; lane 0 of a token that has reached a port
bound to MA0's sequencer posts there, and where posting is disabled the leg that posted is stopped. -/
def Obligations.PostPortsBindAndPost : Prop :=
  ∀ (s : State) (p : Fin 72) (g : Fin 16),
    (∀ v : Word, (10 < bits v.toNat 3 0 → CompletesWith (.gpPostBind p g v) s fun t => OnlyRegs s t []) ∧
      (0 < bits v.toNat 3 0 → bits v.toNat 3 0 ≤ 10 → s.get (Reg.FLD_CH_PORT_BIND_ROLE p g) = 0 → s.get (Reg.FLD_GP_BIND_PEER p g) = 0 →
        CompletesWith (.gpPostBind p g v) s fun t =>
          OnlyRegs s t [Reg.aFLD_GP_POST p g, Reg.aFLD_GP_BIND p g] ∧ t.get (Reg.FLD_GP_POST_TARGET p g) = bits v.toNat 3 0 ∧
            t.get (Reg.FLD_GP_POST_CTX p g) = bits v.toNat 5 4 ∧ t.get (Reg.FLD_GP_BIND_PEER p g) = 5)) ∧
    ∀ (k : Nat) (e : Transit) (c : Nat), s.portHead p g = some (k, e) → s.get (Reg.FLD_GP_BIND_PEER p g) = 5 → e.entry.baton = false →
      s.get (Reg.FLD_GP_POST_TARGET p g) = 1 →
      let w := e.entry.lanes.headD 0
      let slot := s.get (Reg.FLD_GP_POST_CTX p g)
      (s.on (Reg.FLD_SEQ_CTRL_GRID_POST_EN p) = true → s.Postable p slot (128 * bits w 23 7) 128 c → HasRoom (s.ma p 0).queue 16 4 slot →
        CompletesWith (.gridPost p g) s fun t =>
          (t.ma p 0).queue =
            s.postedQueue p slot (128 * bits w 23 7) 128 c (s.splitOf c (s.mread (fmLoc p (128 * bits w 23 7)) 128)) (s.ma p 0).queue) ∧
      (∀ l, s.on (Reg.FLD_SEQ_CTRL_GRID_POST_EN p) = false → s.leg p (e.src / 8) (e.src % 8) = some l → e.src < 256 →
        CompletesWith (.gridPost p g) s fun t =>
          t.legFaulted p (e.src / 8) (e.src % 8) = true ∧ t.get (Reg.FLD_UNIT_STATE_LAST_FAULT p (e.src / 8)) = Flt.GRID_POST ∧
            (t.ma p 0).queue = (s.ma p 0).queue)

/-! Chapter 9: deadlock, reconfiguration, walks. -/

/-- R213 to R219: a no-progress window of a context whose snapshot names a victim queue with a free chunk of Silt extends that queue; a window
that finds nothing to extend counts as fruitless, and sets EXTERNAL where the waits leave the Field. R222 to R227: the port takes the oldest region record; a
malformed one is refused, a well-formed one in drain mode becomes the region under reconfiguration; a region that has drained, or whose drain
times out with awake banks, ends, and a time-out shows. -/
def Obligations.DetectorsExtendAndRegionsDrain : Prop :=
  (∀ (s : State) (p : Fin 72) (slot : Fin 4) (c : Nat), s.ctxOf p slot = some c → s.windowRuns p slot = true →
     (∀ k, (s.snapshot p slot).victim = some k → (s.snapshot p slot).external = false →
       (∃ u, (s.walksPause p).siltExtend p slot 0 k = .given u) → k < 1024 →
       CompletesWith (.noProgressWindow p slot) s fun t =>
         t.get (Reg.FLD_DLD_STATUS_EXTENSIONS p) = min 255 (s.get (Reg.FLD_DLD_STATUS_EXTENSIONS p) + 1) ∧
           t.get (Reg.FLD_DLD_STATUS_LAST_CTX p) = slot ∧ t.get (Reg.FLD_DLD_STATUS_VICTIM_UNIT p) = k / 32 ∧
           t.get (Reg.FLD_DLD_STATUS_VICTIM_Q p) = k / 8 % 4 ∧ t.get (Reg.FLD_DLD_STATUS_VICTIM_LEG p) = k % 8 ∧
           t.get (Reg.FLD_DLD_STATUS_VICTIM_RING p) = 0) ∧
     ((s.snapshot p slot).victim = none → s.waitsOnly p slot c (s.snapshot p slot) = false →
       Tab.get (fun _ => 0) (s.field p).grid.windows slot < 15 →
       ((s.snapshot p slot).external = false →
         CompletesWith (.noProgressWindow p slot) s fun t =>
           Tab.get (fun _ => 0) (t.field p).grid.windows slot = Tab.get (fun _ => 0) (s.field p).grid.windows slot + 1 ∧
             OnlyField s t p []) ∧
       ((s.snapshot p slot).external = true → s.ringVictim c = none →
         CompletesWith (.noProgressWindow p slot) s fun t =>
           Tab.get (fun _ => 0) (t.field p).grid.windows slot = Tab.get (fun _ => 0) (s.field p).grid.windows slot + 1 ∧
             t.get (Reg.FLD_DLD_STATUS_EXTERNAL p) = 1 ∧ OnlyField s t p [Reg.aFLD_DLD_STATUS p]))) ∧
  (∀ (s : State) (p : Fin 72),
     (∀ (e : Posted) (poster : Option Nat) (rest : List (Posted × Option Nat)), (s.field p).grid.region = none → s.fieldPowered p = true → s.permitted p unitReconf = true →
       (s.field p).grid.reconfQ = (e, poster) :: rest →
       (s.regionOk p e.desc poster = false →
         CompletesWith (.regionStart p) s fun t =>
           (t.field p).grid.region = none ∧ (t.field p).grid.reconfQ = rest ∧
             t.get (Reg.FLD_RECONF_STATUS_LAST_FAULT p) = Flt.RECONF_MALFORMED ∧ SameMem s t) ∧
       (s.regionOk p e.desc poster = true → rrMode e.desc = 0 →
         CompletesWith (.regionStart p) s fun t =>
           (t.field p).grid.reconfQ = rest ∧
             ∃ seals, (t.field p).grid.region = some { slot := rrCtx e.desc, rcd := e.desc, started := true, seals := seals, gone := 0 } ∧
               t.get (Reg.FLD_RECONF_STATUS_PHASE p) = if seals = [] then 2 else 1)) ∧
     (∀ (x : RegionRun) (u : State), (s.field p).grid.region = some x → rrMode x.rcd = 0 →
       (∀ y, ((s.gridSettle p).field p).grid.region = some y → (s.gridSettle p).regionSealed p y = true →
         (s.gridSettle p).sleepingBank? p (rrSrc y.rcd) (256 * (rrLegs y.rcd).length) = none →
         (s.gridSettle p).sleepingBank? p (32 * cfgBits y.rcd 40 29 11) 32 = none → (s.gridSettle p).regionWork p y .drained = .ok u →
         CompletesWith (.regionDrained p) s fun t => (t.field p).grid.region = none ∧ t.get (Reg.FLD_RECONF_STATUS_PHASE p) = 0) ∧
       (∀ c, s.ctxOf p x.slot = some c → s.ctxActive c = true → s.regionSealed p x = false →
         s.sleepingBank? p (rrSrc x.rcd) (256 * (rrLegs x.rcd).length) = none → s.sleepingBank? p (32 * cfgBits x.rcd 40 29 11) 32 = none →
         s.regionWork p x .timedOut = .ok u →
         CompletesWith (.drainTimeout p) s fun t =>
           (t.field p).grid.region = none ∧ t.get (Reg.FLD_RECONF_STATUS_PHASE p) = 0 ∧ t.get (Reg.FLD_RECONF_STATUS_TIMED_OUT p) = 1)))

/-- R230 to R232: the walker takes the head of its queue and starts the walk its checks admit, or leaves the code of the check that failed; a step
takes one edge of the node in work, or goes on to the next node; a finished walk writes each node's label word and its record. -/
def Obligations.WalksStartStepAndComplete : Prop :=
  ∀ (s : State) (p : Fin 72),
    (∀ (x : Posted) (c : Nat), s.walkRun p = none → s.gridRuns p = true → s.engHead p (s.field p).grid.walkQ = some (x, c) →
      s.walkFenced p c x.order x.desc = false →
      (∀ u n, s.walkCheck p x.slot x.desc = .ok u n →
        CompletesWith (.walkStart p) s fun t =>
          (t.field p).grid.walkQ = dropFirst (· == x) (s.field p).grid.walkQ ∧ SameMem s t ∧
            ∃ r, (t.field p).grid.walks = (s.field p).grid.walks ++ [r] ∧ r.ctx = c ∧ r.desc = x.desc ∧ r.nodes = n ∧ r.node = 0 ∧ r.edges = [] ∧
              r.fault = none) ∧
      ∀ u code detail, s.walkCheck p x.slot x.desc = .refused u code detail →
        CompletesWith (.walkStart p) s fun t =>
          (t.field p).grid.walkQ = dropFirst (· == x) (s.field p).grid.walkQ ∧ (t.field p).grid.walks = (s.field p).grid.walks ∧
            t.get (Reg.FLD_WALK_STATUS_LAST_FAULT p) = code % 2 ^ 12 ∧ SameMem s t) ∧
    (∀ r : WalkRun, s.walkRun p = some r → ((s.field p).grid.walks.find? fun r => !s.ctxActive r.ctx && !r.suspended && r.fault.isNone) = none →
      r.over = false → s.mayStep p unitWalk = true → s.stopCode p 6 0 r.ctx = none → s.agentWaits p 6 0 r.ctx = false →
      s.walkFenced p r.ctx r.post r.desc = false →
      (∀ (u : State) (col : Nat), r.edge < r.last → s.walkCol p r r.edge = .ok (u, col) → col < r.nodes →
        CompletesWith (.walkEdgeStep p) s fun t =>
          ∃ x, ((t.field p).grid.walks.find? fun y => y.ctx == r.ctx) = some x ∧ x.edge = r.edge + 1 ∧ x.node = r.node ∧
            x.edges = r.edges ++ [(r.node - 1, col)]) ∧
      (∀ (u w : State) (a b : Nat), r.last ≤ r.edge → s.walkPtr p r.slot r.desc r.node = .ok (u, a) →
        u.walkPtr p r.slot r.desc (r.node + 1) = .ok (w, b) →
        signed 32 a ≤ signed 32 b →
        CompletesWith (.walkEdgeStep p) s fun t =>
          ∃ x, ((t.field p).grid.walks.find? fun y => y.ctx == r.ctx) = some x ∧ x.edge = a ∧ x.last = b ∧ x.node = r.node + 1)) ∧
    ∀ r : WalkRun, ((s.field p).grid.walks.find? fun r => r.over && s.ctxActive r.ctx) = some r → r.fault = none → 0 < r.nodes →
      let crec := 32 * fw r.desc 6 29 11
      let work := wdWork r.desc
      s.sleepingBank? p crec 32 = none → s.sleepingBank? p work (256 + 8 * r.nodes) = none →
      s.windowOk p r.slot work (256 + 8 * r.nodes) = true → s.windowOk p r.slot crec 32 = true →
      s.badPartial? (fmLoc p work) (256 + 8 * r.nodes) = none → s.badPartial? (fmLoc p crec) 32 = none →
      crec + 32 ≤ work ∨ work + 256 + 8 * r.nodes ≤ crec → fbit r.desc 6 10 = false →
      ((s.field p).grid.walks.all fun x => !(x.ctx == r.ctx && x.fault.isSome)) = true →
      CompletesWith (.walkComplete p) s fun t =>
        (t.field p).grid.walks = (s.field p).grid.walks.filter (fun x => x.ctx != r.ctx) ∧
          (∀ v, v < r.nodes → t.mread (fmLoc p (work + 256 + 4 * v)) 4 =
            leBytes 4 (labelWord ((labels r.edges r.nodes).getD v (0, false, 0)))) ∧
          t.mread (fmLoc p crec) 32 = r.record (labels r.edges r.nodes)


/-! Chapter 10: Field memory. -/

/-- R235, R236, R244, R248, R249: the bank grants the contender next in rotation after the one it granted last; a permitted access of awake banks
takes place, and one that finds a bank in retention is held and wakes it. R247 to R250: an idle AUTO bank sends its gate fence; the last
acknowledgement of the fence puts the bank into its low-power state, where a bank that is OFF holds zero; a bank that has woken is ACTIVE, has
served what was held for it, and holds zero if it came from OFF. -/
def Obligations.BanksServeGateAndWake : Prop :=
  ((∀ (last : Nat) (rs : List BankReq) (r : BankReq), last < 8 → bankGrant last rs = some r → r ∈ rs ∧
     ∀ x ∈ rs, (x.rank : Nat) < 8 → (r.rank : Nat) < 8 ∧ (r.rank + 15 - last) % 8 ≤ (x.rank + 15 - last) % 8) ∧
   ∀ (s : State) (p : Fin 72) (b : Fin 64) (rs : List BankReq) (r : BankReq),
     bankGrant (Tab.get (fun _ => 7) (s.field p).fm.lastGrant b) (rs.filter fun r => bankOf r.off == b) = some r →
     s.windowCheck p (r.slot.map (·.val)) r.off (bankReqLen r) = .ok () →
     (s.sleepingBank? p r.off (bankReqLen r) = none → r.eccs = [] →
       (r.write = true → s.badPartial? (fmLoc p r.off) r.data.length = none →
         CompletesWith (.bankAccess p b rs) s fun t =>
           t.mread (fmLoc p r.off) r.data.length = r.data ∧ MemBut s t (fmLoc p r.off) r.data.length ∧ RegsBut s t []) ∧
       (r.write = false → s.badWord? (fmLoc p r.off) r.len = none →
         CompletesWith (.bankAccess p b rs) s fun t =>
           (t.field p).fm.lastRead = s.mread (fmLoc p r.off) r.len ∧ OnlyField s t p [])) ∧
     ∀ x, s.sleepingBank? p r.off (bankReqLen r) = some x → s.bankState p x = 2 →
       CompletesWith (.bankAccess p b rs) s fun t =>
         t.bankState p x = 1 ∧ SameMem s t ∧ (t.field p).fm.held = (s.field p).fm.held ++ [r]) ∧
  (∀ (s : State) (p : Fin 72) (b : Fin 64),
     (s.bankRequest p b = 1 → s.bankState p b = 0 → Tab.get (fun _ => 0) (s.field p).fm.outst b = 0 →
       CompletesWith (.bankIdleExpiry p b) s fun t =>
         ((t.field p).fm.fences.find? fun e => e.1 == b.val) = some ((b : Nat), 0, 2) ∧ OnlyField s t p []) ∧
     (∀ (d : Fin 4) (mask target : Nat), ((s.field p).fm.fences.find? fun e => e.1 == b.val) = some ((b : Nat), mask, target) → target < 4 →
       CompletesWith (.gateFenceAck p b d) s fun t =>
         if mask ||| 2 ^ (d : Nat) = 15 then
           t.bankState p b = target ∧ ((t.field p).fm.fences.find? fun e => e.1 == b.val) = none ∧
             if target = 3 then ∀ off, off < 2 ^ 24 → bankOf off = b → t.mem.read (fmLoc p off) = 0 else SameMem s t
         else t.bankState p b = s.bankState p b ∧ ((t.field p).fm.fences.find? fun e => e.1 == b.val) = some ((b : Nat), mask ||| 2 ^ (d : Nat), target)) ∧
     (s.bankState p b = 1 →
       let mine := (s.field p).fm.held.filter fun r => (banksOf r.off (bankReqLen r)).contains b.val
       (∀ r ∈ mine, s.windowCheck p (r.slot.map (·.val)) r.off (bankReqLen r) = .ok () ∧ r.eccs = [] ∧
         (∀ x ∈ banksOf r.off (bankReqLen r), x ≠ b → s.bankState p x = 0) ∧ s.badWord? (fmLoc p r.off) (bankReqLen r) = none) →
       CompletesWith (.bankWakeDone p b) s fun t =>
         t.bankState p b = 0 ∧ (t.field p).fm.held = (s.field p).fm.held.filter (fun r => !(banksOf r.off (bankReqLen r)).contains b.val) ∧
           RegsBut s t [Reg.aFLD_FM_BANK_STATE p (b / 16)] ∧
           (∀ r, mine = [r] → r.write = true → t.mread (fmLoc p r.off) r.data.length = r.data) ∧
           (mine = [] →
             if (s.field p).fm.zeroing.contains (b : Nat) = true then ∀ off, off < 2 ^ 24 → bankOf off = b → t.mem.read (fmLoc p off) = 0
             else SameMem s t)))

/-- R238: only 0, 1, 2, 4 or 8 cache slices can be set; the setting waits while a resident context is within a heat, and otherwise takes effect
with an empty cache and zeros in every slice that becomes scratchpad (here with nothing to write back, and with the banks of those slices awake).
R239, R240, R237: a cached read that hits delivers the line's bytes and a cached write that hits goes into the line alone; a miss with a free way
fills a line from memory first. -/
def Obligations.SliceModesAndCacheAccesses : Prop :=
  (∀ (s : State) (p : Fin 72) (v : Word),
     let c := v.toNat % 256
     let k := ((List.range 8).filter fun i => bit c i).length
     let old := s.get (Reg.FLD_FM_SLICE_MODE_ACTIVE_MODE p)
     (k ∉ [0, 1, 2, 4, 8] → CompletesWith (.sliceModeWrite p v) s fun t => OnlyRegs s t []) ∧
     (k ∈ [0, 1, 2, 4, 8] → c ≠ old → s.fieldInHeat p = true →
       CompletesWith (.sliceModeWrite p v) s fun t =>
         t.get (Reg.FLD_FM_SLICE_MODE_CACHE p) = c ∧ t.get (Reg.FLD_FM_SLICE_MODE_PENDING p) = 1 ∧
           t.get (Reg.FLD_FM_SLICE_MODE_ACTIVE_MODE p) = old ∧ OnlyRegs s t [Reg.aFLD_FM_SLICE_MODE p]) ∧
     (k ∈ [0, 1, 2, 4, 8] → c ≠ old → s.fieldInHeat p = false → (∀ l ∈ (s.field p).fm.lines, l.dirty = 0) →
       (∀ i, i < 8 → bit old i = true → bit c i = false → s.sleepingBank? p (i * 2 ^ 21) (2 ^ 21) = none) →
       CompletesWith (.sliceModeWrite p v) s fun t =>
         t.get (Reg.FLD_FM_SLICE_MODE_CACHE p) = c ∧ t.get (Reg.FLD_FM_SLICE_MODE_PENDING p) = 0 ∧
           t.get (Reg.FLD_FM_SLICE_MODE_ACTIVE_MODE p) = c ∧ (t.field p).fm.lines = [] ∧ RegsBut s t [Reg.aFLD_FM_SLICE_MODE p] ∧
           ∀ i off, i < 8 → off < 2 ^ 21 → bit old i = true → bit c i = false → t.mem.read (fmLoc p (i * 2 ^ 21 + off)) = 0)) ∧
  (∀ (s : State) (p : Fin 72) (slot : Fin 4) (va n c : Nat) (x : Target), s.ctxOf p slot = some c → s.cacheOn p slot = true →
     let line := s.rgaOf x / 256 * 256
     let o := s.rgaOf x % 256
     let b := s.lineBank p line
     s.lineAllowed c x = .ok () → s.bankState p b = 0 → 0 < n → va % 256 + n ≤ 256 →
     (s.translate p c false .read va = .ok (x, true) →
       (∀ l, s.lineOf p slot line = some l → l.bad = false →
         CompletesWith (.cacheAccess p slot va n none .good) s fun t =>
           (t.field p).fm.lastRead = l.slice o n ∧ (t.field p).fm.lines = (s.field p).fm.lines ∧ OnlyField s t p []) ∧
       ∀ u bs, s.lineOf p slot line = none →
         (s.cancelFence p b).lineBytes p c line (va / 256 * 256) (s.farGot ⟨p, slot, 4, 0, c, true⟩ (va / 256 * 256)) = .ok (u, bs) →
         (s.setLines p line).length < 8 →
         CompletesWith (.cacheAccess p slot va n none .good) s fun t =>
           (t.field p).fm.lastRead = (bs.drop o).take n ∧
             (t.field p).fm.lines = (s.field p).fm.lines ++
               [{ rga := line, va := va / 256 * 256, slot := slot, way := s.fillWay p line, data := bs, dirty := 0, bad := false }] ∧
             RegsBut s t [] ∧ SameMem s t) ∧
     ∀ (bs : List Byte) (l : CacheLine), bs.length = n → s.translate p c false .write va = .ok (x, true) → s.lineOf p slot line = some l →
       l.bad = false →
       CompletesWith (.cacheAccess p slot va n (some bs) .good) s fun t =>
         t.lineOf p slot line = some (l.patch o bs) ∧ OnlyField s t p [])

/-- R241, Table 10-2: a range operation that starts sets BUSY and acts on the lines its range covers, ZERO on Field memory: FLUSH writes dirty bytes
back and keeps the lines, FLUSH_INVAL drops them after that, INVAL drops them with the dirty bytes of the range; one that finds BUSY sets OVERRUN
alone. It ends, and shows its end, once no line is left to do and other parts have accepted its writes. -/
def Obligations.RangeOperationsActOnTheirLines : Prop :=
  ∀ (s : State) (p : Fin 72) (slot : Fin 4),
    let base := (s.cmoRange p).1
    let len := (s.cmoRange p).2
    let ls := (s.field p).fm.lines
    let Begun := fun t : State => t.get (Reg.FLD_FM_CMO_STATUS_BUSY p) = 1 ∧ OnlyField s t p [Reg.aFLD_FM_CMO_STATUS p] ∧
      ∃ c, (t.field p).fm.cmo = some c ∧ c.todo = [] ∧ c.forming = false ∧ c.err = false
    (s.get (Reg.FLD_FM_CMO_STATUS_BUSY p) = 1 →
      ∀ c ∈ [Instr.flush p slot, .inval p slot, .flushInval p slot, .zero p, .flushInvalCtx p slot, .flushInvalAll p],
        CompletesWith c s fun t => OnlyRegs s t [Reg.aFLD_FM_CMO_STATUS p] ∧ t.get (Reg.FLD_FM_CMO_STATUS_OVERRUN p) = 1 ∧
          t.get (Reg.FLD_FM_CMO_STATUS_BUSY p) = 1) ∧
    (s.get (Reg.FLD_FM_CMO_STATUS_BUSY p) = 0 →
      (∀ (k : Nat) (ps : List (Nat × Nat)), s.ctxOf p slot = some k → s.rangePages p k (vaPieces base len) = .ok (ps, none) →
        let covered := fun l : CacheLine => l.slot == slot.val && lineCover ps l != 0
        ((∀ l ∈ ls, covered l = true → l.dirty = 0) → CompletesWith (.flush p slot) s fun t => Begun t ∧ (t.field p).fm.lines = ls) ∧
        ((∀ l ∈ ls, covered l = true → l.dirty = 0) →
          CompletesWith (.flushInval p slot) s fun t => Begun t ∧ (t.field p).fm.lines = ls.filter fun l => !covered l) ∧
        ((∀ l ∈ ls, covered l = true → l.dirty &&& (2 ^ 256 - 1 - lineCover ps l) = 0) →
          CompletesWith (.inval p slot) s fun t => Begun t ∧ (t.field p).fm.lines = ls.filter fun l => !covered l) ∧
        ∀ (l : CacheLine) (o : Nat), ls.filter covered = [l] → l.bad = false → l.dirty < 2 ^ 256 → l.data.length = 256 →
          s.lineTarget l.rga = some (.stack o) → o % 256 = 0 → s.stackWay? p k o 256 = none →
          s.bucketReady p k false (maskCharge l.dirty) = true → s.badWord? o 256 = none →
          let Written := fun t : State => MemBut s t o 256 ∧ RegsBut s t [Reg.aFLD_FM_CMO_STATUS p] ∧
            t.get (Reg.FLD_FM_CMO_STATUS_BUSY p) = 1 ∧
            ∀ i, i < 256 → t.mem.read (o + i) = if bit l.dirty i then l.data.getD i 0 else s.mem.read (o + i)
          (CompletesWith (.flush p slot) s fun t =>
            Written t ∧ (t.field p).fm.lines = ls.map fun x => if covered x then { x with dirty := 0 } else x) ∧
          (CompletesWith (.flushInval p slot) s fun t => Written t ∧ (t.field p).fm.lines = ls.filter fun x => !covered x)) ∧
      ((∀ l ∈ ls, l.slot = slot → l.dirty = 0) →
        CompletesWith (.flushInvalCtx p slot) s fun t => Begun t ∧ (t.field p).fm.lines = ls.filter fun l => l.slot != slot.val) ∧
      ((∀ l ∈ ls, l.dirty = 0) → CompletesWith (.flushInvalAll p) s fun t => Begun t ∧ (t.field p).fm.lines = []) ∧
      (base % 2 ^ 24 + len ≤ 2 ^ 24 → s.badPartial? (fmLoc p (base % 2 ^ 24)) len = none → s.sleepingBank? p (base % 2 ^ 24) len = none →
        CompletesWith (.zero p) s fun t =>
          t.get (Reg.FLD_FM_CMO_STATUS_BUSY p) = 1 ∧ MemBut s t (fmLoc p (base % 2 ^ 24)) len ∧ RegsBut s t [Reg.aFLD_FM_CMO_STATUS p] ∧
            ∀ i, i < len → t.mem.read (fmLoc p (base % 2 ^ 24) + i) = 0)) ∧
    ∀ c : CmoRun, (s.field p).fm.cmo = some c → c.forming = false → c.todo = [] →
      ((∀ k, s.ctxOf p c.slot = some k → s.cacheSending p k = false) →
        CompletesWith (.cmoDone p) s fun t =>
          OnlyField s t p [Reg.aFLD_FM_CMO_STATUS p] ∧ (t.field p).fm.cmo = none ∧ t.get (Reg.FLD_FM_CMO_STATUS_BUSY p) = 0 ∧
            t.get (Reg.FLD_FM_CMO_STATUS_DONE p) = 1 ∧
            t.get (Reg.FLD_FM_CMO_STATUS_ERR p) = (if c.err then 1 else s.get (Reg.FLD_FM_CMO_STATUS_ERR p)) ∧
            t.get (Reg.FLD_FM_CMO_STATUS_RANGE_ERR p) = (if c.rangeErr then 1 else s.get (Reg.FLD_FM_CMO_STATUS_RANGE_ERR p))) ∧
      ∀ k, s.ctxOf p c.slot = some k → s.cacheSending p k = true →
        CompletesWith (.cmoDone p) s fun t => OnlyField s t p [] ∧ (t.field p).fm.cmo = some c

/-- R243, R246: the patrol scrubber visits the granules of Field memory and of the memory units in turn, counts its passes, leaves good words as
they are, and records a corrected word as its own. -/
def Obligations.FieldScrubVisitsEveryGranule : Prop :=
  ∀ (s : State) (p : Fin 72) (w : Fin 8), s.on (Reg.FLD_FM_SCRUB_CTRL_EN p) = true →
    let pos := (s.field p).fm.scrubPos
    s.badWord? (scrubLoc p pos) 256 = none →
    (CompletesWith (.fmScrubTick p .good w) s fun t =>
      (t.field p).fm.scrubPos = (pos + 1) % 81920 ∧ SameMem s t ∧
        if pos + 1 = 81920 then OnlyField s t p [Reg.aFLD_FM_SCRUB_CTRL p] ∧
            t.get (Reg.FLD_FM_SCRUB_CTRL_PASSES p) = (s.get (Reg.FLD_FM_SCRUB_CTRL_PASSES p) + 1) % 2 ^ 16
        else OnlyField s t p []) ∧
    (pos < 65536 → s.bankState p (bankOf (256 * pos)) ≠ 3 →
      CompletesWith (.fmScrubTick p .corrected w) s fun t =>
        (t.field p).fm.scrubPos = (pos + 1) % 81920 ∧ SameMem s t ∧ t.get (Reg.FLD_FM_ECC_STATUS_CORR_SEEN p) = 1 ∧
          t.get (Reg.FLD_FM_ECC_STATUS_SRC p) = 0 ∧ t.get (Reg.FLD_FM_ECC_STATUS_BY_SCRUB p) = 1 ∧
          t.get (Reg.FLD_FM_ECC_STATUS_WORD p) = 8 * pos + w ∧
          (s.overflowAt (Reg.aFLD_FM_ECC_CORR_LO p) = false → s.count48At (Reg.aFLD_FM_ECC_CORR_LO p) + 1 < 2 ^ 48 - 1 →
            t.count48At (Reg.aFLD_FM_ECC_CORR_LO p) = s.count48At (Reg.aFLD_FM_ECC_CORR_LO p) + 1))


/-! Chapter 11: channels and hurdles. -/

/-- R253, R254, R269: a post while the unit is busy sets OVERRUN alone; a refused OPEN has no effect but its fault; an OPEN that passes its checks
sets up both ends, which read open once the sender's end acknowledges; a CLOSE frees both ends of an idle channel and marks a busy one CLOSING, and
one with a reserved field that is not zero is refused (R9). The ends of a remote channel learn of the set-up, the closing and the freeing by
acknowledgements (log entry 77). -/
def Obligations.ChannelsOpenAndClose : Prop :=
  ∀ (s : State) (p : Fin 72) (v : Word),
    let off := 32 * bits v.toNat 23 5
    let d := s.mread (fmLoc p off) 32
    let n := chRx d
    (s.get (Reg.FLD_CH_STATUS_BUSY p) = 1 → ∀ c ∈ [Instr.chOpen p v, .chClose p v],
      CompletesWith c s fun t => OnlyRegs s t [Reg.aFLD_CH_STATUS p] ∧ t.get (Reg.FLD_CH_STATUS_OVERRUN p) = 1 ∧ t.get (Reg.FLD_CH_STATUS_BUSY p) = 1) ∧
    (s.get (Reg.FLD_CH_STATUS_BUSY p) = 0 → s.badWord? (fmLoc p off) 32 = none → s.sleepingBank? p off 32 = none →
      (fw d 0 7 0 = 0x60 → s.chOpenOk p d = false →
        CompletesWith (.chOpen p v) s fun t =>
          t.get (Reg.FLD_CH_STATUS_LAST_FAULT p) = Flt.CH_MALFORMED ∧ t.get (Reg.FLD_CH_STATUS_BUSY p) = 0 ∧
            (t.field p).ch = (s.field p).ch ∧ SameMem s t) ∧
      (∀ q k, fw d 0 7 0 = 0x60 → s.chOpenOk p d = true → chRemote d = false → s.chSender p d = some (q, k) → q < 72 →
        CompletesWith (.chOpen p v) s fun t =>
          t.get (Reg.FLD_CH_STATUS_BUSY p) = 1 ∧ t.get (Reg.FLD_CH_WPTR_WPTR p n) = 0 ∧ t.get (Reg.FLD_CH_RPTR_RPTR p n) = 0 ∧
            t.get (Reg.FLD_CH_RX_STATE_GEN p n) = (s.get (Reg.FLD_CH_RX_STATE_GEN p n) + 1) % 2 ^ 11 ∧
            t.get (Reg.FLD_CH_RX_STATE_OPEN p n) = s.get (Reg.FLD_CH_RX_STATE_OPEN p n) ∧
            t.get (Reg.FLD_CH_TX_STATE_CREDIT q (chTx d)) = chLimit d / 32 % 2 ^ 20 ∧
            (∃ r, t.rxChan p n = some r ∧ r.ringOff = chRing d ∧ r.waitAck = true) ∧ (∃ x, t.txChan q (chTx d) = some x ∧ x.seq = 0 ∧ x.woff = 0) ∧
            SameMem s t) ∧
      (fw d 0 7 0 = 0x61 → chReservedOk d = false →
        CompletesWith (.chClose p v) s fun t =>
          t.get (Reg.FLD_CH_STATUS_LAST_FAULT p) = Flt.CH_MALFORMED ∧ (t.field p).ch = (s.field p).ch ∧ SameMem s t) ∧
      (∀ (r : RxChan) (q : Nat) (x : TxChan), fw d 0 7 0 = 0x61 → chReservedOk d = true → s.get (Reg.FLD_CH_RX_STATE_CTX p n) = chCtx d →
        s.rxChan p n = some r →
        r.remote = false → s.physOf r.txLf = some q → q < 72 → r.txIdx < 32 → r.silt = [] → s.txChan q r.txIdx = some x → x.queue = [] →
        CompletesWith (.chClose p v) s fun t =>
          if s.ringUsed p n = 0 then
            t.rxChan p n = none ∧ t.txChan q r.txIdx = none ∧ t.get (Reg.FLD_CH_RX_STATE_OPEN p n) = 0 ∧ t.get (Reg.FLD_CH_TX_STATE_OPEN q r.txIdx) = 0
          else
            t.rxChan p n = some r ∧ t.get (Reg.FLD_CH_RX_STATE_CLOSING p n) = 1 ∧ t.get (Reg.FLD_CH_TX_STATE_CLOSING q r.txIdx) = 1 ∧
              t.get (Reg.FLD_CH_RX_STATE_OPEN p n) = s.get (Reg.FLD_CH_RX_STATE_OPEN p n))) ∧
    (∀ (n : Fin 32) (r : RxChan) (q : Nat), s.rxChan p n = some r → r.waitAck = true → r.remote = false → s.physOf r.txLf = some q → q < 72 →
      r.txIdx < 32 →
      CompletesWith (.chOpenAck p (.receiver n)) s fun t =>
        t.get (Reg.FLD_CH_RX_STATE_OPEN p n) = 1 ∧ t.get (Reg.FLD_CH_TX_STATE_OPEN q r.txIdx) = 1 ∧ t.get (Reg.FLD_CH_STATUS_BUSY p) = 0 ∧
          t.rxChan p n = some { r with waitAck := false } ∧ SameMem s t) ∧
    (∀ (n : Fin 32) (x : TxChan), s.txChan p n = some x → x.remote = true →
      (CompletesWith (.chOpenAck p (.closing n)) s fun t =>
        OnlyRegs s t [Reg.aFLD_CH_TX_STATE p n] ∧ t.get (Reg.FLD_CH_TX_STATE_CLOSING p n) = 1) ∧
      (x.queue = [] → s.get (Reg.FLD_CH_TX_STATE_CLOSING p n) = 1 →
        CompletesWith (.chOpenAck p (.freed n)) s fun t =>
          t.txChan p n = none ∧ t.get (Reg.FLD_CH_TX_STATE_OPEN p n) = 0 ∧ RegsBut s t [Reg.aFLD_CH_TX_STATE p n] ∧ SameMem s t)) ∧
    ∀ (n : Fin 32) (slot : Fin 4) (dev : Fin 1024) (lf : Fin 64) (rx : Fin 32) (gen : Fin 2048) (size : Fin 21) (limit : Fin 1048577),
      s.txChan p n = none → (s.ctxOf p slot).isSome = true →
      CompletesWith (.chOpenAck p (.sender n slot dev lf rx gen size limit)) s fun t =>
        RegsBut s t [Reg.aFLD_CH_TX_STATE p n] ∧ SameMem s t ∧ t.get (Reg.FLD_CH_TX_STATE_OPEN p n) = 1 ∧
          t.get (Reg.FLD_CH_TX_STATE_CREDIT p n) = limit / 32 ∧ t.get (Reg.FLD_CH_TX_STATE_CTX p n) = slot ∧
          ∃ x, t.txChan p n = some x ∧ x.remote = true ∧ x.gen = gen ∧ x.queue = [] ∧ x.woff = 0

/-- R256 to R262: a record that its checks admit joins its endpoint's queue, from a control core or token by token from a port; at the head, with
credit for its span, it enters its ring at the write offset and takes its span of credit; without, it waits. -/
def Obligations.RecordsAreQueuedAndPlaced : Prop :=
  ∀ (s : State) (p : Fin 72),
    (∀ v : Word,
      let n := bits v.toNat 4 0
      let off := 32 * bits v.toNat 23 5
      let h := s.mread (fmLoc p off) 16
      let len := fw h 1 31 0
      s.get (Reg.FLD_CH_STATUS_BUSY p) = 0 → off + 16 + len ≤ 2 ^ 24 → s.badWord? (fmLoc p off) 16 = none →
      s.badWord? (fmLoc p (off + 16)) len = none → s.sleepingBank? p off 16 = none → s.sleepingBank? p (off + 16) len = none →
      (∀ code, s.sendCheck p n (fw h 0 7 0) len = some code →
        CompletesWith (.chSend p v) s fun t =>
          t.get (Reg.FLD_CH_STATUS_LAST_FAULT p) = code ∧ (t.field p).ch = (s.field p).ch ∧ t.get (Reg.FLD_CH_STATUS_BUSY p) = 0 ∧ SameMem s t) ∧
      (∀ x, s.txChan p n = some x → s.sendCheck p n (fw h 0 7 0) len = none →
        CompletesWith (.chSend p v) s fun t =>
          t.get (Reg.FLD_CH_STATUS_BUSY p) = 1 ∧ OnlyField s t p [Reg.aFLD_CH_STATUS p] ∧
            t.txChan p n = some { x with queue := x.queue ++ [newRecord h (s.mread (fmLoc p (off + 16)) len) true] })) ∧
    (∀ (g : Fin 16) (k : Nat) (e : Transit) (x : TxChan), s.chPort p g 1 = true → s.chPortLive p g = true → s.portHead p g = some (k, e) →
      e.entry.baton = false → Tab.get (fun _ => 0) (s.field p).ch.legSkip g = 0 → s.txChan p (s.get (Reg.FLD_CH_PORT_BIND_INDEX p g)) = some x →
      s.GridPlain p → s.permitted p unitCh = true →
      let n := s.get (Reg.FLD_CH_PORT_BIND_INDEX p g)
      let h := laneBytes (e.entry.lanes.take 4)
      (x.queue = [] → s.sendCheck p n (fw h 0 7 0) (fw h 1 31 0) = none →
        CompletesWith (.legRecordSend p g) s fun t =>
          t.txChan p n = some { x with queue := [newRecord h [] false] } ∧ RegsBut s t [] ∧ SameMem s t) ∧
      ∀ r : ChRecord, x.queue = [r] → r.fromCore = false → r.payload.length < r.len → r.claimed = true →
        CompletesWith (.legRecordSend p g) s fun t =>
          t.txChan p n = some { x with queue := [{ r with payload := (r.payload ++ laneBytes e.entry.lanes).take r.len }] } ∧
            RegsBut s t [] ∧ SameMem s t) ∧
    (∀ (n : Fin 32) (x : TxChan) (r : ChRecord) (rest : List ChRecord), s.txChan p n = some x → x.queue = r :: rest → r.claimed = false →
      (s.field p).ch.outbound = [] → s.txWay p n x = true → recSpan r.len ≤ 2 ^ x.sizeLog2 - x.woff → s.permitted p unitCh = true →
      (x.remote = false → ∀ q c, s.physOf x.rxLf = some q → s.rxChan q x.rxIdx = some c → c.silt = []) →
      (s.txCredit p n < recSpan r.len →
        CompletesWith (.recordPlace p n) s fun t => OnlyRegs s t [Reg.aFLD_CH_TX_STATE p n] ∧ t.get (Reg.FLD_CH_TX_STATE_WAITING p n) = 1 ∧
          t.get (Reg.FLD_CH_TX_STATE_CREDIT p n) = s.get (Reg.FLD_CH_TX_STATE_CREDIT p n)) ∧
      ∀ (q : Nat) (c : RxChan), recSpan r.len ≤ s.txCredit p n → r.fromCore = true → r.payload.length = r.len → x.remote = false →
        s.physOf x.rxLf = some q → q < 72 → x.rxIdx < 32 → s.rxChan q x.rxIdx = some c → c.silt = [] →
        let w := s.get (Reg.FLD_CH_WPTR_WPTR q x.rxIdx)
        let o := c.ringOff + w
        isPadOf (s.ringSize q x.rxIdx - w)
          (recBytes r.typ (if r.typ = 2 then 0 else x.seq) r.len x.chId (s.senderOf p) r.tag false r.payload) = false →
        recSpan r.len ≤ s.ringSize q x.rxIdx - w → recSpan r.len ≤ s.ringSize q x.rxIdx - 32 - s.ringUsed q x.rxIdx →
        s.windowOk q (s.get (Reg.FLD_CH_RX_STATE_CTX q x.rxIdx)) o (recSpan r.len) = true → s.sleepingBank? q o (recSpan r.len) = none →
        s.badPartial? (fmLoc q o) (recSpan r.len) = none →
        CompletesWith (.recordPlace p n) s fun t =>
          t.mread (fmLoc q o) (recSpan r.len) =
              recBytes r.typ (if r.typ = 2 then 0 else x.seq) r.len x.chId (s.senderOf p) r.tag false r.payload ∧
            MemBut s t (fmLoc q o) (recSpan r.len) ∧
            t.get (Reg.FLD_CH_WPTR_WPTR q x.rxIdx) = (w + recSpan r.len) % s.ringSize q x.rxIdx % 2 ^ 20 ∧
            t.get (Reg.FLD_CH_TX_STATE_CREDIT p n) = s.get (Reg.FLD_CH_TX_STATE_CREDIT p n) - recSpan r.len / 32 ∧
            t.get (Reg.FLD_CH_STATUS_BUSY p) = 0 ∧
            ∃ y, t.txChan p n = some y ∧ y.queue = rest ∧ y.woff = (x.woff + recSpan r.len) % 2 ^ x.sizeLog2) ∧
    ∀ (n : Fin 32) (c : RxChan) (q : Nat), s.rxChan p n = some c → c.owed ≠ 0 → c.remote = false →
      s.routeUp (.chan p n true) = true → s.permitted p unitCh = true → s.physOf c.txLf = some q → q < 72 → c.txIdx < 32 →
      CompletesWith (.creditUpdate p n) s fun t =>
        t.get (Reg.FLD_CH_TX_STATE_CREDIT q c.txIdx) = (s.txCredit q c.txIdx + c.owed) / 32 % 2 ^ 20 ∧ t.rxChan p n = some { c with owed := 0 } ∧
          RegsBut s t [Reg.aFLD_CH_TX_STATE q c.txIdx] ∧ SameMem s t

/-- R263 to R265: a release offset that is not aligned or not between RPTR and WPTR sets RPTR_ERR alone, any other moves RPTR and owes the bytes
to the sender; a select group sends the header of the record it chose first, and moves RPTR past the record once the leg has accepted its last token. -/
def Obligations.ReceiversReleaseAndDeliver : Prop :=
  ∀ (s : State) (p : Fin 72),
    (∀ (n : Fin 32) (v : Word),
      let a := bits v.toNat 19 0
      let ring := s.ringSize p n
      let d := (a + ring - s.get (Reg.FLD_CH_RPTR_RPTR p n)) % ring
      (s.rxChan p n = none ∨ a % 32 ≠ 0 ∨ ring ≤ a ∨ s.ringUsed p n < d →
        CompletesWith (.rptrWrite p n v) s fun t => OnlyRegs s t [Reg.aFLD_CH_RX_STATE p n] ∧ t.get (Reg.FLD_CH_RX_STATE_RPTR_ERR p n) = 1) ∧
      ∀ r, s.rxChan p n = some r → r.silt = [] → s.get (Reg.FLD_CH_RX_STATE_CLOSING p n) = 0 → a % 32 = 0 → a < ring → d ≤ s.ringUsed p n →
        a = s.get (Reg.FLD_CH_WPTR_WPTR p n) ∨ s.mem.read (fmLoc p (r.ringOff + a)) ≠ 2 →
        CompletesWith (.rptrWrite p n v) s fun t =>
          t.get (Reg.FLD_CH_RPTR_RPTR p n) = a ∧ t.rxChan p n = some { r with owed := r.owed + d } ∧ SameMem s t) ∧
    ∀ (g : Fin 16) (u : Fin 32) (q : Fin 4) (x : Fin 8) (n : Nat) (r : RxChan) (h bs : List Byte) (e : QEntry) (s1 s2 v : State),
      s.chPort p g 2 = true → s.chPortLive p g = true → s.GridPlain p → s.permitted p unitCh = true →
      let grp := s.get (Reg.FLD_CH_PORT_BIND_INDEX p g) % 4
      let slot := s.get (Reg.FLD_CH_RX_STATE_CTX p n)
      let rp := s.get (Reg.FLD_CH_RPTR_RPTR p n)
      let done := if s.on (Reg.FLD_CH_SEL_CTRL_DONE_EN p grp) then some (s.get (Reg.FLD_CH_SEL_CTRL_DONE_LEVEL p grp)) else none
      let cur := ((s.field p).ch.selPos.find? fun e => e.1 == grp).map (·.2)
      let stop := (rp + recSpan (fw h 1 31 0)) % s.ringSize p n
      s.on (Reg.FLD_CH_SEL_CTRL_DELIVER p grp) = true → n < 32 → s.rxChan p n = some r →
      s.fmRead p (some slot) (r.ringOff + rp) 16 = .ok (s1, h) →
      s1.fmRead p (some slot) (r.ringOff + rp + 16) (min (fw h 1 31 0) 65520) = .ok (s2, bs) → s2.portSend p g u q e = some v →
      (cur = none → s.selChoice p grp = some n → deliverEntry h bs 0 done x = some e →
        (deliverEntry h bs 1 done x).isSome = true →
        CompletesWith (.selectDeliver p g u q x) s fun t =>
          e = QEntry.data x (lanesOf (padTo 128 h)) 15 ∧ ((t.field p).ch.selPos.find? fun e => e.1 == grp) = some (grp, n + 32) ∧
            RegsBut s t [] ∧ SameMem s t) ∧
      ∀ k, cur = some (n + 32 * k) → deliverEntry h bs k done x = some e → v.portAccepted p g = true →
        deliverEntry h bs (k + 1) done x = none →
        r.silt = [] → s.get (Reg.FLD_CH_RX_STATE_CLOSING p n) = 0 → s.get (Reg.FLD_CH_RX_STATE_SIZE_LOG2 p n) ≤ 20 →
        stop = s.get (Reg.FLD_CH_WPTR_WPTR p n) ∨ s.mem.read (fmLoc p (r.ringOff + stop)) ≠ 2 →
        CompletesWith (.selectDeliver p g u q x) s fun t =>
          t.get (Reg.FLD_CH_RPTR_RPTR p n) = stop ∧ ((t.field p).ch.selPos.find? fun e => e.1 == grp) = none ∧ SameMem s t

/-- R271, R272, R274: an arrival adds to COUNT up to EXPECTED, a claim subtracts at once where COUNT covers it and none waits, and one beyond that
leaves COUNT and sets OVER or UNDER; a wait queues, and its hurdle's first waiter completes once COUNT covers it. R54, R274: an arrival for another
quadrant crosses as soon as its way carries traffic and nothing waits before it, and waits otherwise. -/
def Obligations.HurdlesCountArrivalsAndWaits : Prop :=
  ∀ (s : State) (p : Fin 72),
    (∀ (slot : Fin 4) (vid : Fin 1024) (a : Fin 65536) (q h : Nat), s.hurdleRef p slot vid = .here q h → q < 72 →
      quadOfField p = quadOfField q →
      let n := s.get (Reg.FLD_HRD_STATE_COUNT q h)
      let top := s.get (Reg.FLD_HRD_CFG_EXPECTED q h)
      (n + a ≤ top → CompletesWith (.arrive p (.dcs slot vid a)) s fun t =>
        OnlyRegs s t [Reg.aFLD_HRD_STATE q h] ∧ t.get (Reg.FLD_HRD_STATE_COUNT q h) = n + a) ∧
      (top < n + a → CompletesWith (.arrive p (.dcs slot vid a)) s fun t =>
        t.get (Reg.FLD_HRD_STATE_COUNT q h) = n ∧ t.get (Reg.FLD_HRD_STATE_OVER q h) = 1 ∧
          t.get (Reg.FLD_CH_STATUS_LAST_FAULT p) = Flt.HURDLE_OVER ∧ SameMem s t) ∧
      ((a : Nat) ≤ n → s.waitersOf q h = [] → CompletesWith (.claim p (.dcs slot vid a)) s fun t =>
        OnlyRegs s t [Reg.aFLD_HRD_STATE q h] ∧ t.get (Reg.FLD_HRD_STATE_COUNT q h) = n - a) ∧
      (n < a ∨ s.waitersOf q h ≠ [] → CompletesWith (.claim p (.dcs slot vid a)) s fun t =>
        t.get (Reg.FLD_HRD_STATE_COUNT q h) = n ∧ t.get (Reg.FLD_HRD_STATE_UNDER q h) = 1 ∧
          t.get (Reg.FLD_CH_STATUS_LAST_FAULT p) = Flt.HURDLE_UNDER ∧ SameMem s t)) ∧
    (∀ (slot : Fin 4) (vid : Fin 1024) (a : Fin 65536) (q h : Nat), s.hurdleRef p slot vid = .here q h → q < 72 →
      quadOfField p ≠ quadOfField q → (s.field p).ch.outbound = [] →
      (s.wayOpen ((s.ctxOf p slot).getD 0) (quadOfField p) (quadOfField q) = true →
        s.get (Reg.FLD_HRD_STATE_COUNT q h) + a ≤ s.get (Reg.FLD_HRD_CFG_EXPECTED q h) →
        CompletesWith (.arrive p (.dcs slot vid a)) s fun t =>
          t.get (Reg.FLD_HRD_STATE_COUNT q h) = s.get (Reg.FLD_HRD_STATE_COUNT q h) + a ∧ (t.field p).ch.outbound = [] ∧
            RegsBut s t [Reg.aFLD_HRD_STATE q h] ∧ SameMem s t) ∧
      (s.wayOpen ((s.ctxOf p slot).getD 0) (quadOfField p) (quadOfField q) = false →
        CompletesWith (.arrive p (.dcs slot vid a)) s fun t =>
          (t.field p).ch.outbound.length = 1 ∧ RegsBut s t [] ∧ SameMem s t)) ∧
    (∀ (g : Fin 16) (w q h : Nat), s.hurdleWord p g = some w →
      let slot := s.get (Reg.FLD_CH_PORT_BIND_CTX p g)
      let n := bits w 29 14
      s.hurdleRef p slot (bits w 13 4) = .here q h → q < 72 → quadOfField p = quadOfField q → s.GridPlain p →
      (bits w 1 0 = 0 → s.get (Reg.FLD_HRD_STATE_COUNT q h) + n ≤ s.get (Reg.FLD_HRD_CFG_EXPECTED q h) →
        CompletesWith (.arrive p (.port g)) s fun t =>
          t.get (Reg.FLD_HRD_STATE_COUNT q h) = s.get (Reg.FLD_HRD_STATE_COUNT q h) + n ∧ RegsBut s t [Reg.aFLD_HRD_STATE q h] ∧ SameMem s t) ∧
      (bits w 1 0 = 2 → n ≤ s.get (Reg.FLD_HRD_STATE_COUNT q h) → s.waitersOf q h = [] →
        CompletesWith (.claim p (.port g)) s fun t =>
          t.get (Reg.FLD_HRD_STATE_COUNT q h) = s.get (Reg.FLD_HRD_STATE_COUNT q h) - n ∧ RegsBut s t [Reg.aFLD_HRD_STATE q h] ∧ SameMem s t) ∧
      (bits w 1 0 = 1 → 0 < n → n ≤ s.get (Reg.FLD_HRD_CFG_EXPECTED q h) → (s.field q).ch.waiters.length < 64 → s.opHeld p q h = false →
        (∀ x ∈ (s.field p).ch.done, ¬ (x.field = p ∧ x.port = g)) →
        (∀ r, r < 72 → ∀ x ∈ (s.field r).ch.waiters, ¬ (x.field = p ∧ x.port = g)) →
        CompletesWith (.hurdleWait p g) s fun t =>
          (t.field q).ch.waiters = (s.field q).ch.waiters ++ [{ hurdle := h, field := p, port := g, ctx := (s.ctxOf p slot).getD 0, n := n }] ∧
            t.get (Reg.FLD_HRD_STATE_WAITERS q h) = (s.waitersOf q h).length + 1 ∧
            t.get (Reg.FLD_HRD_STATE_COUNT q h) = s.get (Reg.FLD_HRD_STATE_COUNT q h))) ∧
    ∀ (h : Fin 256) (w : Waiter) (rest : List Waiter), s.waitersOf p h = w :: rest →
      (s.get (Reg.FLD_HRD_STATE_COUNT p h) < w.n → CompletesWith (.waitComplete p h) s fun t => OnlyRegs s t []) ∧
      (w.n ≤ s.get (Reg.FLD_HRD_STATE_COUNT p h) → (s.ctx w.ctx).waitSusp = false →
        CompletesWith (.waitComplete p h) s fun t =>
          t.get (Reg.FLD_HRD_STATE_COUNT p h) = s.get (Reg.FLD_HRD_STATE_COUNT p h) - w.n ∧
            (t.field p).ch.waiters = dropFirst (· == w) (s.field p).ch.waiters ∧ (t.field w.field).ch.done = (s.field w.field).ch.done ++ [w] ∧
            RegsBut s t [Reg.aFLD_HRD_STATE p h])


/-! Chapter 12: DMA engines and slot rings. -/

/-- R279, R281, R293: an engine takes the descriptor at the head of its queue: one that fails a check leaves its code, one that passes is issued
under the next sequence number, and a relay that finds no free entry at a station waits with RELAY_WAIT and is issued once it reserves them all. -/
def Obligations.TransfersIssueInOrder : Prop :=
  ∀ (s : State) (p : Fin 72) (e : Fin 4) (x : Posted) (c : Nat), s.dmaHead p e = some (x, c) →
    let left := dropFirst (· == x) (s.dma p e).queue
    (∀ i ∈ [(Instr.copy p e, 0x70), (.fill p e, 0x72), (.relay p e, 0x71)], ddOp x.desc = i.2 →
      ∀ code detail, s.dmaCheck p c x = .refused code detail →
        CompletesWith i.1 s fun t =>
          t.get (Reg.FLD_DMA_STATUS_LAST_FAULT p e) = code % 2 ^ 12 ∧ (t.dma p e).queue = left ∧ (t.dma p e).runs = (s.dma p e).runs ∧ SameMem s t) ∧
    (∀ r u, s.dmaCheck p c x = .ok s r [] → s.dmaBind p e x.slot x.desc = some u →
      let Issued := fun t : State => (t.dma p e).queue = left ∧ (t.dma p e).runs = (s.dma p e).runs ++ [{ r with seq := r.seq + 1, stations := [] }] ∧
        t.get (Reg.FLD_DMA_STATUS_BUSY p e) = 1 ∧ t.get (Reg.FLD_DMA_STATUS_RELAY_WAIT p e) = 0 ∧ SameMem s t
      (ddOp x.desc = 0x70 → CompletesWith (.copy p e) s Issued) ∧ (ddOp x.desc = 0x72 → CompletesWith (.fill p e) s Issued)) ∧
    (ddOp x.desc = 0x71 → ∀ v r sts u, s.dmaCheck p c x = .ok v r sts → v.dmaBind p e x.slot x.desc = some u →
      (u.relayReserve p e c (r.seq + 1) (ddRepeat x.desc) sts = none →
        let Waits := fun t : State => t.get (Reg.FLD_DMA_STATUS_RELAY_WAIT p e) = 1 ∧ (t.dma p e).queue = (s.dma p e).queue ∧
          RegsBut s t [Reg.aFLD_DMA_STATUS p e] ∧ SameMem s t
        CompletesWith (.relay p e) s Waits ∧
        (s.on (Reg.FLD_DMA_STATUS_RELAY_WAIT p e) = true → CompletesWith (.relayReserve p e) s Waits)) ∧
      ∀ w st, u.relayReserve p e c (r.seq + 1) (ddRepeat x.desc) sts = some (w, st) →
        let Issued := fun t : State => (t.dma p e).queue = left ∧ (t.dma p e).runs = (s.dma p e).runs ++ [{ r with seq := r.seq + 1, stations := st }] ∧
          t.get (Reg.FLD_DMA_STATUS_RELAY_WAIT p e) = 0 ∧ (∀ x ∈ w.routes, x ∈ t.routes) ∧
          ∀ y ∈ st, ∀ k, y.entry = some k → (t.relay y.field k).isSome = true
        CompletesWith (.relay p e) s Issued ∧
        (s.on (Reg.FLD_DMA_STATUS_RELAY_WAIT p e) = true → CompletesWith (.relayReserve p e) s Issued))

/-- R283 to R285: an engine with the grant moves one granule of up to 256 bytes from source to destination, or of the FILL pattern, and goes on to
the next; a transfer whose context is descheduled writes its record as SUSPENDED, and a finished one writes its record and ends. R294: a relay
station takes a slot before its first granule, or stalls where its ring has none free; it lands the granule that has come first and passes it on to
a station that holds a slot. -/
def Obligations.TransfersMoveGranulesAndComplete : Prop :=
  (∀ (s : State) (p : Fin 72) (e : Fin 4) (r : DmaRun),
     (∀ (u : Fin 32) (q : Fin 4) (x : Fin 8), s.dmaRun p e = some r → s.fieldPowered p = true → s.stopCode p 5 e r.ctx = none →
       s.agentWaits p 5 e r.ctx = false → r.working = true → s.dmaFenced p r = false → r.rows ≠ 0 → (s.field p).dmaGrant = some (e : Nat) →
       ddRelay r.desc = false → ddConvert r.desc = false → ddSrcKind r.desc = 0 → ddDstKind r.desc = 0 → r.sending = false →
       (∀ y ∈ (s.dma p e).runs, s.relay p (ownStation e y.slot) = none) → r.got = none → s.permitted p (unitDma e) = true →
       let n := min 256 (ddRowBytes r.desc - r.off)
       let src := r.srcAt r.off
       let dst := r.dstAt r.off
       s.windowOk p r.slot dst n = true → s.sleepingBank? p dst n = none → s.badPartial? (fmLoc p dst) n = none →
       (ddFill r.desc = false → s.windowOk p r.slot src n = true ∧ s.sleepingBank? p src n = none ∧ s.badWord? (fmLoc p src) n = none) →
       CompletesWith (.dmaGranule p e u q x) s fun t =>
         t.mread (fmLoc p dst) n =
             (if ddFill r.desc then (List.range n).map fun i => BitVec.ofNat 8 (fw r.desc 13 31 0 / 256 ^ ((r.off + i) % 4))
              else s.mread (fmLoc p src) n) ∧
           MemBut s t (fmLoc p dst) n ∧ (t.field p).dmaGrant = none ∧
           ∃ y, ((t.dma p e).runs.find? fun y => y.ctx == r.ctx) = some y ∧ y.bytesDone = r.bytesDone + n ∧ y.off = (r.after n).off ∧
             y.row = (r.after n).row ∧ y.rep = (r.after n).rep) ∧
     (s.windowOk p r.slot r.recordAt 32 = true → s.sleepingBank? p r.recordAt 32 = none → s.badPartial? (fmLoc p r.recordAt) 32 = none →
       (((s.dma p e).runs.find? fun r => !r.suspended && r.fault.isNone && (!s.ctxActive r.ctx || s.agentWaits p 5 e r.ctx)) = some r →
         s.stopOf p (agentKey 5 e r.ctx) = none →
         CompletesWith (.dmaSuspend p e) s fun t =>
           t.mread (fmLoc p r.recordAt) 32 = r.record 0 true s.stamp ∧ MemBut s t (fmLoc p r.recordAt) 32 ∧
             ((t.dma p e).runs.find? fun y => y.ctx == r.ctx) = some { r with suspended := true, got := none } ∧
             t.get (Reg.FLD_DMA_STATUS_SUSPENDED p e) = 1) ∧
       (((s.dma p e).runs.find? fun r => r.finished && s.ctxActive r.ctx) = some r → ddSrcKind r.desc ≠ 3 → ddDstKind r.desc ≠ 3 → r.stations = [] →
         fbit r.desc 14 10 = false →
         CompletesWith (.dmaComplete p e) s fun t =>
           t.mread (fmLoc p r.recordAt) 32 = r.record (r.fault.getD 0) false s.stamp ∧ MemBut s t (fmLoc p r.recordAt) 32 ∧
             (t.dma p e).runs = (s.dma p e).runs.filter fun y => y.ctx != r.ctx))) ∧
  (∀ (s : State) (p : Fin 72) (k : Fin 8) (x : RelayEntry), s.relay p k = some x → s.fieldPowered p = true → s.permitted p (unitRelay k) = true →
     (x.held = false → x.left ≠ 0 → s.ringHeadFree p x.ring = false →
       CompletesWith (.relayGranule p k) s fun t =>
         OnlyRegs s t [Reg.aFLD_RELAY_STATUS p k] ∧ t.get (Reg.FLD_RELAY_STATUS_STALLED p k) = 1) ∧
     (x.held = false → x.left ≠ 0 → x.inbox = [] → s.ringHeadFree p x.ring = true →
       CompletesWith (.relayGranule p k) s fun t =>
         t.relay p k = some { x with held := true, left := x.left - 1 } ∧ t.get (Reg.FLD_RELAY_STATUS_STALLED p k) = 0 ∧ SameMem s t) ∧
     ∀ (g : RelayGran) (rest : List RelayGran) (q j : Nat) (y : RelayEntry),
       let a := s.ringSlotAt p x.ring (s.get (Reg.FLD_RING_STATE_HEAD p x.ring)) + g.off
       x.inbox = g :: rest → s.relayRoom p x.next = true →
       x.held = true → x.ring < 16 → g.last = false → x.next = some (q, j) → q ≠ p → s.relay q j = some y →
       s.windowOk p x.slot a g.data.length = true → s.sleepingBank? p a g.data.length = none →
       s.badPartial? (fmLoc p a) g.data.length = none →
       CompletesWith (.relayGranule p k) s fun t =>
         t.mread (fmLoc p a) g.data.length = g.data ∧ MemBut s t (fmLoc p a) g.data.length ∧
           t.relay p k = some { x with inbox := rest } ∧ t.relay q j = some { y with inbox := y.inbox ++ [g] })

/-- R296: of streams that hold their slots, the grant goes to the ready deadline stream that runs dry first; to the best-effort stream passed by for
longest where there is none, or where one of those that wait is due its grant in eight; and to nobody where none is ready. When one is due is the
model's choice within R296 (log entry 59). -/
def Obligations.TheStreamThatRunsDryFirstHasTheGrant : Prop :=
  ∀ (s : State) (p : Fin 72),
    (∀ e, e < 4 → ((s.dma p e).runs.map (·.ctx)).Nodup ∧ ∀ r, s.dmaRun p e = some r → r.rows = 0 ∨ (r.dstHeld = true ∧ r.srcHeld = true)) →
    let deadline := fun (e : Nat) (r : DmaRun) => e < 4 ∧ s.dmaReady p e = some r ∧ ddRate r.desc ≠ 0
    let effort := fun (e : Nat) (r : DmaRun) => e < 4 ∧ s.dmaReady p e = some r ∧ ddRate r.desc = 0
    let due := beDue ((((List.range 4).filterMap fun e => s.dmaReady p e).filter fun r => ddRate r.desc == 0).map (·.waits))
    let Passed := fun (t : State) (e : Nat) => ∀ e' r', effort e' r' → e' ≠ e →
      ((t.dma p e').runs.find? fun y => y.ctx == r'.ctx) = some { r' with waits := r'.waits + 1 }
    ((∀ e, e < 4 → s.dmaReady p e = none) → CompletesWith (.streamArbitrate p) s fun t => (t.field p).dmaGrant = none ∧ SameMem s t) ∧
    (∀ (e : Nat) (r : DmaRun), deadline e r →
      (∀ e' r', deadline e' r' → e' ≠ e →
        s.dmaOccupancy p r * ddRate r'.desc < s.dmaOccupancy p r' * ddRate r.desc ∨
          (s.dmaOccupancy p r * ddRate r'.desc = s.dmaOccupancy p r' * ddRate r.desc ∧ e < e')) →
      ((∀ e' r', ¬ effort e' r') ∨ due = false) →
      CompletesWith (.streamArbitrate p) s fun t => (t.field p).dmaGrant = some e ∧ Passed t e ∧ SameMem s t) ∧
    ∀ (e : Nat) (r : DmaRun), effort e r → (∀ e' r', effort e' r' → e' ≠ e → r'.waits < r.waits ∨ (r'.waits = r.waits ∧ e < e')) →
      ((∀ e' r', ¬ deadline e' r') ∨ due = true) →
      CompletesWith (.streamArbitrate p) s fun t => (t.field p).dmaGrant = some e ∧ Passed t e ∧ SameMem s t

/-- R287 to R290: a control core's operation on a ring publishes slot HEAD where the ring is enabled for its context and has a free slot, and frees
slot TAIL where one is published, and otherwise sets OP_ERR alone; a ring whose wait on its release hurdle has completed frees its slot. -/
def Obligations.RingsPublishAndFreeSlots : Prop :=
  ∀ (s : State) (p : Fin 72) (n : Fin 16) (slot : Fin 4),
    let head := s.get (Reg.FLD_RING_STATE_HEAD p n)
    let tail := s.get (Reg.FLD_RING_STATE_TAIL p n)
    let pub := s.get (Reg.FLD_RING_STATE_PUBLISHED p n)
    (∀ len : Fin 16777216,
      (s.ringOpOk p n slot = false ∨ s.ringHeadFree p n = false →
        CompletesWith (.ringProduce p n slot len) s fun t =>
          OnlyRegs s t [Reg.aFLD_RING_STATE p n] ∧ t.get (Reg.FLD_RING_STATE_OP_ERR p n) = 1 ∧ t.get (Reg.FLD_RING_STATE_PUBLISHED p n) = pub) ∧
      (s.ringOpOk p n slot = true → s.ringHeadFree p n = true → s.on (Reg.FLD_RING_HRD_PUB_EN p n) = false →
        s.on (Reg.FLD_RING_HRD_REL_EN p n) = false →
        CompletesWith (.ringProduce p n slot len) s fun t =>
          OnlyField s t p [Reg.aFLD_RING_STATE p n, Reg.aFLD_RING_LEN p n] ∧ t.get (Reg.FLD_RING_STATE_HEAD p n) = s.ringNext p n head % 2 ^ 4 ∧
            t.get (Reg.FLD_RING_STATE_TAIL p n) = tail ∧ t.get (Reg.FLD_RING_STATE_PUBLISHED p n) = pub + 1 ∧
            t.get (Reg.FLD_RING_STATE_PUB_SEQ p n) = (s.get (Reg.FLD_RING_STATE_PUB_SEQ p n) + 1) % 2 ^ 16 ∧
            Tab.get (fun _ => 0) (t.ringX p n).lens head = len)) ∧
    (s.ringOpOk p n slot = false ∨ s.ringReady p n = false →
      CompletesWith (.ringFree p n slot) s fun t =>
        OnlyRegs s t [Reg.aFLD_RING_STATE p n] ∧ t.get (Reg.FLD_RING_STATE_OP_ERR p n) = 1 ∧ t.get (Reg.FLD_RING_STATE_PUBLISHED p n) = pub) ∧
    (s.ringOpOk p n slot = true → s.ringReady p n = true → (s.ringX p n).consHeld = false →
      CompletesWith (.ringFree p n slot) s fun t =>
        OnlyField s t p [Reg.aFLD_RING_STATE p n, Reg.aFLD_RING_LEN p n] ∧
          if s.on (Reg.FLD_RING_CFG_FWD p n) = true ∧ (s.ringX p n).fwd = 0 then
            t.get (Reg.FLD_RING_STATE_PUBLISHED p n) = pub ∧ (t.ringX p n).cons = (s.ringX p n).cons + 1
          else
            t.get (Reg.FLD_RING_STATE_PUBLISHED p n) = pub - 1 ∧ t.get (Reg.FLD_RING_STATE_TAIL p n) = s.ringNext p n tail % 2 ^ 4 ∧
              (t.ringX p n).cons = (s.ringX p n).cons) ∧
    ((s.ringX p n).waiting = true → (s.ringX p n).cons = 0 → pub = 1 → s.on (Reg.FLD_RING_CFG_FWD p n) = false →
      (∀ w ∈ (s.field p).ch.waiters, ¬ (w.field = p ∧ w.port = 16 + n)) → (∃ w ∈ (s.field p).ch.done, w.field = p ∧ w.port = 16 + n) →
      CompletesWith (.ringRelease p n) s fun t =>
        t.get (Reg.FLD_RING_STATE_PUBLISHED p n) = 0 ∧ t.get (Reg.FLD_RING_STATE_TAIL p n) = s.ringNext p n tail % 2 ^ 4 ∧
          (t.ringX p n).waiting = false ∧ (t.field p).ch.done.length + 1 = (s.field p).ch.done.length)


/-! Chapter 13: memory stacks. -/

/-- R299, R301, R303, R304, R308, R310 to R313, R317: a ready stack reads and writes exactly the bytes named, gathers tokens in request order; a
transfer that cannot be corrected delivers nothing; an access that finds the stack in self-refresh, or its row under remap, is held as it is; before
WRITES_EN no write takes effect. R327, R311, R313: an agent's scatter-add adds a token's valid elements, and its atomic acts in one step, at the
place its VA leads to. The stop for addresses outside a stack is the model's (log entry 5). -/
def Obligations.StacksServeAccesses : Prop :=
  (∀ (s : State) (k : Fin 32) (a : Nat) (by' : Option Requester) (ecc : Ecc),
    (stackSize ≤ a → exec (.stackRead k a by' ecc) s = .fault .noSuchAddress) ∧
    (a < stackSize →
      let o := stackLoc k (a / 64 * 64)
      (s.stackReady k = true → s.rowBusy o 64 = false →
        (s.badWord? o 64 = none →
          CompletesWith (.stackRead k a by' .good) s fun t => (t.stk k).lastRead = s.mread o 64 ∧ SameMem s t ∧ RegsBut s t []) ∧
        ∀ w, s.badWord? o 64 = some w →
          CompletesWith (.stackRead k a none .good) s fun t =>
            (t.stk k).lastRead = (s.stk k).lastRead ∧ SameMem s t ∧ t.get (Reg.STK_ECC_STATUS_UNCORR_SEEN k) = 1 ∧
              t.get (Reg.STK_ECC_STATUS_PC k) = bits a 12 8 ∧ t.get (Reg.STK_ECC_STATUS_BANK k) = bits a 21 16 ∧
              t.get (Reg.STK_ECC_STATUS_ROW k) = bits a 35 22) ∧
      (s.get (Reg.STK_STATUS_PWR_STATE k) = 1 →
        CompletesWith (.stackRead k a by' ecc) s fun t =>
          (t.stk k).held = (s.stk k).held ++ [StkReq.read (a / 64 * 64) 64 by' ecc] ∧ (t.stk k).waking = true ∧
            SameMem s t ∧ RegsBut s t []) ∧
      (s.stackReady k = true → s.rowBusy o 64 = true →
        CompletesWith (.stackRead k a by' ecc) s fun t =>
          (t.stk k).remapHeld = (s.stk k).remapHeld ++ [StkReq.read (a / 64 * 64) 64 by' ecc] ∧ SameMem s t ∧ RegsBut s t []))) ∧
  (∀ (s : State) (k : Fin 32) (a : Nat) (bs : List Byte) (by' : Option Requester), a + bs.length ≤ stackSize →
    (s.writesEnabled = false → CompletesWith (.stackWrite k a bs by' .good) s fun t => OnlyRegs s t []) ∧
    (s.writesEnabled = true → s.stackReady k = true → s.rowBusy (stackLoc k a) bs.length = false →
      s.badPartial? (stackLoc k a) bs.length = none →
      CompletesWith (.stackWrite k a bs by' .good) s fun t =>
        t.mread (stackLoc k a) bs.length = bs ∧ MemBut s t (stackLoc k a) bs.length ∧ RegsBut s t [])) ∧
  (∀ (s : State) (k : Fin 32) (as : List Nat) (by' : Option Requester), as.length ≤ 32 → (∀ a ∈ as, a + 128 ≤ stackSize) →
    s.stackReady k = true → (∀ a ∈ as, s.rowBusy (stackLoc k a) 128 = false ∧ s.badWord? (stackLoc k a) 128 = none) →
    CompletesWith (.gather k as by' .good) s fun t =>
      (t.stk k).lastRead = (as.flatMap fun a => s.mread (stackLoc k a) 128) ∧ SameMem s t ∧ RegsBut s t []) ∧
  (∀ (s : State) (va o fmt mask : Nat) (cb : Bool) (tok : List Byte) (r : Requester), va % 65536 + 128 ≤ 65536 → tok.length = 128 →
    s.translate r.field (s.reqCtx r) false .scatterAdd va = .ok (.stack o, cb) → o + 128 ≤ stackBytes →
    s.wayOpen (s.reqCtx r) (quadOfField r.field) (quadOfStack (o / stackSize)) = true → s.bucketReady r.field (s.reqCtx r) false 128 = true →
    s.stackWait? o 128 = none → s.badWord? o 128 = none →
    CompletesWith (.scatterAdd va fmt mask tok r) s fun t =>
      t.mread o 128 = saToken fmt (mask % 2 ^ 32) (s.mread o 128) tok ∧ MemBut s t o 128 ∧ RegsBut s t [] ∧
        ∀ i, i < 32 → fmt = fmtINT32 →
          leNat (((t.mread o 128).drop (4 * i)).take 4) =
            if bit mask i then (leNat (((s.mread o 128).drop (4 * i)).take 4) + leNat ((tok.drop (4 * i)).take 4)) % 2 ^ 32
            else leNat (((s.mread o 128).drop (4 * i)).take 4)) ∧
  ∀ (s : State) (va o op x new : Nat) (cb : Bool) (r : Requester), va % 8 = 0 →
    s.translate r.field (s.reqCtx r) false .atomic va = .ok (.stack o, cb) → o + 8 ≤ stackBytes →
    s.wayOpen (s.reqCtx r) (quadOfField r.field) (quadOfStack (o / stackSize)) = true → s.bucketReady r.field (s.reqCtx r) false 8 = true →
    s.stackWait? o 8 = none → s.badWord? o 8 = none →
    CompletesWith (.atomic va op x new r) s fun t =>
      leNat (t.mread o 8) = atomicNew op (leNat (s.mread o 8)) (x % 2 ^ 64) (new % 2 ^ 64) ∧ MemBut s t o 8 ∧ RegsBut s t [] ∧
        (t.stk (o / stackSize)).lastRead = s.mread o 8

/-- R305 to R308, R316, R317: refresh and temperature, the patrol scrub and its counts, the die copy and the row remap with their spares, and the
way into and out of self-refresh. -/
def Obligations.StacksScrubSpareAndSleep : Prop :=
  ∀ (s : State) (k : Fin 32),
    (∀ (pc : Fin 32) (bank : Fin 64) (row : Fin 12288), CompletesWith (.stackRefresh k pc bank row) s fun t =>
      (t.stk k).refreshPos = rowKey pc bank row ∧ SameMem s t ∧ RegsBut s t []) ∧
    (∀ c : Fin 256, CompletesWith (.stackTempUpdate k c) s fun t =>
      RegsBut s t [Reg.aSTK_THERMAL k] ∧ SameMem s t ∧ t.get (Reg.STK_THERMAL_TEMP_C k) = c ∧
        t.get (Reg.STK_THERMAL_REFRESH k) = (if (c : Nat) ≤ 85 then 0 else if (c : Nat) ≤ 95 then 1 else 2) ∧
        t.get (Reg.STK_THERMAL_HOT k) = if 95 < (c : Nat) then 1 else s.get (Reg.STK_THERMAL_HOT k)) ∧
    (∀ xfer : Fin 32, s.on (Reg.STK_SCRUB_CTRL_EN k) = true → s.get (Reg.STK_STATUS_PWR_STATE k) = 0 → (s.stk k).scrubPos < 25165824 →
      (s.stk k).copyDie = none → (∀ o ∈ pageBlocks k (s.scrubPage k (s.stk k).scrubPos), s.isBad o = false) →
      let pos := (s.stk k).scrubPos
      (CompletesWith (.stackScrubPage k .good xfer) s fun t =>
        (t.stk k).scrubPos = (pos + 1) % 25165824 ∧ SameMem s t ∧ RegsBut s t [Reg.aSTK_SCRUB_CTRL k] ∧
          t.get (Reg.STK_SCRUB_CTRL_PASSES k) =
            if pos + 1 = 25165824 then (s.get (Reg.STK_SCRUB_CTRL_PASSES k) + 1) % 2 ^ 16 else s.get (Reg.STK_SCRUB_CTRL_PASSES k)) ∧
      ∀ x ∈ [(Ecc.corrected, Reg.STK_ECC_STATUS_CORR_SEEN k), (.uncorrectable, Reg.STK_ECC_STATUS_UNCORR_SEEN k)],
        (x.1 = .uncorrectable → ∀ c, (s.serve c).load = none) →
        CompletesWith (.stackScrubPage k x.1 xfer) s fun t =>
          t.get x.2 = 1 ∧ t.get (Reg.STK_ECC_STATUS_BY_SCRUB k) = 1 ∧ t.get (Reg.STK_ECC_STATUS_PC k) = pos % 32 ∧
            t.get (Reg.STK_ECC_STATUS_BANK k) = pos / 32 % 64 ∧ t.get (Reg.STK_ECC_STATUS_ROW k) = pos / 2048 ∧ SameMem s t) ∧
    (∀ die : Fin 16,
      if s.get (Reg.STK_SPARE_STATUS_COPY_ACTIVE k) = 0 ∧ s.get (Reg.STK_STATUS_SPARE_DIE_FREE k) = 1 then
        CompletesWith (.dieCopyStart k die) s fun t =>
          t.get (Reg.STK_SPARE_STATUS_COPY_ACTIVE k) = 1 ∧ t.get (Reg.STK_SPARE_STATUS_COPY_PROGRESS k) = 0 ∧ (t.stk k).copyDie = some (die : Nat) ∧
            SameMem s t
      else CompletesWith (.dieCopyStart k die) s fun t => OnlyRegs s t [Reg.aSTK_SPARE_CTRL k]) ∧
    (∀ d, (s.stk k).copyDie = some d →
      CompletesWith (.dieCopyDone k) s fun t =>
        t.get (Reg.STK_SPARE_STATUS_COPY_ACTIVE k) = 0 ∧ t.get (Reg.STK_SPARE_STATUS_COPY_DONE k) = 1 ∧
          t.get (Reg.STK_SPARE_STATUS_RETIRED_DIE k) = s.physDie k d % 2 ^ 5 ∧ t.get (Reg.STK_STATUS_SPARE_DIE_FREE k) = 0 ∧
          (t.stk k).copyDie = none ∧ t.physDie k d = 16 ∧ (∀ x, x ≠ d → t.physDie k x = s.physDie k x) ∧ SameMem s t) ∧
    (∀ (pc : Fin 32) (bank : Fin 64) (row : Fin 12288), s.get (Reg.STK_ROW_REMAP_BUSY k) = 0 → s.get (Reg.STK_ROW_REMAP_NO_SPARE k) = 0 →
      CompletesWith (.rowRemap k pc bank row) s fun t =>
        t.get (Reg.STK_ROW_REMAP_PC k) = pc ∧ t.get (Reg.STK_ROW_REMAP_BANK k) = bank ∧ t.get (Reg.STK_ROW_REMAP_ROW k) = row ∧ SameMem s t ∧
          if Tab.get (fun _ => 0) (s.stk k).spareUsed (pc * 64 + bank) < 16 then
            t.get (Reg.STK_ROW_REMAP_BUSY k) = 1 ∧ t.get (Reg.STK_ROW_REMAP_NO_SPARE k) = 0
          else t.get (Reg.STK_ROW_REMAP_BUSY k) = 0 ∧ t.get (Reg.STK_ROW_REMAP_NO_SPARE k) = 1) ∧
    (s.get (Reg.STK_ROW_REMAP_BUSY k) = 1 → (s.stk k).remapHeld = [] → (s.stk k).remapNext = [] →
      CompletesWith (.rowRemapDone k) s fun t =>
        t.get (Reg.STK_ROW_REMAP_BUSY k) = 0 ∧
          t.get (Reg.STK_SPARE_STATUS_ROWS_REMAPPED k) = (s.get (Reg.STK_SPARE_STATUS_ROWS_REMAPPED k) + 1) % 2 ^ 16 ∧
          (let b := s.get (Reg.STK_ROW_REMAP_PC k) * 64 + s.get (Reg.STK_ROW_REMAP_BANK k)
           Tab.get (fun _ => 0) (t.stk k).spareUsed b = Tab.get (fun _ => 0) (s.stk k).spareUsed b + 1) ∧ SameMem s t) ∧
    (s.get (Reg.STK_PWR_CTRL_REQ k) = 4 → s.get (Reg.STK_STATUS_PWR_STATE k) = 0 → s.stkQuiet k = true →
      CompletesWith (.stackIdleExpiry k) s fun t => OnlyRegs s t [Reg.aSTK_STATUS k] ∧ t.get (Reg.STK_STATUS_PWR_STATE k) = 1 ∧
        t.get (Reg.STK_STATUS_READY k) = s.get (Reg.STK_STATUS_READY k)) ∧
    (s.get (Reg.STK_STATUS_PWR_STATE k) = 1 ∨ s.get (Reg.STK_STATUS_PWR_STATE k) = 2 → s.on (Reg.STK_STATUS_READY k) = true →
      (s.stk k).waking = true →
      let Awake := fun t : State => t.get (Reg.STK_STATUS_PWR_STATE k) = 0 ∧ (t.stk k).held = [] ∧ (t.stk k).waking = false ∧
        RegsBut s t [Reg.aSTK_STATUS k]
      ((s.stk k).held = [] → CompletesWith (.stackWake k) s fun t => Awake t ∧ SameMem s t) ∧
      ∀ (a : Nat) (bs : List Byte) (by' : Option Requester), (s.stk k).held = [StkReq.write a bs by' .good] →
        s.rowBusy (stackLoc k a) bs.length = false → s.badPartial? (stackLoc k a) bs.length = none →
        CompletesWith (.stackWake k) s fun t =>
          Awake t ∧ t.mread (stackLoc k a) bs.length = bs ∧ MemBut s t (stackLoc k a) bs.length)

/-! Chapter 14: translation. -/

/-- R324 to R335, R337: a miss whose walk finds a leaf leaves it in the TLB, a hit makes no walk, and an access that finds no page, or a context
whose translation is not enabled, suspends its agent; the oldest waiting entry is written to its quadrant's queue while one place stays unused; an
invalidation removes exactly what its scope names and is done once the accesses it waits for are; RETRY maps the pages firmware gives for a demand
region and lets a context's suspended agents go on, FAIL stops them, and so does RETRY outside every demand region; a remote access is repeated up to
RETRY_LIMIT. -/
def Obligations.WalksFaultsAndInvalidations : Prop :=
  ∀ s : State,
    (∀ (p : Fin 72) (slot : Fin 4) (agent : Fin 8) (index : Fin 64) (va c : Nat), s.ctxOf p slot = some c →
      (∀ l x, s.leafOf p c va false = .ok l → s.tlbHit p c va = none → s.leafTarget l (agentLocalOnly agent) .read va = .ok x →
        CompletesWith (.tlbWalk p slot agent index va 0) s fun t =>
          ({ ctx := c, vbase := l.vbase, size := l.size, frame := l.frame, rights := l.rights } : TlbEntry) ∈ (t.field p).tlb ∧ OnlyField s t p []) ∧
      (∀ l x, s.leafOf p c va false = .ok l → s.tlbHit p c va ≠ none → s.leafTarget l (agentLocalOnly agent) .read va = .ok x →
        CompletesWith (.tlbWalk p slot agent index va 0) s fun t => OnlyRegs s t []) ∧
      (s.get (Reg.XLT_CTX_ROOT_EN c) = 0 → s.leafOf p c va true = .error (.xlt Flt.XLT_NOT_PRESENT va 0 true)) ∧
      (s.leafOf p c va true = .error (.xlt Flt.XLT_NOT_PRESENT va 0 true) → s.stopOf p (agentKey agent index c) = none →
        CompletesWith (.tlbWalk p slot agent index va 1) s fun t =>
          (∃ x, t.stopOf p (agentKey agent index c) = some x ∧ x.kind = .suspended ∧ x.va = va ∧ x.ctx = c ∧ x.write = true) ∧
            (∃ e, t.xlt.fqWait = s.xlt.fqWait ++ [(quadOfField p, e)] ∧ e.va = va ∧ e.code = Flt.XLT_NOT_PRESENT ∧ e.ctx = c) ∧ SameMem s t)) ∧
    (∀ (q : Fin 4) (e : FqEntry), (s.xlt.fqWait.find? fun e => e.1 == q.val) = some ((q : Nat), e) →
      let w := s.get (Reg.XLT_FQ_WPTR_WPTR q)
      let o := s.get (Reg.XLT_FQ_BASE_BASE q) * 2 ^ 15 + 32 * w
      ((w + 1) % 1024 = s.get (Reg.XLT_FQ_RPTR_RPTR q) → CompletesWith (.faultQueueWrite q) s fun t => OnlyRegs s t []) ∧
      ((w + 1) % 1024 ≠ s.get (Reg.XLT_FQ_RPTR_RPTR q) → o + 32 ≤ stackBytes → s.stackWait? o 32 = none → s.badPartial? o 32 = none →
        CompletesWith (.faultQueueWrite q) s fun t =>
          t.mread o 32 = e.bytes ∧ MemBut s t o 32 ∧ RegsBut s t [Reg.aXLT_FQ_WPTR q] ∧ t.get (Reg.XLT_FQ_WPTR_WPTR q) = (w + 1) % 1024 ∧
            t.xlt.fqWait = dropFirst (fun x => x.1 == q.val) s.xlt.fqWait)) ∧
    (∀ c : Fin 64,
      (s.get Reg.XLT_INVAL_STATUS_BUSY = 1 →
        ∀ i ∈ [Instr.invalRange c, .invalContext c, .invalAll], CompletesWith i s fun t =>
          OnlyRegs s t [Reg.aXLT_INVAL_STATUS] ∧ t.get Reg.XLT_INVAL_STATUS_OVERRUN = 1) ∧
      (s.get Reg.XLT_INVAL_STATUS_BUSY = 0 →
        let lo := s.invalBounds.1
        let hi := s.invalBounds.2
        (lo < hi → CompletesWith (.invalRange c) s fun t =>
          t.get Reg.XLT_INVAL_STATUS_BUSY = 1 ∧ SameMem s t ∧ RegsBut s t [Reg.aXLT_INVAL_STATUS] ∧
            ∀ p, (t.field p).tlb = (s.field p).tlb.filter fun e => !(e.ctx == c.val && decide (e.vbase < hi ∧ lo < e.vbase + e.size))) ∧
        (lo = hi → CompletesWith (.invalRange c) s fun t =>
          OnlyRegs s t [Reg.aXLT_INVAL_STATUS] ∧ t.get Reg.XLT_INVAL_STATUS_DONE = 1 ∧ t.get Reg.XLT_INVAL_STATUS_BUSY = 0) ∧
        (CompletesWith (.invalContext c) s fun t =>
          t.get Reg.XLT_INVAL_STATUS_BUSY = 1 ∧ SameMem s t ∧ RegsBut s t [Reg.aXLT_INVAL_STATUS] ∧
            ∀ p, (t.field p).tlb = (s.field p).tlb.filter (fun e => e.ctx != c.val) ∧
              (t.field p).walkCache = (s.field p).walkCache.filter (fun e => e.ctx != c.val)) ∧
        (CompletesWith .invalAll s fun t =>
          t.get Reg.XLT_INVAL_STATUS_BUSY = 1 ∧ SameMem s t ∧ ∀ p, (t.field p).tlb = [] ∧ (t.field p).walkCache = [])) ∧
      (s.xlt.inval.isSome = true → s.invalQuiet = false → CompletesWith .invalDone s fun t => OnlyRegs s t []) ∧
      (s.xlt.inval.isSome = true → s.invalQuiet = true → CompletesWith .invalDone s fun t =>
        t.get Reg.XLT_INVAL_STATUS_BUSY = 0 ∧ t.get Reg.XLT_INVAL_STATUS_DONE = 1 ∧ t.xlt.inval = none ∧ RegsBut s t [Reg.aXLT_INVAL_STATUS]) ∧
      (s.demandOnly c = true →
        (CompletesWith (.resolveRetry c []) s fun t =>
          (∀ p, (t.field p).stops = (s.field p).stops.filter fun e => !e.2.waits c) ∧ RegsBut s t [] ∧ SameMem s t) ∧
        ∀ va o level a, s.missingEntry va 3 1 (s.get (Reg.XLT_CTX_ROOT_ROOT c) * 2 ^ 21) = some (level, a) → s.demandHolds c va = true →
          o % pageSize level = 0 → o + pageSize level ≤ stackBytes → s.pageFree o (pageSize level) = true →
          CompletesWith (.resolveRetry c [(va, o)]) s fun t =>
            (∀ p, (t.field p).stops = (s.field p).stops.filter fun e => !e.2.waits c) ∧ RegsBut s t [] ∧
              t.mread a 8 = leBytes 8 (0x1F + s.deviceId * 2 ^ 41 + o) ∧
              ∀ i, i < pageSize level → (o + i < a ∨ a + 8 ≤ o + i) → t.mem.read (o + i) = 0) ∧
      (∀ pages, s.demandOnly c = false → CompletesWith (.resolveRetry c pages) s fun t =>
        (∀ p, (t.field p).stops = (s.field p).stops.map fun e => if e.2.waits c then (e.1, { e.2 with kind := .failed }) else e) ∧ SameMem s t) ∧
      (CompletesWith (.resolveFail c) s fun t =>
        (∀ p, (t.field p).stops = (s.field p).stops.map fun e => if e.2.waits c then (e.1, { e.2 with kind := .failed }) else e) ∧ SameMem s t)) ∧
    ∀ (p : Fin 72) (agent : Fin 8) (index : Fin 64) (key : Nat) (x : Stop),
      ((s.field p).stops.find? fun e => e.1 % 1024 == agent.val * 64 + index.val && e.2.kind == .remoteRetry) = some (key, x) →
      (Tab.get (fun _ => 0) (s.field p).retryCount key < s.get Reg.XLT_REMOTE_RETRY_RETRY_LIMIT →
        CompletesWith (.remoteRetryTimer p agent index) s fun t =>
          t.stopOf p key = none ∧ Tab.get (fun _ => 0) (t.field p).retryCount key = Tab.get (fun _ => 0) (s.field p).retryCount key + 1 ∧
            OnlyField s t p []) ∧
      (s.get Reg.XLT_REMOTE_RETRY_RETRY_LIMIT ≤ Tab.get (fun _ => 0) (s.field p).retryCount key → key = agentKey agent index x.ctx →
        CompletesWith (.remoteRetryTimer p agent index) s fun t =>
          Tab.get (fun _ => 0) (t.field p).retryCount key = 0 ∧
            ∃ y, t.stopOf p key = some y ∧ y.kind = .failed ∧ y.code = Flt.REMOTE_NOT_PRESENT ∧ y.va = x.va)


/-! Chapter 15: Quipel. -/

/-- R342 to R344, R347, R368: a port trains and comes up, at rest after a first training and with its retry buffer after a retrain; a failing lane
gives its position to the spare, else the direction retrains at two lanes or the link goes down; steering on request ends in DONE, or FAIL; a retrain
of 10 ms, or a lost link, takes the port down with its requests. R345 to R348: on a link that is up the flit that comes next in order is taken, and the
only flit that waits is sent against its credit and kept until it is acknowledged. -/
def Obligations.LinksTrainSteerAndFail : Prop :=
  ∀ (s : State) (n : Fin 4),
    (s.get (Reg.QPL_PORT_CTRL_EN n) = 1 → s.serdesReady n = true → s.get (Reg.QPL_PORT_STATUS_LINK_UP n) = 0 →
      CompletesWith (.portTraining n) s fun t => OnlyRegs s t [Reg.aQPL_PORT_STATUS n] ∧ t.get (Reg.QPL_PORT_STATUS_TRAINING n) = 1 ∧
        t.get (Reg.QPL_PORT_STATUS_LINK_UP n) = 0) ∧
    (∀ (dev : Fin 1024) (port : Fin 4) (switch host : Bool), s.get (Reg.QPL_PORT_STATUS_TRAINING n) = 1 →
      CompletesWith (.linkUp n dev port switch host) s fun t =>
        RegsBut s t [Reg.aQPL_PORT_STATUS n] ∧ t.get (Reg.QPL_PORT_STATUS_LINK_UP n) = 1 ∧ t.get (Reg.QPL_PORT_STATUS_TRAINING n) = 0 ∧
          t.get (Reg.QPL_PORT_STATUS_PEER_DEVICE n) = dev ∧ t.get (Reg.QPL_PORT_STATUS_PEER_PORT n) = port ∧
          t.get (Reg.QPL_PORT_STATUS_TX_WIDTH n) = s.widthCode n 0 ∧ t.get (Reg.QPL_PORT_STATUS_RX_WIDTH n) = s.widthCode n 1 ∧
          if (s.port n).retraining = true then
            (t.port n).retry = (s.port n).retry ∧ (t.port n).txSeq = (s.port n).txSeq ∧
              (t.port n).resend = if 8 ≤ (s.port n).nakCount then some (s.port n).nakSeq else (s.port n).resend
          else (t.port n).retry = [] ∧ (t.port n).txSeq = 0 ∧ (t.port n).rxSeq = 0 ∧ (t.port n).credit = s.freshCredit n) ∧
    (∀ (lane : Fin 5) (log : Fin 16), CompletesWith (.laneErrorCheck n lane log false) s fun t =>
      OnlyRegs s t [Reg.aQPL_LANE_STATE n (lane + 5)] ∧ t.get (Reg.QPL_LANE_STATE_SER_LOG n (lane + 5)) = log ∧
        t.get (Reg.QPL_LANE_STATE_FAILED n (lane + 5)) = s.get (Reg.QPL_LANE_STATE_FAILED n (lane + 5))) ∧
    (∀ (dir : Fin 2) (lane : Fin 5), s.get (Reg.QPL_LANE_STATE_ROLE n (lane + 5 * dir)) ≤ 3 →
      let role := s.get (Reg.QPL_LANE_STATE_ROLE n (lane + 5 * dir))
      let spare := (List.range 5).find? fun l => s.get (Reg.QPL_LANE_STATE_ROLE n (l + 5 * dir)) == 4 &&
        !s.on (Reg.QPL_LANE_STATE_FAILED n (l + 5 * dir))
      (∀ (x : Nat) (c : Instr) (log : Fin 16), spare = some x → c = .laneLossOfLock n dir lane ∨ (c = .laneErrorCheck n lane log true ∧ (dir : Nat) = 1) →
        CompletesWith c s fun t =>
          t.get (Reg.QPL_LANE_STATE_FAILED n (lane + 5 * dir)) = 1 ∧ t.get (Reg.QPL_LANE_STATE_ROLE n (lane + 5 * dir)) = 5 ∧
            t.get (Reg.QPL_LANE_STATE_ROLE n (x + 5 * dir)) = role ∧ RegsBut s t [Reg.aQPL_LANE_STATE n (lane + 5 * dir), Reg.aQPL_LANE_STATE n (x + 5 * dir)]) ∧
      (spare = none → s.get (Reg.QPL_LANE_STATE_FAILED n (lane + 5 * dir)) = 0 →
        CompletesWith (.laneLossOfLock n dir lane) s fun t =>
          t.get (Reg.QPL_LANE_STATE_FAILED n (lane + 5 * dir)) = 1 ∧
            if 3 ≤ s.goodLanes n dir then
              t.get (Reg.QPL_PORT_STATUS_TRAINING n) = 1 ∧ (t.port n).retraining = true ∧
                (if (dir : Nat) = 0 then t.get (Reg.QPL_PORT_STATUS_TX_WIDTH n) = 1 else t.get (Reg.QPL_PORT_STATUS_RX_WIDTH n) = 1)
            else t.get (Reg.QPL_PORT_STATUS_LINK_UP n) = 0 ∧ t.get (Reg.QPL_PORT_STATUS_DOWN_SEEN n) = 1) ∧
      (s.get (Reg.QPL_STEER_BUSY n) = 1 ∨ s.spareFree n dir = false →
        CompletesWith (.qplSteer n lane dir) s fun t => OnlyRegs s t [Reg.aQPL_STEER n] ∧ t.get (Reg.QPL_STEER_FAIL n) = 1 ∧
          t.get (Reg.QPL_STEER_BUSY n) = s.get (Reg.QPL_STEER_BUSY n)) ∧
      (s.get (Reg.QPL_STEER_BUSY n) = 0 → s.spareFree n dir = true →
        CompletesWith (.qplSteer n lane dir) s fun t => t.get (Reg.QPL_STEER_BUSY n) = 1 ∧ (t.port n).steer = some ((dir : Nat), (lane : Nat)) ∧
          RegsBut s t [Reg.aQPL_STEER n]) ∧
      ∀ x : Nat, (s.port n).steer = some ((dir : Nat), (lane : Nat)) → spare = some x →
        CompletesWith (.steerDone n) s fun t =>
          t.get (Reg.QPL_STEER_BUSY n) = 0 ∧ t.get (Reg.QPL_STEER_DONE n) = 1 ∧ t.get (Reg.QPL_LANE_STATE_ROLE n (lane + 5 * dir)) = 5 ∧
            t.get (Reg.QPL_LANE_STATE_ROLE n (x + 5 * dir)) = role ∧ (t.port n).steer = none) ∧
    (if (s.port n).retraining = true ∧ (s.port n).retrainSince + ticksOfMs 10 ≤ s.stamp then
       CompletesWith (.retrainTimeout n) s fun t =>
         t.get (Reg.QPL_PORT_STATUS_LINK_UP n) = 0 ∧ t.get (Reg.QPL_PORT_STATUS_DOWN_SEEN n) = 1 ∧ (t.port n).retraining = false
     else CompletesWith (.retrainTimeout n) s fun t => OnlyRegs s t []) ∧
    (CompletesWith (.qplLinkDown n) s fun t =>
      t.get (Reg.QPL_PORT_STATUS_LINK_UP n) = 0 ∧ t.get (Reg.QPL_PORT_STATUS_DOWN_SEEN n) = 1 ∧ t.get (Reg.QPL_PORT_STATUS_TX_WIDTH n) = 0 ∧
        t.get (Reg.QPL_PORT_STATUS_RX_WIDTH n) = 0 ∧ (t.port n).tags = (s.port n).tags.filter (·.timedOut) ∧ (t.port n).txq = [] ∧
        (t.port n).retry = [] ∧ SameMem s t) ∧
    (∀ (bs : List Byte) (f : QFlit) (ack vc cls count : Nat), s.LinkPlain n → flitCrcOk bs = true →
      parseFlit bs = (f, (s.port n).rxSeq, ack, vc, cls, count) → f.kind = 1 ∨ f.kind = 2 →
      CompletesWith (.flitReceive n bs []) s fun t =>
        t.rxOf n f.vc f.cls = s.rxOf n f.vc f.cls ++ [f] ∧ (t.port n).rxSeq = ((s.port n).rxSeq + 1) % 65536 ∧ (t.port n).nakOwed = false ∧
          (t.port n).txq = (s.port n).txq ∧ RegsBut s t [] ∧ SameMem s t) ∧
    ∀ (v c : Nat) (f : QFlit) (rest : List QFlit), v < 4 → c < 2 → s.on (Reg.QPL_PORT_STATUS_LINK_UP n) = true →
      s.on (Reg.QPL_PORT_STATUS_TRAINING n) = false → (∀ p, (s.field p).ch.outbound = []) → (s.port n).nakOwed = false →
      (s.port n).steerOwed = false → (s.port n).resend = none → (s.port n).retry.length < 512 →
      (∀ u d, u < 4 → d < 2 → u ≠ v ∨ d ≠ c → s.txOf n u d = []) → s.txOf n v c = f :: rest →
      0 < Tab.get (fun _ => 0) (s.port n).credit (2 * v + c) →
      CompletesWith (.flitSend n) s fun t =>
        t.txOf n v c = rest ∧ (t.port n).retry = (s.port n).retry ++ [((s.port n).txSeq, f)] ∧ (t.port n).txSeq = ((s.port n).txSeq + 1) % 65536 ∧
          Tab.get (fun _ => 0) (t.port n).credit (2 * v + c) = Tab.get (fun _ => 0) (s.port n).credit (2 * v + c) - 1 ∧
          (t.port n).sent.length = (s.port n).sent.length + 1 ∧ RegsBut s t [] ∧ SameMem s t

/-- R345 to R350, R363, R366, R368: the receiver takes an in-order flit whose CRC is good and owes a NAK for any other; a NAK goes first, then what
is to be resent, then the flit of the most urgent virtual channel with credit, unless one has been overtaken seven times; a message for another part
leaves by its route; a request without response after TIMEOUT_US times out, and its tag is free again once released after a further TIMEOUT_US. -/
def Obligations.FlitsMoveInOrderWithCredit : Prop :=
  ∀ (s : State) (n : Fin 4),
    (∀ (bs : List Byte) (f : QFlit) (seq ack vc cls count : Nat), s.LinkPlain n → parseFlit bs = (f, seq, ack, vc, cls, count) →
      (flitCrcOk bs = false → CompletesWith (.flitReceive n bs []) s fun t =>
        (t.port n).nakOwed = true ∧ (t.port n).rx = (s.port n).rx ∧ (t.port n).rxSeq = (s.port n).rxSeq) ∧
      (flitCrcOk bs = true → f.kind = 1 ∨ f.kind = 2 →
        CompletesWith (.flitReceive n bs []) s fun t =>
          RegsBut s t [] ∧ SameMem s t ∧ (t.port n).retry = ackRetry ack (s.port n).retry ∧
            if seq = (s.port n).rxSeq then
              t.rxOf n f.vc f.cls = s.rxOf n f.vc f.cls ++ [f] ∧ (t.port n).rxSeq = (seq + 1) % 65536 ∧ (t.port n).nakOwed = false
            else (t.port n).rx = (s.port n).rx ∧ (t.port n).nakOwed = true)) ∧
    (s.on (Reg.QPL_PORT_STATUS_LINK_UP n) = true → s.on (Reg.QPL_PORT_STATUS_TRAINING n) = false → (∀ p, (s.field p).ch.outbound = []) →
      let x := s.port n
      let wire := fun (seq : Nat) (f : QFlit) => f.bytes seq ((x.rxSeq + 65535) % 65536) (x.creditReturn.1 / 2) (x.creditReturn.1 % 2) x.creditReturn.2
      (x.nakOwed = true → CompletesWith (.flitSend n) s fun t =>
        (∃ f : QFlit, (t.port n).sent = x.sent ++ [wire 0 f] ∧ f.kind = 3 ∧ f.body.take 4 = leBytes 2 1 ++ leBytes 2 x.rxSeq) ∧
          (t.port n).nakOwed = false ∧ (t.port n).txq = x.txq ∧ RegsBut s t []) ∧
      (∀ q f, x.nakOwed = false → x.steerOwed = false → x.resend = some q → (x.retry.find? fun r => r.1 == q) = some (q, f) →
        CompletesWith (.flitSend n) s fun t =>
          (t.port n).sent = x.sent ++ [wire q f] ∧ (t.port n).resend = some ((q + 1) % 65536) ∧ (t.port n).retry = x.retry ∧ (t.port n).txq = x.txq) ∧
      ((∀ v, Tab.get (fun _ => 0) x.waited v < 7) → s.vcChoice n = [3, 1, 2, 0].find? (s.vcReady n)) ∧
      (∀ v ∈ [3, 1, 2, 0], s.vcReady n v = true → 7 ≤ Tab.get (fun _ => 0) x.waited v →
        ∃ u, s.vcChoice n = some u ∧ 7 ≤ Tab.get (fun _ => 0) x.waited u) ∧
      ∀ v c f rest, x.nakOwed = false → x.steerOwed = false → x.resend = none → x.retry.length < 512 → s.vcChoice n = some v → x.vcClass v = some c →
        s.txOf n v c = f :: rest →
        CompletesWith (.flitSend n) s fun t =>
          (t.port n).sent = x.sent ++ [wire x.txSeq f] ∧ t.txOf n v c = rest ∧ (t.port n).txSeq = (x.txSeq + 1) % 65536 ∧
            (t.port n).retry = x.retry ++ [(x.txSeq, f)] ∧
            Tab.get (fun _ => 0) (t.port n).waited v = 0 ∧
            Tab.get (fun _ => 0) (t.port n).credit (2 * v + c) = Tab.get (fun _ => 0) x.credit (2 * v + c) - 1 ∧ RegsBut s t [] ∧ SameMem s t) ∧
    (∀ (vc : Fin 4) (m : QMsg) (cls k : Nat), s.rxHead n vc (fun m => m.dstDev != s.deviceId) = some (m, cls, k) →
      (s.on (Reg.QPL_ROUTE_VALID 0 m.dstDev) = true →
        let o := s.get (Reg.QPL_ROUTE_PORT 0 m.dstDev)
        let c := s.exitClass o (cls == 1 && portDim n == portDim o)
        s.portWayOpen n o = true →
        CompletesWith (.flitForward n vc) s fun t =>
          t.rxOf n vc cls = (s.rxOf n vc cls).drop k ∧ RegsBut s t [] ∧ SameMem s t ∧
            ∃ y : QMsg, y = { m with ce := m.ce || decide (s.get (Reg.QPL_CONG_CTRL_MARK_THRESH o) < (s.txOf o vc 0).length + (s.txOf o vc 1).length) } ∧
              t.txOf o m.vc c = s.txOf o m.vc c ++ y.flits m.vc c) ∧
      (s.on (Reg.QPL_ROUTE_VALID 0 m.dstDev) = false → m.vc = 0 →
        CompletesWith (.flitForward n vc) s fun t =>
          t.rxOf n vc cls = (s.rxOf n vc cls).drop k ∧ Responded s t n (m.response (respOp m.op % 256) 5 0 []))) ∧
    ∀ (tag : Fin 2048),
      let wire := 2048 * n.val + tag.val
      (∀ g : QTag, ((s.port n).tags.find? fun g => g.tag == wire && !g.timedOut) = some g → g.user.agent < 9 → s.qplTimedOut n g.issued = true →
        s.stopOf g.user.field (agentKey g.user.agent g.user.index g.user.ctx) = none →
        CompletesWith (.qplResponseTimeout n tag) s fun t =>
          (t.port n).tags = (s.port n).tags.map (fun y => if y.tag == wire then { y with timedOut := true, issued := s.stamp } else y) ∧
            ∃ x, t.stopOf g.user.field (agentKey g.user.agent g.user.index g.user.ctx) = some x ∧ x.code = Flt.QPL_TIMEOUT ∧ x.kind = .failed) ∧
      CompletesWith (.qplTagRelease n tag) s fun t =>
        (t.port n).tags = (s.port n).tags.filter (fun y => !(y.tag == wire && y.timedOut && s.qplTimedOut n y.issued)) ∧ RegsBut s t [] ∧ SameMem s t

/-- R266, R277, R313, R336, R353: the holding part answers a malformed request MALFORMED, one its exports refuse REFUSED and one not present
NOT_PRESENT, without an effect; it performs a permitted read, write, atomic or scatter-add in stack memory and answers with its data; it lands a record
of the channel's generation, applies an arrival of the hurdle's generation, and takes a credit of its endpoint. -/
def Obligations.HoldingPartsPerformRequests : Prop :=
  ∀ (s : State) (n : Fin 4) (m : QMsg) (cls k : Nat),
    (∀ x ∈ [(Instr.qplRead n, 0x01, Need.read), (.qplWrite n, 0x02, .write), (.qplAtomic n, 0x03, .atomic), (.qplScatterAdd n, 0x04, .scatterAdd)],
      s.Arrived n 0 x.2.1 m cls k → s.portWayOpen n (s.backPort n m.srcDev) = true →
      let o := bits m.rga 40 0
      ∀ st, (m.aligned = false ∧ st = 4) ∨ (m.aligned = true ∧ m.rga < 2 ^ 51 ∧
          ((s.exportCheck m.srcDev o x.2.2 = .refused ∧ st = 2) ∨ (s.exportCheck m.srcDev o x.2.2 = .notPresent ∧ st = 1))) →
        CompletesWith x.1 s fun t =>
          Responded s t n (m.response (0x80 + x.2.1) st 0 []) ∧ t.rxOf n 0 cls = (s.rxOf n 0 cls).drop k ∧ RegsBut s t [] ∧ SameMem s t) ∧
    (let o := bits m.rga 40 0
     let Allowed := fun (need : Need) (len : Nat) => s.portWayOpen n (s.backPort n m.srcDev) = true ∧
       m.aligned = true ∧ m.rga < 2 ^ 51 ∧ s.exportCheck m.srcDev o need = .ok ∧ o < stackBytes ∧
       o + len ≤ stackBytes ∧ s.portWayOpen n (quadOfStack (o / stackSize)) = true ∧ s.stackWait? o len = none ∧ s.badWord? o len = none
     let Taken := fun t : State => t.rxOf n 0 cls = (s.rxOf n 0 cls).drop k ∧ RegsBut s t []
     (s.Arrived n 0 0x01 m cls k → Allowed .read (m.arg0 % 8192) →
       CompletesWith (.qplRead n) s fun t => Taken t ∧ Responded s t n (m.response 0x81 0 0 (s.mread o (m.arg0 % 8192))) ∧ SameMem s t) ∧
     (s.Arrived n 0 0x02 m cls k → Allowed .write m.data.length →
       CompletesWith (.qplWrite n) s fun t =>
         Taken t ∧ Responded s t n (m.response 0x82 0 0 []) ∧ t.mread o m.data.length = m.data ∧ MemBut s t o m.data.length) ∧
     (s.Arrived n 0 0x03 m cls k → Allowed .atomic 8 →
       CompletesWith (.qplAtomic n) s fun t =>
         Taken t ∧ Responded s t n (m.response 0x83 0 (leNat (s.mread o 8)) []) ∧
           t.mread o 8 = leBytes 8 (atomicNew (m.arg0 % 16) (leNat (s.mread o 8)) m.arg1 (leNat m.data)) ∧ MemBut s t o 8) ∧
     (s.Arrived n 0 0x04 m cls k → Allowed .scatterAdd 128 →
       CompletesWith (.qplScatterAdd n) s fun t =>
         Taken t ∧ Responded s t n (m.response 0x84 0 0 []) ∧
           t.mread o 128 = saToken (m.arg1 % 32) m.arg0 (s.mread o 128) m.data ∧ MemBut s t o 128)) ∧
    (∀ (q : Nat) (r : RxChan), s.Arrived n 0 0x05 m cls k → s.portWayOpen n (s.backPort n m.srcDev) = true → m.aligned = true → s.physOf m.dstLf = some q → q < 72 →
      let c := m.arg0 % 32
      s.rxChan q c = some r →
      (s.get (Reg.FLD_CH_RX_STATE_GEN q c) ≠ m.arg0 / 32 % 2048 →
        CompletesWith (.msg n) s fun t =>
          Responded s t n (m.response 0x85 0 0 []) ∧ t.get (Reg.FLD_CH_RX_STATE_STALE q c) = 1 ∧ t.rxChan q c = some r ∧
            Tab.get (fun _ => 0) (t.field q).ch.stale c = Tab.get (fun _ => 0) (s.field q).ch.stale c + 1 ∧ SameMem s t) ∧
      (s.get (Reg.FLD_CH_RX_STATE_GEN q c) = m.arg0 / 32 % 2048 → r.remote = true → s.routeUp (.chan q c false) = true →
        2 ≤ m.data.length → msgRecord m = m.data.take 1 ++ [1] ++ m.data.drop 2 →
        isPadOf (s.ringSize q c - s.get (Reg.FLD_CH_WPTR_WPTR q c)) (msgRecord m) = false →
        let w := s.get (Reg.FLD_CH_WPTR_WPTR q c)
        let o := r.ringOff + w
        m.data.length ≤ s.ringSize q c - w → m.data.length ≤ s.ringSize q c - 32 - s.ringUsed q c →
        s.windowOk q (s.get (Reg.FLD_CH_RX_STATE_CTX q c)) o m.data.length = true → s.sleepingBank? q o m.data.length = none →
        s.badPartial? (fmLoc q o) m.data.length = none →
        CompletesWith (.msg n) s fun t =>
          Responded s t n (m.response 0x85 0 0 []) ∧ t.mread (fmLoc q o) m.data.length = m.data.take 1 ++ [1] ++ m.data.drop 2 ∧
            MemBut s t (fmLoc q o) m.data.length ∧ t.get (Reg.FLD_CH_WPTR_WPTR q c) = (w + m.data.length) % s.ringSize q c % 2 ^ 20)) ∧
    (∀ q : Nat, s.Arrived n 0 0x06 m cls k → s.portWayOpen n (s.backPort n m.srcDev) = true → m.aligned = true → s.physOf m.dstLf = some q → q < 72 →
      s.portWayOpen n (quadOfField q) = true →
      let h := m.arg0 / 65536 % 256
      let a := m.arg1 % 65536
      let c := s.get (Reg.FLD_HRD_STATE_COUNT q h)
      (s.on (Reg.FLD_HRD_STATE_EN q h) = true → s.get (Reg.FLD_HRD_CFG_GEN q h) = m.arg0 % 65536 → c + a ≤ s.get (Reg.FLD_HRD_CFG_EXPECTED q h) →
        CompletesWith (.hurdleArrive n) s fun t =>
          Responded s t n (m.response 0x86 0 0 []) ∧ t.get (Reg.FLD_HRD_STATE_COUNT q h) = c + a ∧ RegsBut s t [Reg.aFLD_HRD_STATE q h] ∧ SameMem s t) ∧
      (s.get (Reg.FLD_HRD_CFG_GEN q h) ≠ m.arg0 % 65536 →
        CompletesWith (.hurdleArrive n) s fun t =>
          Responded s t n (m.response 0x86 6 0 []) ∧ t.get (Reg.FLD_HRD_STATE_COUNT q h) = c ∧ SameMem s t)) ∧
    ∀ (q : Nat) (x : TxChan), s.Arrived n 1 0x88 m cls k → s.physOf m.dstLf = some q → q < 72 → s.portWayOpen n (quadOfField q) = true →
      let i := m.arg0 / 65536 % 32
      s.txChan q i = some x → x.gen = m.arg0 / 32 % 2048 → x.rxIdx = m.arg0 % 32 →
      CompletesWith (.chCredit n) s fun t =>
        t.get (Reg.FLD_CH_TX_STATE_CREDIT q i) = (s.txCredit q i + m.arg1 % 2 ^ 32) / 32 % 2 ^ 20 ∧ RegsBut s t [Reg.aFLD_CH_TX_STATE q i] ∧
          t.rxOf n 1 cls = (s.rxOf n 1 cls).drop k ∧ SameMem s t

/-- R350, R352, R356 to R360, R366 to R368: a response reaches the agent that holds its tag and frees the tag, and opens its destination's window,
or halves it where congestion is echoed; a late one sets LATE alone; PING is answered with its arguments; a reduction node holds a first operand and
sends the combination with a second onward; a message for another part leaves by its route; a request that has waited TIMEOUT_US fails at its agent, and
its tag is free after as long again. -/
def Obligations.ResponsesAndReductionsReachTheirEnds : Prop :=
  ∀ (s : State) (n : Fin 4) (m : QMsg) (cls k : Nat),
    (∀ x ∈ [(Instr.rdData n, 1, 0x81), (.wrAck n, 1, 0x82), (.atData n, 1, 0x83), (.saAck n, 1, 0x84), (.msgAck n, 1, 0x85), (.haAck n, 1, 0x86),
        (.pong n, 3, 0xC0)],
      ∀ (q : Fin 4) (g : QTag), s.Arrived n x.2.1 x.2.2 m cls k → m.tag / 2048 = q.val → ((s.port q).tags.find? fun g => g.tag == m.tag) = some g →
        g.timedOut = true →
        CompletesWith x.1 s fun t =>
          t.get (Reg.QPL_TIMEOUT_LATE q) = 1 ∧ (t.port q).tags = (s.port q).tags ∧ RegsBut s t [Reg.aQPL_TIMEOUT q] ∧ SameMem s t) ∧
    (∀ (q : Fin 4) (g : QTag), m.tag / 2048 = q.val → ((s.port q).tags.find? fun g => g.tag == m.tag) = some g → g.timedOut = false → m.status = 0 → g.user.agent < 9 →
      let Delivered := fun (vc : Nat) (t : State) =>
        (t.field g.user.field).resps = (s.field g.user.field).resps ++
            [{ ctx := g.user.ctx, agent := g.user.agent, index := g.user.index, va := g.user.va, status := 0, value := m.arg1, data := m.data }] ∧
          (t.port q).tags = (s.port q).tags.filter (fun y => y.tag != m.tag) ∧ t.rxOf n vc cls = (s.rxOf n vc cls).drop k ∧ RegsBut s t [] ∧
          SameMem s t ∧
          let w := s.qplWindow q g.req.dstDev
          (m.ceEcho = false → (t.qplWindow q g.req.dstDev).size = min (2 ^ s.get (Reg.QPL_CONG_CTRL_WIN_MAX_LOG2 q)) (w.size + 4096)) ∧
            (m.ceEcho = true → w.halvedAt + 2 ≤ s.stamp →
              (t.qplWindow q g.req.dstDev).size = max (2 ^ s.get (Reg.QPL_CONG_CTRL_WIN_MIN_LOG2 q)) (w.size / 2))
      (s.Arrived n 1 0x81 m cls k → CompletesWith (.rdData n) s (Delivered 1)) ∧ (s.Arrived n 1 0x82 m cls k → CompletesWith (.wrAck n) s (Delivered 1)) ∧
      (s.Arrived n 1 0x83 m cls k → CompletesWith (.atData n) s (Delivered 1)) ∧ (s.Arrived n 1 0x84 m cls k → CompletesWith (.saAck n) s (Delivered 1)) ∧
      (s.Arrived n 1 0x85 m cls k → CompletesWith (.msgAck n) s (Delivered 1)) ∧ (s.Arrived n 1 0x86 m cls k → CompletesWith (.haAck n) s (Delivered 1)) ∧
      (s.Arrived n 3 0xC0 m cls k → CompletesWith (.pong n) s (Delivered 3))) ∧
    (s.Arrived n 3 0x40 m cls k → s.portWayOpen n (s.backPort n m.srcDev) = true → m.aligned = true →
      CompletesWith (.ping n) s fun t =>
        Responded s t n { m.response 0xC0 0 m.arg1 [] with arg0 := m.arg0 } ∧ t.rxOf n 3 cls = (s.rxOf n 3 cls).drop k ∧ RegsBut s t [] ∧ SameMem s t) ∧
    (∀ vc : Fin 4, s.rxHead n vc (fun m => m.dstDev != s.deviceId) = some (m, cls, k) → s.on (Reg.QPL_ROUTE_VALID 0 m.dstDev) = true →
      let o := s.get (Reg.QPL_ROUTE_PORT 0 m.dstDev)
      let c := s.exitClass o (cls == 1 && portDim n == portDim o)
      s.portWayOpen n o = true → (s.txOf o vc 0).length + (s.txOf o vc 1).length ≤ s.get (Reg.QPL_CONG_CTRL_MARK_THRESH o) →
      CompletesWith (.flitForward n vc) s fun t =>
        t.rxOf n vc cls = (s.rxOf n vc cls).drop k ∧ t.txOf o m.vc c = s.txOf o m.vc c ++ m.flits m.vc c ∧ RegsBut s t [] ∧ SameMem s t) ∧
    (∀ (tag : Fin 2048) (g : QTag),
      let wire := 2048 * n.val + tag.val
      ((s.port n).tags.find? fun g => g.tag == wire) = some g →
      (g.timedOut = false → s.qplTimedOut n g.issued = true → g.user.agent < 9 →
        s.stopOf g.user.field (agentKey g.user.agent g.user.index g.user.ctx) = none →
        CompletesWith (.qplResponseTimeout n tag) s fun t =>
          (∃ y, t.stopOf g.user.field (agentKey g.user.agent g.user.index g.user.ctx) = some y ∧ y.code = Flt.QPL_TIMEOUT ∧ y.kind = .failed) ∧
            (∃ y ∈ (t.port n).tags, y.tag = wire ∧ y.timedOut = true) ∧ SameMem s t) ∧
      (g.timedOut = true → s.qplTimedOut n g.issued = true → (∀ y ∈ (s.port n).tags, y.tag = wire → y = g) →
        CompletesWith (.qplTagRelease n tag) s fun t =>
          (∀ y ∈ (t.port n).tags, y.tag ≠ wire) ∧ OnlyRegs { s with ports := t.ports } t [] ∧ ∀ k, k ≠ n → t.port k = s.port k)) ∧
    ∀ i : Nat, (s.port n).nodeIn = [] → s.Arrived n 2 0x07 m cls k →
      let tree := m.arg0 % 65536
      let node := m.arg0 / 2 ^ 16 % 64
      let side := m.arg0 / 2 ^ 22 % 2
      let off := m.arg1 % 2 ^ 32
      let count := m.arg1 / 2 ^ 32 % 65536
      let fmt := m.arg0 / 2 ^ 27 % 32
      let same := fun o : QOperand => o.tree == tree && o.node == node && o.off == off
      ((List.range 64).find? fun j => s.on (Reg.QPL_RNODE_CFG_EN n j) && s.get (Reg.QPL_RNODE_KEY_TREE n j) == tree &&
        s.get (Reg.QPL_RNODE_KEY_NODE n j) == node) = some i →
      s.get (Reg.QPL_RNODE_CFG_GEN n i) = m.arg0 / 2 ^ 23 % 16 → s.get (Reg.QPL_RNODE_CFG_FMT n i) = fmt → s.on (Reg.QPL_RNODE_CFG_PASS n i) = false →
      redFits fmt count m.len = true →
      ((s.port n).operands.find? same = none → s.redHeld n false + redLen fmt count ≤ 2 ^ 18 →
        CompletesWith (.reduce n) s fun t =>
          (t.port n).operands = (s.port n).operands ++
              [{ tree := tree, node := node, side := side, fmt := fmt, off := off, count := count, data := m.data, spilled := none }] ∧
            (t.port n).txq = (s.port n).txq ∧ RegsBut s t [] ∧ SameMem s t) ∧
      ∀ (o : QOperand) (dev : Nat), (s.port n).operands.find? same = some o → o.side ≠ side → o.count = count → o.spilled = none →
        s.get (Reg.QPL_RNODE_DEST_DEVICE n i) = dev → dev ≠ s.deviceId → s.on (Reg.QPL_ROUTE_VALID 0 dev) = true →
        s.portWayOpen n (s.get (Reg.QPL_ROUTE_PORT 0 dev)) = true →
        CompletesWith (.reduce n) s fun t =>
          (t.port n).operands = dropFirst same (s.port n).operands ∧ SameMem s t ∧
            ∃ r : QMsg, t.txOf (s.get (Reg.QPL_ROUTE_PORT 0 dev)) 2 0 = s.txOf (s.get (Reg.QPL_ROUTE_PORT 0 dev)) 2 0 ++ r.flits 2 0 ∧
              r.op = 0x07 ∧ r.dstDev = dev ∧ r.arg1 = off + 2 ^ 32 * count ∧ r.data = redCombine fmt count o.data m.data


/-! Contexts: Table 17-1, loading, and what a Field charges (chapters 14 and 17). -/

/-- R339, R403, R404, R408 to R410: descheduling stops a running context from issuing, and once its agents have stopped it is SUSPENDED unless it is
resumed at once; a context that may be loaded becomes IDLE and resident on its Fields; clearing VALID discards what the slot has queued; a busy step
charges each active partition once, a unit at 64; a bucket gains RATE bytes up to its depth. -/
def Obligations.ContextsLoadAndLeaveAndAreCharged : Prop :=
  ∀ s : State,
    (∀ c : Fin 64,
      (s.ctxState c = ctxRunning → s.ctxActive c = true → s.regionBusy c = true →
        CompletesWith (.contextDeschedule c) s fun t => t.ctxActive c = true ∧ (t.ctx c).stopDue = true ∧ t.regs = (s.alerts).regs ∧ SameMem s t) ∧
      (s.ctxState c = ctxRunning → s.ctxActive c = true → s.regionBusy c = false →
        CompletesWith (.contextDeschedule c) s fun t =>
          t.ctxActive c = false ∧ t.ctxState c = ctxRunning ∧ (t.serve c).ran = s.heatTime c ∧ SameMem s t ∧
            ∀ x ∈ s.slotsOf c, t.get (Reg.FLD_CTX_MAP_SCHED x.1 x.2) = 0) ∧
      (s.ctxState c ≠ ctxRunning ∨ s.ctxActive c = false → CompletesWith (.contextDeschedule c) s fun t => OnlyRegs s t []) ∧
      (s.ctxState c = ctxRunning → s.ctxActive c = false → s.regionBusy c = false → (∀ x ∈ s.slotsOf c, s.agentsStopped x.1 c = true) →
        CompletesWith (.contextDescheduled c) s fun t =>
          SameMem s t ∧ (t.ctxState c = ctxSuspended ∨ (t.ctxState c = ctxRunning ∧ t.ctxActive c = true)) ∧
            ((s.ctx c).waitSusp = true ∨ (s.serve c).held ≠ [] → t.ctxState c = ctxSuspended)) ∧
      (s.regionBusy c = true → CompletesWith (.contextDescheduled c) s fun t => OnlyRegs s t []) ∧
      (∀ d : CtxLoad, s.loadIn s.gridSlot c = some d →
        if s.mayLoad c d = true ∧ s.mayServe = true then
          CompletesWith (.contextLoad c) s fun t =>
            t.ctxState c = ctxIdle ∧ t.partOf c = d.decl.part ∧ t.rd (Reg.aXLT_CTX_ROOT c) = definedBits (Reg.aXLT_CTX_ROOT c) d.root ∧ (t.serve c).load = some d ∧
              t.ctxActive c = true ∧ ∀ f ∈ d.decl.fields, ∀ p, s.physOf f.1 = some p → t.ctxOf p f.2 = some (c : Nat)
        else CompletesWith (.contextLoad c) s fun t => OnlyRegs s t [])) ∧
    ∀ p : Fin 72,
      (∀ (k : Fin 4) (v : Word),
        (CompletesWith (.ctxMapWrite p k v) s fun t =>
          t.get (Reg.FLD_CTX_MAP_CTX_ID p k) = bits v.toNat 5 0 ∧ t.get (Reg.FLD_CTX_MAP_PART p k) = bits v.toNat 9 6 ∧
            t.get (Reg.FLD_CTX_MAP_VALID p k) = bits v.toNat 10 10 ∧ t.get (Reg.FLD_CTX_MAP_SCHED p k) = s.get (Reg.FLD_CTX_MAP_SCHED p k) ∧
            t.get (Reg.FLD_CTX_MAP_IN_HEAT p k) = s.get (Reg.FLD_CTX_MAP_IN_HEAT p k) ∧ SameMem s t ∧
            (bit v.toNat 10 = true → OnlyField s t p [Reg.aFLD_CTX_MAP p k]) ∧
            ((s.get (Reg.FLD_CTX_MAP_VALID p k) = 1 ∧ bit v.toNat 10 = true ∧ s.get (Reg.FLD_CTX_MAP_CTX_ID p k) = bits v.toNat 5 0) →
              OnlyRegs s t [Reg.aFLD_CTX_MAP p k])) ∧
        (s.get (Reg.FLD_CTX_MAP_VALID p k) = 1 → bit v.toNat 10 = false →
          CompletesWith (.ctxMapWrite p k v) s fun t =>
            (t.field p).ma0.queue = (s.field p).ma0.queue.filter (·.slot != k.val) ∧ (t.field p).ma1.queue = (s.field p).ma1.queue.filter (·.slot != k.val) ∧
              (t.field p).ve.queue = (s.field p).ve.queue.filter (·.slot != k.val) ∧ (t.field p).re.queue = (s.field p).re.queue.filter (·.slot != k.val) ∧
              (t.field p).grid.walkQ = (s.field p).grid.walkQ.filter (·.slot != k.val) ∧
              (t.field p).grid.reconfQ = (s.field p).grid.reconfQ.filter (·.1.slot != k.val) ∧
              ∀ e, (t.dma p e).queue = (s.dma p e).queue.filter (·.slot != k.val))) ∧
      (∀ (active : Fin 16) (part : Fin 16),
        let runs := ∃ k, k < 4 ∧ bit active k = true ∧ (s.ctxOf p k).isSome = true ∧ s.get (Reg.FLD_CTX_MAP_PART p k) = part
        let n := Tab.get (fun _ => 0) s.srv.rem (16 * p + part) + 1
        (runs → CompletesWith (.busyCharge p active) s fun t =>
          SameMem s t ∧ if n < 64 then
            Tab.get (fun _ => 0) t.srv.rem (16 * p + part) = n ∧ t.pair (Reg.aSCH_BUSY_LO part) = s.pair (Reg.aSCH_BUSY_LO part)
          else
            Tab.get (fun _ => 0) t.srv.rem (16 * p + part) = 0 ∧
              t.pair (Reg.aSCH_BUSY_LO part) = (s.pair (Reg.aSCH_BUSY_LO part) + 1) % 2 ^ 64 ∧
              Tab.get (fun _ => 0) t.srv.charge (16 * quadOfField p + part) = Tab.get (fun _ => 0) s.srv.charge (16 * quadOfField p + part) + 1) ∧
        (¬ runs → CompletesWith (.busyCharge p active) s fun t =>
          Tab.get (fun _ => 0) t.srv.rem (16 * p + part) = n - 1 ∧ t.pair (Reg.aSCH_BUSY_LO part) = s.pair (Reg.aSCH_BUSY_LO part))) ∧
      ∀ b : Fin 8, CompletesWith (.bucketRefill p b) s fun t =>
        OnlyField s t p [] ∧
          t.bucket p b = min (s.get (Reg.FLD_BW_CFG_DEPTH p b) * 4096) (s.bucket p b + s.get (Reg.FLD_BW_CFG_RATE p b))

/-! Chapter 16: the Ethernet port. -/

/-- R371, R372, R374, R381: the port trains at 800 Gbit/s on all lanes, at 400 Gbit/s on a group of four without a failed lane, or not at all; a
failed lane in use brings the port to the other group or down; a frame that fails a check is counted and discarded; a good one enters the receive
buffer while its priority has room, but a seventeenth READ of a queue pair, which is a NAK (the answer is the model's, log entry 87); the records of a TELEMETRY datagram count as exported
once it is sent; the first frame whose priority is not paused leaves, with its packet number where MACsec is on. -/
def Obligations.TheEthernetPortTrainsAndCarriesFrames : Prop :=
  ∀ s : State,
    (∀ (failed : Fin 256) (only400 : Bool), s.ethReady = true →
      let rate := if (failed : Nat) = 0 ∧ only400 = false then 3 else if (failed : Nat) % 16 = 0 then 1 else if (failed : Nat) / 16 = 0 then 2 else 0
      let trained := fun t : State =>
        t.get Reg.ETH_PORT_STATUS_LANE_FAILED = failed ∧ t.get Reg.ETH_PORT_STATUS_RATE = rate ∧
          t.get Reg.ETH_PORT_STATUS_LINK_UP = (if rate = 0 then 0 else 1) ∧ SameMem s t
      (s.ethUp = false → CompletesWith (.ethLinkUp failed only400) s trained) ∧
      (only400 = false → rate ≠ 0 → CompletesWith (.retry800 failed) s trained)) ∧
    (∀ l : Fin 8, s.ethUp = true →
      let failed := s.get Reg.ETH_PORT_STATUS_LANE_FAILED ||| 2 ^ l.val
      let r := s.get Reg.ETH_PORT_STATUS_RATE
      let rate := if failed % 16 = 0 then 1 else if failed / 16 = 0 then 2 else 0
      CompletesWith (.ethFallback l) s fun t =>
        t.get Reg.ETH_PORT_STATUS_LANE_FAILED = failed ∧ SameMem s t ∧
          if r = 3 ∨ (r = 1 ∧ (l : Nat) < 4) ∨ (r = 2 ∧ 4 ≤ (l : Nat)) then
            t.get Reg.ETH_PORT_STATUS_RATE = rate ∧ t.get Reg.ETH_PORT_STATUS_LINK_UP = (if rate = 0 then 0 else 1) ∧
              (rate = 0 → t.get Reg.ETH_PORT_STATUS_DOWN_SEEN = 1)
          else OnlyRegs s t [Reg.aETH_PORT_STATUS] ∧ t.get Reg.ETH_PORT_STATUS_RATE = r ∧ t.get Reg.ETH_PORT_STATUS_LINK_UP = 1) ∧
    (s.ethUp = true → CompletesWith .ethLinkDown s fun t =>
      t.get Reg.ETH_PORT_STATUS_LINK_UP = 0 ∧ t.get Reg.ETH_PORT_STATUS_RATE = 0 ∧ t.get Reg.ETH_PORT_STATUS_DOWN_SEEN = 1 ∧ SameMem s t) ∧
    (∀ f : EthFrame, s.ethUp = true →
      let bad := f.len < 64 ∨ 9216 < f.len ∨ f.fcsOk = false ∨ (f.dst ≠ s.nv.record.mac ∧ bit f.dst 40 = false) ∨
        (s.get Reg.ETH_PORT_CTRL_MACSEC_EN = 1 ∧ f.sec = none) ∨ 1 < f.tags.length ∨ s.vlanOk f = false
      (bad → s.overflowAt Reg.aETH_RX_DROP_LO = false → s.count48At Reg.aETH_RX_DROP_LO + 2 < 2 ^ 48 →
        CompletesWith (.frameReceive f) s fun t =>
          OnlyRegs s t [Reg.aETH_RX_DROP_LO, Reg.aETH_RX_DROP_HI] ∧ t.count48At Reg.aETH_RX_DROP_LO = s.count48At Reg.aETH_RX_DROP_LO + 1) ∧
      (¬ bad → s.get Reg.ETH_PORT_CTRL_MACSEC_EN = 0 → s.bodyOk f = true → s.readsFull f = false →
        CompletesWith (.frameReceive f) s fun t =>
          SameMem s t ∧ t.eth.rxq = (if Config.rxShare (framePcp f) < s.rxHeld (framePcp f) + f.len then s.eth.rxq else s.eth.rxq ++ [f])) ∧
      (¬ bad → s.get Reg.ETH_PORT_CTRL_MACSEC_EN = 0 → s.bodyOk f = false → CompletesWith (.frameReceive f) s fun t => OnlyRegs s t []) ∧
      ∀ (k : RocePkt) (q : QueuePair), ¬ bad → s.get Reg.ETH_PORT_CTRL_MACSEC_EN = 0 → s.bodyOk f = true → f.body = .roce k → k.op = .read →
        s.qp k.qp = some q → 16 ≤ s.readsOut k.qp →
        CompletesWith (.frameReceive f) s fun t =>
          t.eth.rxq = s.eth.rxq ∧ t.eth.txq = s.eth.txq ++ [s.roceFrame q k.psn .nakInvalid] ∧ RegsBut s t [] ∧ SameMem s t) ∧
    (s.ethUp = true →
      (s.eth.txq.all s.txHeld = true → CompletesWith .frameSend s fun t => OnlyRegs s t []) ∧
      ∀ (pre post : List TxFrame) (x : TxFrame), s.eth.txq = pre ++ x :: post → pre.all s.txHeld = true → s.txHeld x = false →
        (s.get Reg.ETH_PORT_CTRL_MACSEC_EN = 0 ∨ (∃ a b, x.body = .pause a b) →
          CompletesWith .frameSend s fun t =>
            t.eth.sent = s.eth.sent ++ [x] ∧ t.eth.txq = pre ++ post ∧ t.eth.sas = s.eth.sas ∧ RegsBut s t [] ∧ SameMem s t ∧
              ∀ p d o, x.body = .udp p d → s.tel.out.find? (fun y => y.1 == d) = some o →
                t.tel.buffer = s.tel.buffer.map fun r => if o.2.contains r.seq then { r with exported := true } else r) ∧
        ∀ a : MacSa, s.get Reg.ETH_PORT_CTRL_MACSEC_EN = 1 → (∀ b c, x.body ≠ .pause b c) → s.txSa = some a → a.pn < 0xC0000000 →
          CompletesWith .frameSend s fun t =>
            t.eth.sent = s.eth.sent ++ [{ x with sec := some (a.an, a.pn) }] ∧ t.eth.txq = pre ++ post ∧
              t.eth.sas = s.eth.sas.map (fun b => if b = a then { b with pn := b.pn + 1 } else b) ∧ RegsBut s t [] ∧ SameMem s t) ∧
    ∀ (pause resume : Fin 256) (sec : Option SecTag), s.ethUp = true →
      (s.get Reg.ETH_PORT_CTRL_MACSEC_EN = 0 → CompletesWith (.pfcFrame pause resume sec) s fun t =>
        RegsBut s t [] ∧ SameMem s t ∧ ∀ k, k < 8 → bit t.eth.pausedTx k = (bit pause k || (bit s.eth.pausedTx k && !bit resume k))) ∧
      (s.get Reg.ETH_PORT_CTRL_MACSEC_EN = 1 → sec = none → CompletesWith (.pfcFrame pause resume sec) s fun t =>
        OnlyRegs s t [Reg.aETH_RX_DROP_LO, Reg.aETH_RX_DROP_HI])

/-- R373, R375 to R379: ARP, neighbour and echo requests for the part's addresses are answered in order of arrival; a congestion notification halves
a queue pair's rate by alpha, and a period without one moves it half-way to its target; a RoCEv2 WRITE through a window of this part's stacks stores
its data before it is acknowledged, a READ returns the bytes, a SEND lands one record, and an access the window does not grant is a NAK without effect. -/
def Obligations.TheNetworkPortAnswers : Prop :=
  ∀ s : State,
    (∀ f : EthFrame,
      let answered := fun (p : EthFrame → Bool) (b : Option TxBody) (t : State) =>
        RegsBut s t [] ∧ SameMem s t ∧ t.eth.rxq = dropFirst p s.eth.rxq ∧
          match b with
          | some x => Answered s t p { dst := framePeer f 0, pcp := framePcp f, ect := false, body := x, sec := none }
          | none => t.eth.sent = s.eth.sent
      let isArp := fun g : EthFrame => match g.body with | .arp _ => true | _ => false
      let isNeighbour := fun g : EthFrame => match g.body with | .neighbour _ => true | _ => false
      let isEcho := fun g : EthFrame => match g.body with | .echo _ => true | _ => false
      (∀ a, s.eth.rxq.find? isArp = some f → f.body = .arp a →
        CompletesWith .arpRequest s (answered isArp (if a = s.nv.record.ipv4 then some (.arpReply a) else none))) ∧
      (∀ a, s.eth.rxq.find? isNeighbour = some f → f.body = .neighbour a →
        CompletesWith .neighbourSolicitation s
          (answered isNeighbour (if a = s.nv.record.ipv6 ∨ a = s.nv.record.linkLocal then some (.neighbourAdv a) else none))) ∧
      ∀ d, s.eth.rxq.find? isEcho = some f → f.body = .echo d →
        CompletesWith .echoRequest s (answered isEcho (some (.echoReply d)))) ∧
    (∀ (f : EthFrame) (k : RocePkt) (q : QueuePair),
      s.eth.rxq.find? (fun f => match f.body with | .roce k => decide (k.op = .cnp) | _ => false) = some f → f.body = .roce k → s.qp k.qp = some q →
      CompletesWith .cnpReceive s fun t =>
        t.qp k.qp = some { q with target := q.rate, rate := q.rate * (1 - q.alpha / 2), alpha := q.alpha * (255 / 256) + 1 / 256, periods := 0 } ∧
          RegsBut s t [] ∧ SameMem s t) ∧
    (∀ (n : Fin 16777216) (q : QueuePair), s.qp n = some q →
      CompletesWith (.dcqcnRateRecovery n) s fun t =>
        RegsBut s t [] ∧ SameMem s t ∧
          ∃ r, t.qp n = some r ∧ r.alpha = q.alpha * (255 / 256) ∧ r.rate = (q.rate + r.target) / 2 ∧ r.periods = q.periods + 1 ∧
            (q.periods + 1 ≤ Config.dcqcnFast → r.target = q.target)) ∧
    (∀ (k : RocePkt) (q : QueuePair),
      let naked := fun t : State => Answered s t roceHead (s.roceFrame q k.psn .nakAccess) ∧ SameMem s t ∧ t.qp k.qp = some q
      (s.RoceIn .write k q → s.winOf k.rkey k.va k.len true = none → CompletesWith .rdmaWrite s naked) ∧
      (s.RoceIn .read k q → s.winOf k.rkey k.va k.len false = none → CompletesWith .rdmaRead s naked) ∧
      ∀ n, s.get (Reg.ETH_ROCE_WIN_DEV_DEVICE n) = s.deviceId → 0 < k.len →
        let o := s.get (Reg.ETH_ROCE_WIN_BASE_OFFSET n) * 65536 + k.va
        o + k.len ≤ stackBytes → s.bucketField (s.get (Reg.ETH_ROCE_WIN_CFG_PARTITION n)) = none →
        (∀ j, j < 32 → s.stackReady j = true ∧ s.portWayOpen (nodeOfPort 4).quad (quadOfStack j) = true) → s.rowBusy o k.len = false →
        (s.RoceIn .write k q → s.winOf k.rkey k.va k.len true = some n → k.data.length = k.len → s.writesEnabled = true →
          s.badPartial? o k.len = none →
          CompletesWith .rdmaWrite s fun t =>
            Answered s t roceHead (s.roceFrame q k.psn .ack) ∧ t.mread o k.len = k.data ∧ MemBut s t o k.len ∧ RegsBut s t [] ∧
              t.qp k.qp = some { q with recvPsn := (k.psn + rocePackets q.mtu k.len) % 2 ^ 24 }) ∧
        (s.RoceIn .read k q → s.winOf k.rkey k.va k.len false = some n → s.badWord? o k.len = none →
          CompletesWith .rdmaRead s fun t =>
            Answered s t roceHead (s.roceFrame q k.psn (.readResp (s.mread o k.len))) ∧ SameMem s t ∧ RegsBut s t [] ∧
              t.qp k.qp = some { q with recvPsn := (k.psn + rocePackets q.mtu k.len) % 2 ^ 24 })) ∧
    ∀ (k : RocePkt) (q : QueuePair) (p : Nat) (r : RxChan), s.RoceIn .send k q → s.physOf q.lfield = some p → p < 72 → s.rxChan p q.rx = some r →
      q.rx < 32 → s.get (Reg.FLD_CH_RX_STATE_OPEN p q.rx) = 1 → s.get (Reg.FLD_CH_RX_STATE_GEN p q.rx) = q.gen → r.silt = [] →
      s.bucketField q.part = none →
      let span := recSpan k.data.length
      let w := s.get (Reg.FLD_CH_WPTR_WPTR p q.rx)
      let o := r.ringOff + w
      span ≤ s.ringSize p q.rx - 32 → span ≤ 65536 → span ≤ s.ringSize p q.rx - w →
      (r.limit - s.ringUsed p q.rx < span →
        CompletesWith .rdmaSend s fun t => Answered s t roceHead (s.roceFrame q k.psn .rnrNak) ∧ SameMem s t ∧ t.qp k.qp = some q) ∧
      (span ≤ r.limit - s.ringUsed p q.rx → span ≤ s.ringSize p q.rx - 32 - s.ringUsed p q.rx →
        s.windowOk p (s.get (Reg.FLD_CH_RX_STATE_CTX p q.rx)) o span = true → s.sleepingBank? p o span = none →
        s.badPartial? (fmLoc p o) span = none →
        let bs := recBytes 1 q.seq16 k.data.length (q.rx + 32 * q.gen) (64 * s.deviceId) (match k.imm with | some x => x.toNat | none => 0) false k.data
        CompletesWith .rdmaSend s fun t =>
          Answered s t roceHead (s.roceFrame q k.psn .ack) ∧ t.mread (fmLoc p o) span = bs ∧
            MemBut s t (fmLoc p o) span ∧ t.get (Reg.FLD_CH_WPTR_WPTR p q.rx) = (w + span) % s.ringSize p q.rx % 2 ^ 20 ∧
            t.qp k.qp = some { q with seq16 := (q.seq16 + 1) % 65536, recvPsn := (k.psn + rocePackets q.mtu k.len) % 2 ^ 24 })


/-! Chapter 16: CSP and management. -/

/-- R383 to R393: a datagram that does not parse is counted and dropped, a whole message joins the queue, a fragment its reassembly, for 10 ms; a
SUBMIT is answered with the first check that fails, in order, or admitted; a queued request is cancelled at once, a running one at its boundary; STATUS
tells the request's state, and an ended request is kept for 60 s. -/
def Obligations.RequestsAreReassembledAdmittedAndKept : Prop :=
  ∀ s : State,
    (∀ (f : EthFrame) (sport dport : Nat) (d : List Byte), s.eth.rxq.find? isUdp = some f → f.body = .udp sport dport d →
      (CspHead.parse d = none → s.overflowAt Reg.aETH_RX_DROP_LO = false → s.count48At Reg.aETH_RX_DROP_LO + 2 < 2 ^ 48 →
        CompletesWith .cspDatagram s fun t =>
          t.count48At Reg.aETH_RX_DROP_LO = s.count48At Reg.aETH_RX_DROP_LO + 1 ∧ t.eth.msgs = s.eth.msgs ∧ t.eth.reasm = s.eth.reasm ∧ SameMem s t) ∧
      ∀ (h : CspHead) (bs : List Byte), CspHead.parse d = some (h, bs) → h.typ ∈ [1, 2, 4] → bit h.flags 2 = false → h.len ≤ 2 ^ 20 →
        h.frags = max 1 ((h.len + 8191) / 8192) → h.frag < h.frags →
        (s.otherMessage (framePeer f sport) h = true → s.overflowAt Reg.aETH_RX_DROP_LO = false → s.count48At Reg.aETH_RX_DROP_LO + 2 < 2 ^ 48 →
          CompletesWith .cspDatagram s fun t =>
            t.count48At Reg.aETH_RX_DROP_LO = s.count48At Reg.aETH_RX_DROP_LO + 1 ∧ t.eth.msgs = s.eth.msgs ∧ t.eth.reasm = s.eth.reasm ∧ SameMem s t) ∧
        (s.otherMessage (framePeer f sport) h = false → bs.length ≠ min 8192 (h.len - 8192 * h.frag) → CompletesWith .cspDatagram s fun t =>
          Told s t (framePeer f sport) h.typ 0x14 h.part h.id [] [] ∧ t.eth.msgs = s.eth.msgs ∧ t.eth.reasm = s.eth.reasm) ∧
        (bs.length = min 8192 (h.len - 8192 * h.frag) → (∀ r ∈ s.eth.reasm, (samePeer r.src (framePeer f sport) && r.id == h.id) = false) →
          (h.frags = 1 → h.status = 0 → (h.typ = 1 ∨ h.len = 0) →
            CompletesWith .cspDatagram s fun t =>
              t.eth.msgs = s.eth.msgs ++
                  [{ src := framePeer f sport, typ := h.typ, flags := h.flags, part := h.part, id := h.id, body := bs }] ∧
                t.eth.reasm = s.eth.reasm ∧ RegsBut s t [] ∧ SameMem s t) ∧
          (1 < h.frags →
            CompletesWith .cspDatagram s fun t =>
              (∃ r : Reasm, t.eth.reasm = s.eth.reasm ++ [r] ∧ r.src = framePeer f sport ∧ r.id = h.id ∧ r.frags = [(h.frag, bs)] ∧
                r.count = h.frags ∧ r.at' = s.stamp) ∧ t.eth.msgs = s.eth.msgs ∧ RegsBut s t [] ∧ SameMem s t))) ∧
    (CompletesWith .reassemblyTimeout s fun t =>
      t.eth.reasm = s.eth.reasm.filter (fun r => decide (s.stamp < r.at' + 328)) ∧ t.eth.msgs = s.eth.msgs ∧ RegsBut s t [] ∧ SameMem s t) ∧
    (∀ m : CspMsg, s.MsgIn cspSubmit m →
      (16 ≤ m.part ∨ Submit.parse m.body = none → CompletesWith .submit s fun t =>
        Told s t m.src 1 0x14 m.part m.id [] [] ∧ t.srv.reqs = s.srv.reqs ∧ SameMem s t) ∧
      ∀ q : Submit, m.part < 16 → Submit.parse m.body = some q →
        let st := if s.admits m.src m.part = false then 0x11 else if s.duplicate m = true then 0
          else if s.get (Reg.SCH_PART_CFG_EXISTS m.part) = 0 then 0x12 else if s.get (Reg.SCH_PART_CFG_SERVING m.part) = 0 then 0x15
          else match s.serves m.part q.model with
            | none => 0x12
            | some (_, d) =>
              if q.seqs.any (fun x => decide (loadLimit d (loadLast d) < x.1)) = true then 0x13
              else if s.get Reg.ETH_CSP_CTRL_QUEUE_MAX ≤ s.queueLen m.part ∨
                s.bufTotal m.part < q.seqs.length * loadOutMax d then 0x10 else 0
        CompletesWith .submit s fun t =>
          Told s t m.src 1 st m.part m.id [] [] ∧ SameMem s t ∧
            if st = 0 ∧ s.duplicate m = false then
              ∃ r : Request, t.srv.reqs = s.srv.reqs ++ [r] ∧ r.src = m.src ∧ r.id = m.id ∧ r.part = m.part ∧ r.prio = q.prio ∧ r.maxHeats = q.maxHeats ∧
                r.order = s.srv.orders ∧ r.admitted = s.stamp ∧ r.ended = none ∧ r.seqs.length = q.seqs.length ∧
                (s.serves m.part q.model).map (·.1) = some r.ctx
            else t.srv.reqs = s.srv.reqs) ∧
    (∀ m : CspMsg, s.MsgIn cspCancel m → m.part < 16 → s.admits m.src m.part = true →
      (s.request m = none → CompletesWith .cancel s fun t => Told s t m.src 2 0 m.part m.id [] [] ∧ t.srv.reqs = s.srv.reqs ∧ SameMem s t) ∧
      ∀ r : Request, s.request m = some r → r.ended = none → (∀ x ∈ s.srv.reqs, x.order = r.order → x = r) →
        (r.inBatch = false → (∃ y ∈ r.seqs, y.ended = false) →
          CompletesWith .cancel s fun t =>
            (∃ post, Told s t m.src 2 0 m.part m.id [] post) ∧ SameButBuffer s t m.part ∧
              ∀ x ∈ t.srv.reqs, x.order = r.order → x.ended = some s.stamp ∧ ∀ y ∈ x.seqs, y.ended = true) ∧
        (r.inBatch = true → s.ctxState r.ctx ≠ ctxIdle →
          CompletesWith .cancel s fun t =>
            Told s t m.src 2 0 m.part m.id [] [] ∧ SameMem s t ∧
              t.srv.reqs = s.srv.reqs.map fun x => if x.order = r.order then { x with cancelled := true } else x)) ∧
    (∀ m : CspMsg, s.MsgIn cspStatus m → m.part < 16 → s.admits m.src m.part = true →
      (s.request m = none → CompletesWith .cspStatus s fun t =>
        Told s t m.src 4 0 m.part m.id (leBytes 1 3 ++ List.replicate 15 0) [] ∧ RegsBut s t [] ∧ SameMem s t) ∧
      ∀ r : Request, s.request m = some r →
        let state := if r.ended ≠ none then 2 else if r.inBatch = true then 1 else 0
        let oldest := match r.kept with | k :: _ => k.stream | [] => r.stream
        let again := bit m.flags 1 = true ∧ m.body.length = 4
        (again → ∀ k ∈ r.kept, ∀ a, k.place = some a → a < stackBytes ∧ s.get (Reg.STK_STATUS_PWR_STATE (a / stackSize)) = 0 ∧ s.badWord? a k.len = none) →
        CompletesWith .cspStatus s fun t =>
          Told s t m.src 4 0 m.part m.id (leBytes 1 state ++ leBytes 1 0 ++ leBytes 2 (r.seqs.filter fun y => !y.ended).length ++ leBytes 4 r.stream ++
            leBytes 4 oldest ++ leBytes 4 0)
            (if again then
              (r.kept.filter fun k => decide ((k.stream + 2 ^ 32 - leAt m.body 0 4) % 2 ^ 32 < 2 ^ 31)).map fun k =>
                t.cspFrame r.src (match k.place with | some a => s.mread a k.len | none => k.bytes)
            else []) ∧ RegsBut s t [] ∧ SameMem s t ∧ t.srv = s.srv) ∧
    CompletesWith .requestStateExpiry s fun t =>
      t.srv.reqs = s.srv.reqs.filter (fun r => match r.ended with
        | some e => decide (s.stamp < e + 60 * 32768) || r.kept.any (s.resultWaits r)
        | none => true) ∧ RegsBut s t [] ∧ SameMem s t

/-- R394, R395, R477, R478, R492: a request whose nonce is not outstanding is answered NONCE, one whose key or signature does not hold AUTH, one of a
role without the right DENIED, a privileged one whose audit record cannot be written DENIED with AUDIT_FAIL, and one whose reserved fields are not zero
MALFORMED; none of them has an effect. NONCE
answers 48 bytes that stay outstanding for 60 s, 64 at most. -/
def Obligations.ManagementChecksComeBeforeEffect : Prop :=
  ∀ (s : State) (m : CspMsg) (q : MgmtReq),
    (∀ x ∈ [(0x10, Instr.dcsRead, [1, 2, 3]), (0x11, .dcsWrite, [1, 2, 3]), (0x20, .serveStart, [3]), (0x21, .serveStop, [3]), (0x22, .setShares, [3]),
        (0x23, .loadWeights, [3]), (0x30, .powerGrant, [3]), (0x40, .telemetrySubscribe, [3]), (0x41, .macsecSak, [3]), (0x42, .roceWindow, [3]),
        (0x43, .roceQp, [3]), (0x51, .deploymentRecord, [2]), (0x60, .attest, [1, 2, 3]), (0x61, .auditRead, [1, 2, 3])],
      s.mgmtHead = some (m, q) → q.op = x.1 →
      let badKey := q.role = 0 ∨ q.key / 2 ^ 24 ≠ q.role ∨ ∀ k, s.keyOf q.key = some k → ecdsaVerify k (sha384 q.signed) q.r q.sg = false
      (∀ st : Nat, (st = 0x31 ∧ s.nonceOk q.nonce = false) ∨ (st = 0x30 ∧ s.nonceOk q.nonce = true ∧ badKey) ∨
          (st = 0x32 ∧ s.nonceOk q.nonce = true ∧ ¬ badKey ∧ q.role ∉ x.2.2) →
        CompletesWith x.2.1 s fun t =>
          MgmtTold s t m q st [] [] ∧ t.srv = s.srv ∧ t.nv.keys = s.nv.keys ∧ t.nv.record = s.nv.record ∧ t.plane = s.plane ∧
            t.power = s.power ∧ t.eth.qps = s.eth.qps ∧ t.eth.sas = s.eth.sas ∧ SameMem s t) ∧
      (s.nonceOk q.nonce = true → ¬ badKey → q.role ∈ x.2.2 → x.1 ∉ [0x10, 0x60, 0x61] → s.auditOk = false →
        CompletesWith x.2.1 s fun t =>
          MgmtTold s t m q 0x32 [] [] ∧ t.get Reg.SEC_STATUS_AUDIT_FAIL = 1 ∧ t.srv = s.srv ∧ t.nv = s.nv ∧ t.plane = s.plane ∧ t.power = s.power ∧
            SameMem s t) ∧
      (s.nonceOk q.nonce = true → ¬ badKey → q.role ∈ x.2.2 → q.odd = true → s.auditOk = true →
        CompletesWith x.2.1 s fun t =>
          MgmtTold s t m q 0x14 [] [] ∧ t.srv = s.srv ∧ t.nv.keys = s.nv.keys ∧ t.nv.record = s.nv.record ∧ t.plane = s.plane ∧
            t.power = s.power ∧ t.eth.qps = s.eth.qps ∧ t.eth.sas = s.eth.sas ∧ SameMem s t)) ∧
    (s.mgmtHead = some (m, q) → q.op = 1 → q.role = 0 → q.body = [] → q.odd = false →
      CompletesWith .nonce s fun t =>
        (∃ n : List Byte, n.length = 48 ∧ t.eth.nonces = (if s.eth.nonces.length < 64 then s.eth.nonces else s.eth.nonces.drop 1) ++
            [{ bytes := n, at' := s.stamp }] ∧
          Told s t m.src 6 0 0xFF m.id (leBytes 2 1 ++ leBytes 2 0 ++ leBytes 4 0 ++ q.nonce ++ leBytes 4 48 ++ leBytes 4 0 ++ n) []) ∧
          t.eth.msgs = dropFirst isMgmt s.eth.msgs ∧ RegsBut s t [] ∧ SameMem s t) ∧
    CompletesWith .nonceExpiry s fun t =>
      t.eth.nonces = s.eth.nonces.filter (fun x => decide (s.stamp < x.at' + 60 * 32768)) ∧ RegsBut s t [] ∧ SameMem s t

/-- R482 to R488, R496: a claim enrols the first installer key, the key holders add and revoke keys of their classes, a release clears all but maker
keys, and what a rule forbids is DENIED; ATTEST answers the signed quote of 496 bytes, and AUDIT_READ checkpoints, then records, from a number on. -/
def Obligations.KeysAreEnrolledAndTheLogIsRead : Prop :=
  ∀ (s : State) (m : CspMsg) (q : MgmtReq),
    let b := q.body
    let id := enId b
    let fresh := (∀ k ∈ s.nv.keys, k.id ≠ id) ∧ id ≠ 0x01000000 ∧ zeroAt b 108 96 = true
    (s.Signed (enPoint b) m q → q.op = 0x70 → q.role = 2 → s.auditOk = true → EnrolBody b 1 →
      (∀ x y, enPoint b = some (x, y) → q.key = id → s.nv.claimed = false → fresh → s.keysOf 2 < 4 →
        s.nv.nextHash = 0 ∨ s.nv.nextHash = beNat (sha384 (enKey b)) →
        CompletesWith .installerClaim s fun t =>
          MgmtTold s t m q 0 [] [] ∧ t.nv.claimed = true ∧ t.nv.nextHash = 0 ∧ t.nv.keys = s.nv.keys ++ [{ id := id, x := x, y := y }] ∧
            t.get Reg.SEC_STATUS_CLAIMED = 1 ∧ SameMem s t) ∧
      (s.nv.claimed = true → CompletesWith .installerClaim s fun t =>
        MgmtTold s t m q 0x32 [] [] ∧ t.nv.keys = s.nv.keys ∧ t.nv.claimed = true ∧ SameMem s t)) ∧
    (let mayAdd := fun (cls most : Nat) => fresh ∧ id / 2 ^ 24 = cls ∧ s.keysOf cls < most
      let mayNot := fun (cls most : Nat) => s.keysOf cls ≥ most ∨ id / 2 ^ 24 ≠ cls ∨ ∃ k ∈ s.nv.keys, k.id = id
      let added := fun (x y : Nat) (t : State) =>
        MgmtTold s t m q 0 [] [] ∧ t.nv.keys = s.nv.keys ++ [{ id := id, x := x, y := y }] ∧ t.nv.claimed = s.nv.claimed ∧ SameMem s t
      let denied := fun t : State => MgmtTold s t m q 0x32 [] [] ∧ t.nv.keys = s.nv.keys ∧ SameMem s t
      (s.Allowed 0x70 [2] m q → EnrolBody b 2 →
        (∀ x y, enPoint b = some (x, y) → mayAdd 3 16 → s.nv.claimed = true → CompletesWith .operatorAdd s (added x y)) ∧
        (mayNot 3 16 → CompletesWith .operatorAdd s denied)) ∧
      (s.Allowed 0x70 [1] m q → EnrolBody b 5 →
        (∀ x y, enPoint b = some (x, y) → mayAdd 1 8 → q.key = 0x01000000 → CompletesWith .makerKeyAdd s (added x y)) ∧
        (mayNot 1 8 → CompletesWith .makerKeyAdd s denied)) ∧
      (s.Allowed 0x70 [2] m q → EnrolBody b 6 →
        (∀ x y, enPoint b = some (x, y) → mayAdd 2 4 → s.nv.claimed = true → CompletesWith .installerKeyAdd s (added x y)) ∧
        (mayNot 2 4 → CompletesWith .installerKeyAdd s denied))) ∧
    (s.Allowed 0x70 [1, 2] m q → EnrolBody b 3 →
      let mine := if q.role = 1 then id / 2 ^ 24 = 1 else id / 2 ^ 24 = 2 ∨ id / 2 ^ 24 = 3
      (zeroAt b 8 97 = true → zeroAt b 108 96 = true → (∃ k ∈ s.nv.keys, k.id = id) → mine → (id / 2 ^ 24 = 2 → 1 < s.keysOf 2) →
        CompletesWith .keyRevoke s fun t =>
          MgmtTold s t m q 0 [] [] ∧ t.nv.keys = s.nv.keys.filter (fun k => k.id != id) ∧ SameMem s t) ∧
      (¬ mine ∨ (id / 2 ^ 24 = 2 ∧ s.keysOf 2 ≤ 1) →
        CompletesWith .keyRevoke s fun t => MgmtTold s t m q 0x32 [] [] ∧ t.nv.keys = s.nv.keys ∧ SameMem s t)) ∧
    (s.Allowed 0x70 [1] m q → EnrolBody b 4 → zeroAt b 8 97 = true →
      if beNat ((b.drop 108).take 48) = Config.identityHash then
        CompletesWith .installerRelease s fun t =>
          MgmtTold s t m q 0 [] [] ∧ t.nv.keys = s.nv.keys.filter (fun k => k.id / 2 ^ 24 == 1) ∧ t.nv.claimed = false ∧
            t.nv.nextHash = beNat ((b.drop 156).take 48) ∧ SameMem s t
      else CompletesWith .installerRelease s fun t => MgmtTold s t m q 0x32 [] [] ∧ t.nv.keys = s.nv.keys ∧ t.nv.claimed = s.nv.claimed) ∧
    (s.Signed (s.keyOf q.key) m q → q.role ∈ [1, 2, 3] →
      (q.op = 0x60 → b.length = 48 →
        (s.quote b).length = 496 ∧ ((s.quote b).drop 16).take 48 = b ∧
          CompletesWith .attest s fun t =>
            (∃ sign : List Byte, sign.length = 96 ∧
              MgmtTold s t m q 0 (s.quote b ++ sign ++ leBytes 4 1 ++ List.replicate 28 0 ++ Config.certificate.take 2048) []) ∧
              t.nv = s.nv ∧ RegsBut s t [] ∧ SameMem s t) ∧
      (q.op = 0x61 → b.length = 12 → 1 ≤ leAt b 8 4 → leAt b 8 4 ≤ 2048 →
        let first := leAt b 0 8
        let items := ((s.nv.cps.filter fun c => decide (first ≤ c.last)).map AuditCp.bytes ++
          (s.nv.audit.filter fun r => decide (first ≤ r.seq)).map AuditRec.bytes).take (leAt b 8 4)
        CompletesWith .auditRead s fun t =>
          MgmtTold s t m q 0 (leBytes 8 items.length ++ leBytes 8 (s.nv.auditNext - 1) ++ items.flatten) [] ∧ t.nv = s.nv ∧ RegsBut s t [] ∧
            SameMem s t))

/-- R376, R377, R381, R396 to R398, R422, R427, R439, R477: what each management operation does once its checks hold: reads and writes of the DCS,
serving started and stopped, shares, load heats, the power grant, the subscription, security associations, windows and queue pairs. -/
def Obligations.ManagementOperationsTakeEffect : Prop :=
  ∀ (s : State) (m : CspMsg) (q : MgmtReq),
    let b := q.body
    (s.Signed (s.keyOf q.key) m q → q.role ∈ [1, 2, 3] → q.op = 0x10 → 1 ≤ leAt b 0 4 → leAt b 0 4 ≤ 64 → 4 + 4 * leAt b 0 4 ≤ b.length →
      CompletesWith .dcsRead s fun t =>
        SameMem s t ∧ ∃ ws : List Nat, ws.length = leAt b 0 4 ∧ ws.head? = some (s.dcsRead reqMgmt (leAt b 4 4)).2 ∧
          MgmtTold s t m q 0 (leBytes 4 (leAt b 0 4) ++ ws.flatMap (leBytes 4)) []) ∧
    (s.Allowed 0x11 [3] m q →
      let n := leAt b 0 4
      let addr := fun i => leAt b (4 + 8 * i) 4
      1 ≤ n → n ≤ 64 → 4 + 8 * n ≤ b.length → (∀ i, i < n → addr i % 4 = 0 ∧ (regRow? (addr i)).isSome = true) →
      ((∀ i, i < n → ∃ k off, decodeAddr (addr i) = some (.tel, k, off)) →
        CompletesWith .dcsWrite s fun t =>
          MgmtTold s t m q 0 (leBytes 4 n ++ leBytes 4 0xFFFFFFFF) [] ∧ SameMem s t ∧
            ∀ r, n = 1 → regRow? (addr 0) = some r → breaksRange s .tel 0 (addr 0 - 0x800000) (leAt b 8 4) = false →
              ∀ f ∈ r.fields, f.acc = .rw → ∀ k, f.lo ≤ k → k ≤ f.hi → (t.rdN (addr 0)).testBit k = (leAt b 8 4).testBit k) ∧
      (∀ j, j < n → (∀ i, i < j → ∃ k off, decodeAddr (addr i) = some (.tel, k, off)) →
        (∃ x k off, decodeAddr (addr j) = some (x, k, off) ∧ x ≠ .tel ∧ x ≠ .sec) →
        CompletesWith .dcsWrite s fun t =>
          MgmtTold s t m q 0x32 (leBytes 4 j ++ leBytes 4 j) [] ∧ t.rd (addr j) = s.rd (addr j) ∧ SameMem s t)) ∧
    (s.Allowed 0x20 [3] m q → 4 ≤ b.length → leAt b 2 2 = 0 →
      CompletesWith .serveStart s fun t =>
        MgmtTold s t m q 0 [] [] ∧ ∀ p, p < 16 →
          t.get (Reg.SCH_PART_CFG_SERVING p) = if bit (leAt b 0 2) p = true then 1 else s.get (Reg.SCH_PART_CFG_SERVING p)) ∧
    (s.Allowed 0x21 [3] m q → 4 ≤ b.length → leAt b 3 1 = 0 →
      (leAt b 2 1 = 0 → CompletesWith .serveStop s fun t =>
        MgmtTold s t m q 0 [] [] ∧ t.srv = s.srv ∧ SameMem s t ∧ ∀ p, p < 16 →
          t.get (Reg.SCH_PART_CFG_SERVING p) = if bit (leAt b 0 2) p = true then 0 else s.get (Reg.SCH_PART_CFG_SERVING p)) ∧
      (leAt b 2 1 = 1 → (s.srv.reqs.map (·.order)).Nodup → (∀ c, c < 64 → s.ctxState c ≠ ctxVoted) →
        CompletesWith .serveStop s fun t =>
          (∃ mid, MgmtTold s t m q 0 [] mid) ∧ ∀ r ∈ s.srv.reqs, bit (leAt b 0 2) r.part = true → r.ended = none →
            (r.inBatch = true → s.ctxState r.ctx ≠ ctxIdle → ∃ x ∈ t.srv.reqs, x.order = r.order ∧ x.cancelled = true) ∧
            (r.inBatch = false → (∃ y ∈ r.seqs, y.ended = false) → ∃ x ∈ t.srv.reqs, x.order = r.order ∧ x.ended = some s.stamp))) ∧
    (s.Allowed 0x22 [3] m q → 36 ≤ b.length → leAt b 2 2 = 0 →
      let named := (List.range 16).filter fun p => bit (leAt b 0 2) p
      (∀ p ∈ named, leAt b (4 + 2 * p) 2 ≠ 0) →
      CompletesWith .setShares s fun t =>
        MgmtTold s t m q 0 [] [] ∧ t.srv = { s.srv with weights := s.srv.weights ++ named.map fun p => (p, leAt b (4 + 2 * p) 2) } ∧ SameMem s t) ∧
    (s.Allowed 0x23 [3] m q → 32 ≤ b.length → leAt b 5 3 = 0 → leAt b 12 4 = 0 → leAt b 8 4 ≤ 63 → leAt b 4 1 ≤ 15 → leAt b 24 8 ≠ 0 →
      leAt b 16 8 + leAt b 24 8 ≤ 65536 * s.get (Reg.ETH_ROCE_WIN_LEN_LEN (leAt b 8 4)) →
      match s.serves (leAt b 4 1) (leAt b 0 4) with
      | none => CompletesWith .loadWeights s fun t => MgmtTold s t m q 0x12 [] [] ∧ t.srv = s.srv ∧ SameMem s t
      | some (c, _) => CompletesWith .loadWeights s fun t =>
          MgmtTold s t m q 0 [] [] ∧ SameMem s t ∧
            (t.serve c).loads = (s.serve c).loads ++ [{ window := leAt b 8 4, off := leAt b 16 8, len := leAt b 24 8 }]) ∧
    (s.Allowed 0x30 [3] m q → b.length = 16 → leAt b 10 6 = 0 → 250000 ≤ leAt b 0 4 → leAt b 0 4 ≤ 700000 → 100 ≤ leAt b 4 4 → leAt b 4 4 ≤ 60000 →
      CompletesWith .powerGrant s fun t =>
        (∃ body : List Byte, body.length = 24 ∧ MgmtTold s t m q 0 body []) ∧ SameMem s t ∧
          ((∀ l, s.power.grantSeq = some l → 1 ≤ (leAt b 8 2 + 65536 - l) % 65536 ∧ (leAt b 8 2 + 65536 - l) % 65536 ≤ 32767) →
            t.power = { s.power with grant := some (leAt b 0 4), ttlMs := leAt b 4 4, grantAt := s.stamp, grantSeq := some (leAt b 8 2), expired := false }) ∧
          (s.power.grantSeq = some (leAt b 8 2) → t.power = s.power)) ∧
    (s.Allowed 0x40 [3] m q → 32 ≤ b.length → leAt b 1 1 ≤ 7 → leAt b 12 4 = 0 →
      ∀ v6 ip, bodyAddr b (leAt b 0 1) 16 = some (v6, ip) →
        CompletesWith .telemetrySubscribe s fun t =>
          MgmtTold s t m q 0 [] [] ∧ t.tel.exportPos = 0 ∧ SameMem s t ∧
            if leAt b 1 1 = 0 then t.tel.subscription = none
            else ∃ u, t.tel.subscription = some u ∧ u.v6 = v6 ∧ u.ip = ip ∧ u.port = leAt b 4 2 ∧ u.id = m.id ∧ u.classes = leAt b 1 1 ∧ u.stream = 0) ∧
    (s.Allowed 0x41 [3] m q → 72 ≤ b.length → leAt b 0 1 ≤ 4 → leAt b 1 1 ≤ 3 → leAt b 2 1 ≤ 1 → leAt b 3 1 ≤ 1 → leAt b 36 4 = 0 →
      (leAt b 2 1 = 0 → leAt b 16 4 = 0 ∧ leAt b 20 4 = 0 ∧ leAt b 24 12 = 0) →
      CompletesWith .macsecSak s fun t =>
        MgmtTold s t m q 0 [] [] ∧ SameMem s t ∧
          (∃ a ∈ t.eth.sas, a.chan = leAt b 0 1 ∧ a.an = leAt b 1 1 ∧ a.xpn = (leAt b 2 1 == 1) ∧ a.pn = leAt b 12 8 ∧ a.sak = beNat ((b.drop 40).take 32) ∧
            ∀ y ∈ t.eth.sas, y.chan = a.chan → y.an = a.an → y = a) ∧
          t.eth.sas.filter (fun a => a.chan != leAt b 0 1) = s.eth.sas.filter (fun a => a.chan != leAt b 0 1) ∧
          (t.eth.sas.filter fun a => a.chan == leAt b 0 1).length ≤ 2 ∧
          (leAt b 0 1 = 0 → leAt b 3 1 = 1 → t.eth.txAn = some (leAt b 1 1))) ∧
    (s.Allowed 0x42 [3] m q → 20 ≤ b.length → leAt b 0 1 ≤ 63 → leAt b 1 1 ≤ 7 → leAt b 2 1 ≤ 15 → leAt b 3 1 = 0 → leAt b 4 4 < 2 ^ 25 →
      leAt b 8 2 ≤ 1023 → leAt b 10 2 = 0 → leAt b 12 4 + leAt b 16 4 ≤ 2 ^ 25 → leAt b 12 4 < 2 ^ 25 →
      let n := leAt b 0 1
      CompletesWith .roceWindow s fun t =>
        MgmtTold s t m q 0 (leBytes 4 (128 * leAt b 4 4 + n)) [] ∧ SameMem s t ∧ t.get (Reg.ETH_ROCE_WIN_CFG_EN n) = leAt b 1 1 % 2 ∧
          t.get (Reg.ETH_ROCE_WIN_CFG_R n) = leAt b 1 1 / 2 % 2 ∧ t.get (Reg.ETH_ROCE_WIN_CFG_W n) = leAt b 1 1 / 4 ∧
          t.get (Reg.ETH_ROCE_WIN_CFG_PARTITION n) = leAt b 2 1 ∧ t.get (Reg.ETH_ROCE_WIN_CFG_KEY n) = leAt b 4 4 ∧
          t.get (Reg.ETH_ROCE_WIN_BASE_OFFSET n) = leAt b 12 4 ∧ t.get (Reg.ETH_ROCE_WIN_LEN_LEN n) = leAt b 16 4 ∧
          t.get (Reg.ETH_ROCE_WIN_DEV_DEVICE n) = leAt b 8 2) ∧
    (s.Allowed 0x43 [3] m q → 56 ≤ b.length → leAt b 2 2 = 0 → leAt b 30 2 = 0 → leAt b 52 4 = 0 → leAt b 4 4 < 2 ^ 24 →
      (leAt b 0 1 = 2 → CompletesWith .roceQp s fun t =>
        MgmtTold s t m q 0 (leBytes 4 (leAt b 4 4)) [] ∧ t.eth.qps = s.eth.qps.filter (fun x => x.1 != leAt b 4 4) ∧ SameMem s t) ∧
      (leAt b 0 1 = 1 → leAt b 4 4 = 0 → (bodyAddr b (leAt b 20 1) 32).isSome = true → 1 ≤ leAt b 1 1 → leAt b 1 1 ≤ 3 → leAt b 8 4 < 2 ^ 24 →
        leAt b 12 4 < 2 ^ 24 → leAt b 16 4 < 2 ^ 24 → leAt b 21 1 ≤ 15 → leAt b 48 1 ≤ 63 → leAt b 49 1 ≤ 31 → leAt b 50 2 ≤ 2047 →
        (∀ n, n < 256 → (∀ k, k < n → (s.qp k).isSome = true) → s.qp n = none →
          CompletesWith .roceQp s fun t =>
            MgmtTold s t m q 0 (leBytes 4 n) [] ∧ SameMem s t ∧ ∃ x, t.eth.qps = s.eth.qps ++ [(n, x)] ∧
              x.mtu = 1024 * 2 ^ (leAt b 1 1 - 1) ∧ x.remote = leAt b 8 4 ∧ x.sendPsn = leAt b 12 4 ∧ x.recvPsn = leAt b 16 4 ∧
              x.lfield = leAt b 48 1 ∧ x.rx = leAt b 49 1 ∧ x.gen = leAt b 50 2 ∧ x.seq16 = 0) ∧
        ((∀ k, k < 256 → (s.qp k).isSome = true) →
          CompletesWith .roceQp s fun t => MgmtTold s t m q 0x10 (leBytes 4 0xFFFFFFFF) [] ∧ t.eth.qps = s.eth.qps ∧ SameMem s t)))


/-! Chapter 17: heats and groups. -/

/-- R389, R405, R412 to R414, R427: the heat that the scheduler chooses begins: a load heat with its window's bytes, a replay with its batch, or a heat
with the sequences that join. It has every sequence that the largest variant covers, and runs the smallest variant that covers them. One that is
not ready or not chosen does not start. -/
def Obligations.HeatsStartWithTheirBatch : Prop :=
  ∀ (s : State) (c : Fin 64) (d : CtxLoad), (s.serve c).load = some d →
    let u := s.schedPoint (s.homeQ c)
    let x := s.serve c
    (u.startable c = false ∨ u.chosen c = false →
      CompletesWith (.heatStart c) s fun t => t.srv = u.srv ∧ t.ctxState c = u.ctxState c ∧ SameMem s t) ∧
    let w := u.fixWords c
    (u.startable c = true → u.chosen c = true → w.fixLeft c = true ∨ w.remapDue c = true →
      CompletesWith (.heatStart c) s fun t => t.srv = w.srv ∧ t.ctxState c = w.ctxState c ∧ SameMem w t) ∧
    (u.startable c = true → u.chosen c = true → w.fixLeft c = false → w.remapDue c = false →
      (∀ (l : LoadHeat) (v : State) (bs : List Byte), (if x.rerun = true then x.loading else x.loads.head?) = some l →
        w.winAccess l.window l.off l.len none = .done v bs →
        CompletesWith (.heatStart c) s fun t =>
          t.ctxState c = ctxRunning ∧ t.ctxActive c = true ∧ (t.serve c).loading = some l ∧ (t.serve c).batch = [] ∧ (t.serve c).rerun = false ∧
            (t.serve c).loads = if x.rerun = true then x.loads else x.loads.drop 1) ∧
      ((if x.rerun = true then x.loading else x.loads.head?) = none → (s.srv.reqs.map (·.order)).Nodup →
        (x.rerun = false → ∀ y ∈ w.joiners c, ∃ r q, w.reqOf y.1 = some r ∧ r.seqs[y.2]? = some q ∧ q.input ≠ none) →
        let v := if x.rerun = true then w else w.join c (w.joiners c)
        let batch := (v.dropLong d (v.batchOf c)).batchOf c
        batch ≠ [] →
        CompletesWith (.heatStart c) s fun t =>
          t.ctxState c = ctxRunning ∧ t.ctxActive c = true ∧ (t.serve c).batch = batch ∧ (t.serve c).loading = x.loading ∧ (t.serve c).rerun = false ∧
            (t.serve c).results = [] ∧ (t.serve c).swapped = 0 ∧ (t.serve c).minVariant = 0 ∧ t.heatOf c = s.heatOf c ∧
            (t.serve c).variant = (loadCover d x.minVariant (((t.lengths batch).max?).getD 0)).getD (loadLast d)))

/-- R210, R242, R412, R415, R416, R509, R572: once its last operation is done and its end checks hold, a heat commits: the level-1 entries of each pair
change places, the heat number rises, the replay count clears, and the context is IDLE; a sequence's output leaves as its RESULT. A heat with
something left in the grid becomes uncommittable; one whose core fails in the commit stays COMMITTING with the pairs swapped so far. Until memory has
accepted every byte of the cache the heat stays RUNNING (the model's choice, log entry 151). -/
def Obligations.HeatsCheckAndCommit : Prop :=
  ∀ (s : State) (c : Fin 64) (d : CtxLoad), (s.serve c).load = some d →
    (∀ (outs : List SeqOut) (cut : Option (Fin 9)), s.ctxState c ≠ ctxRunning ∨ s.get (Reg.SCH_CTX_STATE_UNCOMMITTABLE c) = 1 ∨ s.allDone c = false →
      CompletesWith (.heatEndChecks c outs cut) s fun t => OnlyRegs s t []) ∧
    (s.ctxState c = ctxRunning → s.get (Reg.SCH_CTX_STATE_UNCOMMITTABLE c) = 0 → s.allDone c = true →
      (∀ (outs : List SeqOut) (cut : Option (Fin 9)), (s.heatFlushes c).2 = false →
        CompletesWith (.heatEndChecks c outs cut) s fun t => t = (s.heatFlushes c).1) ∧
      (∀ (x : Nat × Nat) (rest : List (Nat × Nat)) (cut : Option (Fin 9)), s.CacheClean c → s.slotsOf c = x :: rest → s.residue x.1 x.2 = true →
        CompletesWith (.heatEndChecks c [] cut) s fun t =>
          t.ctxState c = ctxCommitting ∧ t.get (Reg.SCH_CTX_STATE_UNCOMMITTABLE c) = 1 ∧ t.heatOf c = s.heatOf c) ∧
      (s.CacheClean c → (∀ k, k < 32 → s.get (Reg.STK_STATUS_PWR_STATE k) ≠ 1 ∧ s.get (Reg.STK_STATUS_PWR_STATE k) ≠ 2) →
        (∀ x ∈ s.slotsOf c, s.residue x.1 x.2 = false ∧ ∀ a, a < 2 → ∀ e ∈ (s.ma x.1 a).tiles, e.2.ctx = c → e.2.pinned = false) →
        d.group = none → (s.serve c).swapped = 0 →
        (∀ n : Fin 9, CompletesWith (.heatEndChecks c [] (some n)) s fun t =>
          t.ctxState c = ctxCommitting ∧ (t.serve c).swapped = min n.val d.decl.pairs.length ∧ t.heatOf c = s.heatOf c) ∧
        (s.plane.activating = [] →
          let root := s.get (Reg.XLT_CTX_ROOT_ROOT c) * 2 ^ 21
          let at' := fun va => root + 8 * tableIndex 1 va
          (root + 2 ^ 21 ≤ stackBytes → (∀ e ∈ s.srv.bufAt, root + 2 ^ 21 ≤ e.2 ∨ e.2 + s.bufTotal e.1 ≤ root) → (d.decl.pairs.flatMap fun p => [tableIndex 1 p.1, tableIndex 1 p.2]).Nodup →
            CompletesWith (.heatEndChecks c [] none) s fun t =>
              t.ctxState c = ctxIdle ∧ t.heatOf c = (s.heatOf c + 1) % 2 ^ 64 ∧ t.get (Reg.SCH_CTX_STATE_REPLAY c) = 0 ∧ (t.serve c).batch = [] ∧
                (t.serve c).swapped = 0 ∧
                ∀ p ∈ d.decl.pairs, t.mread (at' p.1) 8 = s.mread (at' p.2) 8 ∧ t.mread (at' p.2) 8 = s.mread (at' p.1) 8) ∧
          (∀ (o : SeqOut) (r : Request) (q : SeqRun) (i : Nat) (bs : List Byte), (s.serve c).batch = [(r.order, i)] → (s.serve c).results = [] →
            s.srv.reqs = [r] → r.seqs[i]? = some q → q.slot = some o.slot.val → q.ended = false → r.outAt = none → r.ended = none →
            (s.setCtxState c ctxCommitting).vaCoreRead c (vaPieces o.va o.len) = .ok (s.setCtxState c ctxCommitting, bs) → 0 < o.len → (s.serve c).loading = none → d.decl.pairs = [] → r.cancelled = false →
            let fin := o.ended || (r.maxHeats != 0 && decide (r.maxHeats ≤ r.heats + 1))
            CompletesWith (.heatEndChecks c [o] none) s fun t =>
              t.ctxState c = ctxIdle ∧ t.heatOf c = (s.heatOf c + 1) % 2 ^ 64 ∧
                (∃ post, t.eth.txq = s.eth.txq ++ (cspDatagrams 3 (if fin = true then 1 else 0) 0 r.part r.id (some r.stream)
                  (resultPayload i 0 r.heats o.len none bs)).map (t.cspFrame r.src) ++ post) ∧
                ∀ y ∈ t.srv.reqs, y.order = r.order → y.heats = r.heats + 1 ∧
                  ∃ z, y.seqs[i]? = some z ∧ z.ended = fin ∧ z.tracked = q.tracked + o.grow))))

/-- R218, R276, R407, R423 to R426, R446, R569, R570: an uncommittable heat before its commit point is discarded, its context IDLE with its heat number as it
was; by the highest rank of its faults its sequences are rejected, run again on a larger variant, or replayed, three times at most, with the Silt that
ran out doubled, up to the image's largest. A heat scheduled
beyond its limit becomes uncommittable; a context that has waited its time takes the place of the one with the greatest virtual time. -/
def Obligations.HeatsAreAbandonedReplayedAndPreempted : Prop :=
  ∀ (s : State) (c : Fin 64),
    (s.inHeat c = false ∨ s.get (Reg.SCH_CTX_STATE_UNCOMMITTABLE c) = 0 ∨ (s.serve c).swapped ≠ 0 →
      CompletesWith (.heatAbandon c) s fun t => OnlyRegs s t []) ∧
    (∀ d : CtxLoad, (s.serve c).load = some d → d.group = none → s.inHeat c = true → s.ctxState c ≠ ctxVoted →
      s.get (Reg.SCH_CTX_STATE_UNCOMMITTABLE c) = 1 → (s.serve c).swapped = 0 → s.plane.activating = [] →
      (∀ e ∈ s.bad, e.2 = false) → s.regionBusy c = false →
      let rank := (s.ctx c).pendRank
      let replay := s.get (Reg.SCH_CTX_STATE_REPLAY c)
      let x := s.serve c
      CompletesWith (.heatAbandon c) s fun t =>
        t.ctxState c = ctxIdle ∧ t.heatOf c = s.heatOf c ∧ t.get (Reg.SCH_CTX_STATE_UNCOMMITTABLE c) = 0 ∧ (t.ctx c).pendRank = 0 ∧
          t.get (Reg.SCH_CTX_STATE_LAST_FAULT c) = (s.ctx c).pendCode % 2 ^ 12 ∧ (t.serve c).results = [] ∧
          (3 ≤ rank ∨ (rank ≤ 1 ∧ x.tripped = false ∧ 3 ≤ replay ∧ (s.ctx c).siltOut = []) →
            (t.serve c).rerun = false ∧ (t.serve c).batch = [] ∧ t.get (Reg.SCH_CTX_STATE_REPLAY c) = 0) ∧
          (rank = 2 → x.variant < loadLast d →
            (t.serve c).rerun = true ∧ (t.serve c).batch = x.batch ∧ (t.serve c).minVariant = x.variant + 1) ∧
          (rank ≤ 1 → (s.ctx c).siltOut = [] → x.tripped = true ∨ replay < 3 →
            (t.serve c).rerun = true ∧ (t.serve c).batch = x.batch ∧
              t.get (Reg.SCH_CTX_STATE_REPLAY c) = if x.tripped = true then replay else replay + 1) ∧
          ∀ p k, rank ≤ 1 → (s.ctx c).siltOut = [p] → s.slotOf p c = some k →
            let n := s.get (Reg.FLD_SILT_CTRL_CHUNKS p k)
            let most := ((d.decl.silt.find? fun y => s.physOf y.1 == some p).map (·.2)).getD n
            (most ≤ n → (t.serve c).rerun = false ∧ (t.serve c).batch = []) ∧
            (n < most → x.tripped = true ∨ replay < 3 →
              (t.serve c).rerun = true ∧ (t.serve c).batch = x.batch ∧ t.get (Reg.FLD_SILT_CTRL_CHUNKS p k) = min most (2 * n) % 65536)) ∧
    (let late := (s.ctxState c = ctxRunning ∨ s.ctxState c = ctxSuspended) ∧ ticksOfMs (s.get Reg.SCH_CTRL_HEAT_LIMIT_MS) < s.heatTime c;
      (late → CompletesWith (.heatTimeout c) s fun t =>
        t.get (Reg.SCH_CTX_STATE_UNCOMMITTABLE c) = 1 ∧ t.ctxState c = s.ctxState c ∧ 1 ≤ (t.ctx c).pendRank ∧ SameMem s t) ∧
      (¬ late → CompletesWith (.heatTimeout c) s fun t => OnlyRegs s t [])) ∧
    (s.inHeat c = true → (s.ctx c).waitSusp = true →
      CompletesWith (.suspendedWaitLimit c) s fun t =>
        t.get (Reg.SCH_CTX_STATE_UNCOMMITTABLE c) = 1 ∧ t.ctxState c = s.ctxState c ∧ 1 ≤ (t.ctx c).pendRank ∧ SameMem s t) ∧
    ∀ p : Fin 72,
      let u := s.schedPoint (quadOfField p)
      let due := u.get Reg.SCH_CTRL_PREEMPT_EN = 1 ∧ u.ready c = true ∧ u.placesFree c = false ∧ ∃ x ∈ u.slotsOf c, x.1 = p
      let prey := fun e => (∃ k, k < 4 ∧ u.ctxOf p k = some e) ∧ u.ctxState e = ctxRunning ∧ u.ctxActive e = true ∧ u.vtOf c < u.vtOf e
      (∀ e, due → prey e → (∀ f, prey f → f = e ∨ u.vtOf f < u.vtOf e) →
        CompletesWith (.preemptWaitExpiry p c) s fun t =>
          (if u.regionBusy e then t.ctxActive e = true ∧ (t.ctx e).stopDue = true else t.ctxActive e = false) ∧ t.ctxState e = ctxRunning ∧ (∀ f, f ≠ e → t.ctxActive f = u.ctxActive f) ∧ SameMem s t) ∧
      (¬ due ∨ (∀ e, ¬ prey e) → CompletesWith (.preemptWaitExpiry p c) s fun t => t.ctxs = u.ctxs ∧ SameMem s t)

/-- R420 to R422: a leader counts the votes for its heat in progress, and decides ABANDON on the first vote for it or once GROUP_MS has passed, COMMIT
once every member is READY; a member writes the decision into its decision word and acts on it; one that has lost its leader records the loss and
goes by the other members' decision words, ABANDON where all answer and none tells. -/
def Obligations.GroupsVoteAndDecide : Prop :=
  ∀ (s : State) (c : Fin 64) (d : CtxLoad) (g : GroupDecl), (s.serve c).load = some d → d.group = some g →
    (∀ rcd : List Byte, g.me = g.leader → rcd.length = 16 → leAt rcd 0 8 = s.heatOf c → leAt rcd 10 1 = s.get (Reg.SCH_CTX_STATE_REPLAY c) →
      leAt rcd 8 1 < g.members → (s.serve c).decision = none →
      let member := leAt rcd 8 1
      let votes := ((s.serve c).votes.filter fun v => v.member != member) ++ [{ member := member, ready := leAt rcd 9 1 == 1 }]
      (leAt rcd 9 1 = 1 → (∃ m, m < g.members ∧ ∀ v ∈ votes, v.member = m → v.ready = false) →
        CompletesWith (.groupVote c rcd) s fun t =>
          (t.serve c).votes = votes ∧ (t.serve c).decision = none ∧ t.ctxState c = s.ctxState c ∧ SameMem s t ∧ RegsBut s t []) ∧
      (leAt rcd 9 1 = 2 → s.inHeat c = true →
        CompletesWith (.groupVote c rcd) s fun t =>
          (t.serve c).decision = some false ∧ t.get (Reg.SCH_CTX_STATE_UNCOMMITTABLE c) = 1 ∧ t.heatOf c = s.heatOf c ∧
            t.srv.grpSent = s.srv.grpSent ++ ((List.range g.members).filter (· != g.me)).map (fun m =>
              ((c : Nat), m, groupRecord (s.heatOf c) g.me 4 (s.get (Reg.SCH_CTX_STATE_REPLAY c)))) ∧ MemBut s t g.word 16) ∧
      (leAt rcd 9 1 = 1 → (∀ m, m < g.members → ∃ v ∈ votes, v.member = m ∧ v.ready = true) →
        s.plane.activating = [] →
        CompletesWith (.groupVote c rcd) s fun t =>
          t.ctxState c = ctxIdle ∧ (t.serve c).decision = some true ∧ t.heatOf c = (s.heatOf c + 1) % 2 ^ 64)) ∧
    (∀ rcd : List Byte, g.me ≠ g.leader → rcd.length = 16 → leAt rcd 0 8 = s.heatOf c → (s.serve c).decision = none →
      (leAt rcd 9 1 = 4 → s.inHeat c = true →
        CompletesWith (.groupDecision c rcd) s fun t =>
          (t.serve c).decision = some false ∧ t.get (Reg.SCH_CTX_STATE_UNCOMMITTABLE c) = 1 ∧ MemBut s t g.word 16 ∧
            t.mread g.word 16 = groupRecord (s.heatOf c) g.me 4 (leAt rcd 10 1) ∧ t.heatOf c = s.heatOf c) ∧
      (leAt rcd 9 1 = 3 → s.ctxState c = ctxVoted → s.plane.activating = [] →
        CompletesWith (.groupDecision c rcd) s fun t =>
          t.ctxState c = ctxIdle ∧ (t.serve c).decision = some true ∧ t.heatOf c = (s.heatOf c + 1) % 2 ^ 64)) ∧
    (∀ read : List (Fin 64), g.me = g.leader →
      ((s.serve c).decision = none → (s.serve c).awaitDecision = true →
        (s.stamp < (s.serve c).votedAt + ticksOfMs (s.get Reg.SCH_CTRL_GROUP_MS) →
          CompletesWith (.groupVoteTimeout c read) s fun t => OnlyRegs s t []) ∧
        ((s.serve c).votedAt + ticksOfMs (s.get Reg.SCH_CTRL_GROUP_MS) ≤ s.stamp → s.inHeat c = true →
          CompletesWith (.groupVoteTimeout c read) s fun t =>
            (t.serve c).decision = some false ∧ t.get (Reg.SCH_CTX_STATE_UNCOMMITTABLE c) = 1 ∧ MemBut s t g.word 16)) ∧
      (∀ yes, (s.serve c).decision = some yes →
        CompletesWith (.groupVoteTimeout c read) s fun t =>
          (t.serve c).undelivered = (s.serve c).undelivered.filter (fun m => !(read.map (·.val)).contains m) ∧ SameMem s t ∧ RegsBut s t [])) ∧
    (g.me ≠ g.leader → s.ctxState c = ctxVoted →
      (∀ read : List (Fin 64), CompletesWith (.groupVoteTimeout c read) s fun t => t.ctxState c = ctxVoted ∧ t.srv = s.srv ∧ SameMem s t) ∧
      ∀ answers : List (Option (List Byte)),
        let told := fun (what : Nat) => ∃ b, some b ∈ answers ∧ leAt b 0 8 = s.heatOf c ∧ leAt b 9 1 = what
        let committed := fun t : State =>
          t.ctxState c = ctxIdle ∧ (t.serve c).decision = some true ∧ t.heatOf c = (s.heatOf c + 1) % 2 ^ 64
        let abandoned := fun t : State =>
          (t.serve c).decision = some false ∧ (t.serve c).groupLost = true ∧ t.get (Reg.SCH_CTX_STATE_UNCOMMITTABLE c) = 1 ∧ SameMem s t
        let waiting := fun t : State => t.ctxState c = ctxVoted ∧ (t.serve c).groupLost = true ∧ (t.serve c).decision = (s.serve c).decision
        ((s.serve c).groupLost = false → (s.serve c).votedAt + ticksOfMs (16 * s.get Reg.SCH_CTRL_GROUP_MS) ≤ s.stamp →
          (told 3 → s.plane.activating = [] → CompletesWith (.leaderLost c answers) s committed) ∧
          (¬ told 3 → told 4 ∨ (∀ a ∈ answers, a.isSome = true) → CompletesWith (.leaderLost c answers) s abandoned) ∧
          (¬ told 3 → ¬ told 4 → none ∈ answers → CompletesWith (.leaderLost c answers) s waiting)) ∧
        ((s.serve c).groupLost = true →
          (told 3 → s.plane.activating = [] → CompletesWith (.decisionWordPoll c answers) s committed) ∧
          (¬ told 3 → told 4 ∨ (∀ a ∈ answers, a.isSome = true) → CompletesWith (.decisionWordPoll c answers) s abandoned) ∧
          (¬ told 3 → ¬ told 4 → none ∈ answers → CompletesWith (.decisionWordPoll c answers) s waiting)))


/-! Chapter 19: staging and activation. -/

/-- R450, R470 to R474, R512: a request to stage is refused while its slot is at work, answered with the fault of the check that fails, or STARTED, a
primary slot WRITING from then on; a staged object that verifies is written VALID, or is the next record; one that does not leaves a primary slot
empty and a golden set as it was; sectors that
fail to verify as it is written take spare sectors (R450). Quadrants are taken over at a boundary by a core on the new slot; a trial of 60 s without a fault ends with the slot active, a fault with the old one. -/
def Obligations.ObjectsAreStagedAndFirmwareIsHandedOver : Prop :=
  ∀ s : State,
    (∀ (m : CspMsg) (q : MgmtReq) (record : Bool) (g : Staging),
      let b := q.body
      b.length = 32 → leAt b 0 4 ≤ 63 → leAt b 4 4 ≤ 3 → leAt b 24 4 ≤ 2 → leAt b 28 4 = 0 → (record = true → leAt b 4 4 = 0 ∧ leAt b 24 4 = 0) →
      g = { record := record, target := leAt b 4 4, window := leAt b 0 4, off := leAt b 8 8, len := leAt b 16 8, activate := leAt b 24 4 } →
      let busy := s.plane.staging ≠ none ∨ (g.kind = 3 ∧ s.plane.activating ≠ []) ∨ (g.kind = 2 ∧ (s.nv.trial = true ∨ s.plane.handover ≠ none))
      let bad := s.get (Reg.ETH_ROCE_WIN_CFG_EN g.window) = 0 ∨ s.get (Reg.ETH_ROCE_WIN_CFG_R g.window) = 0 ∨
        65536 * s.get (Reg.ETH_ROCE_WIN_LEN_LEN g.window) < g.off + g.len ∨ g.len = 0 ∨
        (if record = true then 2 ^ 21 else if g.target ≤ 1 then 2 ^ 26 else 24 * 2 ^ 20) < g.len
      let onBusy := fun t : State => MgmtTold s t m q 0x10 [] [] ∧ t.plane = s.plane ∧ t.nv.slots = s.nv.slots ∧ SameMem s t
      let onBad := fun t : State =>
        MgmtTold s t m q 0 (leBytes 4 (256 * Flt.CFG_IMAGE)) [] ∧ t.plane = s.plane ∧ t.nv.slots = s.nv.slots ∧ SameMem s t
      let started := fun t : State =>
        MgmtTold s t m q 0 (leBytes 4 2) [] ∧ t.plane.staging = some g ∧ t.get Reg.CFG_STAGE_STATUS_BUSY = 1 ∧ t.get Reg.CFG_STAGE_STATUS_DONE = 0 ∧
          SameMem s t ∧ if record = true ∨ g.kind = 4 ∨ g.kind = 5 then t.nv.slots = s.nv.slots else (t.nvSlot (s.targetSlot g.kind)).state = 1
      (record = false → s.Allowed 0x50 [if leAt b 4 4 ≤ 1 then 2 else 1] m q →
        (busy → CompletesWith .stageImage s onBusy) ∧ (¬ busy → bad → CompletesWith .stageImage s onBad) ∧
          (¬ busy → ¬ bad → CompletesWith .stageImage s started)) ∧
      (record = true → s.Allowed 0x51 [2] m q →
        (busy → CompletesWith .deploymentRecord s onBusy) ∧ (¬ busy → bad → CompletesWith .deploymentRecord s onBad) ∧
          (¬ busy → ¬ bad → CompletesWith .deploymentRecord s started))) ∧
    (∀ (g : Staging) (body : StageBody) (n : Nat) (v : State) (b : List Byte), s.plane.staging = some g →
      s.winAccess g.window g.off g.len none = .done v b →
      let bad := v.verifyObj g.kind b body ≠ none ∨ leAt b 8 4 < v.lowest g.kind
      (bad → CompletesWith (.stagingComplete body n) s fun t =>
        t.plane.staging = none ∧ t.get Reg.CFG_STAGE_STATUS_FAILED = 1 ∧ t.get Reg.CFG_STAGE_STATUS_BUSY = 0 ∧ t.nv.record = s.nv.record ∧
          t.nv.next = s.nv.next ∧ SameMem s t ∧ (g.record = false →
            t.nvSlot (s.targetSlot g.kind) = if g.kind = 4 ∨ g.kind = 5 then s.nvSlot (s.targetSlot g.kind) else NvSlot.empty)) ∧
      (¬ bad → g.record = true →
        CompletesWith (.stagingComplete body n) s fun t =>
          t.plane.staging = none ∧ t.get Reg.CFG_STAGE_STATUS_DONE = 1 ∧ t.get Reg.CFG_STAGE_STATUS_BUSY = 0 ∧ t.nv.record = s.nv.record ∧
            t.nv.next = some (recordOf b body, beNat (sha384 (b.take (b.length - 128)))) ∧
            t.nv.spareSectors = s.nv.spareSectors - n ∧ SameMem s t) ∧
      (¬ bad → g.record = false → g.activate = 0 →
        let k := s.targetSlot g.kind
        CompletesWith (.stagingComplete body n) s fun t =>
          t.plane.staging = none ∧ t.get Reg.CFG_STAGE_STATUS_DONE = 1 ∧ (t.nvSlot k).state = 2 ∧ (t.nvSlot k).ok = true ∧
            (t.nvSlot k).version = leAt b 8 4 ∧ (t.nvSlot k).len = b.length ∧ t.mread (slotPlace k).1 b.length = b ∧
            t.nv.spareSectors = s.nv.spareSectors - n ∧ MemBut s t (slotPlace k).1 b.length)) ∧
    (∀ (h : HandOver) (q : Nat), s.plane.handover = some h → s.handoverDue = some q →
      (s.quadAtBoundary q = false → CompletesWith .quadrantTakeover s fun t => OnlyRegs s t []) ∧
      (s.quadAtBoundary q = true →
        (h.ready = [] → CompletesWith .quadrantTakeover s fun t =>
          t.plane.handover = some { h with paused := some q, restarting := [s.coreOf q] } ∧ t.coreOf q = s.coreOf q) ∧
        (∀ n rest, h.ready = n :: rest → CompletesWith .quadrantTakeover s fun t =>
          t.coreOf q = n % 8 ∧ (∀ k, k < 4 → k ≠ q → t.coreOf k = s.coreOf k) ∧
            ∃ x, t.plane.handover = some x ∧ x.quad = q + 1 ∧ x.ready = rest ∧ s.coreOf q ∈ x.restarting))) ∧
    (∀ (h : HandOver) (n : Fin 6), s.plane.handover = some h →
      (n.val ∉ h.restarting → CompletesWith (.controlCoreRestartDone n) s fun t => OnlyRegs s t []) ∧
      (n.val ∈ h.restarting →
        (h.paused = none → CompletesWith (.controlCoreRestartDone n) s fun t =>
          ∃ x, t.plane.handover = some x ∧ x.ready = h.ready ++ [n.val] ∧ n.val ∉ x.restarting ∧ x.quad = h.quad) ∧
        (∀ q, h.paused = some q → h.quad = q → CompletesWith (.controlCoreRestartDone n) s fun t =>
          ∃ x, t.plane.handover = some x ∧ x.quad = q + 1 ∧ x.paused = none))) ∧
    (s.eth.hjmDown = true → s.plane.hjmStopped = false →
      CompletesWith .hjelmarRestartDone s fun t =>
        t.eth.hjmDown = false ∧ SameMem s t ∧
          ∀ h, s.plane.handover = some h → h.quad = 4 → h.since = none →
            t.plane.handover = if h.back = true then none else some { h with since := some s.stamp }) ∧
    (s.nv.trial = false → ∀ fault : Bool, CompletesWith (.fwTrialEnd fault) s fun t => OnlyRegs s t []) ∧
    (s.nv.trial = true → s.nv.active ≤ 1 →
      (CompletesWith (.fwTrialEnd true) s fun t =>
        t.nv.trial = false ∧ t.nv.active = s.nv.active ∧ 1 - s.nv.active ∈ t.nv.trialFailed ∧ t.get Reg.CFG_BOOT_STATUS_LAST_FAULT = Flt.CFG_FW_TRIAL ∧
          ∃ x, t.plane.handover = some x ∧ x.slot = s.nv.active ∧ x.back = true) ∧
      ∀ (h : HandOver) (t0 : Nat), s.plane.handover = some h → h.since = some t0 →
        (s.stamp < t0 + 60 * 32768 → CompletesWith (.fwTrialEnd false) s fun t => OnlyRegs s t []) ∧
        (t0 + 60 * 32768 ≤ s.stamp →
          CompletesWith (.fwTrialEnd false) s fun t =>
            t.nv.trial = false ∧ t.nv.active = 1 - s.nv.active ∧ (t.nvSlot (1 - s.nv.active)).state = 3 ∧ t.plane.handover = none ∧ SameMem s t))


/-! Chapter 18: power and heat. -/

/-- R429 to R441, R444: the power manager's action takes the readings, moves the ceilings by temperature, puts the least of the budgets in force, and
then moves one quadrant, or every stack's share, by one step toward it, or holds the rate; domains go on, off and fail as their requests and conditions
say; a grant ends with its time; energy is charged to contexts by their busy steps and bytes, with remainders kept. -/
def Obligations.PowerIsKeptWithinItsBudget : Prop :=
  ∀ s : State,
    (∀ r : PowerReading, r.tj.length = 4 →
      (s.get Reg.CFG_BOOT_STATUS_PHASE < 6 → CompletesWith (.powerManagerAction r) s fun t => OnlyRegs s t []) ∧
      (6 ≤ s.get Reg.CFG_BOOT_STATUS_PHASE →
        let u := (s.powerRead r).budgetSet
        let limit := min 700000 (min (1000 * s.get Reg.PWR_LIMIT_LIMIT_W) (s.power.grant.getD (1000 * s.get Reg.PWR_LIMIT_DEFAULT_GRANT_W)))
        let above := 98 * limit < 10000 * r.p100.val
        let live := fun q => q < 4 ∧ u.quadLive q = true ∧ bit u.power.avsFail q = false
        let fl := fun q => (u.floorOf q).getD 0
        let runs := s.power.alert = false ∧ s.get Reg.PWR_CTRL_EN = 1 ∧ ∀ q, live q → u.opOf q ≤ u.targetOf q
        let share := fun k => u.get (Reg.STK_THROTTLE_SHARE k)
        (CompletesWith (.powerManagerAction r) s fun t =>
          t.get Reg.PWR_AVG_LAST_100US = r.p100 ∧ t.power.readings = (r.p100.val :: s.power.readings).take 10 ∧ t.power.lMw = limit ∧
            t.get Reg.PWR_STATUS_L_W = limit / 1000 % 1024 ∧ SameMem s t ∧ t.power.belowRuns = (if above then 0 else s.power.belowRuns + 1) ∧
            (s.power.alert = true ∨ s.get Reg.PWR_CTRL_EN = 0 → ∀ q, q < 4 → t.opOf q = s.opOf q) ∧
            ∀ (q : Nat) (x : Fin 256), r.tj[q]? = some x →
              t.get (Reg.PWR_Q_STATUS_TJ_C q) = x ∧
                t.ceilingOf q = if 105 ≤ x.val then s.ceilingOf q - 1
                  else if x.val < 100 ∧ 100 ≤ Tab.get (fun _ => 0) s.power.coolRuns q + 1 then min 7 (s.ceilingOf q + 1) else s.ceilingOf q) ∧
        (∀ q, runs → above → live q → fl q < u.opOf q →
          (∀ x, live x → fl x < u.opOf x → x = q ∨ u.opOf x < u.opOf q ∨ (u.opOf x = u.opOf q ∧ r.excess.getD x 0 < r.excess.getD q 0)) →
          CompletesWith (.powerManagerAction r) s fun t =>
            t.opOf q = u.opOf q - 1 ∧ (∀ x, x < 4 → x ≠ q → t.opOf x = s.opOf x) ∧ ∀ k, k < 32 → t.get (Reg.STK_THROTTLE_SHARE k) = share k) ∧
        (runs → above → (∀ q, live q → u.opOf q ≤ fl q) →
          ((∃ k, k < 32 ∧ 1 < share k) → CompletesWith (.powerManagerAction r) s fun t =>
            ∀ k, k < 32 → t.get (Reg.STK_THROTTLE_SHARE k) = min (max 1 (share k - 1)) (u.shareCap k)) ∧
          ((∀ k, k < 32 → share k ≤ 1) → CompletesWith (.powerManagerAction r) s fun t =>
            t.get Reg.PWR_STATUS_RATE_HELD = 1 ∧ ∀ q, q < 4 → t.opOf q = s.opOf q)) ∧
        (runs → ¬ above →
          ((∃ k, k < 32 ∧ share k < u.shareCap k) → 10000 * (r.p100 + r.stackStep) ≤ 98 * limit →
            CompletesWith (.powerManagerAction r) s fun t =>
              (∀ k, k < 32 → t.get (Reg.STK_THROTTLE_SHARE k) = min (share k + 1) (u.shareCap k)) ∧ ∀ q, q < 4 → t.opOf q = s.opOf q) ∧
          (∀ q, (∀ k, k < 32 → u.shareCap k ≤ share k) → live q → u.opOf q < u.targetOf q → 10000 * (r.p100 + r.quadStep.getD q 0) ≤ 98 * limit →
            (∀ x, live x → u.opOf x < u.targetOf x → x = q ∨ u.opOf q < u.opOf x ∨ (u.opOf x = u.opOf q ∧ r.excess.getD q 0 < r.excess.getD x 0)) →
            CompletesWith (.powerManagerAction r) s fun t => t.opOf q = u.opOf q + 1 ∧ ∀ x, x < 4 → x ≠ q → t.opOf x = s.opOf x) ∧
          (99 ≤ s.power.belowRuns → CompletesWith (.powerManagerAction r) s fun t => t.get Reg.PWR_STATUS_RATE_HELD = 0)))) ∧
    (∀ (w : Fin 2) (v : Word) (i : Nat), i < 32 → 32 * w.val + i < 49 →
      (∀ j, j < 32 → j ≠ i → bit v.toNat j = s.domAsked (32 * w + j)) →
      let n := 32 * w.val + i
      (bit v.toNat i = true → CompletesWith (.domReqWrite w v) s fun t => t.domAsked n = true ∧ OnlyRegs s t [Reg.aPWR_DOM_REQ w]) ∧
      (bit v.toNat i = false → s.domAsked n = true → s.mayTurnOff n = false →
        CompletesWith (.domReqWrite w v) s fun t =>
          OnlyRegs s t [Reg.aPWR_DOM_ERR] ∧ t.get Reg.PWR_DOM_ERR_DOMAIN = n ∧ t.get Reg.PWR_DOM_ERR_REFUSED = 1) ∧
      (bit v.toNat i = false → s.domAsked n = true → s.mayTurnOff n = true →
        CompletesWith (.domReqWrite w v) s fun t =>
          t.domAsked n = false ∧ t.domReady n = false ∧
            (n < 32 → t.get (Reg.STK_STATUS_READY n) = 0 ∧ ∀ a, n * stackSize ≤ a → a < (n + 1) * stackSize → t.mem.read a = 0) ∧
            ∀ p, p < 72 → groupOfField p + 32 = n → ∀ a, a < 2 ^ 24 → t.mem.read (fmLoc p a) = 0)) ∧
    (∀ n : Fin 50,
      (s.domAsked n = false ∨ s.domReady n = true →
        (CompletesWith (.domainReady n) s fun t => OnlyRegs s t []) ∧ CompletesWith (.domainFail n) s fun t => OnlyRegs s t []) ∧
      (s.domAsked n = true → s.domReady n = false →
        (CompletesWith (.domainFail n) s fun t =>
          t.get Reg.PWR_DOM_ERR_DOMAIN = n ∧ t.get Reg.PWR_DOM_ERR_FAILED = 1 ∧ t.domAsked n = true ∧ t.domReady n = false ∧ SameMem s t) ∧
        (s.board.rails = true → CompletesWith (.domainReady n) s fun t =>
          t.domReady n = true ∧ t.domAsked n = true ∧ ((n : Nat) < 32 → t.get (Reg.STK_STATUS_READY n) = 1) ∧
            ∀ g, (n : Nat) = 32 + g → g < 8 → (bit t.board.released g = true ↔ s.board.gridStarted = true ∨ bit s.board.released g = true)))) ∧
    (∀ mw, s.power.grant = some mw →
      (s.stamp < s.power.grantAt + ticksOfMs s.power.ttlMs → CompletesWith .grantExpiry s fun t => OnlyRegs s t []) ∧
      (s.power.grantAt + ticksOfMs s.power.ttlMs ≤ s.stamp → CompletesWith .grantExpiry s fun t =>
        t.power.grant = none ∧ t.power.grantSeq = none ∧ t.get Reg.PWR_STATUS_GRANT_EXPIRED = 1 ∧
          t.power.lMw = min 700000 (min (1000 * s.get Reg.PWR_LIMIT_LIMIT_W) (1000 * s.get Reg.PWR_LIMIT_DEFAULT_GRANT_W)) ∧ SameMem s t)) ∧
    (∀ x : TelRec, 6 ≤ s.get Reg.CFG_BOOT_STATUS_PHASE → 1 ≤ s.get Reg.TEL_CTRL_LOG_MIN →
      x = { cls := 2, level := 1, source := srcOf 5 (s.coreOf 0), stamp := s.stamp, code := 0, ctx := none, part := none, count := 1,
            body := .power (s.powerBody ++ List.replicate 8 0) } →
      s.StageTakes (collectorKey (s.coreOf 0 % 4)) x →
      CompletesWith .powerRecord s fun t =>
        (t.stage (collectorKey (s.coreOf 0 % 4))).recs = (s.stage (collectorKey (s.coreOf 0 % 4))).recs ++ [x] ∧ RegsBut s t [] ∧ SameMem s t) ∧
    ∀ (total : Nat) (groups : List Nat) (c : Fin 64),
      let busy := fun g (c : Nat) => Tab.get (fun _ => 0) s.srv.busy (64 * g + c)
      let all := fun g => ((List.range 64).map (busy g)).sum
      let share := fun (c : Nat) => 10 * Tab.get (fun _ => 0) s.srv.stackBytes c +
        (((groups.take 8).zipIdx.filter fun x => all x.2 != 0).map fun x => 1000 * x.1 * busy x.2 c / all x.2).sum
      let pj := fun (k n : Nat) => Tab.get (fun _ => 0) s.power.remPj k + n
      let rest := 1000 * total - ((List.range 64).map share).sum
      CompletesWith (.energyAttribution total groups) s fun t =>
        t.pair (Reg.aPWR_E_STREAM_LO c) = (if share c = 0 then s.pair (Reg.aPWR_E_STREAM_LO c)
          else (s.pair (Reg.aPWR_E_STREAM_LO c) + pj c (share c) / 10 ^ 6) % 2 ^ 64) ∧
          (share c ≠ 0 → Tab.get (fun _ => 0) t.power.remPj c = pj c (share c) % 10 ^ 6) ∧
          t.pair Reg.aPWR_E_UNATTR_LO = (s.pair Reg.aPWR_E_UNATTR_LO + pj 64 rest / 10 ^ 6) % 2 ^ 64 ∧
          Tab.get (fun _ => 0) t.power.remPj 64 = pj 64 rest % 10 ^ 6 ∧ t.srv.busy = [] ∧ t.srv.stackBytes = [] ∧ SameMem s t

/-- R442, R443, R446 to R448, R554: a regulator alert clamps every pacer to 700 M steps/s and takes every quadrant to OP0 and every stack to its alert
share, and its end leaves the shares to rise again; over-temperature stops a quadrant with its heats abandoned, and it comes back once cool; comparator
5 records, alerts or stops as its ACTION says. -/
def Obligations.AlertsAndTripsActAtOnce : Prop :=
  ∀ s : State,
    let clampedBy := fun t : State => t.power.alert = true ∧ t.get Reg.PWR_STATUS_ALERT_ACTIVE = 1 ∧
      (∀ p, p < 72 → (t.field p).pacer.clamp = 700) ∧ (∀ q, q < 4 → t.opOf q = 0) ∧ (∀ k, k < 32 → t.get (Reg.STK_THROTTLE_ALERT_ACTIVE k) = 1) ∧
      t.power.alertSince = s.stamp ∧ SameMem s t
    let released := fun t : State => t.power.alert = false ∧ (∀ k, k < 32 → t.get (Reg.STK_THROTTLE_ALERT_ACTIVE k) = 0 ∧
      t.get (Reg.STK_THROTTLE_SHARE k) = min (min (s.get (Reg.STK_THROTTLE_SHARE k)) (s.get (Reg.STK_THROTTLE_ALERT_SHARE k))) (s.shareCap k)) ∧
      (∀ p, p < 72 → (t.field p).pacer = (s.field p).pacer) ∧ (∀ q, q < 4 → t.opOf q = s.opOf q) ∧ SameMem s t
    (s.outOfReset = true → s.board.vbr = true → s.power.alert = false →
      CompletesWith .regAlertAssert s fun t => t.board.alertPin = true ∧ clampedBy t) ∧
    (s.outOfReset = false → CompletesWith .regAlertAssert s fun t => t.board.alertPin = true ∧ t.power = s.power ∧ t.fields = s.fields ∧ RegsBut s t []) ∧
    (s.power.alert = true → s.board.alertExt = false → CompletesWith .regAlertDeassert s fun t => t.board.alertPin = false ∧ released t) ∧
    (s.board.alertExt = true → CompletesWith .regAlertDeassert s fun t => t.board.alertPin = false ∧ t.power = s.power ∧ RegsBut s t []) ∧
    (s.power.alert = true → s.power.alertSince + 328 ≤ s.stamp →
      CompletesWith .alertEscalate s fun t => RegsBut s t [] ∧ SameMem s t ∧
        ∃ x : TelRec, x.cls = 1 ∧ x.level = 1 ∧ x.code = Flt.PWR_ALERT ∧ (x ∈ (t.stage (collectorKey 0)).recs ∨ (collectorKey 0, x) ∈ t.tel.held)) ∧
    (s.power.alert = false ∨ s.stamp < s.power.alertSince + 328 → CompletesWith .alertEscalate s fun t => OnlyRegs s t []) ∧
    (∀ q : Fin 4, s.outOfReset = true → (s.trip q).stopped = false →
      CompletesWith (.overTemperatureTrip q) s fun t =>
        QuadStopped t q ∧ bit (t.get Reg.BRK_CMP_STATUS_LIVE) q = true ∧ bit (t.get Reg.BRK_CMP_STATUS_LATCHED) q = true ∧
          ∀ c ∈ s.ctxsOn q, s.inHeat c = true → s.ctxState c ≠ ctxVoted → (s.serve c).swapped = 0 → t.inHeat c = false) ∧
    (∀ q : Fin 4, (s.trip q).stopped = true →
      let x := s.trip q
      let cool := s.get (Reg.PWR_Q_STATUS_TJ_C q) < 95 ∧ x.final = false ∧ (x.byExt = true → s.board.extBeyond = false)
      (x.byRail = false → cool → CompletesWith (.tripRecovery q) s fun t => QuadRestored t q) ∧
      (x.byRail = true ∨ ¬ cool → CompletesWith (.tripRecovery q) s fun t => OnlyRegs s t []) ∧
      (x.byRail = true →
        (cool → CompletesWith (.gridRailRecovery q) s fun t => QuadRestored t q) ∧
        (¬ cool → CompletesWith (.gridRailRecovery q) s fun t => (t.trip q).byRail = false ∧ (t.trip q).stopped = true ∧ RegsBut s t [] ∧ SameMem s t))) ∧
    (s.outOfReset = true →
      (s.get (Reg.BRK_CMP_CFG_EN 5) = 0 → CompletesWith .extSenseCrossing s fun t => RegsBut s t [] ∧ t.board.extBeyond = true ∧ t.power = s.power) ∧
      (s.get (Reg.BRK_CMP_CFG_EN 5) = 1 →
        (s.get (Reg.BRK_CMP_CFG_ACTION 5) = 0 → CompletesWith .extSenseCrossing s fun t =>
          bit (t.get Reg.BRK_CMP_STATUS_LATCHED) 5 = true ∧ t.power = s.power ∧ t.fields = s.fields) ∧
        (s.get (Reg.BRK_CMP_CFG_ACTION 5) = 1 → s.power.alert = false → CompletesWith .extSenseCrossing s fun t =>
          bit (t.get Reg.BRK_CMP_STATUS_LATCHED) 5 = true ∧ t.board.alertExt = true ∧ clampedBy t) ∧
        (s.get (Reg.BRK_CMP_CFG_ACTION 5) = 2 → (∀ q, q < 4 → (s.trip q).stopped = false) →
          CompletesWith .extSenseCrossing s fun t => ∀ q, q < 4 → QuadStopped t q ∧ (t.trip q).byExt = true))) ∧
    (s.power.alert = true → s.board.alertPin = false → CompletesWith .extSenseReturn s fun t =>
      bit (t.get Reg.BRK_CMP_STATUS_LIVE) 5 = false ∧ t.board.extBeyond = false ∧ released t) ∧
    (s.power.alert = false → CompletesWith .extSenseReturn s fun t =>
      bit (t.get Reg.BRK_CMP_STATUS_LIVE) 5 = false ∧ t.board.extBeyond = false ∧ RegsBut s t [Reg.aBRK_CMP_STATUS] ∧ SameMem s t)


/-! Chapters 19 and 24: reset and start-up. -/

/-- R448, R453, R463, R466 to R468, R551 to R556: POR_N, a brown-out and the loss of a supply or of REFCLK_SYS leave the part in reset with its NV store
as it was; a failing grid rail stops its quadrant; once POR_N is high and VBR, the rails and the clock are there, BOOT_MODE decides between the boot ROM
alone and the start-up up to Order 7; the loss of REFCLK_SD takes every SerDes port down, its return trains them. -/
def Obligations.ResetsAndSuppliesStartAndStopThePart : Prop :=
  ∀ s : State,
    (CompletesWith .porAssert s fun t => AfterReset s t .por ∧ t.board.porHigh = false) ∧
    (CompletesWith .brownOut s fun t => AfterReset s t .brownOut ∧ t.board.vbr = false) ∧
    (s.outOfReset = true →
      (CompletesWith .refclkSysLoss s fun t => AfterReset s t (.supply 16) ∧ t.board.rails = false) ∧
      (∀ r : Fin 10, 4 ≤ r.val → CompletesWith (.railFault r) s fun t =>
        AfterReset s t (.supply (if r.val = 9 then Config.ioDetail else r)) ∧ t.board.rails = false) ∧
      ∀ q : Fin 4, (s.trip q).stopped = false → CompletesWith (.railFault ⟨q, by omega⟩) s fun t => QuadStopped t q ∧ (t.trip q).byRail = true) ∧
    (s.outOfReset = false → CompletesWith .refclkSysLoss s fun t => t.board.rails = false ∧ t.nv = s.nv ∧ RegsBut s t [] ∧ SameMem s t) ∧
    (∀ b : BootInput,
      s.board.held = some .por → s.board.alertPin = false → s.nv.map.InRange → b.auditMissing = 0 → b.auditTorn = false →
      let plain := b.slotsBad = [] ∧ s.nv.next = none ∧ s.nv.onStart = []
      let primary := plain ∧ s.nv.trial = false ∧ s.nv.active ≤ 1 ∧ s.nv.gridForce ≤ 1 ∧ s.fwGood s.nv.active = true ∧
        (s.nvSlot (3 + s.nv.gridForce)).state = 3 ∧ (s.nvSlot (3 + s.nv.gridForce)).ok = true ∧ s.power.alert = false ∧
        s.plane.goldenFw = false ∧ s.plane.goldenGrid = false
      let golden := plain ∧ s.slotGood 2 = true ∧ s.slotGood 5 = true
      let romOnly := fun t : State =>
        t.board.held = none ∧ t.board.faultHold = 0 ∧ t.get Reg.CFG_BOOT_STATUS_PHASE = 3 ∧ t.get Reg.CFG_BOOT_STATUS_BOOT_MODE = 3 ∧
          t.nv.boots = s.nv.boots + 1 ∧ t.board.outputs = s.board.outputs ∧ t.board.step = s.board.step
      let started := fun t : State =>
        t.board.held = none ∧ t.board.faultHold = 0 ∧ t.get Reg.CFG_BOOT_STATUS_PHASE = 7 ∧ t.get Reg.CFG_BOOT_STATUS_BOOT_MODE = 1 ∧
          t.get Reg.CFG_BOOT_STATUS_GOLDEN = s.get Reg.CFG_BOOT_STATUS_GOLDEN ∧ t.nv.boots = s.nv.boots + 1 ∧ t.board.step = some 0 ∧
          t.get Reg.TEL_BUF_BASE_BASE = 1536 + b.telBuf.val ∧
          (∀ q, q < 4 → t.opOf q = 4) ∧ (∀ n, n < 32 ∨ (40 ≤ n ∧ n < 50) → t.domAsked n = true) ∧
          (s.nv.record.steps = none → (List.range 16).map (fun n => t.rdN (Reg.aCFG_STEP n)) = [1, 2, 3, 4, 0] ++ List.replicate 11 0)
      let onGolden := fun t : State =>
        t.get Reg.CFG_BOOT_STATUS_GOLDEN = 1 ∧ t.get Reg.CFG_BOOT_STATUS_PHASE = 7 ∧ t.fwSlot = 2 ∧ t.gridSlot = 5 ∧ t.board.held = none
      (s.board.porHigh = false → s.board.vbr = true → s.board.rails = true →
        CompletesWith (.porRelease 3 b) s romOnly ∧ (primary → CompletesWith (.porRelease 1 b) s started) ∧
          (golden → CompletesWith (.porRelease 2 b) s onGolden)) ∧
      (s.board.vbr = false → s.board.porHigh = true → s.board.rails = true →
        (s.board.strap = 3 → CompletesWith (.vbrInRange b) s romOnly) ∧ (s.board.strap = 1 → primary → CompletesWith (.vbrInRange b) s started) ∧
          (s.board.strap = 2 → golden → CompletesWith (.vbrInRange b) s onGolden)) ∧
      (s.board.vbr = true → s.board.porHigh = true →
        (s.board.strap = 3 → CompletesWith (.railsAndClockReady b) s romOnly) ∧
          (s.board.strap = 1 → primary → CompletesWith (.railsAndClockReady b) s started) ∧
          (s.board.strap = 2 → golden → CompletesWith (.railsAndClockReady b) s onGolden))) ∧
    (∀ (strap : Fin 4) (b : BootInput), s.board.porHigh = false → s.board.vbr = false ∨ s.board.rails = false ∨ s.board.held = none →
      CompletesWith (.porRelease strap b) s fun t =>
        t.board.porHigh = true ∧ t.board.strap = strap ∧ t.board.held = s.board.held ∧ t.nv = s.nv ∧ RegsBut s t [] ∧ SameMem s t) ∧
    (∀ b : BootInput, s.board.vbr = false → s.nv.map.InRange → CompletesWith (.vbrInRange b) s fun t => t.stamp = 0 ∧ t.board.vbr = true) ∧
    (CompletesWith .refclkSdLoss s fun t =>
      t.board.refclkSd = false ∧ SameMem s t ∧ t.get Reg.ETH_PORT_STATUS_LINK_UP = 0 ∧ ∀ n, n < 4 → t.get (Reg.QPL_PORT_STATUS_LINK_UP n) = 0) ∧
    CompletesWith .refclkSdReturn s fun t =>
      t.board.refclkSd = true ∧ SameMem s t ∧ ∀ n, n < 4 → s.get (Reg.QPL_PORT_CTRL_EN n) = 1 → s.domReady (40 + n) = true →
        s.get (Reg.QPL_PORT_STATUS_LINK_UP n) = 0 → t.get (Reg.QPL_PORT_STATUS_TRAINING n) = 1

/-- R456, R465, R467: each step of Order 8 takes effect in its turn and makes way for the next: locks, outputs, the grid, writes, a domain, a time; END
applies the deployment record and asserts DEV_OK; a step that fails leaves the part serving management alone, with FAULT_N asserted. -/
def Obligations.StartUpStepsRunInOrder : Prop :=
  ∀ s : State,
    (∀ x ∈ [(Instr.waitLock, 1), (.releaseOutputs, 2), (.releaseGrid, 3), (.enableWrites, 4), (.powerOn, 5), (.startupWait, 6), (.endStep, 0)],
      ¬ s.StepAt x.2 → CompletesWith x.1 s fun t => OnlyRegs s t []) ∧
    (∀ n, s.board.step = some n →
      let done := fun (k : Nat) (t : State) =>
        t.get Reg.CFG_BOOT_STATUS_PHASE = 8 ∧ t.board.step = some (n + 1) ∧ RegsBut s t [Reg.aCFG_BOOT_STATUS] ∧ SameMem s t ∧
          t.board.outputs = (s.board.outputs || k == 2) ∧ t.board.gridStarted = (s.board.gridStarted || k == 3) ∧
          t.get Reg.CFG_BOOT_STATUS_WRITES_EN = (if k = 4 then 1 else s.get Reg.CFG_BOOT_STATUS_WRITES_EN) ∧
          ∀ g, g < 8 → bit t.board.released g = (bit s.board.released g || (k == 3 && s.domReady (32 + g)))
      (s.StepAt 1 → CompletesWith .waitLock s (done 1)) ∧ (s.StepAt 2 → CompletesWith .releaseOutputs s (done 2)) ∧
        (s.StepAt 3 → CompletesWith .releaseGrid s (done 3)) ∧ (s.StepAt 4 → CompletesWith .enableWrites s (done 4)) ∧
        (s.StepAt 6 → CompletesWith .startupWait s (done 6))) ∧
    (∀ n, s.board.step = some n → s.StepAt 5 →
      let d := s.get (Reg.CFG_STEP_ARG n)
      d < 49 → CompletesWith .powerOn s fun t =>
        t.domAsked d = true ∧ t.domReady d = s.domReady d ∧ SameMem s t ∧
          t.board.step = some (if s.domReady d = true then n + 1 else n)) ∧
    (s.StepAt 0 → CompletesWith .endStep s fun t =>
      t.get Reg.CFG_BOOT_STATUS_PHASE = 9 ∧ t.board.step = none ∧ t.board.devOk = true ∧ t.get Reg.ETH_PORT_CTRL_EN = 1 ∧ SameMem s t ∧
        (s.nv.record.routes = [] →
          (∀ p, p < 16 → t.get (Reg.SCH_PART_CFG_EXISTS p) = b2n (s.nv.record.parts.any fun e => e.1.val == p)) ∧
          t.get Reg.ETH_PORT_CTRL_UNTAGGED_EN = b2n s.nv.record.untagged ∧
          t.get Reg.XLT_DEVICE_ID_VALID = b2n s.nv.record.device.isSome ∧
          (∀ d, s.nv.record.device = some d → t.get Reg.XLT_DEVICE_ID_DEVICE = d) ∧
          t.get Reg.PWR_LIMIT_LIMIT_W = (s.nv.record.power.getD (700, 700)).1 % 1024)) ∧
    (s.StepAt 1 ∨ s.StepAt 5 → CompletesWith .startupStepFail s fun t =>
      t.get Reg.CFG_BOOT_STATUS_LAST_FAULT = Flt.CFG_STEP ∧ bit t.board.faultHold 5 = true ∧ t.board.devOk = false ∧ t.board.outputs = true ∧
        t.board.step = none ∧ t.get Reg.ETH_PORT_CTRL_EN = 1 ∧ t.domAsked 44 = true ∧ SameMem s t) ∧
    (¬ s.StepAt 1 → ¬ s.StepAt 5 → CompletesWith .startupStepFail s fun t => OnlyRegs s t [])


/-! Chapter 21: continuous service. -/

/-- R502 to R506: a migration asked for by firmware or a fault takes the next spare of the quadrant, LOST where none is left on a fault; contexts
still within a heat after MIGRATE_WAIT_MS are descheduled; once every context of the Field rests, memory, units and slots move and the map names
the new Field; an error of the new Field leaves the logical Field where it was. -/
def Obligations.MigrationsMoveALogicalField : Prop :=
  ∀ (s : State) (q : Fin 4),
    (s.get Reg.CFG_BOOT_STATUS_PHASE < 6 ∨ (s.migration q).isSome = true ∨ s.migrationNext q = none →
      CompletesWith (.fieldMigration q) s fun t => OnlyRegs s t []) ∧
    (∀ x src, 6 ≤ s.get Reg.CFG_BOOT_STATUS_PHASE → s.migration q = none → s.migrationNext q = some x → s.physOf x.lfield = some src →
      (s.freeFields q = [] →
        (x.fault = 0 → CompletesWith (.fieldMigration q) s fun t => RegsBut s t [] ∧ SameMem s t ∧
          t.plane.queued = s.plane.queued.filter fun z => z.lfield != x.lfield) ∧
        (x.fault ≠ 0 → CompletesWith (.fieldMigration q) s fun t => t.get (Reg.DEV_FIELD_MAP_LOST x.lfield) = 1 ∧ t.physOf x.lfield = none)) ∧
      ∀ dst rest, s.freeFields q = dst :: rest → CompletesWith (.fieldMigration q) s fun t =>
        t.migration q = some { x with src := src, dst := dst, phase := 3, since := s.stamp } ∧ t.physOf x.lfield = some src ∧
          t.get (Reg.DEV_FIELD_MAP_MIGRATING x.lfield) = 1 ∧ t.domAsked (32 + groupOfField dst) = true ∧
          t.get Reg.DEV_MIGRATE_STATUS_BUSY = 1 ∧ t.get Reg.DEV_MIGRATE_STATUS_LFIELD = x.lfield ∧ t.get Reg.DEV_MIGRATE_STATUS_TARGET = dst ∧
          (s.fieldPowered dst = false → ∀ c ∈ s.ctxsAt src, s.ctxState c = ctxIdle → x.lfield ∈ (t.serve c).held) ∧ SameMem s t) ∧
    (∀ v : Word,
      let m := bits v.toNat 5 0
      (bits v.toNat 23 16 = 0 → CompletesWith (.migrate v) s fun t => OnlyRegs s t []) ∧
      (bits v.toNat 23 16 ≠ 0 →
        (bit v.toNat 6 = false ∨ (s.migration (m / 16)).isSome = true ∨ s.freeFields (m / 16) = [] ∨ s.physOf m = none →
          CompletesWith (.migrate v) s fun t => OnlyRegs s t [Reg.aDEV_MIGRATE_CTRL] ∧ t.get Reg.DEV_MIGRATE_CTRL_LFIELD = m ∧
            t.get Reg.DEV_MIGRATE_CTRL_MIGRATE_WAIT_MS = bits v.toNat 23 16) ∧
        (bit v.toNat 6 = true → s.migration (m / 16) = none → s.freeFields (m / 16) ≠ [] → (s.physOf m).isSome = true →
          (∀ e ∈ s.plane.migrations, e.2.lfield ≠ m) → CompletesWith (.migrate v) s fun t =>
            (∃ x ∈ t.plane.queued, x.lfield = m) ∧ RegsBut s t [Reg.aDEV_MIGRATE_CTRL] ∧ SameMem s t))) ∧
    (s.migration q = none →
      (CompletesWith (.migrateWaitExpiry q) s fun t => OnlyRegs s t []) ∧
        ∀ e, CompletesWith (.migrationCopyDone q e) s fun t => OnlyRegs s t []) ∧
    ∀ x, s.migration q = some x → x.lfield < 64 → x.src < 72 → x.dst < 72 → x.src ≠ x.dst →
      let wait := ticksOfMs (s.get Reg.DEV_MIGRATE_CTRL_MIGRATE_WAIT_MS)
      (x.phase ≠ 3 ∨ s.stamp < x.since + wait → CompletesWith (.migrateWaitExpiry q) s fun t => OnlyRegs s t []) ∧
      (x.phase = 3 → x.since + wait ≤ s.stamp → CompletesWith (.migrateWaitExpiry q) s fun t =>
        t.migration q = some { x with phase := 4 } ∧ t.get Reg.DEV_MIGRATE_STATUS_PHASE = 4 ∧ SameMem s t ∧
          ∀ c ∈ s.ctxsAt x.src, x.lfield ∈ (t.serve c).held ∧ (s.ctxState c = ctxRunning ∨ s.ctxState c = ctxSuspended → t.ctxActive c = false)) ∧
      (s.copyReady x = false → CompletesWith (.migrationCopyDone q false) s fun t => OnlyRegs s t []) ∧
      (s.copyReady x = true → (s.copyFlush x.src).2 = false → CompletesWith (.migrationCopyDone q false) s fun t => t = (s.copyFlush x.src).1) ∧
      (s.copyReady x = true → s.MemoryCanonical → (∀ e ∈ s.bad, e.2 = false) → (s.field x.src).fm.lines = [] →
        (∀ c ∈ s.ctxsAt x.src, s.cacheSending x.src c = false) → s.GridPlain x.src → CompletesWith (.migrationCopyDone q false) s fun t =>
        t.get (Reg.DEV_FIELD_MAP_PHYS x.lfield) = x.dst ∧ t.get (Reg.DEV_FIELD_MAP_MIGRATING x.lfield) = 0 ∧ t.get Reg.DEV_MIGRATE_STATUS_DONE = 1 ∧
          t.migration q = none ∧ x.src ∈ t.nv.map.retired ∧
          (∀ a, a < 2 ^ 24 → t.mem.read (fmLoc x.dst a) = s.mem.read (fmLoc x.src a) ∧ t.mem.read (fmLoc x.src a) = 0) ∧
          (∀ m a, m < 16 → a < 2 ^ 18 → t.mem.read (muLoc x.dst m a) = s.mem.read (muLoc x.src m a) ∧ t.mem.read (muLoc x.src m a) = 0) ∧
          ∀ a, a < 2 ^ 44 → t.mem.read a = s.mem.read a) ∧
      CompletesWith (.migrationCopyDone q true) s fun t =>
        t.physOf x.lfield = s.physOf x.lfield ∧ t.get (Reg.DEV_FIELD_MAP_MIGRATING x.lfield) = 0 ∧ t.get Reg.DEV_MIGRATE_STATUS_ABANDONED = 1 ∧
          t.migration q = none ∧ x.dst ∈ t.nv.map.retired

/-- R500, R508 to R518: the quadrant of a core that fails goes to a spare, to its partner's core, or to none; Hjelmar's third mismatch within one
hour leaves it in reset with FAULT_N asserted; a parity error stops a leg and marks it for reloading; an engine reads one leg after the other; a seam
direction that fails takes its routes away and its heats with it, until it retrains; wear counts go into the spare map. -/
def Obligations.CoresHjelmarLegsAndSeamsFailAndRecover : Prop :=
  ∀ s : State,
    let up := 6 ≤ s.get Reg.CFG_BOOT_STATUS_PHASE
    (∀ n : Fin 6,
      let failed := s.get Reg.DEV_CORE_MAP_FAILED
      let idle := ¬ up ∨ (∀ q, q < 4 → s.coreOf q ≠ n) ∨ bit failed n = true
      (idle → CompletesWith (.heartbeatMiss n) s fun t => OnlyRegs s t []) ∧
      (idle → CompletesWith (.controlCoreUncorrReport n) s fun t => OnlyRegs s t []) ∧
      ∀ q, q < 4 → up → s.plane.handover = none → bit failed n = false → s.coreOf q = n → (∀ x, x < 4 → x ≠ q → s.coreOf x ≠ n) →
        let m := s.coreOf (partnerOf q)
        let takenBy := fun (k : Nat) (t : State) =>
          t.coreOf q = k ∧ bit (t.get Reg.DEV_CORE_MAP_FAILED) n = true ∧ ∀ x, x < 4 → x ≠ q → t.coreOf x = s.coreOf x
        (∀ k rest, s.freeCores = k :: rest →
          CompletesWith (.heartbeatMiss n) s (takenBy k) ∧ CompletesWith (.controlCoreUncorrReport n) s (takenBy k)) ∧
        (s.freeCores = [] →
          CompletesWith (.heartbeatMiss n) s (takenBy (if m = 7 ∨ bit failed m = true then 7 else m)) ∧
            CompletesWith (.controlCoreUncorrReport n) s (takenBy (if m = 7 ∨ bit failed m = true then 7 else m)))) ∧
    (¬ up ∨ s.plane.hjmStopped = true → CompletesWith .hjelmarLockstep s fun t => OnlyRegs s t []) ∧
    (up → s.plane.hjmStopped = false →
      let again := decide (2 ≤ (s.plane.mismatches.filter fun t => decide (s.stamp < t + 3600 * 32768)).length)
      CompletesWith .hjelmarLockstep s fun t =>
        t.eth.hjmDown = true ∧ t.eth.nonces = [] ∧ t.plane.hjmStopped = again ∧ (again = true → bit t.board.faultHold 7 = true) ∧
          (again = false → t.board.faultHold = s.board.faultHold) ∧ RegsBut s t [] ∧ SameMem s t) ∧
    (∀ (p : Fin 72) (u : Fin 32) (x : Fin 8),
      (∀ l, s.leg p u x = some l → s.legLive p u x l = true → s.gridRuns p = true →
        CompletesWith (.legParityUpset p u x) s fun t =>
          t.legFaulted p u x = true ∧ legKey p u x ∈ t.plane.badLegs ∧ (∀ c, s.ctxOf p l.slot = some c → t.get (Reg.SCH_CTX_STATE_UNCOMMITTABLE c) = 1) ∧
            SameMem s t) ∧
      (s.gridRuns p = false ∨ (∀ l, s.leg p u x = some l → s.legLive p u x l = false) →
        CompletesWith (.legParityUpset p u x) s fun t => OnlyRegs s t [])) ∧
    (∀ (e : Fin 8) (flips : List (Fin 2048)),
      let pos := Tab.get (fun _ => 0) s.plane.scrubs e
      let next := (pos + 1) % 2304
      let place := scrubPlace e pos
      let moved := fun t : State => Tab.get (fun _ => 0) t.plane.scrubs e = next ∧ SameMem s t ∧
        t.get (Reg.CFG_SCRUB_STATUS_PASSES e) = (s.get (Reg.CFG_SCRUB_STATUS_PASSES e) + b2n (next == 0)) % 65536
      (∀ k b, ¬ up ∨ s.get (Reg.CFG_SCRUB_CTRL_EN e) = 0 → CompletesWith (.legScrub e flips k b) s fun t => OnlyRegs s t []) ∧
      (up → s.get (Reg.CFG_SCRUB_CTRL_EN e) = 1 →
        (∀ b, CompletesWith (.legScrub e flips true b) s fun t =>
          t.get (Reg.CFG_SCRUB_STATUS_RELOADS e) = min 255 (s.get (Reg.CFG_SCRUB_STATUS_RELOADS e) + 1) ∧
            Tab.get (fun _ => 0) t.plane.scrubs e = 0 ∧ RegsBut s t [Reg.aCFG_SCRUB_STATUS e] ∧ SameMem s t) ∧
        (s.leg place.1 place.2.1 place.2.2 = none → CompletesWith (.legScrub e flips false false) s fun t =>
          moved t ∧ RegsBut s t [Reg.aCFG_SCRUB_STATUS e]) ∧
        ∀ l, s.leg place.1 place.2.1 place.2.2 = some l →
          let good := crc32c (flipBits (flips.map (·.val)) l.cfg) = Tab.get (fun _ => 0) s.plane.crcs (legKey place.1 place.2.1 place.2.2)
          (l.valid = false ∨ s.scrubSkips place.1 place.2.1 place.2.2 = true ∨ good → CompletesWith (.legScrub e flips false false) s fun t =>
            moved t ∧ RegsBut s t [Reg.aCFG_SCRUB_STATUS e]) ∧
          (l.valid = true → s.scrubSkips place.1 place.2.1 place.2.2 = false → ¬ good → CompletesWith (.legScrub e flips false false) s fun t =>
            moved t ∧ t.get (Reg.CFG_SCRUB_STATUS_MISMATCH e) = 1))) ∧
    (∀ d : Fin 8,
      (s.get (Reg.SEAM_DIR_STATUS_LINK_UP d) = 0 → CompletesWith (.seamDirectionFail d) s fun t => OnlyRegs s t []) ∧
      (s.get (Reg.SEAM_DIR_STATUS_LINK_UP d) = 1 → (∀ r ∈ s.openRoutes, r.1 < 64) → CompletesWith (.seamDirectionFail d) s fun t =>
        t.get (Reg.SEAM_DIR_STATUS_LINK_UP d) = 0 ∧ (d : Nat) ∈ t.plane.routesAway ∧ SameMem s t ∧
          ∀ r ∈ s.openRoutes, (d : Nat) ∈ r.2 → s.inHeat r.1 = true → t.get (Reg.SCH_CTX_STATE_UNCOMMITTABLE r.1) = 1) ∧
      (∀ ok, ok = false ∨ (d : Nat) ∉ s.plane.routesAway ∨ s.domReady (45 + d.val / 2) = false ∨ s.get (Reg.SEAM_DIR_STATUS_LINK_UP d) = 1 →
        CompletesWith (.seamRetrain d ok) s fun t => OnlyRegs s t []) ∧
      ((d : Nat) ∈ s.plane.routesAway → s.domReady (45 + d.val / 2) = true → s.get (Reg.SEAM_DIR_STATUS_LINK_UP d) = 0 →
        CompletesWith (.seamRetrain d true) s fun t =>
          t.get (Reg.SEAM_DIR_STATUS_LINK_UP d) = 1 ∧ (d : Nat) ∈ t.plane.routesBack ∧ t.plane.routesAway = s.plane.routesAway ∧
            RegsBut s t [Reg.aSEAM_DIR_STATUS d] ∧ SameMem s t)) ∧
    (¬ up → CompletesWith .wearCountCopy s fun t => OnlyRegs s t []) ∧
    (up → s.auditOk = true → CompletesWith .wearCountCopy s fun t =>
      t.nv.map.wear = s.plane.wearLog.map (fun e => (e.1, e.2.length)) ∧ t.nv.mapGen = s.nv.mapGen + 1 ∧ SameMem s t ∧
        (∃ r ∈ t.nv.audit, r.event = 8)) ∧
    (up → s.auditOk = false → CompletesWith .wearCountCopy s fun t => t.nv = s.nv ∧ SameMem s t)


/-! Chapter 22: telemetry. -/

/-- R524 to R532: a stage passes its oldest record on as it is; an alarm joins the slot of its code, source and context, takes the lowest free slot,
or merges where none is left; any other record enters the buffer with the next SEQ; a late GAP record goes on; a slot whose count has changed writes
its record once a second; an acknowledgement frees slots; an export queues what waits, alarms first, and leaves it unexported until it is sent. -/
def Obligations.RecordsReachSlotsBufferAndHost : Prop :=
  ∀ s : State,
    let seq := s.pair Reg.aTEL_SEQ_LO
    let buffered := fun (t : State) (r : TelRec) (slot : Option Nat) (o : Nat) =>
      let bs := r.bytes (seq + 1)
      t.tel.buffer = s.tel.buffer ++ [{ seq := seq + 1, off := o, len := bs.length, rank := r.rank, slot := slot, exported := false, rcd := r }] ∧
        t.pair Reg.aTEL_SEQ_LO = (seq + 1) % 2 ^ 64 ∧
        (∀ i b, bs[i]? = some b → t.mem.read (s.get Reg.TEL_BUF_BASE_BASE * 2 ^ 28 + o + i) = b) ∧
        MemBut s t (s.get Reg.TEL_BUF_BASE_BASE * 2 ^ 28 + o) bs.length
    let fits := fun (r : TelRec) (o : Nat) =>
      let n := (r.bytes (seq + 1)).length
      bufFit s.tel.buffer n = some o ∧ s.stackWait? (s.get Reg.TEL_BUF_BASE_BASE * 2 ^ 28 + o) n = none ∧
        s.badPartial? (s.get Reg.TEL_BUF_BASE_BASE * 2 ^ 28 + o) n = none
    (∀ at', (s.stage (telKey at')).recs = [] → CompletesWith (.collectorWrite at') s fun t => OnlyRegs s t []) ∧
    (∀ at' r rest, (s.stage (telKey at')).recs = r :: rest → (∀ e ∈ s.tel.held, e.1 ≠ telKey at') →
      r.reserved = true ∨ gapDue (s.stage (telKey at')).gaps r.rank s.stamp = none →
      (∀ src : Fin 2048, at' = .source src →
        let k := collectorKey (quadOfSource src)
        (if r.reserved then ((s.stage k).recs.filter TelRec.reserved).length < 256 else s.StageTakes k r) →
        CompletesWith (.collectorWrite at') s fun t =>
          (t.stage (telKey at')).recs = rest ∧ (t.stage k).recs = (s.stage k).recs ++ [r] ∧ RegsBut s t [] ∧ SameMem s t) ∧
      (∀ q, at' = .collector q →
        let same := fun n => s.slotUsed n = true ∧ (s.alarmSlot n).code = r.code ∧ (s.alarmSlot n).source = r.source ∧ (s.alarmSlot n).ctx = r.ctx
        (r.cls = 1 →
          (∀ n, n < 256 → same n → (∀ j, j < n → ¬ same j) → CompletesWith (.collectorWrite at') s fun t =>
            (t.alarmSlot n).count = satAdd 32 (s.alarmSlot n).count r.count ∧ (t.alarmSlot n).sev = min (s.alarmSlot n).sev r.level ∧
              (t.alarmSlot n).latest = r.body ∧ (t.stage (telKey at')).recs = rest ∧ t.get (Reg.TEL_ALARM_SLOT_IN_USE n) = 1) ∧
          (∀ n, n < 256 → (∀ j, j < 256 → ¬ same j) → s.slotUsed n = false → (∀ j, j < n → s.slotUsed j = true) →
            CompletesWith (.collectorWrite at') s fun t =>
              (t.alarmSlot n).code = r.code ∧ (t.alarmSlot n).sev = r.level ∧ (t.alarmSlot n).source = r.source ∧ (t.alarmSlot n).ctx = r.ctx ∧
                (t.alarmSlot n).count = r.count ∧ t.slotUsed n = true ∧ t.get (Reg.TEL_ALARM_SLOT_CODE n) = r.code % 4096) ∧
          (∀ n, n < 256 → (∀ j, j < 256 → ¬ same j ∧ s.slotUsed j = true) → (s.alarmSlot n).code = r.code →
            (∀ j, j < n → (s.alarmSlot j).code ≠ r.code) → CompletesWith (.collectorWrite at') s fun t =>
              (t.alarmSlot n).merged = true ∧ (t.alarmSlot n).count = satAdd 32 (s.alarmSlot n).count r.count ∧
                t.get Reg.TEL_ALARM_SUMMARY_MERGED_SEEN = 1)) ∧
        (r.cls ≠ 1 → gapDue s.tel.bufGaps r.rank s.stamp = none → ∀ o, fits r o →
          CompletesWith (.collectorWrite at') s fun t => buffered t r none o ∧ (t.stage (telKey at')).recs = rest))) ∧
    (∀ at' (level : Fin 4) g, (s.stage (telKey at')).gaps.find? (fun x => x.level == level.val && decide (x.last + 328 ≤ s.stamp)) = some g →
      (∀ src : Fin 2048, at' = .source src →
        let k := collectorKey (quadOfSource src)
        let x := gapRec g 1 src
        s.StageTakes k x → CompletesWith (.gapRecord (some at') level) s fun t =>
          (t.stage k).recs = (s.stage k).recs ++ [x] ∧ (∀ y ∈ (t.stage (telKey at')).gaps, y.level ≠ level) ∧ RegsBut s t [] ∧ SameMem s t) ∧
      ∀ q, at' = .collector q → gapDue s.tel.bufGaps 3 s.stamp = none →
        let x := gapRec g 2 (srcOf 5 q)
        ∀ o, fits x o → CompletesWith (.gapRecord (some at') level) s fun t => buffered t x none o) ∧
    (∀ (level : Fin 4) g, s.tel.bufGaps.find? (fun x => x.level == level.val && decide (x.last + 328 ≤ s.stamp)) = some g →
      ∀ o, fits (gapRec g 3 0) o → CompletesWith (.gapRecord none level) s fun t =>
        buffered t (gapRec g 3 0) none o ∧ ∀ y ∈ t.tel.bufGaps, y.level ≠ level) ∧
    (∀ n : Fin 256,
      let a := s.alarmSlot n
      let due := s.slotUsed n = true ∧ a.count ≠ a.written ∧ a.writtenStamp + 32768 ≤ s.stamp
      (¬ due → CompletesWith (.alarmPeriodicRecord n) s fun t => OnlyRegs s t []) ∧
      (due → ∀ o, fits { cls := 1, level := a.sev, source := a.source + (if a.merged then 2048 else 0), stamp := a.latestStamp, code := a.code,
                         ctx := a.ctx, part := a.ctx.map s.partOf, count := a.count, body := a.latest } o →
        CompletesWith (.alarmPeriodicRecord n) s fun t =>
          (t.alarmSlot n).written = a.count ∧ (t.alarmSlot n).writtenStamp = s.stamp ∧
            buffered t { cls := 1, level := a.sev, source := a.source + (if a.merged then 2048 else 0), stamp := a.latestStamp, code := a.code,
                         ctx := a.ctx, part := a.ctx.map s.partOf, count := a.count, body := a.latest } (some n) o)) ∧
    (∀ v : Word,
      (bit v.toNat 8 = true → CompletesWith (.telAlarmAck v) s fun t => (∀ n, n < 256 → t.slotUsed n = false) ∧ SameMem s t) ∧
      (bit v.toNat 8 = false →
        let n := v.toNat % 256
        CompletesWith (.telAlarmAck v) s fun t =>
          t.slotUsed n = false ∧ (s.slotUsed n = true → t.alarmSlot n = AlarmSlot.free) ∧ SameMem s t ∧
            RegsBut s t [Reg.aTEL_ALARM_SLOT n, Reg.aTEL_ALARM_COUNT n] ∧ ∀ j, j ≠ n → t.alarmSlot j = s.alarmSlot j)) ∧
    (s.tel.subscription = none ∨ s.ethUp = false → CompletesWith .telemetryExport s fun t => OnlyRegs s t []) ∧
    ∀ b, s.tel.subscription = some b → s.ethUp = true →
      let goes := fun r : BufRec => !r.exported && !(s.tel.out.any fun o => o.2.contains r.seq) && wanted b.classes r.rcd && decide (s.tel.exportPos < r.seq)
      let alarms := (bySeq (s.tel.buffer.filter goes)).filter fun r => r.rcd.cls == 1
      let plain := (bySeq (s.tel.buffer.filter goes)).filter fun r => r.rcd.cls != 1
      let bytes := (alarms ++ plain).flatMap fun r => r.rcd.bytes r.seq
      (alarms ++ plain = [] → CompletesWith .telemetryExport s fun t => OnlyRegs s t []) ∧
      (alarms ++ plain ≠ [] → ((alarms ++ plain).map (·.len)).sum ≤ 8160 → (s.tel.buffer.map (·.seq)).Nodup →
        CompletesWith .telemetryExport s fun t =>
          t.tel.buffer = s.tel.buffer ∧ t.tel.out.drop s.tel.out.length ≠ [] ∧
            (∀ o ∈ t.tel.out.drop s.tel.out.length, o.2 = (alarms ++ plain).map (·.seq)) ∧
            t.tel.subscription = some { b with stream := (b.stream + 1) % 2 ^ 32 } ∧ SameMem s t ∧
            t.eth.txq = s.eth.txq ++ (cspDatagrams cspTelemetry 0 0 0xFF b.id (some b.stream)
              (leBytes 8 ((plain.head?.map (·.seq)).getD (seq + 1)) ++ leBytes 8 (s.pair Reg.aTEL_OLDEST_LO) ++ leBytes 8 s.tel.epoch ++
                leBytes 2 (alarms ++ plain).length ++ leBytes 2 (if alarms = [] then 0 else 2) ++ leBytes 4 0 ++ bytes)).map
              (s.cspFrame { mac := b.mac, vlan := b.vlan, pcp := b.pcp, v6 := b.v6, ip := b.ip, port := b.port }))

/-! Chapters 22 and 24: time, SMBus and JTAG. -/

/-- R533, R534, R556: the Bedrock counter advances by one a tick while VBR is in range, from the crystal or the internal oscillator alike, and the
epoch is written whole. R490, R559, R562: SMBus reads a register, acknowledges alarms and tells the status once the boot ROM runs, JTAG takes an
instruction or BYPASS in its place, and a maker instruction is in the audit log. -/
def Obligations.TimeAndSidebandPinsFollowTheirRules : Prop :=
  ∀ s : State,
    (∀ v : Word, CompletesWith (.epochWrite v) s fun t =>
      t.tel.epoch = s.rdN Reg.aTEL_EPOCH_LO + 2 ^ 32 * v.toNat ∧ t.rdN Reg.aTEL_EPOCH_HI = v.toNat ∧ RegsBut s t [Reg.aTEL_EPOCH_HI] ∧ SameMem s t) ∧
    (s.board.vbr = true →
      (CompletesWith .bedrockTick s fun t => t.stamp = (s.stamp + 1) % 2 ^ 63 ∧ RegsBut s t [Reg.aBRK_TIME_LO, Reg.aBRK_TIME_HI] ∧ SameMem s t ∧
        t.board.xtal = s.board.xtal ∧ (s.board.xtalSeen = true → t.tel = s.tel ∧ t.board.xtalLost = s.board.xtalLost)) ∧
      CompletesWith .xtal32kStart s fun t => OnlyRegs { s with board := t.board } t [] ∧ t.board.xtal = true ∧ t.board.xtalSeen = true ∧ t.stamp = s.stamp) ∧
    (s.board.vbr = false → (CompletesWith .bedrockTick s fun t => OnlyRegs s t []) ∧ CompletesWith .xtal32kStart s fun t => OnlyRegs s t []) ∧
    (s.board.xtal = false → CompletesWith .xtal32kStop s fun t => OnlyRegs s t []) ∧
    (s.board.xtal = true → CompletesWith .xtal32kStop s fun t =>
      t.board.xtal = false ∧ RegsBut s t [] ∧ t.stamp = s.stamp ∧
        ∃ k x, x.code = Flt.BRK_XTAL ∧ x.cls = 1 ∧ (x ∈ (t.stage k).recs ∨ (k, x) ∈ t.tel.held)) ∧
    (s.smbUp = false → ∀ c, (∃ v, c = Instr.setAddress v) ∨ c = .smbRead ∨ (∃ n all, c = .smbAlarmAck n all) ∨ c = .smbStatus →
      CompletesWith c s fun t => OnlyRegs s t []) ∧
    (s.smbUp = true →
      (∀ v : Word, CompletesWith (.setAddress v) s fun t => t.board.smbAddr = v.toNat ∧ t.board.smbReply = s.board.smbReply ∧ RegsBut s t [] ∧ SameMem s t) ∧
      (CompletesWith .smbRead s fun t =>
        t.board.smbAddr = (s.board.smbAddr + 4) % 2 ^ 32 ∧ t.board.smbReply = leBytes 4 (s.dcsRead reqSmb s.board.smbAddr).2 ∧ SameMem s t) ∧
      (∀ (n : Byte) (all : Bool), CompletesWith (.smbAlarmAck n all) s fun t => ∀ k, k < 256 → all = true ∨ n.toNat = k → t.slotUsed k = false) ∧
      CompletesWith .smbStatus s fun t => SameMem s t ∧ RegsBut s t [] ∧ t.board.smbReply.length = 1 ∧
        t.board.smbReply.map (·.toNat) = [b2n s.board.devOk + 2 * b2n (s.board.faultHold != 0) + 4 * b2n s.board.smbAlert]) ∧
    (CompletesWith .smbSclTimeout s fun t => t.board.smbReply = [] ∧ t.board.smbAddr = 0 ∧ RegsBut s t [] ∧ SameMem s t) ∧
    ∀ i : TapInstr,
      let maker := s.board.porHigh = true ∧ s.board.strap = 3
      let lands := i = .extest ∨ i = .extestPulse ∨ i = .extestTrain
      (lands → s.board.porHigh = true → ¬ maker → CompletesWith (.jtagInstruction i) s fun t => t.board.tapIr = tapNumber .bypass ∧ RegsBut s t []) ∧
      ((∃ x, i = .maker x) → ¬ maker ∨ s.outOfReset = false → CompletesWith (.jtagInstruction i) s fun t =>
        t.board.tapIr = tapNumber .bypass ∧ t.nv = s.nv) ∧
      (∀ x, i = .maker x → maker → s.outOfReset = true → CompletesWith (.jtagInstruction i) s fun t =>
        t.board.tapIr = tapNumber i ∧ ∃ r ∈ t.nv.audit, r.event = 9 ∧ r.role = 1 ∧ r.detail = x.toNat) ∧
      ((∀ x, i ≠ .maker x) → (lands → s.board.porHigh = false ∨ maker) → CompletesWith (.jtagInstruction i) s fun t =>
        t.board.tapIr = tapNumber i ∧ RegsBut s t [] ∧ t.nv = s.nv)

/-! Every step keeps the form of memory. -/

/-- Whatever the command, a step from a state whose byte memory lists each address once, in rising order, and no byte that an unlisted address reads
as, ends with such a memory; so equal contents stay equal data. -/
def Obligations.EveryStepKeepsMemoryCanonical : Prop :=
  ∀ s t : State, s.MemoryCanonical → step s = .next t → t.MemoryCanonical
end

