-- ==== Sys2Proof/Laws/Tab.lean ====
section
/-!
SUPPORT. What reading a sparse table after a write gives, that a write keeps the canonical form, and what a field of a word reads as after a
write of a field.
-/

namespace Sys2Proof

namespace Tab

variable {α : Type}

@[simp] theorem get_nil (d : Nat → α) (k : Nat) : get d [] k = d k := rfl

@[simp] theorem get_erase_same (d : Nat → α) (t : List (Nat × α)) (k : Nat) : get d (erase t k) k = d k := by
  induction t with
  | nil => rfl
  | cons e t ih =>
    obtain ⟨j, v⟩ := e
    by_cases h : k = j
    · simp [erase, h, h ▸ ih]
    · simp [erase, get, h, ih]

theorem get_erase_ne (d : Nat → α) (t : List (Nat × α)) {k j : Nat} (h : k ≠ j) : get d (erase t j) k = get d t k := by
  induction t with
  | nil => rfl
  | cons e t ih =>
    obtain ⟨i, v⟩ := e
    by_cases hj : j = i
    · subst hj; simp [erase, get, h, ih]
    · by_cases hk : k = i <;> simp [erase, get, hj, hk, ih]

@[simp] theorem get_insert_same (d : Nat → α) (t : List (Nat × α)) (k : Nat) (x : α) : get d (insert t k x) k = x := by
  induction t with
  | nil => simp [insert, get]
  | cons e t ih =>
    obtain ⟨j, v⟩ := e
    simp only [insert]
    split
    · simp [get]
    · split
      · simp [get]
      · simp [get, *]

theorem get_insert_ne (d : Nat → α) (t : List (Nat × α)) {k j : Nat} (x : α) (h : k ≠ j) : get d (insert t j x) k = get d t k := by
  induction t with
  | nil => simp [insert, get, h]
  | cons e t ih =>
    obtain ⟨i, v⟩ := e
    simp only [insert]
    split
    · simp [get, h]
    · split
      · next h' => subst h'; simp [get, h]
      · simp only [get, ih]

/-- A read after a write to the same key gives the value written. -/
@[simp] theorem get_set_same [DecidableEq α] (d : Nat → α) (t : List (Nat × α)) (k : Nat) (x : α) : get d (set d t k x) k = x := by
  unfold set
  split
  · next h => rw [get_erase_same, h]
  · exact get_insert_same d t k x

/-- A write leaves every other key alone. -/
theorem get_set_ne [DecidableEq α] (d : Nat → α) (t : List (Nat × α)) {k j : Nat} (x : α) (h : k ≠ j) :
    get d (set d t j x) k = get d t k := by
  unfold set
  split
  · exact get_erase_ne d t h
  · exact get_insert_ne d t x h

theorem above_erase (b : Nat) (t : List (Nat × α)) (k : Nat) (h : above b t = true) : above b (erase t k) = true := by
  induction t with
  | nil => rfl
  | cons e t ih =>
    obtain ⟨j, v⟩ := e
    simp only [above, List.all_cons, Bool.and_eq_true] at h
    simp only [erase]
    split
    · exact ih h.2
    · simp only [above, List.all_cons, Bool.and_eq_true]
      exact ⟨h.1, ih h.2⟩

theorem above_insert (b : Nat) (t : List (Nat × α)) (k : Nat) (x : α) (hb : b < k) (h : above b t = true) :
    above b (insert t k x) = true := by
  induction t with
  | nil => simp [insert, above, hb]
  | cons e t ih =>
    obtain ⟨j, v⟩ := e
    have h' := h
    simp only [above, List.all_cons, Bool.and_eq_true] at h'
    simp only [insert]
    split
    · simp only [above, List.all_cons, Bool.and_eq_true, decide_eq_true_eq] at h ⊢
      exact ⟨hb, h⟩
    · split
      · simp only [above, List.all_cons, Bool.and_eq_true, decide_eq_true_eq]
        exact ⟨hb, h'.2⟩
      · simp only [above, List.all_cons, Bool.and_eq_true]
        exact ⟨h'.1, ih h'.2⟩

theorem above_mono {a b : Nat} (hab : a ≤ b) (t : List (Nat × α)) (h : above b t = true) : above a t = true := by
  simp only [above, List.all_eq_true, decide_eq_true_eq] at h ⊢
  exact fun e he => lt_of_le_of_lt hab (h e he)

theorem wf_erase [DecidableEq α] (d : Nat → α) (t : List (Nat × α)) (k : Nat) (h : wf d t = true) : wf d (erase t k) = true := by
  induction t with
  | nil => rfl
  | cons e t ih =>
    obtain ⟨j, v⟩ := e
    simp only [wf, Bool.and_eq_true, decide_eq_true_eq] at h
    simp only [erase]
    split
    · exact ih h.2
    · simp only [wf, Bool.and_eq_true, decide_eq_true_eq]
      exact ⟨⟨h.1.1, above_erase j t k h.1.2⟩, ih h.2⟩

theorem wf_insert [DecidableEq α] (d : Nat → α) (t : List (Nat × α)) (k : Nat) (x : α) (hx : x ≠ d k) (h : wf d t = true) :
    wf d (insert t k x) = true := by
  induction t with
  | nil => simp [insert, wf, above, hx]
  | cons e t ih =>
    obtain ⟨j, v⟩ := e
    have h' := h
    simp only [wf, Bool.and_eq_true, decide_eq_true_eq] at h'
    simp only [insert]
    split
    · next hk =>
      simp only [wf, above, List.all_cons, Bool.and_eq_true, decide_eq_true_eq]
      exact ⟨⟨hx, hk, above_mono hk.le t h'.1.2⟩, h'⟩
    · split
      · next hk =>
        subst hk
        simp only [wf, Bool.and_eq_true, decide_eq_true_eq]
        exact ⟨⟨hx, h'.1.2⟩, h'.2⟩
      · next h1 h2 =>
        simp only [wf, Bool.and_eq_true, decide_eq_true_eq]
        exact ⟨⟨h'.1.1, above_insert j t k x (by omega) h'.1.2⟩, ih h'.2⟩

/-- A write keeps the canonical form. -/
theorem wf_set [DecidableEq α] (d : Nat → α) (t : List (Nat × α)) (k : Nat) (x : α) (h : wf d t = true) : wf d (set d t k x) = true := by
  unfold set
  split
  · exact wf_erase d t k h
  · next hx => exact wf_insert d t k x hx h

theorem above_filter (b : Nat) (t : List (Nat × α)) (p : Nat × α → Bool) (h : above b t = true) : above b (t.filter p) = true := by
  simp only [above, List.all_eq_true, decide_eq_true_eq] at h ⊢
  exact fun e he => h e (List.mem_filter.mp he).1

theorem wf_filter [DecidableEq α] (d : Nat → α) (t : List (Nat × α)) (p : Nat × α → Bool) (h : wf d t = true) :
    wf d (t.filter p) = true := by
  induction t with
  | nil => rfl
  | cons e t ih =>
    simp only [wf, Bool.and_eq_true, decide_eq_true_eq] at h
    simp only [List.filter_cons]
    split
    · simp only [wf, Bool.and_eq_true, decide_eq_true_eq]
      exact ⟨⟨h.1.1, above_filter _ t p h.1.2⟩, ih h.2⟩
    · exact ih h.2

/-- Dropping the entries of some keys leaves the rest and makes those keys read as the default. -/
theorem get_filter_keys (d : Nat → α) (t : List (Nat × α)) (q : Nat → Bool) (k : Nat) :
    get d (t.filter fun c => q c.1) k = if q k then get d t k else d k := by
  induction t with
  | nil => simp
  | cons e t ih =>
    obtain ⟨j, v⟩ := e
    simp only [List.filter_cons]
    by_cases hk : k = j
    · subst hk
      cases h : q k <;> simp [get, ih, h]
    · cases h : q j <;> simp [get, ih, hk]

end Tab

/-! Fields of words. -/

theorem testBit_bits (v hi lo i : Nat) : (bits v hi lo).testBit i = (decide (i < hi + 1 - lo) && v.testBit (lo + i)) := by
  simp [bits, Nat.testBit_mod_two_pow, Nat.testBit_div_two_pow, Nat.add_comm]

theorem testBit_setBits (v hi lo x i : Nat) (h : lo ≤ hi + 1) :
    (setBits v hi lo x).testBit i = if lo ≤ i ∧ i ≤ hi then x.testBit (i - lo) else v.testBit i := by
  have e : setBits v hi lo x = 2 ^ (hi + 1) * (v / 2 ^ (hi + 1)) + (2 ^ lo * (x % 2 ^ (hi + 1 - lo)) + v % 2 ^ lo) := by
    simp only [setBits]; ring
  have hlo : v % 2 ^ lo < 2 ^ lo := Nat.mod_lt _ (by positivity)
  have hx : x % 2 ^ (hi + 1 - lo) < 2 ^ (hi + 1 - lo) := Nat.mod_lt _ (by positivity)
  have hmid : 2 ^ lo * (x % 2 ^ (hi + 1 - lo)) + v % 2 ^ lo < 2 ^ (hi + 1) := by
    have hp : (2 : Nat) ^ (hi + 1) = 2 ^ lo * 2 ^ (hi + 1 - lo) := by rw [← pow_add]; congr 1; omega
    rw [hp]
    calc 2 ^ lo * (x % 2 ^ (hi + 1 - lo)) + v % 2 ^ lo < 2 ^ lo * (x % 2 ^ (hi + 1 - lo)) + 2 ^ lo := by omega
      _ = 2 ^ lo * (x % 2 ^ (hi + 1 - lo) + 1) := by ring
      _ ≤ _ := Nat.mul_le_mul_left _ hx
  rw [e, Nat.testBit_two_pow_mul_add _ hmid]
  split
  · rw [Nat.testBit_two_pow_mul_add _ hlo]
    split
    · rw [if_neg (by omega)]; simp [Nat.testBit_mod_two_pow, *]
    · rw [if_pos (by omega)]; simp [Nat.testBit_mod_two_pow]; omega
  · rw [if_neg (by omega), Nat.testBit_div_two_pow]
    congr 1; omega

/-- A field reads back as the value written to it. -/
theorem bits_setBits_same (v hi lo x : Nat) (h : lo ≤ hi) : bits (setBits v hi lo x) hi lo = x % 2 ^ (hi + 1 - lo) := by
  apply Nat.eq_of_testBit_eq
  intro i
  rw [testBit_bits, testBit_setBits _ _ _ _ _ (by omega), Nat.testBit_mod_two_pow]
  by_cases hi' : i < hi + 1 - lo
  · rw [if_pos (by omega)]; simp
  · simp [hi']

/-- A write of one field leaves a field beside it alone. -/
theorem bits_setBits_disjoint (v hi lo x hi' lo' : Nat) (h : lo ≤ hi) (hd : hi' < lo ∨ hi < lo') :
    bits (setBits v hi lo x) hi' lo' = bits v hi' lo' := by
  apply Nat.eq_of_testBit_eq
  intro i
  rw [testBit_bits, testBit_bits, testBit_setBits _ _ _ _ _ (by omega)]
  by_cases hi2 : i < hi' + 1 - lo'
  · rw [if_neg (by omega)]
  · simp [hi2]

theorem setBits_lt (v hi lo x n : Nat) (h : lo ≤ hi) (hn : hi < n) (hv : v < 2 ^ n) : setBits v hi lo x < 2 ^ n := by
  apply Nat.lt_pow_two_of_testBit
  intro i hi'
  rw [testBit_setBits _ _ _ _ _ (by omega), if_neg (by omega)]
  exact Nat.testBit_lt_two_pow (lt_of_lt_of_le hv (Nat.pow_le_pow_right (by norm_num) hi'))

@[simp] theorem bits_lt (v hi lo : Nat) : bits v hi lo < 2 ^ (hi + 1 - lo) := Nat.mod_lt _ (by positivity)

end Sys2Proof
end

