-- ==== Sys2Proof/Laws/State.lean ====
section
/-!
SUPPORT. What every update of the state leaves alone, field by field, and what a register, a field of a register and a part of the state read
as after a write.
-/

namespace Sys2Proof.Machine

variable (s : State)

@[simp] theorem State.setReg_pending (a : Nat) (w : Word) : (s.setReg a w).pending = s.pending := rfl
@[simp] theorem State.setReg_holds (a : Nat) (w : Word) : (s.setReg a w).holds = s.holds := rfl
@[simp] theorem State.setReg_mem (a : Nat) (w : Word) : (s.setReg a w).mem = s.mem := rfl
@[simp] theorem State.setReg_bad (a : Nat) (w : Word) : (s.setReg a w).bad = s.bad := rfl
@[simp] theorem State.setReg_fields (a : Nat) (w : Word) : (s.setReg a w).fields = s.fields := rfl
@[simp] theorem State.setReg_stks (a : Nat) (w : Word) : (s.setReg a w).stks = s.stks := rfl
@[simp] theorem State.setReg_ports (a : Nat) (w : Word) : (s.setReg a w).ports = s.ports := rfl
@[simp] theorem State.setReg_ctxs (a : Nat) (w : Word) : (s.setReg a w).ctxs = s.ctxs := rfl
@[simp] theorem State.setReg_tel (a : Nat) (w : Word) : (s.setReg a w).tel = s.tel := rfl
@[simp] theorem State.setReg_xlt (a : Nat) (w : Word) : (s.setReg a w).xlt = s.xlt := rfl
@[simp] theorem State.setReg_crossings (a : Nat) (w : Word) : (s.setReg a w).crossings = s.crossings := rfl
@[simp] theorem State.setReg_routes (a : Nat) (w : Word) : (s.setReg a w).routes = s.routes := rfl
@[simp] theorem State.setReg_gangs (a : Nat) (w : Word) : (s.setReg a w).gangs = s.gangs := rfl
@[simp] theorem State.setReg_trees (a : Nat) (w : Word) : (s.setReg a w).trees = s.trees := rfl
@[simp] theorem State.setReg_board (a : Nat) (w : Word) : (s.setReg a w).board = s.board := rfl
@[simp] theorem State.setReg_power (a : Nat) (w : Word) : (s.setReg a w).power = s.power := rfl
@[simp] theorem State.setReg_eth (a : Nat) (w : Word) : (s.setReg a w).eth = s.eth := rfl
@[simp] theorem State.setReg_srv (a : Nat) (w : Word) : (s.setReg a w).srv = s.srv := rfl
@[simp] theorem State.setReg_nv (a : Nat) (w : Word) : (s.setReg a w).nv = s.nv := rfl
@[simp] theorem State.setReg_plane (a : Nat) (w : Word) : (s.setReg a w).plane = s.plane := rfl
@[simp] theorem State.setReg_fresh (a : Nat) (w : Word) : (s.setReg a w).fresh = s.fresh := rfl

@[simp] theorem State.put_pending (f : RF) (v : Nat) : (s.put f v).pending = s.pending := rfl
@[simp] theorem State.put_holds (f : RF) (v : Nat) : (s.put f v).holds = s.holds := rfl
@[simp] theorem State.put_mem (f : RF) (v : Nat) : (s.put f v).mem = s.mem := rfl
@[simp] theorem State.put_bad (f : RF) (v : Nat) : (s.put f v).bad = s.bad := rfl
@[simp] theorem State.put_fields (f : RF) (v : Nat) : (s.put f v).fields = s.fields := rfl
@[simp] theorem State.put_stks (f : RF) (v : Nat) : (s.put f v).stks = s.stks := rfl
@[simp] theorem State.put_ports (f : RF) (v : Nat) : (s.put f v).ports = s.ports := rfl
@[simp] theorem State.put_ctxs (f : RF) (v : Nat) : (s.put f v).ctxs = s.ctxs := rfl
@[simp] theorem State.put_tel (f : RF) (v : Nat) : (s.put f v).tel = s.tel := rfl
@[simp] theorem State.put_xlt (f : RF) (v : Nat) : (s.put f v).xlt = s.xlt := rfl
@[simp] theorem State.put_crossings (f : RF) (v : Nat) : (s.put f v).crossings = s.crossings := rfl
@[simp] theorem State.put_routes (f : RF) (v : Nat) : (s.put f v).routes = s.routes := rfl
@[simp] theorem State.put_gangs (f : RF) (v : Nat) : (s.put f v).gangs = s.gangs := rfl
@[simp] theorem State.put_trees (f : RF) (v : Nat) : (s.put f v).trees = s.trees := rfl
@[simp] theorem State.put_board (f : RF) (v : Nat) : (s.put f v).board = s.board := rfl
@[simp] theorem State.put_power (f : RF) (v : Nat) : (s.put f v).power = s.power := rfl
@[simp] theorem State.put_eth (f : RF) (v : Nat) : (s.put f v).eth = s.eth := rfl
@[simp] theorem State.put_srv (f : RF) (v : Nat) : (s.put f v).srv = s.srv := rfl
@[simp] theorem State.put_nv (f : RF) (v : Nat) : (s.put f v).nv = s.nv := rfl
@[simp] theorem State.put_plane (f : RF) (v : Nat) : (s.put f v).plane = s.plane := rfl
@[simp] theorem State.put_fresh (f : RF) (v : Nat) : (s.put f v).fresh = s.fresh := rfl

@[simp] theorem State.setPair_pending (lo v : Nat) : (s.setPair lo v).pending = s.pending := rfl
@[simp] theorem State.setPair_holds (lo v : Nat) : (s.setPair lo v).holds = s.holds := rfl
@[simp] theorem State.setPair_mem (lo v : Nat) : (s.setPair lo v).mem = s.mem := rfl
@[simp] theorem State.setPair_bad (lo v : Nat) : (s.setPair lo v).bad = s.bad := rfl
@[simp] theorem State.setPair_fields (lo v : Nat) : (s.setPair lo v).fields = s.fields := rfl
@[simp] theorem State.setPair_stks (lo v : Nat) : (s.setPair lo v).stks = s.stks := rfl
@[simp] theorem State.setPair_ports (lo v : Nat) : (s.setPair lo v).ports = s.ports := rfl
@[simp] theorem State.setPair_ctxs (lo v : Nat) : (s.setPair lo v).ctxs = s.ctxs := rfl
@[simp] theorem State.setPair_tel (lo v : Nat) : (s.setPair lo v).tel = s.tel := rfl
@[simp] theorem State.setPair_xlt (lo v : Nat) : (s.setPair lo v).xlt = s.xlt := rfl
@[simp] theorem State.setPair_crossings (lo v : Nat) : (s.setPair lo v).crossings = s.crossings := rfl
@[simp] theorem State.setPair_routes (lo v : Nat) : (s.setPair lo v).routes = s.routes := rfl
@[simp] theorem State.setPair_gangs (lo v : Nat) : (s.setPair lo v).gangs = s.gangs := rfl
@[simp] theorem State.setPair_trees (lo v : Nat) : (s.setPair lo v).trees = s.trees := rfl
@[simp] theorem State.setPair_board (lo v : Nat) : (s.setPair lo v).board = s.board := rfl
@[simp] theorem State.setPair_power (lo v : Nat) : (s.setPair lo v).power = s.power := rfl
@[simp] theorem State.setPair_eth (lo v : Nat) : (s.setPair lo v).eth = s.eth := rfl
@[simp] theorem State.setPair_srv (lo v : Nat) : (s.setPair lo v).srv = s.srv := rfl
@[simp] theorem State.setPair_nv (lo v : Nat) : (s.setPair lo v).nv = s.nv := rfl
@[simp] theorem State.setPair_plane (lo v : Nat) : (s.setPair lo v).plane = s.plane := rfl
@[simp] theorem State.setPair_fresh (lo v : Nat) : (s.setPair lo v).fresh = s.fresh := rfl

@[simp] theorem State.setField_pending (p : Nat) (f : FieldState) : (s.setField p f).pending = s.pending := rfl
@[simp] theorem State.setField_regs (p : Nat) (f : FieldState) : (s.setField p f).regs = s.regs := rfl
@[simp] theorem State.setField_holds (p : Nat) (f : FieldState) : (s.setField p f).holds = s.holds := rfl
@[simp] theorem State.setField_mem (p : Nat) (f : FieldState) : (s.setField p f).mem = s.mem := rfl
@[simp] theorem State.setField_bad (p : Nat) (f : FieldState) : (s.setField p f).bad = s.bad := rfl
@[simp] theorem State.setField_stks (p : Nat) (f : FieldState) : (s.setField p f).stks = s.stks := rfl
@[simp] theorem State.setField_ports (p : Nat) (f : FieldState) : (s.setField p f).ports = s.ports := rfl
@[simp] theorem State.setField_ctxs (p : Nat) (f : FieldState) : (s.setField p f).ctxs = s.ctxs := rfl
@[simp] theorem State.setField_tel (p : Nat) (f : FieldState) : (s.setField p f).tel = s.tel := rfl
@[simp] theorem State.setField_xlt (p : Nat) (f : FieldState) : (s.setField p f).xlt = s.xlt := rfl
@[simp] theorem State.setField_crossings (p : Nat) (f : FieldState) : (s.setField p f).crossings = s.crossings := rfl
@[simp] theorem State.setField_routes (p : Nat) (f : FieldState) : (s.setField p f).routes = s.routes := rfl
@[simp] theorem State.setField_gangs (p : Nat) (f : FieldState) : (s.setField p f).gangs = s.gangs := rfl
@[simp] theorem State.setField_trees (p : Nat) (f : FieldState) : (s.setField p f).trees = s.trees := rfl
@[simp] theorem State.setField_board (p : Nat) (f : FieldState) : (s.setField p f).board = s.board := rfl
@[simp] theorem State.setField_power (p : Nat) (f : FieldState) : (s.setField p f).power = s.power := rfl
@[simp] theorem State.setField_eth (p : Nat) (f : FieldState) : (s.setField p f).eth = s.eth := rfl
@[simp] theorem State.setField_srv (p : Nat) (f : FieldState) : (s.setField p f).srv = s.srv := rfl
@[simp] theorem State.setField_nv (p : Nat) (f : FieldState) : (s.setField p f).nv = s.nv := rfl
@[simp] theorem State.setField_plane (p : Nat) (f : FieldState) : (s.setField p f).plane = s.plane := rfl
@[simp] theorem State.setField_fresh (p : Nat) (f : FieldState) : (s.setField p f).fresh = s.fresh := rfl

@[simp] theorem State.modField_pending (p : Nat) (g : FieldState → FieldState) : (s.modField p g).pending = s.pending := rfl
@[simp] theorem State.modField_regs (p : Nat) (g : FieldState → FieldState) : (s.modField p g).regs = s.regs := rfl
@[simp] theorem State.modField_holds (p : Nat) (g : FieldState → FieldState) : (s.modField p g).holds = s.holds := rfl
@[simp] theorem State.modField_mem (p : Nat) (g : FieldState → FieldState) : (s.modField p g).mem = s.mem := rfl
@[simp] theorem State.modField_bad (p : Nat) (g : FieldState → FieldState) : (s.modField p g).bad = s.bad := rfl
@[simp] theorem State.modField_stks (p : Nat) (g : FieldState → FieldState) : (s.modField p g).stks = s.stks := rfl
@[simp] theorem State.modField_ports (p : Nat) (g : FieldState → FieldState) : (s.modField p g).ports = s.ports := rfl
@[simp] theorem State.modField_ctxs (p : Nat) (g : FieldState → FieldState) : (s.modField p g).ctxs = s.ctxs := rfl
@[simp] theorem State.modField_tel (p : Nat) (g : FieldState → FieldState) : (s.modField p g).tel = s.tel := rfl
@[simp] theorem State.modField_xlt (p : Nat) (g : FieldState → FieldState) : (s.modField p g).xlt = s.xlt := rfl
@[simp] theorem State.modField_crossings (p : Nat) (g : FieldState → FieldState) : (s.modField p g).crossings = s.crossings := rfl
@[simp] theorem State.modField_routes (p : Nat) (g : FieldState → FieldState) : (s.modField p g).routes = s.routes := rfl
@[simp] theorem State.modField_gangs (p : Nat) (g : FieldState → FieldState) : (s.modField p g).gangs = s.gangs := rfl
@[simp] theorem State.modField_trees (p : Nat) (g : FieldState → FieldState) : (s.modField p g).trees = s.trees := rfl
@[simp] theorem State.modField_board (p : Nat) (g : FieldState → FieldState) : (s.modField p g).board = s.board := rfl
@[simp] theorem State.modField_power (p : Nat) (g : FieldState → FieldState) : (s.modField p g).power = s.power := rfl
@[simp] theorem State.modField_eth (p : Nat) (g : FieldState → FieldState) : (s.modField p g).eth = s.eth := rfl
@[simp] theorem State.modField_srv (p : Nat) (g : FieldState → FieldState) : (s.modField p g).srv = s.srv := rfl
@[simp] theorem State.modField_nv (p : Nat) (g : FieldState → FieldState) : (s.modField p g).nv = s.nv := rfl
@[simp] theorem State.modField_plane (p : Nat) (g : FieldState → FieldState) : (s.modField p g).plane = s.plane := rfl
@[simp] theorem State.modField_fresh (p : Nat) (g : FieldState → FieldState) : (s.modField p g).fresh = s.fresh := rfl

@[simp] theorem State.modFm_pending (p : Nat) (g : FmState → FmState) : (s.modFm p g).pending = s.pending := rfl
@[simp] theorem State.modFm_regs (p : Nat) (g : FmState → FmState) : (s.modFm p g).regs = s.regs := rfl
@[simp] theorem State.modFm_holds (p : Nat) (g : FmState → FmState) : (s.modFm p g).holds = s.holds := rfl
@[simp] theorem State.modFm_mem (p : Nat) (g : FmState → FmState) : (s.modFm p g).mem = s.mem := rfl
@[simp] theorem State.modFm_bad (p : Nat) (g : FmState → FmState) : (s.modFm p g).bad = s.bad := rfl
@[simp] theorem State.modFm_stks (p : Nat) (g : FmState → FmState) : (s.modFm p g).stks = s.stks := rfl
@[simp] theorem State.modFm_ports (p : Nat) (g : FmState → FmState) : (s.modFm p g).ports = s.ports := rfl
@[simp] theorem State.modFm_ctxs (p : Nat) (g : FmState → FmState) : (s.modFm p g).ctxs = s.ctxs := rfl
@[simp] theorem State.modFm_tel (p : Nat) (g : FmState → FmState) : (s.modFm p g).tel = s.tel := rfl
@[simp] theorem State.modFm_xlt (p : Nat) (g : FmState → FmState) : (s.modFm p g).xlt = s.xlt := rfl
@[simp] theorem State.modFm_crossings (p : Nat) (g : FmState → FmState) : (s.modFm p g).crossings = s.crossings := rfl
@[simp] theorem State.modFm_routes (p : Nat) (g : FmState → FmState) : (s.modFm p g).routes = s.routes := rfl
@[simp] theorem State.modFm_gangs (p : Nat) (g : FmState → FmState) : (s.modFm p g).gangs = s.gangs := rfl
@[simp] theorem State.modFm_trees (p : Nat) (g : FmState → FmState) : (s.modFm p g).trees = s.trees := rfl
@[simp] theorem State.modFm_board (p : Nat) (g : FmState → FmState) : (s.modFm p g).board = s.board := rfl
@[simp] theorem State.modFm_power (p : Nat) (g : FmState → FmState) : (s.modFm p g).power = s.power := rfl
@[simp] theorem State.modFm_eth (p : Nat) (g : FmState → FmState) : (s.modFm p g).eth = s.eth := rfl
@[simp] theorem State.modFm_srv (p : Nat) (g : FmState → FmState) : (s.modFm p g).srv = s.srv := rfl
@[simp] theorem State.modFm_nv (p : Nat) (g : FmState → FmState) : (s.modFm p g).nv = s.nv := rfl
@[simp] theorem State.modFm_plane (p : Nat) (g : FmState → FmState) : (s.modFm p g).plane = s.plane := rfl
@[simp] theorem State.modFm_fresh (p : Nat) (g : FmState → FmState) : (s.modFm p g).fresh = s.fresh := rfl

@[simp] theorem State.modStk_pending (k : Nat) (g : StackState → StackState) : (s.modStk k g).pending = s.pending := rfl
@[simp] theorem State.modStk_regs (k : Nat) (g : StackState → StackState) : (s.modStk k g).regs = s.regs := rfl
@[simp] theorem State.modStk_holds (k : Nat) (g : StackState → StackState) : (s.modStk k g).holds = s.holds := rfl
@[simp] theorem State.modStk_mem (k : Nat) (g : StackState → StackState) : (s.modStk k g).mem = s.mem := rfl
@[simp] theorem State.modStk_bad (k : Nat) (g : StackState → StackState) : (s.modStk k g).bad = s.bad := rfl
@[simp] theorem State.modStk_fields (k : Nat) (g : StackState → StackState) : (s.modStk k g).fields = s.fields := rfl
@[simp] theorem State.modStk_ports (k : Nat) (g : StackState → StackState) : (s.modStk k g).ports = s.ports := rfl
@[simp] theorem State.modStk_ctxs (k : Nat) (g : StackState → StackState) : (s.modStk k g).ctxs = s.ctxs := rfl
@[simp] theorem State.modStk_tel (k : Nat) (g : StackState → StackState) : (s.modStk k g).tel = s.tel := rfl
@[simp] theorem State.modStk_xlt (k : Nat) (g : StackState → StackState) : (s.modStk k g).xlt = s.xlt := rfl
@[simp] theorem State.modStk_crossings (k : Nat) (g : StackState → StackState) : (s.modStk k g).crossings = s.crossings := rfl
@[simp] theorem State.modStk_routes (k : Nat) (g : StackState → StackState) : (s.modStk k g).routes = s.routes := rfl
@[simp] theorem State.modStk_gangs (k : Nat) (g : StackState → StackState) : (s.modStk k g).gangs = s.gangs := rfl
@[simp] theorem State.modStk_trees (k : Nat) (g : StackState → StackState) : (s.modStk k g).trees = s.trees := rfl
@[simp] theorem State.modStk_board (k : Nat) (g : StackState → StackState) : (s.modStk k g).board = s.board := rfl
@[simp] theorem State.modStk_power (k : Nat) (g : StackState → StackState) : (s.modStk k g).power = s.power := rfl
@[simp] theorem State.modStk_eth (k : Nat) (g : StackState → StackState) : (s.modStk k g).eth = s.eth := rfl
@[simp] theorem State.modStk_srv (k : Nat) (g : StackState → StackState) : (s.modStk k g).srv = s.srv := rfl
@[simp] theorem State.modStk_nv (k : Nat) (g : StackState → StackState) : (s.modStk k g).nv = s.nv := rfl
@[simp] theorem State.modStk_plane (k : Nat) (g : StackState → StackState) : (s.modStk k g).plane = s.plane := rfl
@[simp] theorem State.modStk_fresh (k : Nat) (g : StackState → StackState) : (s.modStk k g).fresh = s.fresh := rfl

@[simp] theorem State.modCtx_pending (c : Nat) (g : CtxState → CtxState) : (s.modCtx c g).pending = s.pending := rfl
@[simp] theorem State.modCtx_regs (c : Nat) (g : CtxState → CtxState) : (s.modCtx c g).regs = s.regs := rfl
@[simp] theorem State.modCtx_holds (c : Nat) (g : CtxState → CtxState) : (s.modCtx c g).holds = s.holds := rfl
@[simp] theorem State.modCtx_mem (c : Nat) (g : CtxState → CtxState) : (s.modCtx c g).mem = s.mem := rfl
@[simp] theorem State.modCtx_bad (c : Nat) (g : CtxState → CtxState) : (s.modCtx c g).bad = s.bad := rfl
@[simp] theorem State.modCtx_fields (c : Nat) (g : CtxState → CtxState) : (s.modCtx c g).fields = s.fields := rfl
@[simp] theorem State.modCtx_stks (c : Nat) (g : CtxState → CtxState) : (s.modCtx c g).stks = s.stks := rfl
@[simp] theorem State.modCtx_ports (c : Nat) (g : CtxState → CtxState) : (s.modCtx c g).ports = s.ports := rfl
@[simp] theorem State.modCtx_tel (c : Nat) (g : CtxState → CtxState) : (s.modCtx c g).tel = s.tel := rfl
@[simp] theorem State.modCtx_xlt (c : Nat) (g : CtxState → CtxState) : (s.modCtx c g).xlt = s.xlt := rfl
@[simp] theorem State.modCtx_crossings (c : Nat) (g : CtxState → CtxState) : (s.modCtx c g).crossings = s.crossings := rfl
@[simp] theorem State.modCtx_routes (c : Nat) (g : CtxState → CtxState) : (s.modCtx c g).routes = s.routes := rfl
@[simp] theorem State.modCtx_gangs (c : Nat) (g : CtxState → CtxState) : (s.modCtx c g).gangs = s.gangs := rfl
@[simp] theorem State.modCtx_trees (c : Nat) (g : CtxState → CtxState) : (s.modCtx c g).trees = s.trees := rfl
@[simp] theorem State.modCtx_board (c : Nat) (g : CtxState → CtxState) : (s.modCtx c g).board = s.board := rfl
@[simp] theorem State.modCtx_power (c : Nat) (g : CtxState → CtxState) : (s.modCtx c g).power = s.power := rfl
@[simp] theorem State.modCtx_eth (c : Nat) (g : CtxState → CtxState) : (s.modCtx c g).eth = s.eth := rfl
@[simp] theorem State.modCtx_srv (c : Nat) (g : CtxState → CtxState) : (s.modCtx c g).srv = s.srv := rfl
@[simp] theorem State.modCtx_nv (c : Nat) (g : CtxState → CtxState) : (s.modCtx c g).nv = s.nv := rfl
@[simp] theorem State.modCtx_plane (c : Nat) (g : CtxState → CtxState) : (s.modCtx c g).plane = s.plane := rfl
@[simp] theorem State.modCtx_fresh (c : Nat) (g : CtxState → CtxState) : (s.modCtx c g).fresh = s.fresh := rfl

@[simp] theorem State.modTel_pending (g : TelState → TelState) : (s.modTel g).pending = s.pending := rfl
@[simp] theorem State.modTel_regs (g : TelState → TelState) : (s.modTel g).regs = s.regs := rfl
@[simp] theorem State.modTel_holds (g : TelState → TelState) : (s.modTel g).holds = s.holds := rfl
@[simp] theorem State.modTel_mem (g : TelState → TelState) : (s.modTel g).mem = s.mem := rfl
@[simp] theorem State.modTel_bad (g : TelState → TelState) : (s.modTel g).bad = s.bad := rfl
@[simp] theorem State.modTel_fields (g : TelState → TelState) : (s.modTel g).fields = s.fields := rfl
@[simp] theorem State.modTel_stks (g : TelState → TelState) : (s.modTel g).stks = s.stks := rfl
@[simp] theorem State.modTel_ports (g : TelState → TelState) : (s.modTel g).ports = s.ports := rfl
@[simp] theorem State.modTel_ctxs (g : TelState → TelState) : (s.modTel g).ctxs = s.ctxs := rfl
@[simp] theorem State.modTel_xlt (g : TelState → TelState) : (s.modTel g).xlt = s.xlt := rfl
@[simp] theorem State.modTel_crossings (g : TelState → TelState) : (s.modTel g).crossings = s.crossings := rfl
@[simp] theorem State.modTel_routes (g : TelState → TelState) : (s.modTel g).routes = s.routes := rfl
@[simp] theorem State.modTel_gangs (g : TelState → TelState) : (s.modTel g).gangs = s.gangs := rfl
@[simp] theorem State.modTel_trees (g : TelState → TelState) : (s.modTel g).trees = s.trees := rfl
@[simp] theorem State.modTel_board (g : TelState → TelState) : (s.modTel g).board = s.board := rfl
@[simp] theorem State.modTel_power (g : TelState → TelState) : (s.modTel g).power = s.power := rfl
@[simp] theorem State.modTel_eth (g : TelState → TelState) : (s.modTel g).eth = s.eth := rfl
@[simp] theorem State.modTel_srv (g : TelState → TelState) : (s.modTel g).srv = s.srv := rfl
@[simp] theorem State.modTel_nv (g : TelState → TelState) : (s.modTel g).nv = s.nv := rfl
@[simp] theorem State.modTel_plane (g : TelState → TelState) : (s.modTel g).plane = s.plane := rfl
@[simp] theorem State.modTel_fresh (g : TelState → TelState) : (s.modTel g).fresh = s.fresh := rfl

@[simp] theorem State.setStage_pending (k : Nat) (g : TelStage) : (s.setStage k g).pending = s.pending := rfl
@[simp] theorem State.setStage_regs (k : Nat) (g : TelStage) : (s.setStage k g).regs = s.regs := rfl
@[simp] theorem State.setStage_holds (k : Nat) (g : TelStage) : (s.setStage k g).holds = s.holds := rfl
@[simp] theorem State.setStage_mem (k : Nat) (g : TelStage) : (s.setStage k g).mem = s.mem := rfl
@[simp] theorem State.setStage_bad (k : Nat) (g : TelStage) : (s.setStage k g).bad = s.bad := rfl
@[simp] theorem State.setStage_fields (k : Nat) (g : TelStage) : (s.setStage k g).fields = s.fields := rfl
@[simp] theorem State.setStage_stks (k : Nat) (g : TelStage) : (s.setStage k g).stks = s.stks := rfl
@[simp] theorem State.setStage_ports (k : Nat) (g : TelStage) : (s.setStage k g).ports = s.ports := rfl
@[simp] theorem State.setStage_ctxs (k : Nat) (g : TelStage) : (s.setStage k g).ctxs = s.ctxs := rfl
@[simp] theorem State.setStage_xlt (k : Nat) (g : TelStage) : (s.setStage k g).xlt = s.xlt := rfl
@[simp] theorem State.setStage_crossings (k : Nat) (g : TelStage) : (s.setStage k g).crossings = s.crossings := rfl
@[simp] theorem State.setStage_routes (k : Nat) (g : TelStage) : (s.setStage k g).routes = s.routes := rfl
@[simp] theorem State.setStage_gangs (k : Nat) (g : TelStage) : (s.setStage k g).gangs = s.gangs := rfl
@[simp] theorem State.setStage_trees (k : Nat) (g : TelStage) : (s.setStage k g).trees = s.trees := rfl
@[simp] theorem State.setStage_board (k : Nat) (g : TelStage) : (s.setStage k g).board = s.board := rfl
@[simp] theorem State.setStage_power (k : Nat) (g : TelStage) : (s.setStage k g).power = s.power := rfl
@[simp] theorem State.setStage_eth (k : Nat) (g : TelStage) : (s.setStage k g).eth = s.eth := rfl
@[simp] theorem State.setStage_srv (k : Nat) (g : TelStage) : (s.setStage k g).srv = s.srv := rfl
@[simp] theorem State.setStage_nv (k : Nat) (g : TelStage) : (s.setStage k g).nv = s.nv := rfl
@[simp] theorem State.setStage_plane (k : Nat) (g : TelStage) : (s.setStage k g).plane = s.plane := rfl
@[simp] theorem State.setStage_fresh (k : Nat) (g : TelStage) : (s.setStage k g).fresh = s.fresh := rfl

@[simp] theorem State.modBoard_pending (g : Board → Board) : (s.modBoard g).pending = s.pending := rfl
@[simp] theorem State.modBoard_regs (g : Board → Board) : (s.modBoard g).regs = s.regs := rfl
@[simp] theorem State.modBoard_holds (g : Board → Board) : (s.modBoard g).holds = s.holds := rfl
@[simp] theorem State.modBoard_mem (g : Board → Board) : (s.modBoard g).mem = s.mem := rfl
@[simp] theorem State.modBoard_bad (g : Board → Board) : (s.modBoard g).bad = s.bad := rfl
@[simp] theorem State.modBoard_fields (g : Board → Board) : (s.modBoard g).fields = s.fields := rfl
@[simp] theorem State.modBoard_stks (g : Board → Board) : (s.modBoard g).stks = s.stks := rfl
@[simp] theorem State.modBoard_ports (g : Board → Board) : (s.modBoard g).ports = s.ports := rfl
@[simp] theorem State.modBoard_ctxs (g : Board → Board) : (s.modBoard g).ctxs = s.ctxs := rfl
@[simp] theorem State.modBoard_tel (g : Board → Board) : (s.modBoard g).tel = s.tel := rfl
@[simp] theorem State.modBoard_xlt (g : Board → Board) : (s.modBoard g).xlt = s.xlt := rfl
@[simp] theorem State.modBoard_crossings (g : Board → Board) : (s.modBoard g).crossings = s.crossings := rfl
@[simp] theorem State.modBoard_routes (g : Board → Board) : (s.modBoard g).routes = s.routes := rfl
@[simp] theorem State.modBoard_gangs (g : Board → Board) : (s.modBoard g).gangs = s.gangs := rfl
@[simp] theorem State.modBoard_trees (g : Board → Board) : (s.modBoard g).trees = s.trees := rfl
@[simp] theorem State.modBoard_power (g : Board → Board) : (s.modBoard g).power = s.power := rfl
@[simp] theorem State.modBoard_eth (g : Board → Board) : (s.modBoard g).eth = s.eth := rfl
@[simp] theorem State.modBoard_srv (g : Board → Board) : (s.modBoard g).srv = s.srv := rfl
@[simp] theorem State.modBoard_nv (g : Board → Board) : (s.modBoard g).nv = s.nv := rfl
@[simp] theorem State.modBoard_plane (g : Board → Board) : (s.modBoard g).plane = s.plane := rfl
@[simp] theorem State.modBoard_fresh (g : Board → Board) : (s.modBoard g).fresh = s.fresh := rfl

@[simp] theorem State.modPower_pending (g : PowerState → PowerState) : (s.modPower g).pending = s.pending := rfl
@[simp] theorem State.modPower_regs (g : PowerState → PowerState) : (s.modPower g).regs = s.regs := rfl
@[simp] theorem State.modPower_holds (g : PowerState → PowerState) : (s.modPower g).holds = s.holds := rfl
@[simp] theorem State.modPower_mem (g : PowerState → PowerState) : (s.modPower g).mem = s.mem := rfl
@[simp] theorem State.modPower_bad (g : PowerState → PowerState) : (s.modPower g).bad = s.bad := rfl
@[simp] theorem State.modPower_fields (g : PowerState → PowerState) : (s.modPower g).fields = s.fields := rfl
@[simp] theorem State.modPower_stks (g : PowerState → PowerState) : (s.modPower g).stks = s.stks := rfl
@[simp] theorem State.modPower_ports (g : PowerState → PowerState) : (s.modPower g).ports = s.ports := rfl
@[simp] theorem State.modPower_ctxs (g : PowerState → PowerState) : (s.modPower g).ctxs = s.ctxs := rfl
@[simp] theorem State.modPower_tel (g : PowerState → PowerState) : (s.modPower g).tel = s.tel := rfl
@[simp] theorem State.modPower_xlt (g : PowerState → PowerState) : (s.modPower g).xlt = s.xlt := rfl
@[simp] theorem State.modPower_crossings (g : PowerState → PowerState) : (s.modPower g).crossings = s.crossings := rfl
@[simp] theorem State.modPower_routes (g : PowerState → PowerState) : (s.modPower g).routes = s.routes := rfl
@[simp] theorem State.modPower_gangs (g : PowerState → PowerState) : (s.modPower g).gangs = s.gangs := rfl
@[simp] theorem State.modPower_trees (g : PowerState → PowerState) : (s.modPower g).trees = s.trees := rfl
@[simp] theorem State.modPower_board (g : PowerState → PowerState) : (s.modPower g).board = s.board := rfl
@[simp] theorem State.modPower_eth (g : PowerState → PowerState) : (s.modPower g).eth = s.eth := rfl
@[simp] theorem State.modPower_srv (g : PowerState → PowerState) : (s.modPower g).srv = s.srv := rfl
@[simp] theorem State.modPower_nv (g : PowerState → PowerState) : (s.modPower g).nv = s.nv := rfl
@[simp] theorem State.modPower_plane (g : PowerState → PowerState) : (s.modPower g).plane = s.plane := rfl
@[simp] theorem State.modPower_fresh (g : PowerState → PowerState) : (s.modPower g).fresh = s.fresh := rfl

@[simp] theorem State.bumpFresh_pending : s.bumpFresh.pending = s.pending := rfl
@[simp] theorem State.bumpFresh_regs : s.bumpFresh.regs = s.regs := rfl
@[simp] theorem State.bumpFresh_holds : s.bumpFresh.holds = s.holds := rfl
@[simp] theorem State.bumpFresh_mem : s.bumpFresh.mem = s.mem := rfl
@[simp] theorem State.bumpFresh_bad : s.bumpFresh.bad = s.bad := rfl
@[simp] theorem State.bumpFresh_fields : s.bumpFresh.fields = s.fields := rfl
@[simp] theorem State.bumpFresh_stks : s.bumpFresh.stks = s.stks := rfl
@[simp] theorem State.bumpFresh_ports : s.bumpFresh.ports = s.ports := rfl
@[simp] theorem State.bumpFresh_ctxs : s.bumpFresh.ctxs = s.ctxs := rfl
@[simp] theorem State.bumpFresh_tel : s.bumpFresh.tel = s.tel := rfl
@[simp] theorem State.bumpFresh_xlt : s.bumpFresh.xlt = s.xlt := rfl
@[simp] theorem State.bumpFresh_crossings : s.bumpFresh.crossings = s.crossings := rfl
@[simp] theorem State.bumpFresh_routes : s.bumpFresh.routes = s.routes := rfl
@[simp] theorem State.bumpFresh_gangs : s.bumpFresh.gangs = s.gangs := rfl
@[simp] theorem State.bumpFresh_trees : s.bumpFresh.trees = s.trees := rfl
@[simp] theorem State.bumpFresh_board : s.bumpFresh.board = s.board := rfl
@[simp] theorem State.bumpFresh_power : s.bumpFresh.power = s.power := rfl
@[simp] theorem State.bumpFresh_eth : s.bumpFresh.eth = s.eth := rfl
@[simp] theorem State.bumpFresh_srv : s.bumpFresh.srv = s.srv := rfl
@[simp] theorem State.bumpFresh_nv : s.bumpFresh.nv = s.nv := rfl
@[simp] theorem State.bumpFresh_plane : s.bumpFresh.plane = s.plane := rfl

@[simp] theorem State.markBad_pending (w : Nat) (b : Bool) : (s.markBad w b).pending = s.pending := rfl
@[simp] theorem State.markBad_regs (w : Nat) (b : Bool) : (s.markBad w b).regs = s.regs := rfl
@[simp] theorem State.markBad_holds (w : Nat) (b : Bool) : (s.markBad w b).holds = s.holds := rfl
@[simp] theorem State.markBad_mem (w : Nat) (b : Bool) : (s.markBad w b).mem = s.mem := rfl
@[simp] theorem State.markBad_fields (w : Nat) (b : Bool) : (s.markBad w b).fields = s.fields := rfl
@[simp] theorem State.markBad_stks (w : Nat) (b : Bool) : (s.markBad w b).stks = s.stks := rfl
@[simp] theorem State.markBad_ports (w : Nat) (b : Bool) : (s.markBad w b).ports = s.ports := rfl
@[simp] theorem State.markBad_ctxs (w : Nat) (b : Bool) : (s.markBad w b).ctxs = s.ctxs := rfl
@[simp] theorem State.markBad_tel (w : Nat) (b : Bool) : (s.markBad w b).tel = s.tel := rfl
@[simp] theorem State.markBad_xlt (w : Nat) (b : Bool) : (s.markBad w b).xlt = s.xlt := rfl
@[simp] theorem State.markBad_crossings (w : Nat) (b : Bool) : (s.markBad w b).crossings = s.crossings := rfl
@[simp] theorem State.markBad_routes (w : Nat) (b : Bool) : (s.markBad w b).routes = s.routes := rfl
@[simp] theorem State.markBad_gangs (w : Nat) (b : Bool) : (s.markBad w b).gangs = s.gangs := rfl
@[simp] theorem State.markBad_trees (w : Nat) (b : Bool) : (s.markBad w b).trees = s.trees := rfl
@[simp] theorem State.markBad_board (w : Nat) (b : Bool) : (s.markBad w b).board = s.board := rfl
@[simp] theorem State.markBad_power (w : Nat) (b : Bool) : (s.markBad w b).power = s.power := rfl
@[simp] theorem State.markBad_eth (w : Nat) (b : Bool) : (s.markBad w b).eth = s.eth := rfl
@[simp] theorem State.markBad_srv (w : Nat) (b : Bool) : (s.markBad w b).srv = s.srv := rfl
@[simp] theorem State.markBad_nv (w : Nat) (b : Bool) : (s.markBad w b).nv = s.nv := rfl
@[simp] theorem State.markBad_plane (w : Nat) (b : Bool) : (s.markBad w b).plane = s.plane := rfl
@[simp] theorem State.markBad_fresh (w : Nat) (b : Bool) : (s.markBad w b).fresh = s.fresh := rfl

@[simp] theorem State.mzero_pending (a n : Nat) : (s.mzero a n).pending = s.pending := rfl
@[simp] theorem State.mzero_regs (a n : Nat) : (s.mzero a n).regs = s.regs := rfl
@[simp] theorem State.mzero_holds (a n : Nat) : (s.mzero a n).holds = s.holds := rfl
@[simp] theorem State.mzero_fields (a n : Nat) : (s.mzero a n).fields = s.fields := rfl
@[simp] theorem State.mzero_stks (a n : Nat) : (s.mzero a n).stks = s.stks := rfl
@[simp] theorem State.mzero_ports (a n : Nat) : (s.mzero a n).ports = s.ports := rfl
@[simp] theorem State.mzero_ctxs (a n : Nat) : (s.mzero a n).ctxs = s.ctxs := rfl
@[simp] theorem State.mzero_tel (a n : Nat) : (s.mzero a n).tel = s.tel := rfl
@[simp] theorem State.mzero_xlt (a n : Nat) : (s.mzero a n).xlt = s.xlt := rfl
@[simp] theorem State.mzero_crossings (a n : Nat) : (s.mzero a n).crossings = s.crossings := rfl
@[simp] theorem State.mzero_routes (a n : Nat) : (s.mzero a n).routes = s.routes := rfl
@[simp] theorem State.mzero_gangs (a n : Nat) : (s.mzero a n).gangs = s.gangs := rfl
@[simp] theorem State.mzero_trees (a n : Nat) : (s.mzero a n).trees = s.trees := rfl
@[simp] theorem State.mzero_board (a n : Nat) : (s.mzero a n).board = s.board := rfl
@[simp] theorem State.mzero_power (a n : Nat) : (s.mzero a n).power = s.power := rfl
@[simp] theorem State.mzero_eth (a n : Nat) : (s.mzero a n).eth = s.eth := rfl
@[simp] theorem State.mzero_srv (a n : Nat) : (s.mzero a n).srv = s.srv := rfl
@[simp] theorem State.mzero_nv (a n : Nat) : (s.mzero a n).nv = s.nv := rfl
@[simp] theorem State.mzero_plane (a n : Nat) : (s.mzero a n).plane = s.plane := rfl
@[simp] theorem State.mzero_fresh (a n : Nat) : (s.mzero a n).fresh = s.fresh := rfl

@[simp] theorem State.alerts_pending : s.alerts.pending = s.pending := rfl
@[simp] theorem State.alerts_holds : s.alerts.holds = s.holds := rfl
@[simp] theorem State.alerts_mem : s.alerts.mem = s.mem := rfl
@[simp] theorem State.alerts_bad : s.alerts.bad = s.bad := rfl
@[simp] theorem State.alerts_fields : s.alerts.fields = s.fields := rfl
@[simp] theorem State.alerts_stks : s.alerts.stks = s.stks := rfl
@[simp] theorem State.alerts_ports : s.alerts.ports = s.ports := rfl
@[simp] theorem State.alerts_ctxs : s.alerts.ctxs = s.ctxs := rfl
@[simp] theorem State.alerts_tel : s.alerts.tel = s.tel := rfl
@[simp] theorem State.alerts_xlt : s.alerts.xlt = s.xlt := rfl
@[simp] theorem State.alerts_crossings : s.alerts.crossings = s.crossings := rfl
@[simp] theorem State.alerts_routes : s.alerts.routes = s.routes := rfl
@[simp] theorem State.alerts_gangs : s.alerts.gangs = s.gangs := rfl
@[simp] theorem State.alerts_trees : s.alerts.trees = s.trees := rfl
@[simp] theorem State.alerts_power : s.alerts.power = s.power := rfl
@[simp] theorem State.alerts_eth : s.alerts.eth = s.eth := rfl
@[simp] theorem State.alerts_srv : s.alerts.srv = s.srv := rfl
@[simp] theorem State.alerts_nv : s.alerts.nv = s.nv := rfl
@[simp] theorem State.alerts_plane : s.alerts.plane = s.plane := rfl
@[simp] theorem State.alerts_fresh : s.alerts.fresh = s.fresh := rfl

/-! Registers. -/

theorem State.rdN_lt (a : Nat) : s.rdN a < 2 ^ 32 := (s.rd a).isLt

theorem State.rd_of_regs {s t : State} (h : t.regs = s.regs) (a : Nat) : t.rd a = s.rd a := by simp [State.rd, h]

theorem State.get_of_regs {s t : State} (h : t.regs = s.regs) (f : RF) : t.get f = s.get f := by
  simp [State.get, State.rdN, State.rd, h]

theorem State.stamp_of_regs {s t : State} (h : t.regs = s.regs) : t.stamp = s.stamp := by
  simp [State.stamp, State.pair, State.rdN, State.rd, h]

@[simp] theorem State.rd_setReg_same (a : Nat) (w : Word) : (s.setReg a w).rd a = w := by simp [State.rd, State.setReg]

theorem State.rd_setReg_ne {a b : Nat} (w : Word) (h : b ≠ a) : (s.setReg a w).rd b = s.rd b := by
  simp [State.rd, State.setReg, Tab.get_set_ne _ _ _ h]

theorem State.get_setReg_ne (f : RF) {a : Nat} (w : Word) (h : f.addr ≠ a) : (s.setReg a w).get f = s.get f := by
  simp [State.get, State.rdN, State.rd_setReg_ne s w h]

/-- The word of a register after hardware's write of one of its fields. -/
theorem State.rdN_put_same (f : RF) (v : Nat) (h : f.lo ≤ f.hi) (hn : f.hi < 32) :
    (s.put f v).rdN f.addr = setBits (s.rdN f.addr) f.hi f.lo v := by
  simp only [State.put, State.rdN, State.rd_setReg_same, BitVec.toNat_ofNat]
  exact Nat.mod_eq_of_lt (setBits_lt _ _ _ _ 32 h hn (s.rd f.addr).isLt)

/-- A field reads back what hardware wrote to it. -/
theorem State.get_put_same (f : RF) (v : Nat) (h : f.lo ≤ f.hi) (hn : f.hi < 32) :
    (s.put f v).get f = v % 2 ^ (f.hi + 1 - f.lo) := by
  rw [State.get, State.rdN_put_same s f v h hn, bits_setBits_same _ _ _ _ h]

/-- A write of a field leaves the other fields of its register alone. -/
theorem State.get_put_beside (f g : RF) (v : Nat) (ha : g.addr = f.addr) (h : f.lo ≤ f.hi) (hn : f.hi < 32) (hd : g.hi < f.lo ∨ f.hi < g.lo) :
    (s.put f v).get g = s.get g := by
  rw [State.get, ha, State.rdN_put_same s f v h hn, bits_setBits_disjoint _ _ _ _ _ _ h hd, State.get, ha]

/-- A write of a field leaves every other register alone. -/
theorem State.rd_put_ne (f : RF) (v : Nat) {a : Nat} (h : a ≠ f.addr) : (s.put f v).rd a = s.rd a := State.rd_setReg_ne s _ h

theorem State.get_put_ne (f g : RF) (v : Nat) (h : g.addr ≠ f.addr) : (s.put f v).get g = s.get g := State.get_setReg_ne s g _ h

/-! Parts of the state. -/

@[simp] theorem State.field_setField_same (p : Nat) (f : FieldState) : (s.setField p f).field p = f := by simp [State.field, State.setField]

theorem State.field_setField_ne {p q : Nat} (f : FieldState) (h : q ≠ p) : (s.setField p f).field q = s.field q := by
  simp [State.field, State.setField, Tab.get_set_ne _ _ _ h]

@[simp] theorem State.field_modField_same (p : Nat) (g : FieldState → FieldState) : (s.modField p g).field p = g (s.field p) := by
  simp [State.modField]

theorem State.field_modField_ne {p q : Nat} (g : FieldState → FieldState) (h : q ≠ p) : (s.modField p g).field q = s.field q :=
  State.field_setField_ne s _ h

theorem State.field_of_fields {s t : State} (h : t.fields = s.fields) (p : Nat) : t.field p = s.field p := by simp [State.field, h]

@[simp] theorem State.stk_modStk_same (k : Nat) (g : StackState → StackState) : (s.modStk k g).stk k = g (s.stk k) := by
  simp [State.stk, State.modStk]

theorem State.stk_modStk_ne {k j : Nat} (g : StackState → StackState) (h : j ≠ k) : (s.modStk k g).stk j = s.stk j := by
  simp [State.stk, State.modStk, Tab.get_set_ne _ _ _ h]

@[simp] theorem State.ctx_modCtx_same (c : Nat) (g : CtxState → CtxState) : (s.modCtx c g).ctx c = g (s.ctx c) := by
  simp [State.ctx, State.modCtx]

theorem State.ctx_modCtx_ne {c d : Nat} (g : CtxState → CtxState) (h : d ≠ c) : (s.modCtx c g).ctx d = s.ctx d := by
  simp [State.ctx, State.modCtx, Tab.get_set_ne _ _ _ h]

@[simp] theorem State.modTel_tel (g : TelState → TelState) : (s.modTel g).tel = g s.tel := rfl
@[simp] theorem State.modBoard_board (g : Board → Board) : (s.modBoard g).board = g s.board := rfl
@[simp] theorem State.modPower_power (g : PowerState → PowerState) : (s.modPower g).power = g s.power := rfl
@[simp] theorem State.bumpFresh_fresh : s.bumpFresh.fresh = s.fresh + 1 := rfl
@[simp] theorem State.mzero_mem (a n : Nat) : (s.mzero a n).mem = s.mem.zeroRange a n := rfl

@[simp] theorem State.stage_setStage_same (k : Nat) (g : TelStage) : (s.setStage k g).stage k = g := by
  simp [State.stage, State.setStage, State.modTel]

theorem State.stage_setStage_ne {k j : Nat} (g : TelStage) (h : j ≠ k) : (s.setStage k g).stage j = s.stage j := by
  simp [State.stage, State.setStage, State.modTel, Tab.get_set_ne _ _ _ h]

end Sys2Proof.Machine
end

