-- ==== Sys2Proof/Laws/Alerts.lean ====
section
/-!
SUPPORT. What the end of every command does: SMB_ALERT_N and TEL_ALARM_SUMMARY follow the alarm slots, and nothing else changes.
-/

namespace Sys2Proof.Machine

variable (s : State)

/-- All the end of a command does. -/
theorem answer_next_iff (t : State) : answer s = .next t ↔ t = s.alerts := by
  constructor
  · intro h; cases h; rfl
  · rintro rfl; rfl

@[simp] theorem answer_ne_fault (r : Fault) : answer s ≠ .fault r := by simp [answer]

@[simp] theorem answer_ne_refused (r : Refusal) : answer s ≠ .refused r := by simp [answer]

@[simp] theorem State.alerts_regs : s.alerts.regs = Tab.set resetWord s.regs Reg.aTEL_ALARM_SUMMARY (BitVec.ofNat 32 s.summaryWord) := rfl

@[simp] theorem State.alerts_board : s.alerts.board = { s.board with smbAlert := s.alertDue } := rfl

/-- Every register but TEL_ALARM_SUMMARY is left alone. -/
theorem State.rd_alerts_ne {a : Nat} (h : a ≠ Reg.aTEL_ALARM_SUMMARY) : s.alerts.rd a = s.rd a := by
  simp [State.rd, Tab.get_set_ne _ _ _ h]

theorem State.rdN_alerts_ne {a : Nat} (h : a ≠ Reg.aTEL_ALARM_SUMMARY) : s.alerts.rdN a = s.rdN a := by
  simp [State.rdN, s.rd_alerts_ne h]

/-- Every field of a register but those of TEL_ALARM_SUMMARY is left alone. -/
theorem State.get_alerts_ne (f : RF) (h : f.addr ≠ Reg.aTEL_ALARM_SUMMARY) : s.alerts.get f = s.get f := by
  simp [State.get, s.rdN_alerts_ne h]

theorem State.on_alerts_ne (f : RF) (h : f.addr ≠ Reg.aTEL_ALARM_SUMMARY) : s.alerts.on f = s.on f := by
  simp [State.on, s.get_alerts_ne f h]

theorem State.pair_alerts_ne {a : Nat} (h : a ≠ Reg.aTEL_ALARM_SUMMARY) (h' : a + 4 ≠ Reg.aTEL_ALARM_SUMMARY) :
    s.alerts.pair a = s.pair a := by
  simp [State.pair, s.rdN_alerts_ne h, s.rdN_alerts_ne h']

@[simp] theorem State.stamp_alerts : s.alerts.stamp = s.stamp := State.pair_alerts_ne s (by decide) (by decide)
@[simp] theorem State.field_alerts (p : Nat) : s.alerts.field p = s.field p := rfl
@[simp] theorem State.stk_alerts (k : Nat) : s.alerts.stk k = s.stk k := rfl
@[simp] theorem State.ctx_alerts (c : Nat) : s.alerts.ctx c = s.ctx c := rfl
@[simp] theorem State.stage_alerts (k : Nat) : s.alerts.stage k = s.stage k := rfl

@[simp] theorem State.alertDue_alerts : s.alerts.alertDue = s.alertDue := by
  simp [State.alertDue, s.get_alerts_ne Reg.TEL_CTRL_ALERT_LEVEL (by decide)]

theorem State.summaryWord_lt : s.summaryWord < 2 ^ 32 := by
  have h1 := Nat.mod_lt s.tel.slots.length (show 0 < 512 by decide)
  have h2 : s.get Reg.TEL_ALARM_SUMMARY_MERGED_SEEN < 2 := bits_lt _ 26 26
  have h3 : b2n s.alertDue ≤ 1 := by cases s.alertDue <;> decide
  simp only [State.summaryWord]
  omega

end Sys2Proof.Machine
end

