-- ==== Sys2Proof/Laws/Memory.lean ====
section
/-!
SUPPORT. The byte memory: reads after writes, and that every memory operation keeps the canonical form.
-/

namespace Sys2Proof.Machine

@[simp] theorem Memory.read_write_same (m : Memory) (a : Nat) (b : Byte) : (m.write a b).read a = b := by
  simp [Memory.read, Memory.write]

theorem Memory.read_write_ne (m : Memory) {a c : Nat} (b : Byte) (h : c ≠ a) : (m.write a b).read c = m.read c :=
  Tab.get_set_ne _ _ _ h

/-- A byte outside a write is left alone. -/
theorem Memory.read_writeBytes_out (m : Memory) (bs : List Byte) (a c : Nat) (h : c < a ∨ a + bs.length ≤ c) :
    (m.writeBytes a bs).read c = m.read c := by
  induction bs generalizing m a with
  | nil => rfl
  | cons b bs ih =>
    simp only [List.length_cons] at h
    rw [Memory.writeBytes, ih _ _ (by omega), Memory.read_write_ne _ _ (by omega)]

/-- A byte inside a write reads as the byte written. -/
theorem Memory.read_writeBytes_in (m : Memory) (bs : List Byte) (a i : Nat) (h : i < bs.length) :
    (m.writeBytes a bs).read (a + i) = bs[i] := by
  induction bs generalizing m a i with
  | nil => simp at h
  | cons b bs ih =>
    cases i with
    | zero => rw [Memory.writeBytes, Memory.read_writeBytes_out _ _ _ _ (by omega)]; simp
    | succ i =>
      rw [Memory.writeBytes, show a + (i + 1) = a + 1 + i by omega, ih _ _ _ (by simpa using h)]
      simp

@[simp] theorem Memory.length_readBytes (m : Memory) (a n : Nat) : (m.readBytes a n).length = n := by
  induction n generalizing a with
  | zero => rfl
  | succ n ih => simp [Memory.readBytes, ih]

/-- Bytes written read back. -/
theorem Memory.readBytes_writeBytes (m : Memory) (bs : List Byte) (a : Nat) : (m.writeBytes a bs).readBytes a bs.length = bs := by
  induction bs generalizing m a with
  | nil => rfl
  | cons b bs ih =>
    simp only [List.length_cons, Memory.readBytes, Memory.writeBytes]
    rw [Memory.read_writeBytes_out _ _ _ _ (by omega), ih]
    simp

/-- A byte of a zeroed range reads as zero, and every other byte is left alone. -/
theorem Memory.read_zeroRange (m : Memory) (lo n c : Nat) :
    (m.zeroRange lo n).read c = if c < lo ∨ lo + n ≤ c then m.read c else 0 := by
  have h := Tab.get_filter_keys memDefault m (fun k => k < lo || lo + n ≤ k) c
  simp only [Memory.zeroRange, Memory.read]
  rw [h]
  by_cases hc : c < lo ∨ lo + n ≤ c <;> simp [hc, memDefault]

theorem Memory.wf_write (m : Memory) (a : Nat) (b : Byte) (h : m.wf = true) : (m.write a b).wf = true := Tab.wf_set _ _ _ _ h

theorem Memory.wf_writeBytes (m : Memory) (bs : List Byte) (a : Nat) (h : m.wf = true) : (m.writeBytes a bs).wf = true := by
  induction bs generalizing m a with
  | nil => exact h
  | cons b bs ih => exact ih _ _ (Memory.wf_write m a b h)

theorem Memory.wf_writeMasked (m : Memory) (bs : List Byte) (a mask : Nat) (h : m.wf = true) : (m.writeMasked a mask bs).wf = true := by
  induction bs generalizing m a mask with
  | nil => exact h
  | cons b bs ih =>
    simp only [Memory.writeMasked]
    split
    · exact ih _ _ _ (Memory.wf_write m a b h)
    · exact ih _ _ _ h

theorem Memory.wf_zeroRange (m : Memory) (lo n : Nat) (h : m.wf = true) : (m.zeroRange lo n).wf = true := Tab.wf_filter _ _ _ h

/-- Good words again: only the record of bad words changes. -/
theorem State.clearCovered_eq (s : State) (a n : Nat) : ∃ b, s.clearCovered a n = { s with bad := b } := by
  unfold State.clearCovered
  generalize (eccWords a n).filter (fun w => s.isBad w && coversWord a n w) = ws
  induction ws generalizing s with
  | nil => exact ⟨s.bad, rfl⟩
  | cons w ws ih =>
    obtain ⟨b, hb⟩ := ih (s.markBad w false)
    exact ⟨b, by simpa [State.markBad] using hb⟩

/-- All a write of memory does: the bytes, and the record of bad words. -/
theorem State.mwrite_eq (s : State) (a : Nat) (bs : List Byte) :
    ∃ b, s.mwrite a bs = { s with mem := s.mem.writeBytes a bs, bad := b } := by
  obtain ⟨b, hb⟩ := s.clearCovered_eq a bs.length
  exact ⟨b, by simp [State.mwrite, hb]⟩

@[simp] theorem State.mwrite_mem (s : State) (a : Nat) (bs : List Byte) : (s.mwrite a bs).mem = s.mem.writeBytes a bs := by
  obtain ⟨b, hb⟩ := s.mwrite_eq a bs
  rw [hb]

@[simp] theorem State.mwrite_pending (s : State) (a : Nat) (bs : List Byte) : (s.mwrite a bs).pending = s.pending := by
  obtain ⟨b, hb⟩ := s.mwrite_eq a bs; rw [hb]
@[simp] theorem State.mwrite_regs (s : State) (a : Nat) (bs : List Byte) : (s.mwrite a bs).regs = s.regs := by
  obtain ⟨b, hb⟩ := s.mwrite_eq a bs; rw [hb]
@[simp] theorem State.mwrite_holds (s : State) (a : Nat) (bs : List Byte) : (s.mwrite a bs).holds = s.holds := by
  obtain ⟨b, hb⟩ := s.mwrite_eq a bs; rw [hb]
@[simp] theorem State.mwrite_fields (s : State) (a : Nat) (bs : List Byte) : (s.mwrite a bs).fields = s.fields := by
  obtain ⟨b, hb⟩ := s.mwrite_eq a bs; rw [hb]
@[simp] theorem State.mwrite_stks (s : State) (a : Nat) (bs : List Byte) : (s.mwrite a bs).stks = s.stks := by
  obtain ⟨b, hb⟩ := s.mwrite_eq a bs; rw [hb]
@[simp] theorem State.mwrite_ports (s : State) (a : Nat) (bs : List Byte) : (s.mwrite a bs).ports = s.ports := by
  obtain ⟨b, hb⟩ := s.mwrite_eq a bs; rw [hb]
@[simp] theorem State.mwrite_ctxs (s : State) (a : Nat) (bs : List Byte) : (s.mwrite a bs).ctxs = s.ctxs := by
  obtain ⟨b, hb⟩ := s.mwrite_eq a bs; rw [hb]
@[simp] theorem State.mwrite_tel (s : State) (a : Nat) (bs : List Byte) : (s.mwrite a bs).tel = s.tel := by
  obtain ⟨b, hb⟩ := s.mwrite_eq a bs; rw [hb]
@[simp] theorem State.mwrite_xlt (s : State) (a : Nat) (bs : List Byte) : (s.mwrite a bs).xlt = s.xlt := by
  obtain ⟨b, hb⟩ := s.mwrite_eq a bs; rw [hb]
@[simp] theorem State.mwrite_crossings (s : State) (a : Nat) (bs : List Byte) : (s.mwrite a bs).crossings = s.crossings := by
  obtain ⟨b, hb⟩ := s.mwrite_eq a bs; rw [hb]
@[simp] theorem State.mwrite_gangs (s : State) (a : Nat) (bs : List Byte) : (s.mwrite a bs).gangs = s.gangs := by
  obtain ⟨b, hb⟩ := s.mwrite_eq a bs; rw [hb]
@[simp] theorem State.mwrite_trees (s : State) (a : Nat) (bs : List Byte) : (s.mwrite a bs).trees = s.trees := by
  obtain ⟨b, hb⟩ := s.mwrite_eq a bs; rw [hb]
@[simp] theorem State.mwrite_board (s : State) (a : Nat) (bs : List Byte) : (s.mwrite a bs).board = s.board := by
  obtain ⟨b, hb⟩ := s.mwrite_eq a bs; rw [hb]
@[simp] theorem State.mwrite_power (s : State) (a : Nat) (bs : List Byte) : (s.mwrite a bs).power = s.power := by
  obtain ⟨b, hb⟩ := s.mwrite_eq a bs; rw [hb]
@[simp] theorem State.mwrite_eth (s : State) (a : Nat) (bs : List Byte) : (s.mwrite a bs).eth = s.eth := by
  obtain ⟨b, hb⟩ := s.mwrite_eq a bs; rw [hb]
@[simp] theorem State.mwrite_srv (s : State) (a : Nat) (bs : List Byte) : (s.mwrite a bs).srv = s.srv := by
  obtain ⟨b, hb⟩ := s.mwrite_eq a bs; rw [hb]
@[simp] theorem State.mwrite_nv (s : State) (a : Nat) (bs : List Byte) : (s.mwrite a bs).nv = s.nv := by
  obtain ⟨b, hb⟩ := s.mwrite_eq a bs; rw [hb]
@[simp] theorem State.mwrite_plane (s : State) (a : Nat) (bs : List Byte) : (s.mwrite a bs).plane = s.plane := by
  obtain ⟨b, hb⟩ := s.mwrite_eq a bs; rw [hb]
@[simp] theorem State.mwrite_fresh (s : State) (a : Nat) (bs : List Byte) : (s.mwrite a bs).fresh = s.fresh := by
  obtain ⟨b, hb⟩ := s.mwrite_eq a bs; rw [hb]

/-- Memory operations of the state keep the canonical form. -/
theorem State.wf_mwrite (s : State) (a : Nat) (bs : List Byte) (h : s.mem.wf = true) : (s.mwrite a bs).mem.wf = true := by
  rw [State.mwrite_mem]; exact Memory.wf_writeBytes _ _ _ h

theorem State.wf_mzero (s : State) (a n : Nat) (h : s.mem.wf = true) : (s.mzero a n).mem.wf = true := Memory.wf_zeroRange _ _ _ h

/-- The memory of the reset state is canonical. -/
theorem State.reset_mem_wf : State.reset.mem.wf = true := rfl

end Sys2Proof.Machine
end

