-- ==== Sys2Proof/WellFormed.lean ====
section
/-!
DEFINITION. Which commands are well formed: operands whose type does not bound them keep the sizes and ranges the spec gives. A command that is not
well formed stands for nothing the outside can send.
-/

namespace Sys2Proof

/-- Bytes of a memory stack (R22). -/
def stackBytesOf : Nat := 48 * 2 ^ 30

/-- Bytes of the part's memory window (R322). -/
def partBytes : Nat := 2 ^ 41

/-- An access is of 1, 2, 4 or 8 bytes. -/
def sizeOk (n : Nat) : Bool := [1, 2, 4, 8].contains n

/-- A token is at most 128 bytes (R184). -/
def tokenOk : Option (List Byte) → Bool
  | none => true
  | some bs => decide (bs.length ≤ 128)

/-- A bank access lies in Field memory or above, within one granule, and a write brings as many bytes as it covers (R235). -/
def bankReqOk (r : BankReq) : Bool :=
  decide (0 < r.len ∧ r.off % 256 + r.len ≤ 256) && (if r.write then r.data.length == r.len else r.data.isEmpty)

/-- No two accesses of a step have one rank. -/
def ranksDistinct (rs : List BankReq) : Bool := decide (rs.map (·.rank)).Nodup

/-- A cache access lies within one line of 256 bytes (R239). -/
def lineAccessOk (va n : Nat) (bs : Option (List Byte)) : Bool :=
  decide (va < 2 ^ 48 ∧ 0 < n ∧ va % 256 + n ≤ 256) && (match bs with | some b => b.length == n | none => true)

/-- A stack write lies within one block of 64 bytes of the stack (R301). -/
def blockOk (a : Nat) (bs : List Byte) : Bool := decide (0 < bs.length ∧ a % 64 + bs.length ≤ 64 ∧ a + bs.length ≤ stackBytesOf)

/-- A gather reads 1 to 32 tokens of one stack (R310). -/
def gatherOk (as : List Nat) : Bool := decide (0 < as.length ∧ as.length ≤ 32) && as.all fun a => decide (a + 128 ≤ stackBytesOf)

/-- The addresses, tags and numbers of a frame fit their widths (R372, R376, R381). -/
def frameOk (f : EthFrame) : Bool :=
  decide (f.dst < 2 ^ 48 ∧ f.src < 2 ^ 48 ∧ f.tags.length ≤ 2) && (f.tags.all fun t => decide (t.1 < 4096 ∧ t.2 < 8)) &&
    (match f.sec with | some t => decide (t.sci < 2 ^ 64 ∧ t.an < 4 ∧ t.pn < 2 ^ 64) | none => true) &&
    (match f.body with
     | .udp a b _ => decide (a < 2 ^ 16 ∧ b < 2 ^ 16)
     | .roce k => decide (k.qp < 2 ^ 24 ∧ k.psn < 2 ^ 24 ∧ k.va < 2 ^ 64 ∧ k.rkey < 2 ^ 32 ∧ k.len < 2 ^ 32)
     | _ => true)

/-- A context's load: legs of 256 bytes, registers of a window, 16 shapes a variant (R205, R459, R460). -/
def loadOk (d : CtxLoad) : Bool :=
  (d.legs.all fun l => l.2.bytes.length == 256) && (d.regs.all fun r => decide (r.2.1 < 0x100000 ∧ r.2.1 % 4 = 0)) &&
    d.decl.variants.all fun v => v.shapes.length == 16

/-- A deployment record's fields fit their widths (R455). -/
def recordOk (r : DeployRec) : Bool :=
  decide (r.version < 2 ^ 32 ∧ r.mac < 2 ^ 48 ∧ r.ipv4 < 2 ^ 32 ∧ r.ipv6 < 2 ^ 128 ∧ r.linkLocal < 2 ^ 128)

/-- What an object brings. -/
def bodyOk : StageBody → Bool
  | .record r => recordOk r
  | .image _ cs => cs.all fun c => loadOk c.2
  | .firmware => true

/-- What a start-up finds. -/
def bootOk (b : BootInput) : Bool :=
  decide (b.auditMissing ≤ 253952) && (match b.flash with | some f => decide (f.bytes.length ≤ 2 ^ 29) && f.bodies.all bodyOk | none => true)

/-- Outputs of distinct batch slots. -/
def outsOk (outs : List SeqOut) : Bool := decide (outs.map (·.slot)).Nodup

/-- Decision words of 16 bytes (R422). -/
def answersOk (as : List (Option (List Byte))) : Bool :=
  as.all fun a => match a with | some b => b.length == 16 | none => true

/-- A reading has its four quadrants (R436). -/
def readingOk (r : PowerReading) : Bool := r.tj.length == 4 && r.quadStep.length == 4 && r.excess.length == 4

/-- Is a command well formed? -/
def Instr.wellFormed (i : Instr) : Bool :=
  match i with
  | .dcsRegisterWrite _ size _ => sizeOk size
  | .handshakeStep _ _ place => tokenOk place
  | .crossingToken _ _ tok _ => tokenOk tok
  | .pacerPermit _ => true
  | .trimLock _ => true
  | .pacerCtrlWrite _ _ => true
  | .rateDisturbed _ _ => true
  | .rateRecovered _ _ => true
  | .rateMonUpdate _ _ _ => true
  | .seqIssuePost _ _ _ => true
  | .gridPost _ _ => true
  | .gpPostBind _ _ _ => true
  | .macroIssue _ _ => true
  | .bTileLoad _ _ _ => true
  | .ktileRun _ _ _ _ => true
  | .slotResume _ _ _ => true
  | .tileDrain _ _ _ _ => true
  | .treeCombine _ _ tidx level pos => decide (tidx < 2 ^ 32 ∧ level ≤ 5 ∧ pos < 32)
  | .arraySuspend _ _ _ _ _ => true
  | .haloExchange _ _ _ => true
  | .macroComplete _ _ => true
  | .pairIssue _ => true
  | .pairVisit _ => true
  | .pairSuspend _ => true
  | .pairPartnerStop _ => true
  | .engIssuePost _ _ _ => true
  | .engOpIssue _ _ => true
  | .veChainVector _ _ _ _ _ => true
  | .reSegment _ _ => true
  | .engSuspend _ _ _ => true
  | .engComplete _ _ => true
  | .cuStep _ _ => true
  | .legSwitch _ _ => true
  | .agToken _ _ _ _ => true
  | .agRingSlot _ _ _ => true
  | .stallCountTick _ => true
  | .gridCntClear _ _ _ => true
  | .noProgressWindow _ _ => true
  | .reconfIssuePost _ _ => true
  | .regionStart _ => true
  | .regionDrained _ => true
  | .drainTimeout _ => true
  | .walkIssuePost _ _ => true
  | .walkStart _ => true
  | .walkEdgeStep _ => true
  | .walkComplete _ => true
  | .bankAccess _ _ rs => rs.all bankReqOk && ranksDistinct rs
  | .bankWakeDone _ _ => true
  | .bankIdleExpiry _ _ => true
  | .gateFenceAck _ _ _ => true
  | .sliceModeWrite _ _ => true
  | .cacheAccess _ _ va n bs _ => lineAccessOk va n bs
  | .flush _ _ => true
  | .inval _ _ => true
  | .flushInval _ _ => true
  | .zero _ => true
  | .flushInvalCtx _ _ => true
  | .flushInvalAll _ => true
  | .cmoDone _ => true
  | .fmScrubTick _ _ _ => true
  | .chOpen _ _ => true
  | .chClose _ _ => true
  | .chOpenAck _ _ => true
  | .chSend _ _ => true
  | .legRecordSend _ _ => true
  | .recordPlace _ _ => true
  | .creditUpdate _ _ => true
  | .rptrWrite _ _ _ => true
  | .selectDeliver _ _ _ _ _ => true
  | .arrive _ _ => true
  | .claim _ _ => true
  | .hurdleWait _ _ => true
  | .waitComplete _ _ => true
  | .dmaIssuePost _ _ _ => true
  | .copy _ _ => true
  | .relay _ _ => true
  | .fill _ _ => true
  | .relayReserve _ _ => true
  | .dmaGranule _ _ _ _ _ => true
  | .dmaSuspend _ _ => true
  | .dmaComplete _ _ => true
  | .relayGranule _ _ => true
  | .streamArbitrate _ => true
  | .ringRelease _ _ => true
  | .ringProduce _ _ _ _ => true
  | .ringFree _ _ _ => true
  | .stackRead _ a _ _ => decide (a < stackBytesOf)
  | .stackWrite _ a bs _ _ => blockOk a bs
  | .gather _ as _ _ => gatherOk as
  | .scatterAdd va _ mask tok _ => decide (va < 2 ^ 48 ∧ mask < 2 ^ 32 ∧ tok.length ≤ 128)
  | .atomic va op x new _ => decide (va < 2 ^ 48 ∧ op ≤ 9 ∧ x < 2 ^ 64 ∧ new < 2 ^ 64)
  | .stackRefresh _ _ _ _ => true
  | .stackTempUpdate _ _ => true
  | .stackScrubPage _ _ _ => true
  | .dieCopyStart _ _ => true
  | .dieCopyDone _ => true
  | .rowRemap _ _ _ _ => true
  | .rowRemapDone _ => true
  | .stackIdleExpiry _ => true
  | .stackWake _ => true
  | .tlbWalk _ _ _ _ va _ => decide (va < 2 ^ 48)
  | .faultQueueWrite _ => true
  | .invalRange _ => true
  | .invalContext _ => true
  | .resolveRetry _ _ => true
  | .resolveFail _ => true
  | .remoteRetryTimer _ _ _ => true
  | .contextDeschedule _ => true
  | .contextDescheduled _ => true
  | .portTraining _ => true
  | .linkUp _ _ _ _ _ => true
  | .laneErrorCheck _ _ _ _ => true
  | .qplSteer _ _ _ => true
  | .steerDone _ => true
  | .flitReceive _ bs _ => bs.length == 256
  | .retrainTimeout _ => true
  | .flitSend _ => true
  | .flitForward _ _ => true
  | .qplRead _ => true
  | .qplWrite _ => true
  | .qplAtomic _ => true
  | .qplScatterAdd _ => true
  | .msg _ => true
  | .hurdleArrive _ => true
  | .chCredit _ => true
  | .reduce _ => true
  | .ping _ => true
  | .pong _ => true
  | .rdData _ => true
  | .wrAck _ => true
  | .atData _ => true
  | .saAck _ => true
  | .msgAck _ => true
  | .haAck _ => true
  | .qplResponseTimeout _ _ => true
  | .qplLinkDown _ => true
  | .ethLinkUp _ _ => true
  | .ethFallback _ => true
  | .retry800 _ => true
  | .frameReceive f => frameOk f
  | .pfcFrame _ _ _ => true
  | .stagingComplete body _ => bodyOk body
  | .heatStart _ => true
  | .heatEndChecks _ outs _ => outsOk outs
  | .groupVote _ rcd => rcd.length == 16
  | .groupDecision _ rcd => rcd.length == 16
  | .groupVoteTimeout _ _ => true
  | .leaderLost _ answers => answersOk answers
  | .decisionWordPoll _ answers => answersOk answers
  | .heatAbandon _ => true
  | .heatTimeout _ => true
  | .preemptWaitExpiry _ _ => true
  | .busyCharge _ _ => true
  | .bucketRefill _ _ => true
  | .contextLoad _ => true
  | .ctxMapWrite _ _ _ => true
  | .powerManagerAction r => readingOk r
  | .domReqWrite _ _ => true
  | .domainReady _ => true
  | .domainFail _ => true
  | .energyAttribution _ groups => groups.length == 8
  | .overTemperatureTrip _ => true
  | .tripRecovery _ => true
  | .porRelease _ b => bootOk b
  | .fwTrialEnd _ => true
  | .fieldMigration _ => true
  | .migrate _ => true
  | .migrateWaitExpiry _ => true
  | .migrationCopyDone _ _ => true
  | .heartbeatMiss _ => true
  | .legParityUpset _ _ _ => true
  | .legScrub _ _ _ _ => true
  | .seamDirectionFail _ => true
  | .seamRetrain _ _ => true
  | .collectorWrite _ => true
  | .gapRecord _ _ => true
  | .alarmPeriodicRecord _ => true
  | .telAlarmAck _ => true
  | .epochWrite _ => true
  | .railFault _ => true
  | .setAddress _ => true
  | .smbAlarmAck _ _ => true
  | .jtagInstruction _ => true
  | .laneLossOfLock _ _ _ => true
  | .qplTagRelease _ _ => true
  | .dcqcnRateRecovery _ => true
  | .suspendedWaitLimit _ => true
  | .vbrInRange b => bootOk b
  | .railsAndClockReady b => bootOk b
  | .gridRailRecovery _ => true
  | .controlCoreRestartDone _ => true
  | .controlCoreUncorrReport _ => true
  | .invalAll => true
  | .invalDone => true
  | .ethLinkDown => true
  | .frameSend => true
  | .cnpReceive => true
  | .arpRequest => true
  | .neighbourSolicitation => true
  | .echoRequest => true
  | .rdmaWrite => true
  | .rdmaRead => true
  | .rdmaSend => true
  | .cspDatagram => true
  | .reassemblyTimeout => true
  | .submit => true
  | .cancel => true
  | .cspStatus => true
  | .requestStateExpiry => true
  | .nonce => true
  | .nonceExpiry => true
  | .dcsRead => true
  | .dcsWrite => true
  | .serveStart => true
  | .serveStop => true
  | .setShares => true
  | .loadWeights => true
  | .powerGrant => true
  | .telemetrySubscribe => true
  | .macsecSak => true
  | .roceWindow => true
  | .roceQp => true
  | .stageImage => true
  | .deploymentRecord => true
  | .attest => true
  | .auditRead => true
  | .installerClaim => true
  | .operatorAdd => true
  | .keyRevoke => true
  | .installerRelease => true
  | .makerKeyAdd => true
  | .installerKeyAdd => true
  | .grantExpiry => true
  | .powerRecord => true
  | .regAlertAssert => true
  | .alertEscalate => true
  | .regAlertDeassert => true
  | .brownOut => true
  | .extSenseCrossing => true
  | .porAssert => true
  | .waitLock => true
  | .releaseOutputs => true
  | .releaseGrid => true
  | .enableWrites => true
  | .powerOn => true
  | .startupWait => true
  | .endStep => true
  | .startupStepFail => true
  | .quadrantTakeover => true
  | .hjelmarLockstep => true
  | .wearCountCopy => true
  | .telemetryExport => true
  | .bedrockTick => true
  | .xtal32kStart => true
  | .xtal32kStop => true
  | .refclkSysLoss => true
  | .refclkSdLoss => true
  | .smbRead => true
  | .smbStatus => true
  | .smbSclTimeout => true
  | .extSenseReturn => true
  | .refclkSdReturn => true
  | .hjelmarRestartDone => true

end Sys2Proof
end

