-- ==== Sys2Proof/Tests/Slice0.lean ====
section
/-!
SUPPORT. Tests. `ill_…` shows that a check of WellFormed refuses an ill-formed command, `test_…` that a command gives the value the spec gives, and
`wit_…` that the hypotheses of a statement's clause can be met together: from the statement it concludes that the clause's command completes in a
concrete state, by applying the statement to that state and showing every hypothesis there.
-/

namespace Sys2Proof.Tests

open Sys2Proof Sys2Proof.Machine

set_option maxRecDepth 20000
set_option Elab.async false

/-- What a clause says of a command's next state has the command complete. -/
theorem done {c : Instr} {s : State} {P : State → Prop} (h : CompletesWith c s P) : Completes c s := h.elim fun t ht => ⟨t, ht.1⟩

/-- Go on from what a statement gives; what it asks for stays to be shown. -/
theorem cont {P Q : Prop} (p : P) (f : P → Q) : Q := f p

/-- The value of an access or check that succeeds, and that it is its value. -/
theorem ok_eq {ε α : Type} {e : Except ε α} (h : e.toOption.isSome = true) : e = .ok (e.toOption.get h) := by
  cases e with
  | ok a => rfl
  | error x => simp [Except.toOption] at h

theorem acc_eq {ε α : Type} {e : Except ε α} {x : α} (h : e.toOption = some x) : e = .ok x := by
  cases e <;> simp [Except.toOption] at h; rw [h]

/-- The error of an access that fails. -/
def errOf {ε α : Type} : Except ε α → Option ε
  | .error x => some x
  | .ok _ => none

theorem err_eq {ε α : Type} {e : Except ε α} {x : ε} (h : errOf e = some x) : e = .error x := by
  cases e <;> simp [errOf] at h; rw [h]

theorem snd_eq {α β : Type} {x : α × β} {b : β} (h : x.2 = b) : x = (x.1, b) := by cases x; cases h; rfl

/-- What a check at issue takes. -/
def taken {α : Type} : IssueEnd α → Option α
  | .ok r => some r
  | _ => none

theorem taken_eq {α : Type} {e : IssueEnd α} (h : (taken e).isSome = true) : e = .ok ((taken e).get h) := by
  cases e with
  | ok a => rfl
  | _ => simp [taken] at h

/-- What a check at issue refuses with. -/
def refusal {α : Type} : IssueEnd α → Option (Nat × Nat)
  | .refused code detail => some (code, detail)
  | _ => none

theorem refusal_eq {α : Type} {e : IssueEnd α} {code detail : Nat} (h : refusal e = some (code, detail)) : e = .refused code detail := by
  cases e <;> simp [refusal] at h
  obtain ⟨rfl, rfl⟩ := h; rfl

/-- A record from its words. -/
def words (ws : List Nat) : List Byte := ws.flatMap (leBytes 4)

/-- The first five logical Fields, on the first Fields of quadrant 0. -/
def placed : List (Nat × Word) := (List.range 5).map fun m => (Reg.aDEV_FIELD_MAP m, BitVec.ofNat 32 (18 * (m / 16) + m % 16))

/-- A part that has started: supplies and clocks in range, every domain on, the grid released, writes enabled, serving. -/
def base : State :=
  ({ State.reset with
      regs := placed
      board := { State.reset.board with vbr := true, rails := true, porHigh := true, held := none, strap := 1, refclkSd := true, xtal := true,
                                        xtalSeen := true, faultHold := 0, devOk := true, outputs := true, released := 0xFF, gridStarted := true } }).puts
    [(Reg.DEV_CORE_MAP_CORE 0, 0), (Reg.DEV_CORE_MAP_CORE 1, 1), (Reg.DEV_CORE_MAP_CORE 2, 2), (Reg.DEV_CORE_MAP_CORE 3, 3),
     (Reg.PWR_DOM_STATE_READY 0, 0xFFFFFFFF), (Reg.PWR_DOM_STATE_READY 1, 0x3FFFF), (Reg.CFG_BOOT_STATUS_PHASE, 9),
     (Reg.CFG_BOOT_STATUS_WRITES_EN, 1), (Reg.XLT_DEVICE_ID_DEVICE, 5), (Reg.XLT_DEVICE_ID_VALID, 1)]

/-- Context `c` of partition 2 in slot `k` of Field `p`, within a heat, with all of Field memory in its window. -/
def withCtx (s : State) (p k c : Nat) : State :=
  s.puts [(Reg.FLD_CTX_MAP_CTX_ID p k, c), (Reg.FLD_CTX_MAP_PART p k, 2), (Reg.FLD_CTX_MAP_VALID p k, 1), (Reg.FLD_CTX_MAP_SCHED p k, 1),
    (Reg.FLD_CTX_MAP_IN_HEAT p k, 1), (Reg.FLD_FM_WIN_BASE p (2 * k), 0), (Reg.FLD_FM_WIN_COUNT p (2 * k), 256),
    (Reg.SCH_CTX_STATE_STATE c, 2), (Reg.SCH_CTX_STATE_PART c, 2)]

/-- Context 5 runs on Field 3, in slot 1, with the first GiB of stack 0 mapped at VA 0. -/
def run : State :=
  ((((withCtx base 3 1 5).setReg (Reg.aFLD_FM_BANK_STATE 3 0) 0).setReg (Reg.aFLD_FM_BANK_STATE 4 0) 0).puts [(Reg.STK_STATUS_READY 0, 1), (Reg.STK_STATUS_PWR_STATE 0, 0), (Reg.FLD_SEQ_CTRL_MA0_RUN 3, 1), (Reg.FLD_SEQ_CTRL_MA1_RUN 3, 1),
    (Reg.FLD_CTX_SAVE_BASE 3 1, 16), (Reg.XLT_CTX_ROOT_EN 5, 1)]).modField 3 fun f =>
      { f with tlb := [{ ctx := 5, vbase := 0, size := 2 ^ 30, frame := 5 * 2 ^ 41, rights := 7 }] }

/-! Queue, reset, alarms, registers, self-timed operation. -/

/-- A command waits. -/
def queued : State := { base with pending := [.trimLock 3] }

theorem wit_step : Obligations.StepRunsTheFrontCommand → step queued = exec (.trimLock 3) { queued with pending := [] } :=
  fun h => h.1 queued (.trimLock 3) [] (by decide +kernel)

theorem wit_step_idle : Obligations.StepRunsTheFrontCommand → step base = .next base := fun h => h.2 base (by decide +kernel)

theorem wit_alarms : State.reset.AlarmsShown ∧ ∃ t, step { State.reset with pending := [.xtal32kStop] } = .next t :=
  ⟨⟨by decide +kernel, by decide +kernel⟩, _, rfl⟩

theorem wit_dcs_write : Obligations.CoreWritesFollowTheAccessCodes → Completes (.dcsRegisterWrite 0x900000 4 0) base := fun h => by
  refine done (h base 0x900000 0 .cfg 0 0 ((regRow? 0x900000).get (by decide +kernel)) ?_ ?_ ?_ (Option.some_get _).symm ?_ ?_) <;> decide +kernel

theorem wit_dcs_unaligned : Obligations.AccessesWithoutEffectAreRecorded → Completes (.dcsRegisterWrite 0x900001 4 7) base := fun h =>
  done (h.1 base 0x900001 7 4 1 (by decide +kernel) (by decide +kernel))

theorem wit_dcs_empty : Obligations.AccessesWithoutEffectAreRecorded → Completes (.dcsRegisterWrite 0xF00000 4 7) base := fun h =>
  done (h.1 base 0xF00000 7 4 0 (by decide +kernel) (by decide +kernel))

/-- Field 3 with its group off. -/
def gone : State := base.puts [(Reg.PWR_DOM_STATE_READY 1, 0x3FFFE)]

theorem wit_dcs_gone : Obligations.AccessesWithoutEffectAreRecorded → Completes (.dcsRegisterWrite 0x2304004 4 7) gone := fun h => by
  refine done (h.2.1 gone 0x2304004 7 3 0x4004 ((regRow? 0x2304004).get (by decide +kernel)) ?_ ?_ ?_ (Option.some_get _).symm ?_)
    <;> decide +kernel

theorem wit_dcs_read : Obligations.AccessesWithoutEffectAreRecorded → (base.dcsRead reqMgmt 0x900001).2 = 0 := fun h =>
  h.2.2 base reqMgmt 0x900001 (by decide +kernel)

theorem wit_stage : Obligations.StagesAndCrossingsPassTokensInOrder → Completes (.handshakeStep 3 6 (some [7])) base := fun h =>
  by refine done ((h.1 base 3 6 (some [7]) ?_).1 [7] ?_ ?_ ?_ ?_) <;> decide +kernel

/-- A stage that waits for its successor. -/
def stuck : State := (base.setStg 3 6 { Stage.reset with req := true }).setStg 3 7 { Stage.reset with got := some [1] }

theorem wit_stage_waits : Obligations.StagesAndCrossingsPassTokensInOrder → Completes (.handshakeStep 3 6 none) stuck := fun h =>
  done ((h.1 stuck 3 6 none (by decide +kernel)).2.2.2 (by decide +kernel) (by decide +kernel))

theorem wit_stage_holds : Obligations.StagesAndCrossingsPassTokensInOrder → Completes (.handshakeStep 3 6 none) stuck := fun h =>
  done ((h.1 stuck 3 6 none (by decide +kernel)).2.2.1 (by decide +kernel))

/-- A full crossing queue. -/
def crossFull : State := { base with crossings := [(11, { near := List.replicate 8 [1], far := List.replicate 8 [2], last := none })] }

theorem wit_cross : Obligations.StagesAndCrossingsPassTokensInOrder → Completes (.crossingToken 5 true (some [7]) true) crossFull := fun h =>
  done ((h.2 crossFull 5 true (some [7]) true).1 (by decide +kernel) (by decide +kernel) (by decide +kernel))

theorem wit_cross_off : Obligations.StagesAndCrossingsPassTokensInOrder → Completes (.crossingToken 5 true (some [7]) true) State.reset := fun h =>
  done ((h.2 State.reset 5 true (some [7]) true).2 (by decide +kernel))

/-- Field 3 in fixed-rate mode at RATE_CODE 80. -/
def fixed : State := base.puts [(Reg.FLD_PACER_STATUS_FIXED_ACTIVE 3, 1), (Reg.FLD_PACER_STATUS_RATE_CODE_ACTIVE 3, 80)]

theorem wit_stage_permit : Obligations.StagesAndCrossingsPassTokensInOrder → Completes (.handshakeStep 3 6 (some [7])) fixed := fun h =>
  done ((h.1 fixed 3 6 (some [7]) (by decide +kernel)).2.1 (by decide +kernel) (by decide +kernel))

theorem wit_permit : Obligations.PacersTakeSettingsAndIssueTheSetRate → Completes (.pacerPermit 3) fixed := fun h =>
  done ((h.1 fixed 3).1 1300 (by decide +kernel) (by decide +kernel))

theorem wit_rate : Obligations.PacersTakeSettingsAndIssueTheSetRate → fixed.permitRate 3 = some 1300 := fun h =>
  (h.1 fixed 3).2.1 (by decide +kernel) (by decide +kernel)

theorem wit_disturbed : Obligations.PacersTakeSettingsAndIssueTheSetRate → Completes (.rateDisturbed 3 1299) fixed := fun h =>
  done ((h.2.1 fixed 3 1299).1 (by decide +kernel) (by decide +kernel))

theorem wit_recovered : Obligations.PacersTakeSettingsAndIssueTheSetRate → Completes (.rateRecovered 3 1300) fixed := fun h =>
  done ((h.2.1 fixed 3 1300).2 (by decide +kernel))

theorem wit_pacer_refused : Obligations.PacersTakeSettingsAndIssueTheSetRate → Completes (.pacerCtrlWrite 3 0x5101) fixed := fun h =>
  done ((h.2.2 fixed 3 0x5101).1 (by decide +kernel))

theorem wit_pacer_set : Obligations.PacersTakeSettingsAndIssueTheSetRate → Completes (.pacerCtrlWrite 3 0x5003) { run with gangs := [(5, [3, 4])] } :=
  fun h => done ((h.2.2 { run with gangs := [(5, [3, 4])] } 3 0x5003).2 (by decide +kernel))

/-! Posts, macros, tiles, arrays, pairs. -/

/-- Queues with one entry left for slot 1. -/
def nearFull : List Posted := List.replicate 3 { slot := 1, order := 0, split := 0, desc := [] } ++ List.replicate 12 { slot := 0, order := 0, split := 0, desc := [] }

/-- Queues with no entry left for slot 1. -/
def share : List Posted := List.replicate 4 { slot := 1, order := 0, split := 0, desc := [] }

/-- Context 5 with its engine queues nearly full. -/
def posting : State := (run.modMa 3 0 fun m => { m with queue := nearFull }).modField 3 fun f =>
  { f with ve := { f.ve with queue := nearFull }, dmas := [(2, { queue := nearFull, runs := [] })] }

/-- Context 5 with its share of each queue in use. -/
def posted : State := (run.modMa 3 0 fun m => { m with queue := share }).modField 3 fun f =>
  { f with ve := { f.ve with queue := share }, dmas := [(2, { queue := share, runs := [] })] }

theorem wit_seq_post : Obligations.DcsPostsQueueTheDescriptorOrOverrun → Completes (.seqIssuePost 3 0 0x81) posting := fun h => by
  refine done ((h.1 posting 3 0x81 5).1 0 ⟨?_, ?_, ?_⟩ ⟨?_, ?_⟩) <;> decide +kernel

theorem wit_eng_post : Obligations.DcsPostsQueueTheDescriptorOrOverrun → Completes (.engIssuePost 3 0 0x41) posting := fun h => by
  refine done ((h.1 posting 3 0x41 5).2.1 0 ⟨?_, ?_, ?_⟩ ⟨?_, ?_⟩ ?_) <;> decide +kernel

theorem wit_dma_post : Obligations.DcsPostsQueueTheDescriptorOrOverrun → Completes (.dmaIssuePost 3 2 0x41) posting := fun h => by
  refine done ((h.1 posting 3 0x41 5).2.2.1 2 ⟨?_, ?_, ?_⟩ ⟨?_, ?_⟩) <;> decide +kernel

theorem wit_reconf_post : Obligations.DcsPostsQueueTheDescriptorOrOverrun → Completes (.reconfIssuePost 3 0x41) posting := fun h =>
  done (((h.1 posting 3 0x41 5).2.2.2 ⟨by decide +kernel, by decide +kernel, by decide +kernel⟩).1 ⟨by decide +kernel, by decide +kernel⟩)

theorem wit_walk_post : Obligations.DcsPostsQueueTheDescriptorOrOverrun → Completes (.walkIssuePost 3 0x41) posting := fun h =>
  done (((h.1 posting 3 0x41 5).2.2.2 ⟨by decide +kernel, by decide +kernel, by decide +kernel⟩).2 ⟨by decide +kernel, by decide +kernel⟩)

theorem wit_seq_overrun : Obligations.DcsPostsQueueTheDescriptorOrOverrun → Completes (.seqIssuePost 3 0 0x81) posted := fun h =>
  done ((h.2 posted 3 0x81 5 (by decide +kernel)).1 0 (by intro x; exact absurd x.2 (by decide +kernel)))

theorem wit_eng_overrun : Obligations.DcsPostsQueueTheDescriptorOrOverrun → Completes (.engIssuePost 3 0 0x41) posted := fun h =>
  done ((h.2 posted 3 0x41 5 (by decide +kernel)).2.1 0 (by intro x; exact absurd x.2 (by decide +kernel)))

theorem wit_dma_overrun : Obligations.DcsPostsQueueTheDescriptorOrOverrun → Completes (.dmaIssuePost 3 2 0x41) posted := fun h =>
  done ((h.2 posted 3 0x41 5 (by decide +kernel)).2.2 2 (by intro x; exact absurd x.2 (by decide +kernel)))

/-- A macro descriptor: INT8 operands, raw INT32 output, one batch element, its record at 0x2000. -/
def md (w0 m n tm k tn tk a b sa sb : Nat) : List Byte :=
  words [w0, 0x00020101, m, n + 2 ^ 24 * tm, k, tn + 2 ^ 16 * tk, 0, a, 0, b, 0, 0x3000, 0, sa, sb, 64, 0, 0, 0, 0, 1, 0, 0, 0, 0, 0, 0, 0, 0, 0, 0x80000, 0]

/-- A descriptor as it waits in a queue, for slot 1. -/
def post (d : List Byte) : Posted := { slot := 1, order := 0, split := 0, desc := d }

/-- One output element from four products. -/
def mdOne : List Byte := md 1 1 1 1 4 1 4 0x1000 0x2000 64 64

/-- Its operands. -/
def operands : State := (run.mwrite 0x1000 [1, 2, 3, 4]).mwrite 0x2000 [1, 1, 1, 255]

/-- It waits in the queue of MA0. -/
def macroQueued : State := operands.modMa 3 0 fun m => { m with queue := [post mdOne] }

theorem wit_macro_issue : Obligations.MacrosIssueInOrder → Completes (.macroIssue 3 0) macroQueued := fun h =>
  done ((h macroQueued 3 0).1 (post mdOne) 5 (by decide +kernel) (by decide +kernel) |>.1
    ((taken (macroQueued.issueCheck 3 0 5 1 (post mdOne))).get (by decide +kernel)).1
    ((taken (macroQueued.issueCheck 3 0 5 1 (post mdOne))).get (by decide +kernel)).2 (taken_eq (by decide +kernel)))

/-- One with tiles of zero rows. -/
def macroBad : State := operands.modMa 3 0 fun m => { m with queue := [post (md 1 1 1 0 4 1 4 0 0 0 0)] }

theorem wit_macro_refused : Obligations.MacrosIssueInOrder → Completes (.macroIssue 3 0) macroBad := fun h =>
  done ((h macroBad 3 0).1 (post (md 1 1 1 0 4 1 4 0 0 0 0)) 5 (by decide +kernel) (by decide +kernel) |>.2
    Flt.DESC_MALFORMED 0 (refusal_eq (by decide +kernel)))

/-- The macro as it is issued. -/
def macroOne : MacroRun := (operands.mkRun 3 1 5 1 (post mdOne) ([], List.replicate 64 255, [], List.replicate 64 0)).goTo 0 0

/-- It runs on MA0. -/
def macroRuns : State := operands.modMa 3 0 fun m => { m with runs := [macroOne] }

theorem goes_macro : macroRuns.MacroGoes 3 0 macroOne := by
  refine ⟨?_, ?_, ?_, ?_, ?_⟩ <;> decide +kernel

/-- The read of its B column. -/
def bRead : Acc (State × List (List Nat)) := (macroRuns.bucketLend 3 5).readBlock 3 0 1 1 1 0x2000 64 false true 0 1 0 4

theorem wit_b_tile : Obligations.MacrosIssueInOrder → Completes (.bTileLoad 3 0 .good) macroRuns := fun h => by
  refine done ((h macroRuns 3 0).2.1 macroOne macroOne (bRead.toOption.get (by decide +kernel)).1 (bRead.toOption.get (by decide +kernel)).1
    (bRead.toOption.get (by decide +kernel)).2 [] goes_macro ?_ ?_ ?_ ?_ ?_ (ok_eq (e := bRead) ?_) rfl) <;> decide +kernel

/-- The macro with its B in place. -/
def macroB : MacroRun := { macroOne with bTile := some { b := 0, j := 0, kk := 0, cols := [[1, 1, 1, 255]], scales := [] } }
def macroReady : State := operands.modMa 3 0 fun m => { m with runs := [macroB] }

theorem goes_ready : macroReady.MacroGoes 3 0 macroB := by
  refine ⟨?_, ?_, ?_, ?_, ?_⟩ <;> decide +kernel

/-- Its K-tile. -/
def kGo : Acc (Option State) :=
  ((macroReady.setRun 3 0 macroB.bSwitch).bucketLend 3 5).ktileGo 3 0 macroB.bSwitch { b := 0, j := 0, kk := 0, cols := [[1, 1, 1, 255]], scales := [] } { ctx := 5, seq := 1, rows := [], done0 := false, done1 := false }

theorem kGo_ok : kGo.toOption.isSome = true := by decide +kernel
theorem kGo_some : (kGo.toOption.get kGo_ok).isSome = true := by decide +kernel
theorem kGo_eq : kGo = .ok (some ((kGo.toOption.get kGo_ok).get kGo_some)) := by
  rw [Option.some_get]; exact ok_eq kGo_ok

theorem wit_ktile : Obligations.TilesRunDrainAndComplete → Completes (.ktileRun 3 0 none .good) macroReady := fun h => by
  refine done (((h.1 macroReady 3 0 macroB goes_ready).1 { b := 0, j := 0, kk := 0, cols := [[1, 1, 1, 255]], scales := [] } ((kGo.toOption.get
    kGo_ok).get kGo_some) ?_ ?_ ?_ ?_ ?_ kGo_eq).1) <;> decide +kernel

theorem wit_residue : Obligations.TilesRunDrainAndComplete → Completes (.ktileRun 3 0 (some 127) .good) macroReady := fun h => by
  refine done (((h.1 macroReady 3 0 macroB goes_ready).1 { b := 0, j := 0, kk := 0, cols := [[1, 1, 1, 255]], scales := [] } ((kGo.toOption.get
    kGo_ok).get kGo_some) ?_ ?_ ?_ ?_ ?_ kGo_eq).2 127 ?_) <;> decide +kernel

/-- A tile of the macro. -/
def tileOne : Tile :=
  { ctx := 5, seq := 1, b := 0, i := 0, j := 0, tidx := 0, live := 0, kDone := 1, nextG := 1, f32 := false, init := 0, elems := [(0, 2)], clamps := [],
    order := 0, row := 0, pinned := false, g := 4, part := 0 }

/-- The tile before its K-tile, filling slot 2. -/
def macroTile : State := (macroReady.putTile 3 0 2 { tileOne with kDone := 0, nextG := 0, elems := [] }).setSlot 3 0 2 1

theorem goes_tile : macroTile.MacroGoes 3 0 macroB := by
  refine ⟨?_, ?_, ?_, ?_, ?_⟩ <;> decide +kernel

/-- The read of its row of A. -/
def aRead : Acc (State × List (List Nat)) :=
  ((macroTile.setRun 3 0 macroB.bSwitch).bucketLend 3 5).readBlock 3 0 0 1 1 0x1000 64 false false 0 1 0 4

theorem wit_ktile_sum : Obligations.MacrosIssueInOrder → Completes (.ktileRun 3 0 none .good) macroTile := fun h => by
  refine done ((h macroTile 3 0).2.2.1 macroB { b := 0, j := 0, kk := 0, cols := [[1, 1, 1, 255]], scales := [] } 2
    { tileOne with kDone := 0, nextG := 0, elems := [] } (aRead.toOption.get (by decide +kernel)).1 (aRead.toOption.get (by decide +kernel)).1
    (aRead.toOption.get (by decide +kernel)).2 [] goes_tile ?_ ?_ ?_ ?_ ?_ ?_ ?_ ?_ ?_ ?_ (ok_eq (e := aRead) ?_) rfl) <;> decide +kernel

/-- Its frame is in the save area, as that of slot 2. -/
def tileSaved : State :=
  (macroReady.mwrite (macroReady.saveFrame 3 1 0 2) (words [1, 0, 1, 2, 4, 1])).modMa 3 0 fun m => { m with saved := [(2, tileOne)] }

theorem goes_saved : tileSaved.MacroGoes 3 0 macroB := by
  refine ⟨?_, ?_, ?_, ?_, ?_⟩ <;> decide +kernel

theorem saved_read : tileSaved.areaRead 3 5 (tileSaved.saveFrame 3 1 0 2) frameSize = .ok (tileSaved.mread (tileSaved.saveFrame 3 1 0 2) frameSize) := by
  have a : ¬ stackBytes < tileSaved.saveFrame 3 1 0 2 + frameSize := by decide +kernel
  have b : tileSaved.stackWait? (tileSaved.saveFrame 3 1 0 2) frameSize = none := by decide +kernel
  have w : tileSaved.stackWay? 3 5 (tileSaved.saveFrame 3 1 0 2) frameSize = none := by decide +kernel
  have c : tileSaved.badWord? (tileSaved.saveFrame 3 1 0 2) frameSize = none := by decide +kernel
  simp only [State.areaRead, w, State.stackRead, if_neg a, b, c]

theorem wit_resume : Obligations.TilesRunDrainAndComplete → Completes (.slotResume 3 0 .good) tileSaved := fun h =>
  done ((h.1 tileSaved 3 0 macroB goes_saved).2 2 2 tileOne (tileSaved.mread (tileSaved.saveFrame 3 1 0 2) frameSize)
    (by decide +kernel) (by decide +kernel) saved_read (by decide +kernel))

theorem wit_slot_back : Obligations.ArraysSuspendAndExchangeHalos → Completes (.slotResume 3 0 .good) tileSaved := fun h =>
  done (h.2.1 tileSaved 3 0 macroB 2 2 tileOne (tileSaved.mread (tileSaved.saveFrame 3 1 0 2) frameSize) goes_saved (by decide +kernel)
    (by decide +kernel) saved_read (by decide +kernel))

/-- The macro walked, its tile FULL in slot 2. -/
def tileFull : State :=
  ((operands.modMa 3 0 fun m => { m with runs := [{ macroOne with walkDone := true }] }).putTile 3 0 2 tileOne).setSlot 3 0 2 2

/-- Its drain. -/
def drained : State × Option AccErr := (((tileFull.stepTaken 3 (unitDrain 0)).setSlot 3 0 2 3).putTile 3 0 2 tileOne).drainRows 3 0 2 { macroOne with walkDone := true } 128 tileOne

theorem wit_drain : Obligations.TilesRunDrainAndComplete → Completes (.tileDrain 3 0 2 .good) tileFull := fun h => by
  refine done (h.2.1 tileFull 3 0 2 tileOne { macroOne with walkDone := true } drained.1 ?_ ?_ ?_ ?_ ?_ ?_ ?_ ?_ ?_ ?_ (acc_eq (by decide +kernel))
    (snd_eq (x := drained) ?_)) <;> decide +kernel

/-- Two parts of a tile at a tree. -/
def partAt (pos v : Nat) : TreeVal :=
  { ctx := 5, tree := 255, split := 0, home := 3, tidx := 7, level := 0, pos := pos, chain := false, parts := 2, f32 := false, init := 0, elems := [(0, v)], clamps := [] }
def treeParts : State := { run with trees := [partAt 0 3, partAt 1 4] }

theorem wit_tree : Obligations.TilesRunDrainAndComplete → Completes (.treeCombine 5 255 7 0 0) treeParts := fun h => by
  refine done (h.2.2.1 treeParts 5 255 7 0 0 (partAt 0 3) (partAt 0 3) (partAt 1 4) ?_ ?_ ?_ ?_ ?_ ?_ ?_) <;> decide +kernel

/-- Two parts of a tile at a chain. -/
def chainAt (pos v : Nat) : TreeVal := { partAt pos v with chain := true }
def chainParts : State := { run with trees := [chainAt 0 3, chainAt 1 4] }

theorem wit_chain : Obligations.ArraysSuspendAndExchangeHalos → Completes (.treeCombine 5 255 7 0 0) chainParts := fun h => by
  refine done (h.2.2.2.1 chainParts 5 255 7 0 (chainAt 0 3) (chainAt 0 3) (chainAt 1 4) ?_ ?_ ?_ ?_ ?_ ?_ ?_ ?_) <;> decide +kernel

/-- A macro that is part 1 of a split, its tile FULL in slot 2. -/
def macroPart : MacroRun := { macroOne with desc := (mdOne.set 113 0x20).set 114 4, walkDone := true }
def partFull : State := ((operands.modMa 3 0 fun m => { m with runs := [macroPart] }).putTile 3 0 2 { tileOne with part := 1 }).setSlot 3 0 2 2

theorem wit_drain_part : Obligations.ArraysSuspendAndExchangeHalos → Completes (.tileDrain 3 0 2 .good) partFull := fun h => by
  refine done (h.2.2.1 partFull 3 0 2 { tileOne with part := 1 } macroPart ?_ ?_ ?_ ?_ ?_ ?_ ?_ ?_ ?_ ?_ ?_) <;> decide +kernel

/-- The macro at its end. -/
def macroEnds : State := operands.modMa 3 0 fun m => { m with runs := [{ macroOne with walkDone := true }] }
def recordGo : Acc State := macroEnds.fmWrite 3 (some 1) 0x2000 ({ macroOne with walkDone := true }.record macroEnds.stamp)

theorem wit_macro_complete : Obligations.TilesRunDrainAndComplete → Completes (.macroComplete 3 0) macroEnds := fun h =>
  done (h.2.2.2 macroEnds (recordGo.toOption.get (by decide +kernel)) 3 0 { macroOne with walkDone := true } (by decide +kernel) (by decide +kernel)
    (by decide +kernel) (ok_eq (e := recordGo) (by decide +kernel)))

theorem wit_macro_ends : Obligations.MacrosIssueInOrder → Completes (.macroComplete 3 0) macroEnds := fun h =>
  done ((h macroEnds 3 0).2.2.2 { macroOne with walkDone := true } (by decide +kernel) (by decide +kernel) (by decide +kernel) (by decide +kernel)
    (by decide +kernel) (by decide +kernel))

/-- Context 5 is descheduled with a tile filling slot 2. -/
def leaving : State := ((macroReady.putTile 3 0 2 tileOne).setSlot 3 0 2 1).modCtx 5 fun x => { x with desched := true }

theorem wit_suspend : Obligations.ArraysSuspendAndExchangeHalos → Completes (.arraySuspend 3 0 1 0 []) leaving := fun h => by
  refine done (h.1 leaving 3 0 1 5 ?_ ?_ ?_ ?_ ?_ ?_) <;> decide +kernel

/-- A macro with a halo: entry `i` names Field `f`, one line of 8 bytes from 0x4000 to 0x5000. -/
def haloRun (i f : Nat) : MacroRun :=
  { macroOne with desc := md (1 + 2 ^ 22) 1 1 1 4 1 4 0x1000 0x2000 64 64,
                  halo := (List.range 4).flatMap fun k => if k = i then words [f + 2 ^ 16 + 7 * 2 ^ 24, 0x4000, 0x5000, 8] else List.replicate 16 255 }

/-- Fields 3 and 4 each run one for context 5, and name each other. -/
def halos : State :=
  ((withCtx operands 4 1 5).modMa 3 0 fun m => { m with runs := [haloRun 2 4] }).modMa 4 1 fun m => { m with runs := [haloRun 3 3] }
def haloGo : Acc State := halos.haloLines 3 1 4 1 0x4000 0x5000 64 64 8 1

theorem wit_halo : Obligations.ArraysSuspendAndExchangeHalos → Completes (.haloExchange 3 0 2) halos := fun h => by
  refine done (h.2.2.2.2 halos (haloGo.toOption.get (by decide +kernel)) 3 0 2 (haloRun 2 4) (haloRun 3 3) 4 1 ?_ ?_ ?_ ?_ ?_ ?_ ?_ ?_ ?_ (ok_eq (e :=
    haloGo) ?_)) <;> decide +kernel

/-- A pair: dX of 4 rows and dW, sharing dY at 0x1000. -/
def mdX : List Byte := md (1 + 4 * 2 ^ 8 + 2 ^ 16 + 2 ^ 27) 4 4 128 8 4 128 0x1000 0x2000 64 64
def mdW : List Byte := md (1 + 3 * 2 ^ 8 + 2 ^ 15 + 2 ^ 27) 4 8 4 4 128 128 0x2800 0x1000 64 64
def paired (x w : List Byte) : State :=
  (run.modMa 3 0 fun m => { m with queue := [post x] }).modMa 3 1 fun m => { m with queue := [{ post w with order := 1 }] }

/-- The checks at issue of its two macros, one after the other. -/
def pairCheck (x w : List Byte) : IssueEnd (State × MacroRun) := (paired x w).issueCheck 3 0 5 1 (post x)
def pairCheck2 (x w : List Byte) (h : (taken (pairCheck x w)).isSome = true) : IssueEnd (State × MacroRun) :=
  ((taken (pairCheck x w)).get h).1.issueCheck 3 1 5 2 { post w with order := 1 }
theorem pair_ok : (taken (pairCheck mdX mdW)).isSome = true := by decide +kernel
theorem unpair_ok : (taken (pairCheck mdX mdOne)).isSome = true := by decide +kernel

theorem wit_pair : Obligations.PairsIssueVisitAndStopTogether → Completes (.pairIssue 3) (paired mdX mdW) := fun h =>
  done (((h (paired mdX mdW) 3).1 5 (post mdX) { post mdW with order := 1 } ((taken (pairCheck mdX mdW)).get pair_ok).2
    ((taken (pairCheck2 mdX mdW pair_ok)).get (by decide +kernel)).2 (by decide +kernel) (by decide +kernel) (by decide +kernel)
    ((taken (pairCheck mdX mdW)).get pair_ok).1 ((taken (pairCheck2 mdX mdW pair_ok)).get (by decide +kernel)).1
    (taken_eq (e := pairCheck mdX mdW) pair_ok) (taken_eq (e := pairCheck2 mdX mdW pair_ok) (by decide +kernel))).1 (by decide +kernel))

theorem wit_pair_mismatch : Obligations.PairsIssueVisitAndStopTogether → Completes (.pairIssue 3) (paired mdX mdOne) := fun h =>
  done (((h (paired mdX mdOne) 3).1 5 (post mdX) { post mdOne with order := 1 } ((taken (pairCheck mdX mdOne)).get unpair_ok).2
    ((taken (pairCheck2 mdX mdOne unpair_ok)).get (by decide +kernel)).2 (by decide +kernel) (by decide +kernel) (by decide +kernel)
    ((taken (pairCheck mdX mdOne)).get unpair_ok).1 ((taken (pairCheck2 mdX mdOne unpair_ok)).get (by decide +kernel)).1
    (taken_eq (e := pairCheck mdX mdOne) unpair_ok) (taken_eq (e := pairCheck2 mdX mdOne unpair_ok) (by decide +kernel))).2 (by decide +kernel))

/-- The pair as it runs. -/
def runX : MacroRun := { (run.mkRun 3 1 5 1 (post mdX) ([], List.replicate 64 255, [], List.replicate 64 0)).goTo 0 0 with mate := 2 }
def runW : MacroRun := { (run.mkRun 3 1 5 2 { post mdW with order := 1 } ([], List.replicate 64 255, [], List.replicate 64 0)).goTo 0 0 with mate := 1 }
def pairRunning (x w : MacroRun) : State := (run.modMa 3 0 fun m => { m with runs := [x] }).modMa 3 1 fun m => { m with runs := [w] }
def pairRead : Acc (State × List (List Nat)) := (pairRunning runX runW).readBlock 3 0 0 1 1 0x1000 64 false false 0 4 0 8

theorem wit_pair_visit : Obligations.PairsIssueVisitAndStopTogether → Completes (.pairVisit 3) (pairRunning runX runW) := fun h => by
  refine done ((h (pairRunning runX runW) 3).2.1 runX runW (pairRead.toOption.get (by decide +kernel)).1 (pairRead.toOption.get
    (by decide +kernel)).2 ?_ ?_ ?_ ?_ ?_ ?_ ?_ ?_ ?_ ?_ (ok_eq (e := pairRead) ?_) ?_ ?_) <;> decide +kernel

theorem wit_pair_suspend : Obligations.PairsIssueVisitAndStopTogether →
    Completes (.pairSuspend 3) ((pairRunning runX runW).modCtx 5 fun x => { x with desched := true }) := fun h =>
  done (((h ((pairRunning runX runW).modCtx 5 fun x => { x with desched := true }) 3).2.2 runX runW).1 (by decide +kernel) (by decide +kernel)
    (by decide +kernel) (by decide +kernel) (by decide +kernel) (by decide +kernel))

theorem wit_pair_partner : Obligations.PairsIssueVisitAndStopTogether →
    Completes (.pairPartnerStop 3) (pairRunning { runX with fault := some Flt.FM_UNCORR } runW) := fun h => by
  refine done (((h (pairRunning { runX with fault := some Flt.FM_UNCORR } runW) 3).2.2 { runX with fault := some Flt.FM_UNCORR } runW).2
    Flt.FM_UNCORR ?_ ?_ ?_ ?_) <;> decide +kernel

/-! Engines. -/

/-- An engine check that passes. -/
def checked : EngCheck → Option (State × EngRun)
  | .ok u r => some (u, r)
  | _ => none

theorem checked_eq {e : EngCheck} (h : (checked e).isSome = true) : e = .ok ((checked e).get h).1 ((checked e).get h).2 := by
  cases e with
  | ok u r => rfl
  | _ => simp [checked] at h

/-- An engine check that refuses. -/
def checkRefusal : EngCheck → Option (Nat × Nat)
  | .refused code detail => some (code, detail)
  | _ => none

theorem checkRefusal_eq {e : EngCheck} {code detail : Nat} (h : checkRefusal e = some (code, detail)) : e = .refused code detail := by
  cases e <;> simp [checkRefusal] at h
  obtain ⟨rfl, rfl⟩ := h; rfl

/-- A turn that goes. -/
def goes : EngTurn → Option EngRun
  | .go r => some r
  | _ => none

theorem goes_eq {e : EngTurn} {r : EngRun} (h : goes e = some r) : e = .go r := by
  cases e <;> simp [goes] at h
  rw [h]

theorem trip_eq {α β γ : Type} {x : α × β × γ} {c : γ} (h : x.2.2 = c) : x = (x.1, x.2.1, c) := by obtain ⟨a, b, d⟩ := x; cases h; rfl

/-- A chain of one stage, from a vector register to another, of 256 INT32 elements; its stage block is at 0x1000, its record at 0x2000. -/
def veD : List Byte := words [0x20 + 2 ^ 8 + 4 * 2 ^ 12 + 3 * 2 ^ 18, 0x00020002, 256, 256, 0, 16 * 2 ^ 16, 0, 0, 0, 0, 0, 0, 0, 1 * 2 ^ 16, 0, 0x100 * 2 ^ 11]

/-- A row operation of one row of two FP32 elements at VA 0, its record in the side memory. -/
def reD : List Byte := words ([0x46 + 10 * 2 ^ 13, 1, 2, 0, 0, 0, 0, 0, 0, 0, 0, 0, 0, 0, 0, 0, 0, 0, 8, 0, 0, 0, 0, 0, 0x100 * 2 ^ 11] ++ List.replicate 7 0)

/-- Each waits in its queue. -/
def engQueued (v r : List Byte) : State :=
  (run.puts [(Reg.FLD_ENG_CTRL_VE_RUN 3, 1), (Reg.FLD_ENG_CTRL_RE_RUN 3, 1), (Reg.FLD_RE_SAVE_RANGE_COUNT 3 1, 1)]).modField 3 fun f =>
    { f with ve := { f.ve with queue := [post v] }, re := { f.re with queue := [post r] } }

theorem wit_ve_issue : Obligations.EngineOperationsIssueAndComplete → Completes (.engOpIssue 3 0) (engQueued veD reD) := fun h =>
  done (((h (engQueued veD reD) 3 0).1 (post veD) 5 (by decide +kernel) (by decide +kernel)).1
    ((checked ((engQueued veD reD).veCheck 3 1 5 1 0 veD)).get (by decide +kernel)).1
    ((checked ((engQueued veD reD).veCheck 3 1 5 1 0 veD)).get (by decide +kernel)).2 (checked_eq (by decide +kernel)) (by decide +kernel))

theorem wit_re_issue : Obligations.EngineOperationsIssueAndComplete → Completes (.engOpIssue 3 1) (engQueued veD reD) := fun h =>
  done (((h (engQueued veD reD) 3 1).1 (post reD) 5 (by decide +kernel) (by decide +kernel)).1
    ((checked ((engQueued veD reD).reCheck 3 1 5 1 0 reD)).get (by decide +kernel)).1
    ((checked ((engQueued veD reD).reCheck 3 1 5 1 0 reD)).get (by decide +kernel)).2 (checked_eq (by decide +kernel)) (by decide +kernel))

theorem wit_ve_refused : Obligations.EngineOperationsIssueAndComplete → Completes (.engOpIssue 3 0) (engQueued reD veD) := fun h =>
  done (((h (engQueued reD veD) 3 0).1 (post reD) 5 (by decide +kernel) (by decide +kernel)).2 Flt.VE_MALFORMED 0 (checkRefusal_eq (by decide +kernel)))

theorem wit_re_refused : Obligations.EngineOperationsIssueAndComplete → Completes (.engOpIssue 3 1) (engQueued reD veD) := fun h =>
  done (((h (engQueued reD veD) 3 1).1 (post veD) 5 (by decide +kernel) (by decide +kernel)).2 Flt.RE_MALFORMED 0 (checkRefusal_eq (by decide +kernel)))

/-- The chain and the row operation as they run. -/
def veRun : EngRun := EngRun.fresh 1 5 1 0 veD (List.replicate 8 0) 256 0
def reRun : EngRun := EngRun.fresh 1 5 1 0 reD [] 1 2
def engRuns (v r : EngRun) : State :=
  run.modField 3 fun f => { f with ve := { f.ve with runs := [v] }, re := { f.re with runs := [r] } }

/-- The chain at its end, and the row operation stopped. -/
def veEnd : EngRun := { veRun with pos := 1 }
def reEnd : EngRun := { reRun with fault := some Flt.ENG_UNCORR }
def reduced : Acc (State × EngRun) := (engRuns veEnd veEnd).veReduce 3 veEnd
def veLast : State × EngRun := reduced.toOption.get (by decide +kernel)
def veFinal : Acc State := veLast.1.fmWrite 3 (some veLast.2.slot) (32 * fw veLast.2.desc 15 29 11) (veLast.2.record veLast.1.stamp)
def reFinal : Acc State := (engRuns reEnd reEnd).fmWrite 3 (some 1) (32 * fw reEnd.desc 24 29 11) (reEnd.record (engRuns reEnd reEnd).stamp)

theorem wit_ve_complete : Obligations.EngineOperationsIssueAndComplete → Completes (.engComplete 3 0) (engRuns veEnd veEnd) := fun h =>
  done ((h (engRuns veEnd veEnd) 3 0).2 veEnd veLast.2 veLast.1 (veFinal.toOption.get (by decide +kernel)) (by decide +kernel) (ok_eq (e := reduced) (by decide +kernel)) (ok_eq (e := veFinal) (by decide +kernel)) (by decide +kernel))

theorem wit_re_complete : Obligations.EngineOperationsIssueAndComplete → Completes (.engComplete 3 1) (engRuns reEnd reEnd) := fun h =>
  done ((h (engRuns reEnd reEnd) 3 1).2 reEnd reEnd (engRuns reEnd reEnd) (reFinal.toOption.get (by decide +kernel)) (by decide +kernel) rfl (ok_eq (e := reFinal) (by decide +kernel)) (by decide +kernel))

def gathered : State × EngRun × Bool := (engRuns veRun reRun).veGather 3 veRun 256
def vectorGo : Acc (State × EngRun) := (gathered.1.stepTaken 3 unitVe).veVector 3 gathered.2.1 0 256

theorem wit_vector : Obligations.VectorsAdvanceAndStagesCompute → Completes (.veChainVector 3 .good 31 3 7) (engRuns veRun reRun) := fun h =>
  done ((h.1 (engRuns veRun reRun) 3).1 veRun gathered.2.1 (vectorGo.toOption.get (by decide +kernel)).2 gathered.1 (vectorGo.toOption.get (by decide +kernel)).1 31 3 7
    (goes_eq (by decide +kernel)) (by decide +kernel) (by decide +kernel) (trip_eq (x := gathered) (by decide +kernel)) (ok_eq (e := vectorGo) (by decide +kernel)))

def segmentGo (r : EngRun) : Acc State := ((engRuns veRun r).stepTaken 3 unitRe).reSegment 3 r

theorem wit_segment_last : Obligations.VectorsAdvanceAndStagesCompute → Completes (.reSegment 3 .good) (engRuns veRun reRun) := fun h =>
  done ((h.1 (engRuns veRun reRun) 3).2.1 reRun ((segmentGo reRun).toOption.get (by decide +kernel)) (goes_eq (by decide +kernel)) (by decide +kernel) (by decide +kernel) (ok_eq (e := segmentGo reRun) (by decide +kernel)))

theorem wit_eng_suspend : Obligations.VectorsAdvanceAndStagesCompute →
    Completes (.engSuspend 3 1 false) ((engRuns veRun reRun).modCtx 5 fun x => { x with desched := true }) := fun h =>
  done ((h.1 ((engRuns veRun reRun).modCtx 5 fun x => { x with desched := true }) 3).2.2 1 reRun (by decide +kernel) (by decide +kernel))

theorem wit_ve_op : Obligations.VectorsAdvanceAndStagesCompute → (veOp 0x2B 0x80000000 0xFFFFFFFF 0).2 = true := fun h =>
  (h.2 0x80000000 0xFFFFFFFF 0 (by decide +kernel) (by decide +kernel)).2.2.2.2.2.2.2.mpr (.inl (by decide +kernel))

/-! The grid. -/

/-- `n` zero bytes with some of them replaced. -/
def patch (n : Nat) (ps : List (Nat × List Byte)) : List Byte :=
  ps.foldl (fun b x => b.take x.1 ++ x.2 ++ b.drop (x.1 + x.2.length)) (List.replicate n 0)

/-- A route word with one destination, or none (63). -/
def route1 (d q x : Nat) : List Byte := leBytes 4 (d + 2 ^ 6 * q + 2 ^ 8 * x + 2 ^ 12 * 63)

/-- A CU leg for slot 1 that adds 1 to what comes to queue 0, and sends it to grid port 3. -/
def cuCfg : List Byte := patch 256 [(0, [0x31, 0, 0, 0, 1]), (8, route1 35 0 0), (12, route1 63 0 0), (32, leBytes 8 (1 + 2 ^ 12 * 5 + 2 ^ 32))]
def cuLeg : Leg := Leg.fresh cuCfg

/-- Entry of 32 lanes. -/
def tokenFor (x : Nat) : QEntry := QEntry.data x ((List.range 32).map fun n => 2 ^ 32 - 1 - n) allLanes

/-- The grid of Field 3 runs. -/
def gridOn : State := run.puts [(Reg.FLD_GRID_CTRL_RUN 3, 1)]

/-- Unit `u` holds a leg, and entries in its queue `q`. -/
def unitHolds (s : State) (u x : Nat) (l : Leg) (q : Nat) (es : List QEntry) : State := (s.setLeg 3 u x l).setIq 3 u q es

def cuReady : State := unitHolds gridOn 2 0 cuLeg 0 [tokenFor 0, tokenFor 0]

/-- Does a unit take a token? -/
def takesToken : CuAct → Bool
  | .token => true
  | _ => false

theorem takesToken_eq {a : CuAct} (h : takesToken a = true) : a = .token := by cases a <;> simp [takesToken] at h; rfl

theorem no_silt {s : State} {p : Nat} (h : (s.field p).grid.silt = []) : s.NoSilt p := by intro y hy; rw [h] at hy; cases hy

theorem grid_plain {s : State} {p : Nat} (h : (s.field p).grid.silt = []) (g : (s.field p).grid.region = none) : s.GridPlain p :=
  ⟨fun y hy => (by rw [h] at hy; cases hy), fun r hr => (by rw [g] at hr; cases hr)⟩

theorem wit_cu : Obligations.ComputeUnitsPassOneToken → Completes (.cuStep 3 2) cuReady := fun h => by
  refine cont (h cuReady 3 2 0 cuLeg ⟨?_, ?_, ?_, ?_, ?_⟩ ?_ ?_ (takesToken_eq ?_) (no_silt ?_)) (fun ⟨_, _, g, _⟩ => done g) <;> decide +kernel

/-- Unit 31 has left leg 6 for leg 7. -/
def switching : State :=
  ((unitHolds gridOn 31 6 cuLeg 0 []).puts [(Reg.FLD_UNIT_STATE_SWITCHING 3 31, 1), (Reg.FLD_UNIT_STATE_ACTIVE_LEG 3 31, 7)]).modUnit 3 31 fun n =>
    { n with old := some 6 }

theorem wit_switch_ends : Obligations.UnitsSwitchLegsAndCountStalls → Completes (.legSwitch 3 31) switching := fun h =>
  done ((h.1 switching 3 31 (by decide +kernel) (by decide +kernel)).1 (by decide +kernel))

/-- A leg that is not valid, and whose next leg is leg 7. -/
def legOff : Leg := Leg.fresh (patch 256 [(0, [0x21, 7, 0, 0, 1])])
def legsTwo : State := (unitHolds gridOn 31 0 legOff 0 []).setLeg 3 31 7 cuLeg

theorem wit_switch_moves : Obligations.UnitsSwitchLegsAndCountStalls → Completes (.legSwitch 3 31) legsTwo := fun h =>
  by refine done ((h.1 legsTwo 3 31 ?_ ?_).2 0 7 legOff ?_ ?_ ?_ ?_ ?_ ?_ ?_ ?_) <;> decide +kernel

/-- The last switching count before saturation. -/
def counting : State :=
  (switching.setReg (Reg.aFLD_UNIT_STALL_LO 3 126) 0xFFFFFFFD).setReg (Reg.aFLD_UNIT_STALL_LO 3 126 + 4) 0xFFFF

theorem wit_stall : Obligations.UnitsSwitchLegsAndCountStalls → Completes (.stallCountTick 3) counting := fun h =>
  done ((h.2 counting 3).1 31 0 (Reg.aFLD_UNIT_STALL_LO 3 126) (by decide +kernel) (by decide +kernel) (by decide +kernel))

theorem wit_clear : Obligations.UnitsSwitchLegsAndCountStalls → Completes (.gridCntClear 3 true false) counting := fun h =>
  done ((h.2 counting 3).2 true false)

/-- What a generator does next. -/
def takesIndex : AgAct → Bool
  | .index => true
  | _ => false
theorem takesIndex_eq {a : AgAct} (h : takesIndex a = true) : a = .index := by cases a <;> simp [takesIndex] at h; rfl
def writesAt : AgAct → Option Nat
  | .write a => a
  | _ => none
def readsAt : AgAct → Option Nat
  | .read a => a
  | _ => none
theorem readsAt_eq {a : AgAct} {n : Nat} (h : readsAt a = some n) : a = .read (some n) := by cases a <;> simp [readsAt] at h; rw [h]
theorem writesAt_eq {a : AgAct} {n : Nat} (h : writesAt a = some n) : a = .write (some n) := by cases a <;> simp [writesAt] at h; rw [h]
def waitsRing : AgAct → Bool
  | .ring => true
  | _ => false
theorem waitsRing_eq {a : AgAct} (h : waitsRing a = true) : a = .ring := by cases a <;> simp [waitsRing] at h; rfl

/-- An MU leg whose generator `g` has some bytes of configuration. -/
def muLeg (g : Nat) (ps : List (Nat × List Byte)) : Leg := Leg.fresh (patch 256 ((0, [0x32]) :: ps.map fun x => (32 + 48 * g + x.1, x.2)))

/-- A gather with its indices in queue 1; a write of queue 2 to the last token of the memory unit; a write to slot ring 15. -/
def agGather : Leg := muLeg 3 [(0, [3, 4]), (4, [1])]
def agStore : Leg := muLeg 0 [(0, [2, 2]), (8, leBytes 6 0x3FF80)]
def agRing : Leg := muLeg 1 [(0, [0x32]), (6, [15])]

def agLoad : Leg := muLeg 1 [(0, [1, 1]), (8, leBytes 6 0x3FF80)]

def gathering : State := unitHolds gridOn 31 0 agGather 1 [{ tokenFor 0 with valid := 0x80000001 }]
def storing : State := unitHolds gridOn 16 0 agStore 2 [tokenFor 0]
def loading : State := unitHolds (gridOn.mwrite (muLoc 3 2 0x3FF80) [1, 2, 3, 4]) 18 0 agLoad 0 []
def ringing : State :=
  (unitHolds gridOn 17 0 agRing 0 []).puts [(Reg.FLD_RING_CFG_SLOTS 3 15, 1), (Reg.FLD_RING_CFG_CTX 3 15, 1), (Reg.FLD_RING_CFG_SLOT_UNITS 3 15, 1)]

theorem goes_gather : (gathering.gridSettle 3).LegSteps 3 31 0 agGather := by
  refine ⟨?_, ?_, ?_, ?_, ?_⟩ <;> decide +kernel
theorem goes_store : (storing.gridSettle 3).LegSteps 3 16 0 agStore := by
  refine ⟨?_, ?_, ?_, ?_, ?_⟩ <;> decide +kernel
theorem goes_load : (loading.gridSettle 3).LegSteps 3 18 0 agLoad := by
  refine ⟨?_, ?_, ?_, ?_, ?_⟩ <;> decide +kernel

theorem wit_ag_index : Obligations.GeneratorsReadWriteAndHoldSlots → Completes (.agToken 3 15 3 []) gathering ∧
    ∃ (v : State) (k : Leg), v.leg 3 31 0 = some k ∧ (k.agPos 3).pos = 0 := by
  intro h
  refine cont ((h gathering 3 15 3 0 agGather ?_).1 { tokenFor 0 with valid := 0x80000001 } 5 goes_gather ?_ ?_ ?_ ?_ ?_ ?_ ?_ (no_silt ?_)) (fun
    g => ?fin)
  case fin =>
    refine cont (g.2.1 (takesIndex_eq ?_) ?_) (fun ⟨⟨k, hk, _, hp⟩, _⟩ => ⟨done g.1, _, k, hk, hp⟩) <;> decide +kernel
  all_goals decide +kernel

theorem wit_ag_read : Obligations.GeneratorsReadWriteAndHoldSlots → ∃ (v : State) (k : Leg), v.leg 3 18 0 = some k ∧ k.lane0 = 0x04030201 := by
  intro h
  refine cont ((h loading 3 2 1 0 agLoad ?_).1 (tokenFor 0) 5 goes_load ?_ ?_ ?_ ?_ ?_ ?_ ?_ (no_silt ?_)) (fun g => ?fin)
  case fin =>
    refine cont (g.2.2.1 0x3FF80 (readsAt_eq ?_) ?_ ?_ ?_ ?_ ?_) (fun ⟨k, hk, _, _, hl⟩ => ⟨_, k, hk, hl.trans ?_⟩) <;> decide +kernel
  all_goals decide +kernel

theorem wit_ag_write : Obligations.GeneratorsReadWriteAndHoldSlots → Completes (.agToken 3 0 0 []) storing ∧
    ∃ v : State, v.mread (muLoc 3 0 0x3FF80) 128 = laneBytes (tokenFor 0).lanes := by
  intro h
  refine cont ((h storing 3 0 0 0 agStore ?_).1 (tokenFor 0) 5 goes_store ?_ ?_ ?_ ?_ ?_ ?_ ?_ (no_silt ?_)) (fun g => ?fin)
  case fin =>
    refine cont (g.2.2.2 0x3FF80 (writesAt_eq ?_) ?_ ?_ ?_ ?_ ?_ ?_ ?_) (fun w => ⟨done g.1, _, w.1⟩) <;> decide +kernel
  all_goals decide +kernel

theorem wit_ag_ring : Obligations.GeneratorsReadWriteAndHoldSlots → Completes (.agRingSlot 3 1 1) ringing := fun h => by
  refine done ((h ringing 3 1 1 0 agRing ?_).2 ⟨?_, ?_, ?_, ?_, ?_⟩ (waitsRing_eq ?_) ?_ ?_ ?_ ?_ ?_) <;> decide +kernel

theorem wit_bind_refused : Obligations.PostPortsBindAndPost → Completes (.gpPostBind 3 15 0x1B) run := fun h =>
  done (((h run 3 15).1 0x1B).1 (by decide +kernel))

theorem wit_bind : Obligations.PostPortsBindAndPost → Completes (.gpPostBind 3 15 0x1A) run := fun h => by
  refine done (((h run 3 15).1 0x1A).2 ?_ ?_ ?_ ?_) <;> decide +kernel

/-- A token that posts has come to port 2, from leg 4 of unit 5. -/
def postTok : Transit := { entry := QEntry.data 0 (0x80 :: List.replicate 31 0) allLanes, unit := 34, q := 0, path := [], src := 44, held := false }
def postPort (en : Nat) : State :=
  ((unitHolds gridOn 5 4 cuLeg 0 []).puts [(Reg.FLD_GP_POST_TARGET 3 2, 1), (Reg.FLD_GP_POST_CTX 3 2, 1), (Reg.FLD_GP_BIND_PEER 3 2, 5),
    (Reg.FLD_SEQ_CTRL_GRID_POST_EN 3, en)]).setLink 3 64 [postTok]

theorem wit_grid_post : Obligations.PostPortsBindAndPost → Completes (.gridPost 3 2) (postPort 1) := fun h => by
  refine done (((h (postPort 1) 3 2).2 64 postTok 5 ?_ ?_ ?_ ?_).1 ?_ ⟨?_, ?_, ?_⟩ ⟨?_, ?_⟩) <;> decide +kernel

theorem wit_grid_post_off : Obligations.PostPortsBindAndPost → Completes (.gridPost 3 2) (postPort 0) := fun h => by
  refine done (((h (postPort 0) 3 2).2 64 postTok 5 ?_ ?_ ?_ ?_).2 cuLeg ?_ ?_ ?_) <;> decide +kernel

/-- An access or check that succeeds has a value. -/
theorem is_ok {ε α : Type} {e : Except ε α} (h : e.toOption.isSome = true) : ∃ a, e = .ok a := ⟨_, ok_eq h⟩

/-- What holds of the one value holds of whichever value is found. -/
theorem at_some {α : Type} {o : Option α} {a : α} {P : α → Prop} (h : o = some a) (hp : P a) : ∀ k, o = some k → P k := fun k hk => by
  rw [h] at hk; cases hk; exact hp

/-! Detector, regions, walks. -/

/-- Leg 7 of unit 31 sends to its own queue 3, which is full. -/
def selfLeg : Leg := { Leg.fresh (patch 256 [(0, [0x32]), (8, route1 31 3 7)]) with due := [.entry 1 false [] allLanes] }
def selfTok : Transit := { entry := tokenFor 7, unit := 31, q := 3, path := [], src := 255, held := false }
def deadlocked : State :=
  ((unitHolds gridOn 31 7 selfLeg 3 (List.replicate 16 (tokenFor 7))).puts [(Reg.FLD_UNIT_STATE_ACTIVE_LEG 3 31, 7), (Reg.FLD_DLD_CTRL_EN 3, 1),
    (Reg.FLD_SILT_CTRL_CHUNKS 3 1, 1)]).setLink 3 272 [selfTok, selfTok]

/-- A queue is given a chunk of Silt. -/
def isGiven : SiltStep → Bool
  | .given _ => true
  | _ => false
theorem given_eq {x : SiltStep} (h : isGiven x = true) : ∃ u, x = .given u := by
  cases x <;> simp [isGiven] at h
  exact ⟨_, rfl⟩

theorem wit_extend : Obligations.DetectorsExtendAndRegionsDrain → Completes (.noProgressWindow 3 1) deadlocked := fun h => by
  refine done ((h.1 deadlocked 3 1 5 ?_ ?_).1 1023 ?_ ?_ (given_eq ?_) ?_) <;> decide +kernel

/-- A unit starves, and 14 windows have passed. -/
def starving : State :=
  ((unitHolds gridOn 2 0 cuLeg 0 []).puts [(Reg.FLD_DLD_CTRL_EN 3, 1)]).modGrid 3 fun g => { g with windows := [(1, 14)] }

theorem wit_fruitless : Obligations.DetectorsExtendAndRegionsDrain → Completes (.noProgressWindow 3 1) starving := fun h => by
  refine done (((h.1 starving 3 1 5 ?_ ?_).2 ?_ ?_ ?_).1 ?_) <;> decide +kernel

/-- The same leg waits behind two entries for port 0, which a channel sends from. -/
def sendWaits : State :=
  ((unitHolds gridOn 31 7 selfLeg 3 []).puts [(Reg.FLD_UNIT_STATE_ACTIVE_LEG 3 31, 7), (Reg.FLD_DLD_CTRL_EN 3, 1), (Reg.FLD_GP_BIND_PEER 3 0, 3),
    (Reg.FLD_CH_PORT_BIND_ROLE 3 0, 1)]).setLink 3 272 [{ selfTok with unit := 32, q := 0 }, { selfTok with unit := 32, q := 0 }]

theorem wit_external : Obligations.DetectorsExtendAndRegionsDrain → Completes (.noProgressWindow 3 1) (sendWaits) := fun h => by
  refine done (((h.1 sendWaits 3 1 5 ?_ ?_).2 ?_ ?_ ?_).2 ?_ ?_) <;> decide +kernel

/-- A record of leg 0 of unit 2, drained, its source at 0x1000 and its completion record at 0x2000; and one of no leg. -/
def region : List Byte := words [4, 4, 0, 0, 0, 0, 0, 0, 0, 0x1000, 0x100 * 2 ^ 11, 0, 0, 0, 0, 0]
def regionNone : List Byte := words [4, 0, 0, 0, 0, 0, 0, 0, 0, 0x1000, 0x100 * 2 ^ 11, 0, 0, 0, 0, 0]
def regionWaits (r : List Byte) : State :=
  cuReady.modGrid 3 fun g => { g with reconfQ := [({ slot := 1, order := 0, split := 0, desc := r }, none)] }

theorem wit_region_bad : Obligations.DetectorsExtendAndRegionsDrain → Completes (.regionStart 3) (regionWaits regionNone) := fun h => by
  refine done (((h.2 (regionWaits regionNone) 3).1 (post regionNone) none [] ?_ ?_ ?_ ?_).1 ?_) <;> decide +kernel

theorem wit_region : Obligations.DetectorsExtendAndRegionsDrain → Completes (.regionStart 3) (regionWaits region) := fun h => by
  refine done (((h.2 (regionWaits region) 3).1 (post region) none [] ?_ ?_ ?_ ?_).2 ?_ ?_) <;> decide +kernel

/-- The region under reconfiguration; its leg is sealed where the flag is set. -/
def regionRun : RegionRun := { slot := 1, rcd := region, started := true, seals := [], gone := 0 }
def regionIn (sealed : Bool) : State :=
  (unitHolds gridOn 2 0 { cuLeg with sealDone := sealed } 0 []).modGrid 3 fun g => { g with region := some regionRun }

theorem wit_drained : Obligations.DetectorsExtendAndRegionsDrain → Completes (.regionDrained 3) (regionIn true) := fun h => by
  obtain ⟨u, hu⟩ := is_ok (e := ((regionIn true).gridSettle 3).regionWork 3 regionRun .drained) (by decide +kernel)
  refine done (((h.2 (regionIn true) 3).2 regionRun u ?_ ?_).1 regionRun ?_ ?_ ?_ ?_ hu) <;> decide +kernel

theorem wit_timeout : Obligations.DetectorsExtendAndRegionsDrain → Completes (.drainTimeout 3) (regionIn false) := fun h => by
  obtain ⟨u, hu⟩ := is_ok (e := (regionIn false).regionWork 3 regionRun .timedOut) (by decide +kernel)
  refine done (((h.2 (regionIn false) 3).2 regionRun u ?_ ?_).2 5 ?_ ?_ ?_ ?_ ?_ hu) <;> decide +kernel

/-- A walk over two nodes: its row pointers at 0x1000, its columns at 0x5000, its work area at 0x4000 and its record at 0x2000. -/
def walkD (n : Nat) : List Byte := words [0x50, n, 0x1000, 0x4000, 0x5000, 0, 0x100 * 2 ^ 11, 0, 0, 0, 0, 0, 0, 0, 0, 0]
def graph : State := ((gridOn.mwrite (fmLoc 3 0x1000) (words [0, 1, 2])).mwrite (fmLoc 3 0x5000) (words [1, 0]))
def walkQueued (n : Nat) : State := graph.modGrid 3 fun g => { g with walkQ := [{ slot := 1, order := 0, split := 0, desc := walkD n }] }

def walkNodes? : WalkCheck → Option Nat
  | .ok _ n => some n
  | _ => none
theorem walkNodes_eq {e : WalkCheck} {n : Nat} (h : walkNodes? e = some n) : ∃ u, e = .ok u n := by
  cases e <;> simp [walkNodes?] at h; exact ⟨_, by rw [h]⟩
def walkRefusal : WalkCheck → Option (Nat × Nat)
  | .refused _ c d => some (c, d)
  | _ => none
theorem walkRefusal_eq {e : WalkCheck} {c d : Nat} (h : walkRefusal e = some (c, d)) : ∃ u, e = .refused u c d := by
  cases e <;> simp [walkRefusal] at h; exact ⟨_, by rw [h.1, h.2]⟩

theorem wit_walk_start : Obligations.WalksStartStepAndComplete → Completes (.walkStart 3) (walkQueued 2) := fun h => by
  obtain ⟨u, hu⟩ := walkNodes_eq (e := (walkQueued 2).walkCheck 3 1 (walkD 2)) (n := 2) (by decide +kernel)
  refine done (((h (walkQueued 2) 3).1 (post (walkD 2)) 5 ?_ ?_ ?_ ?_).1 u 2 hu) <;> decide +kernel

theorem wit_walk_refused : Obligations.WalksStartStepAndComplete → Completes (.walkStart 3) (walkQueued 0) := fun h => by
  obtain ⟨u, hu⟩ := walkRefusal_eq (e := (walkQueued 0).walkCheck 3 1 (walkD 0)) (c := Flt.WALK_MALFORMED) (d := 0) (by decide +kernel)
  refine done (((h (walkQueued 0) 3).1 (post (walkD 0)) 5 ?_ ?_ ?_ ?_).2 u Flt.WALK_MALFORMED 0 hu) <;> decide +kernel

def walkOne : WalkRun :=
  { slot := 1, ctx := 5, seq := 1, post := 0, desc := walkD 2, nodes := 2, node := 1, edge := 0, last := 1, edges := [], paused := false,
    suspended := false, rateDist := false, fault := none }
def walks (r : WalkRun) : State := graph.modGrid 3 fun g => { g with walks := [r] }
def colGo : Acc (State × Nat) := (walks walkOne).walkCol 3 walkOne 0

theorem wit_walk_edge : Obligations.WalksStartStepAndComplete → Completes (.walkEdgeStep 3) (walks walkOne) := fun h => by
  refine done (((h (walks walkOne) 3).2.1 walkOne ?_ ?_ ?_ ?_ ?_ ?_ ?_).1 (colGo.toOption.get (by decide +kernel)).1
    (colGo.toOption.get (by decide +kernel)).2 ?_ (ok_eq (e := colGo) (by decide +kernel)) ?_) <;> decide +kernel

def walkTwo : WalkRun := { walkOne with edge := 1, edges := [(0, 1)] }
def ptrGo : Acc (State × Nat) := (walks walkTwo).walkPtr 3 1 (walkD 2) 1
def ptrNext : Acc (State × Nat) := (ptrGo.toOption.get (by decide +kernel)).1.walkPtr 3 1 (walkD 2) 2

theorem wit_walk_node : Obligations.WalksStartStepAndComplete → Completes (.walkEdgeStep 3) (walks walkTwo) := fun h => by
  refine done (((h (walks walkTwo) 3).2.1 walkTwo ?_ ?_ ?_ ?_ ?_ ?_ ?_).2 (ptrGo.toOption.get (by decide +kernel)).1
    (ptrNext.toOption.get (by decide +kernel)).1 (ptrGo.toOption.get (by decide +kernel)).2 (ptrNext.toOption.get (by decide +kernel)).2 ?_
    (ok_eq (e := ptrGo) (by decide +kernel)) (ok_eq (e := ptrNext) (by decide +kernel)) ?_) <;> decide +kernel

def walkEnd : WalkRun := { walkOne with node := 2, edge := 2, last := 2, edges := [(0, 1), (1, 0)] }

theorem wit_walk_complete : Obligations.WalksStartStepAndComplete → Completes (.walkComplete 3) (walks walkEnd) := fun h => by
  refine done ((h (walks walkEnd) 3).2.2 walkEnd ?_ ?_ ?_ ?_ ?_ ?_ ?_ ?_ ?_ ?_ ?_ ?_) <;> decide +kernel

/-! Field memory. -/

/-- Accesses of bank 7 of Field 3: the contender granted last, and the next in rotation. -/
def breq (k : Fin 9) (w : Bool) : BankReq :=
  { rank := k, agent := 4, index := 0, slot := some 1, off := 0x780, len := 2, write := w, data := if w then [7, 8] else [], eccs := [] }

theorem wit_grant : Obligations.BanksServeGateAndWake → breq 0 true ∈ [breq 7 true, breq 0 true] := fun h =>
  (h.1.1 7 [breq 7 true, breq 0 true] (breq 0 true) (by decide +kernel) (by decide +kernel)).1

/-- Bank 7 in a power state, asked for AUTO. -/
def bank7 (st : Nat) : State := run.puts [(Reg.FLD_FM_BANK_STATE_STATE 3 0 7, st), (Reg.FLD_FM_BANK_PWR_REQ 3 0 7, 1)]

theorem ok_unit {ε : Type} {e : Except ε Unit} (h : e.toOption.isSome = true) : e = .ok () := by
  cases e with
  | ok a => rfl
  | error x => simp [Except.toOption] at h

theorem wit_bank_write : Obligations.BanksServeGateAndWake → Completes (.bankAccess 3 7 [breq 7 true, breq 0 true]) (bank7 0) := fun h =>
  done (((h.1.2 (bank7 0) 3 7 [breq 7 true, breq 0 true] (breq 0 true) (by decide +kernel) (ok_unit (by decide +kernel))).1 (by decide +kernel) (by decide +kernel)).1 (by decide +kernel) (by decide +kernel))

theorem wit_bank_read : Obligations.BanksServeGateAndWake → Completes (.bankAccess 3 7 [breq 7 true, breq 0 false]) (bank7 0) := fun h =>
  done (((h.1.2 (bank7 0) 3 7 [breq 7 true, breq 0 false] (breq 0 false) (by decide +kernel) (ok_unit (by decide +kernel))).1 (by decide +kernel) (by decide +kernel)).2 (by decide +kernel) (by decide +kernel))

theorem wit_bank_held : Obligations.BanksServeGateAndWake → Completes (.bankAccess 3 7 [breq 8 false]) (bank7 2) := fun h => by
  refine done ((h.1.2 (bank7 2) 3 7 [breq 8 false] (breq 8 false) ?_ (ok_unit ?_)).2 7 ?_ ?_) <;> decide +kernel

theorem wit_bank_idle : Obligations.BanksServeGateAndWake → Completes (.bankIdleExpiry 3 7) (bank7 0) := fun h =>
  done ((h.2 (bank7 0) 3 7).1 (by decide +kernel) (by decide +kernel) (by decide +kernel))

/-- Three DMA engines have acknowledged the fence of bank 63, which goes OFF. -/
def fenced (m : Nat) : State := (run.mwrite (fmLoc 3 0xFFFFFF) [9]).modFm 3 fun f => { f with fences := [(63, m, 3)] }

theorem wit_gate_last : Obligations.BanksServeGateAndWake → Completes (.gateFenceAck 3 63 3) (fenced 7) := fun h =>
  done ((h.2 (fenced 7) 3 63).2.1 3 7 3 (by decide +kernel) (by decide +kernel))

theorem wit_gate_more : Obligations.BanksServeGateAndWake → Completes (.gateFenceAck 3 63 3) (fenced 3) := fun h =>
  done ((h.2 (fenced 3) 3 63).2.1 3 3 3 (by decide +kernel) (by decide +kernel))

/-- Bank 7 wakes with an access held; or from OFF with none. -/
def waking : State := (bank7 1).modFm 3 fun f => { f with held := [breq 4 true] }
def wakingOff : State := (bank7 1).modFm 3 fun f => { f with zeroing := [7] }

theorem wit_wake : Obligations.BanksServeGateAndWake → Completes (.bankWakeDone 3 7) waking := fun h => by
  refine done ((h.2 waking 3 7).2.2 ?_ ?_) <;> decide +kernel

theorem wit_wake_off : Obligations.BanksServeGateAndWake → Completes (.bankWakeDone 3 7) wakingOff := fun h => by
  refine done ((h.2 wakingOff 3 7).2.2 ?_ ?_) <;> decide +kernel

theorem wit_slices_bad : Obligations.SliceModesAndCacheAccesses → Completes (.sliceModeWrite 3 7) run := fun h =>
  done ((h.1 run 3 7).1 (by decide +kernel))

theorem wit_slices_wait : Obligations.SliceModesAndCacheAccesses → Completes (.sliceModeWrite 3 0xFF) run := fun h => by
  refine done ((h.1 run 3 0xFF).2.1 ?_ ?_ ?_) <;> decide +kernel

/-- Every bank of Field 3 is ACTIVE. -/
def awake (s : State) : State := (List.range 4).foldl (fun s k => s.setReg (Reg.aFLD_FM_BANK_STATE 3 k) 0) s

/-- Slice 7 is a cache, and holds a line of context 5. -/
def aLine : CacheLine := { rga := 5 * 2 ^ 41 + 0x40000000 - 256, va := 0x3FFFFF00, slot := 1, way := 0, data := List.replicate 256 6, dirty := 3, bad := false }
def cached (ls : List CacheLine) : State :=
  ((awake run).puts [(Reg.FLD_FM_SLICE_MODE_CACHE 3, 0x80), (Reg.FLD_FM_SLICE_MODE_ACTIVE_MODE 3, 0x80), (Reg.FLD_FM_CACHE_CTRL_CTX_EN 3, 2)]).modFm 3 fun f =>
    { f with lines := ls }

/-- The same between heats, with nothing to write back and something in slice 7. -/
def cachedIdle : State := ((cached [{ aLine with dirty := 0 }]).puts [(Reg.SCH_CTX_STATE_STATE 5, 1)]).mwrite (fmLoc 3 0xE00000) [4]

theorem wit_slices_now : Obligations.SliceModesAndCacheAccesses → Completes (.sliceModeWrite 3 0) cachedIdle := fun h => by
  refine done ((h.1 cachedIdle 3 0).2.2 ?_ ?_ ?_ ?_ ?_) <;> decide +kernel


theorem wit_cache_hit : Obligations.SliceModesAndCacheAccesses → Completes (.cacheAccess 3 1 0x3FFFFFFF 1 none .good) (cached [aLine]) := fun h => by
  refine done (((h.2 (cached [aLine]) 3 1 0x3FFFFFFF 1 5 (.stack 0x3FFFFFFF) ?_ ?_ (acc_eq ?_) ?_ ?_ ?_).1 (acc_eq ?_)).1 aLine ?_ ?_) <;> decide +kernel

def fillGo : Acc (State × List Byte) :=
  ((cached []).cancelFence 3 ((cached []).lineBank 3 (5 * 2 ^ 41 + 0x40000000 - 256))).lineBytes 3 5 (5 * 2 ^ 41 + 0x40000000 - 256) 0x3FFFFF00
    ((cached []).farGot ⟨3, 1, 4, 0, 5, true⟩ 0x3FFFFF00)

theorem wit_cache_fill : Obligations.SliceModesAndCacheAccesses → Completes (.cacheAccess 3 1 0x3FFFFFFF 1 none .good) (cached []) := fun h => by
  refine done (((h.2 (cached []) 3 1 0x3FFFFFFF 1 5 (.stack 0x3FFFFFFF) ?_ ?_ (acc_eq ?_) ?_ ?_ ?_).1 (acc_eq ?_)).2
    (fillGo.toOption.get (by decide +kernel)).1 (fillGo.toOption.get (by decide +kernel)).2 ?_ (ok_eq (e := fillGo) (by decide +kernel)) ?_) <;> decide +kernel

theorem wit_cache_write : Obligations.SliceModesAndCacheAccesses → Completes (.cacheAccess 3 1 0x3FFFFFFF 1 (some [9]) .good) (cached [aLine]) := fun h => by
  refine done ((h.2 (cached [aLine]) 3 1 0x3FFFFFFF 1 5 (.stack 0x3FFFFFFF) ?_ ?_ (acc_eq ?_) ?_ ?_ ?_).2 [9] aLine ?_ (acc_eq ?_) ?_ ?_) <;> decide +kernel

/-- A range operation over the last two bytes of the page, which a line covers; busy or not. -/
def rangedOn (l : CacheLine) (b : Nat) : State :=
  (cached [l]).puts [(Reg.FLD_FM_CMO_BASE_LO_BASE_LO 3, 0x3FFFFFFE), (Reg.FLD_FM_CMO_LEN_LEN 3, 2), (Reg.FLD_FM_CMO_STATUS_BUSY 3, b)]

/-- The same with nothing to write back, and with the bytes of `aLine` to write back. -/
def ranged (b : Nat) : State := rangedOn { aLine with dirty := 0 } b
def rangedDirty : State := rangedOn aLine 0

theorem wit_cmo_busy : Obligations.RangeOperationsActOnTheirLines → Completes (.flushInvalAll 3) (ranged 1) := fun h =>
  done ((h (ranged 1) 3 1).1 (by decide +kernel) (.flushInvalAll 3) (by decide +kernel))

/-- Where the two bytes lie. -/
def pairAt : List (Nat × Nat) := [(5 * 2 ^ 41 + 0x3FFFFFFE, 2)]

theorem wit_flush : Obligations.RangeOperationsActOnTheirLines → Completes (.flush 3 1) (ranged 0) := fun h => by
  refine done ((((h (ranged 0) 3 1).2.1 ?_).1 5 pairAt ?_ (acc_eq ?_)).1 ?_) <;> decide +kernel

theorem wit_flush_inval : Obligations.RangeOperationsActOnTheirLines → Completes (.flushInval 3 1) (ranged 0) := fun h => by
  refine done ((((h (ranged 0) 3 1).2.1 ?_).1 5 pairAt ?_ (acc_eq ?_)).2.1 ?_) <;> decide +kernel

theorem wit_inval : Obligations.RangeOperationsActOnTheirLines → Completes (.inval 3 1) (ranged 0) := fun h => by
  refine done ((((h (ranged 0) 3 1).2.1 ?_).1 5 pairAt ?_ (acc_eq ?_)).2.2.1 ?_) <;> decide +kernel

theorem wit_flush_dirty : Obligations.RangeOperationsActOnTheirLines → Completes (.flush 3 1) rangedDirty := fun h => by
  refine done (((((h rangedDirty 3 1).2.1 ?_).1 5 pairAt ?_ (acc_eq ?_)).2.2.2 aLine 0x3FFFFF00 ?_ ?_ ?_ ?_ ?_ ?_ ?_ ?_ ?_).1) <;> decide +kernel

theorem wit_flush_inval_dirty : Obligations.RangeOperationsActOnTheirLines → Completes (.flushInval 3 1) rangedDirty := fun h => by
  refine done (((((h rangedDirty 3 1).2.1 ?_).1 5 pairAt ?_ (acc_eq ?_)).2.2.2 aLine 0x3FFFFF00 ?_ ?_ ?_ ?_ ?_ ?_ ?_ ?_ ?_).2) <;> decide +kernel

theorem wit_flush_inval_ctx : Obligations.RangeOperationsActOnTheirLines → Completes (.flushInvalCtx 3 1) (ranged 0) := fun h => by
  refine done (((h (ranged 0) 3 1).2.1 ?_).2.1 ?_) <;> decide +kernel

theorem wit_flush_inval_all : Obligations.RangeOperationsActOnTheirLines → Completes (.flushInvalAll 3) (ranged 0) := fun h => by
  refine done (((h (ranged 0) 3 1).2.1 ?_).2.2.1 ?_) <;> decide +kernel

/-- A ZERO of the last two bytes of Field memory. -/
def zeroing : State :=
  ((awake run).mwrite (fmLoc 3 0xFFFFFE) [1, 2]).puts [(Reg.FLD_FM_CMO_BASE_LO_BASE_LO 3, 0xFFFFFE), (Reg.FLD_FM_CMO_LEN_LEN 3, 2), (Reg.FLD_FM_CMO_STATUS_BUSY 3, 0)]

theorem wit_zero : Obligations.RangeOperationsActOnTheirLines → Completes (.zero 3) zeroing := fun h => by
  refine done (((h zeroing 3 1).2.1 ?_).2.2.2 ?_ ?_ ?_) <;> decide +kernel

/-- A FLUSH has ended, which found a line bad. -/
def cmoRun : CmoRun := { op := 1, slot := 1, base := 0x3FFFFFFE, len := 2, todo := [], forming := false, drop := false, err := true, rangeErr := false }
def cmoEnds : State := (ranged 1).modFm 3 fun f => { f with cmo := some cmoRun }

theorem wit_cmo_done : Obligations.RangeOperationsActOnTheirLines → Completes (.cmoDone 3) cmoEnds := fun h => by
  refine done (((h cmoEnds 3 1).2.2 cmoRun ?_ ?_ ?_).1 (at_some (a := 5) ?_ ?_)) <;> decide +kernel

/-- The same while a dirty line goes to another part. -/
def cmoSends : State :=
  cmoEnds.modCh 3 fun x => { x with outbound := [({ field := 3, agent := cacheAgent, index := 0, ctx := 5, va := 0, off := 0 },
    { op := 2, status := 0, fence := false, ce := false, ceEcho := false, tag := 0, srcDev := 5, srcLf := 3, dstDev := 9, dstLf := 0, rga := 0, len := 1,
      arg0 := 0, arg1 := 0, data := [7] })] }

theorem wit_cmo_waits : Obligations.RangeOperationsActOnTheirLines → Completes (.cmoDone 3) (cmoSends) := fun h => by
  refine done (((h cmoSends 3 1).2.2 cmoRun ?_ ?_ ?_).2 5 ?_ ?_) <;> decide +kernel

/-- The scrubber is at a granule. -/
def scrubbing (n : Nat) : State := (run.puts [(Reg.FLD_FM_SCRUB_CTRL_EN 3, 1)]).modFm 3 fun f => { f with scrubPos := n }

theorem wit_fm_scrub : Obligations.FieldScrubVisitsEveryGranule → Completes (.fmScrubTick 3 .good 7) (scrubbing 81919) := fun h => by
  refine done ((h (scrubbing 81919) 3 7 ?_ ?_).1) <;> decide +kernel

theorem wit_fm_corrected : Obligations.FieldScrubVisitsEveryGranule → Completes (.fmScrubTick 3 .corrected 7) (scrubbing 7) := fun h => by
  refine done ((h (scrubbing 7) 3 7 ?_ ?_).2 ?_ ?_) <;> decide +kernel

/-! Channels and hurdles. -/

/-- A descriptor of channel 31 of Field 3: its ring at 0x4000, its sender endpoint 31 of Field 4, where context 5 lies in slot 2. -/
def chD (op : Nat) : List Byte := words [op + 2 ^ 8 + 31 * 2 ^ 10 + 12 * 2 ^ 15 + 7 * 2 ^ 20, 0x4000, 0, 4 + 5 * 2 ^ 6 + 31 * 2 ^ 16, 0, 0, 0, 0]

/-- The descriptor lies at 0x1000; the channel unit is busy or not. -/
def chBase (op b : Nat) : State := ((withCtx run 4 2 5).mwrite (fmLoc 3 0x1000) (chD op)).puts [(Reg.FLD_CH_STATUS_BUSY 3, b)]

theorem wit_ch_busy : Obligations.ChannelsOpenAndClose → Completes (.chClose 3 0x1000) (chBase 0x60 1) := fun h =>
  done ((h (chBase 0x60 1) 3 0x1000).1 (by decide +kernel) (.chClose 3 0x1000) (by decide +kernel))

/-- The same, with the endpoint in use. -/
def txIdle : TxChan := { rxLf := 3, rxDev := 5, remote := false, rxIdx := 31, gen := 1, sizeLog2 := 12, limit := 4064, woff := 0, seq := 0, queue := [] }
def rxIdle : RxChan :=
  { ringOff := 0x4000, txLf := 4, txDev := 5, remote := false, txIdx := 31, limit := 4064, owed := 0, extended := 0, silt := [], waitAck := false, farIdle := false }

/-- The channel is open, its write and read offsets and its sender's queue as given. -/
def channel (s : State) (r : RxChan) (x : TxChan) (w rp credit : Nat) : State :=
  (((s.setRx 3 31 r).setTx 4 31 x).puts [(Reg.FLD_CH_RX_STATE_CTX 3 31, 1), (Reg.FLD_CH_RX_STATE_OPEN 3 31, 1), (Reg.FLD_CH_RX_STATE_SIZE_LOG2 3 31, 12),
    (Reg.FLD_CH_TX_STATE_OPEN 4 31, 1), (Reg.FLD_CH_TX_STATE_CTX 4 31, 2), (Reg.FLD_CH_WPTR_WPTR 3 31, w), (Reg.FLD_CH_RPTR_RPTR 3 31, rp),
    (Reg.FLD_CH_TX_STATE_CREDIT 4 31, credit)])

theorem wit_ch_refused : Obligations.ChannelsOpenAndClose → Completes (.chOpen 3 0x1000) (channel (chBase 0x60 0) rxIdle txIdle 0 0 0) := fun h => by
  refine done (((h (channel (chBase 0x60 0) rxIdle txIdle 0 0 0) 3 0x1000).2.1 (by decide +kernel) (by decide +kernel) (by decide +kernel)).1 ?_
    ?_) <;> decide +kernel

theorem wit_ch_open : Obligations.ChannelsOpenAndClose → Completes (.chOpen 3 0x1000) (chBase 0x60 0) := fun h => by
  refine done (((h (chBase 0x60 0) 3 0x1000).2.1 (by decide +kernel) (by decide +kernel) (by decide +kernel)).2.1 4 2 ?_ ?_ ?_ ?_ ?_) <;> decide
    +kernel

theorem wit_ch_close : Obligations.ChannelsOpenAndClose → Completes (.chClose 3 0x1000) (channel (chBase 0x61 0) rxIdle txIdle 32 32 0) := fun h => by
  refine done (((h (channel (chBase 0x61 0) rxIdle txIdle 32 32 0) 3 0x1000).2.1 (by decide +kernel) (by decide +kernel) (by decide +kernel)).2.2.2
    rxIdle 4 txIdle ?_ ?_ ?_ ?_ ?_ ?_ ?_ ?_ ?_ ?_ ?_) <;> decide +kernel

/-- A CLOSE with a reserved bit. -/
def chReserved : State := (chBase 0x61 0).mwrite (fmLoc 3 0x101F) [128]

theorem wit_ch_close_reserved : Obligations.ChannelsOpenAndClose → Completes (.chClose 3 0x1000) (chReserved) := fun h => by
  refine done (((h chReserved 3 0x1000).2.1 (by decide +kernel) (by decide +kernel) (by decide +kernel)).2.2.1 ?_ ?_) <;> decide +kernel

theorem wit_ch_closing : Obligations.ChannelsOpenAndClose → Completes (.chClose 3 0x1000) (channel (chBase 0x61 0) rxIdle txIdle 32 0 0) := fun h => by
  refine done (((h (channel (chBase 0x61 0) rxIdle txIdle 32 0 0) 3 0x1000).2.1 (by decide +kernel) (by decide +kernel) (by decide +kernel)).2.2.2
    rxIdle 4 txIdle ?_ ?_ ?_ ?_ ?_ ?_ ?_ ?_ ?_ ?_ ?_) <;> decide +kernel

theorem wit_ch_ack : Obligations.ChannelsOpenAndClose →
    Completes (.chOpenAck 3 (.receiver 31)) (channel (chBase 0x60 1) { rxIdle with waitAck := true } txIdle 0 0 127) := fun h => by
  refine done ((h (channel (chBase 0x60 1) { rxIdle with waitAck := true } txIdle 0 0 127) 3 0).2.2.1 31 { rxIdle with waitAck := true } 4 ?_ ?_ ?_
    ?_ ?_ ?_) <;> decide +kernel

theorem wit_ch_ack_remote : Obligations.ChannelsOpenAndClose → Completes (.chOpenAck 3 (.sender 31 1 1023 63 31 2047 20 1048576)) run := fun h => by
  refine done ((h run 3 0).2.2.2.2 31 1 1023 63 31 2047 20 1048576 ?_ ?_) <;> decide +kernel

/-- A sender endpoint of a channel to another part, which is closing. -/
def txFar : TxChan := { txIdle with rxDev := 9, remote := true }
def farEnd : State := (channel (withCtx run 4 2 5) rxIdle txFar 0 0 0).puts [(Reg.FLD_CH_TX_STATE_CLOSING 4 31, 1)]

theorem wit_ch_far_closing : Obligations.ChannelsOpenAndClose → Completes (.chOpenAck 4 (.closing 31)) (farEnd) := fun h => by
  refine done (((h farEnd 4 0).2.2.2.1 31 txFar ?_ ?_).1) <;> decide +kernel

theorem wit_ch_far_freed : Obligations.ChannelsOpenAndClose → Completes (.chOpenAck 4 (.freed 31)) (farEnd) := fun h => by
  refine done (((h farEnd 4 0).2.2.2.1 31 txFar ?_ ?_).2 ?_ ?_) <;> decide +kernel

/-- A record of 16 bytes that a control core prepared at 0x2000 of Field 4. -/
def prepared (typ : Nat) (s : State) : State := s.mwrite (fmLoc 4 0x2000) (words [typ, 16, 0, 77, 1, 2, 3, 4])
def sendBase (typ : Nat) : State := prepared typ (channel (withCtx run 4 2 5) rxIdle txIdle 0 0 127)

theorem wit_ch_send : Obligations.RecordsAreQueuedAndPlaced → Completes (.chSend 4 0x201F) (sendBase 1) := fun h => by
  refine done (((h (sendBase 1) 4).1 0x201F ?_ ?_ ?_ ?_ ?_ ?_).2 txIdle ?_ ?_) <;> decide +kernel

theorem wit_ch_send_refused : Obligations.RecordsAreQueuedAndPlaced → Completes (.chSend 4 0x201F) (sendBase 3) := fun h => by
  refine done (((h (sendBase 3) 4).1 0x201F ?_ ?_ ?_ ?_ ?_ ?_).1 Flt.CH_MALFORMED ?_) <;> decide +kernel

/-- A token at port 2 of Field 4, which is bound to endpoint 31. -/
def portTok (lanes : List Nat) : Transit := { entry := QEntry.data 0 lanes allLanes, unit := 34, q := 0, path := [], src := 0, held := false }
def boundPort (s : State) (p role slot idx : Nat) (lanes : List Nat) : State :=
  (s.puts [(Reg.FLD_GP_BIND_PEER p 2, 3), (Reg.FLD_CH_PORT_BIND_ROLE p 2, role), (Reg.FLD_CH_PORT_BIND_CTX p 2, slot),
    (Reg.FLD_CH_PORT_BIND_INDEX p 2, idx)]).setLink p 64 [portTok lanes]
def legSends (x : TxChan) : State := boundPort (channel (withCtx run 4 2 5) rxIdle x 0 0 127) 4 1 2 31 (1 :: 16 :: 0 :: 77 :: List.replicate 28 0)

theorem wit_leg_header : Obligations.RecordsAreQueuedAndPlaced → Completes (.legRecordSend 4 2) (legSends txIdle) := fun h => by
  refine done (((h (legSends txIdle) 4).2.1 2 64 (portTok (1 :: 16 :: 0 :: 77 :: List.replicate 28 0)) txIdle ?_ ?_ ?_ ?_ ?_ ?_ (grid_plain ?_
    ?_) ?_).1 ?_ ?_) <;> decide +kernel

/-- A record of 16 bytes, from a leg, that has claimed its span and lacks its payload; and one that a core sent. -/
def legRec : ChRecord := { typ := 1, len := 16, tag := 77, payload := [], claimed := true, padFirst := false, fromCore := false }
def coreRec : ChRecord := { typ := 1, len := 16, tag := 77, payload := words [1, 2, 3, 4], claimed := false, padFirst := false, fromCore := true }

theorem wit_leg_payload : Obligations.RecordsAreQueuedAndPlaced → Completes (.legRecordSend 4 2) (legSends { txIdle with queue := [legRec] }) := fun h => by
  refine done (((h (legSends { txIdle with queue := [legRec] }) 4).2.1 2 64 (portTok (1 :: 16 :: 0 :: 77 :: List.replicate 28 0))
    { txIdle with queue := [legRec] } ?_ ?_ ?_ ?_ ?_ ?_ (grid_plain ?_ ?_) ?_).2 legRec ?_ ?_ ?_ ?_) <;> decide +kernel

/-- The sender endpoint with the record at the head, its place the last of the ring. -/
def txLast : TxChan := { txIdle with woff := 4064, queue := [coreRec] }
def placing (credit : Nat) : State := channel (withCtx run 4 2 5) rxIdle txLast 4064 4064 credit

/-- The receiver endpoint has no Silt. -/
theorem tx_silt {s : State} {x : TxChan} (h : (match s.physOf x.rxLf with
    | some q => (match s.rxChan q x.rxIdx with
      | some c => c.silt.isEmpty
      | none => true)
    | none => true) = true) : ∀ q c, s.physOf x.rxLf = some q → s.rxChan q x.rxIdx = some c → c.silt = [] := by
  intro q c hq hc
  rw [hq] at h
  simpa [hc] using h

theorem wit_place_waits : Obligations.RecordsAreQueuedAndPlaced → Completes (.recordPlace 4 31) (placing 0) := fun h => by
  refine done (((h (placing 0) 4).2.2.1 31 txLast coreRec [] ?_ ?_ ?_ ?_ ?_ ?_ ?_ (fun _ => tx_silt ?_)).1 ?_) <;> decide +kernel

theorem wit_place : Obligations.RecordsAreQueuedAndPlaced → Completes (.recordPlace 4 31) (placing 1) := fun h => by
  refine done (((h (placing 1) 4).2.2.1 31 txLast coreRec [] ?_ ?_ ?_ ?_ ?_ ?_ ?_ (fun _ => tx_silt ?_)).2 3 rxIdle ?_ ?_ ?_ ?_ ?_ ?_ ?_ ?_ ?_ ?_ ?_ ?_ ?_ ?_
    ?_) <;> decide +kernel

theorem wit_credit : Obligations.RecordsAreQueuedAndPlaced →
    Completes (.creditUpdate 3 31) (channel (withCtx run 4 2 5) { rxIdle with owed := 64 } txIdle 0 0 0) := fun h => by
  refine done ((h (channel (withCtx run 4 2 5) { rxIdle with owed := 64 } txIdle 0 0 0) 3).2.2.2 31 { rxIdle with owed := 64 } 4 ?_ ?_ ?_ ?_ ?_ ?_
    ?_ ?_) <;> decide +kernel

/-- One record of 16 bytes lies in the ring. -/
def received (s : State) : State := (channel s rxIdle txIdle 32 0 0).mwrite (fmLoc 3 0x4000) (recBytes 1 0 16 31 4 77 false (words [1, 2, 3, 4]))

theorem wit_rptr_bad : Obligations.ReceiversReleaseAndDeliver → Completes (.rptrWrite 3 31 64) (received (withCtx run 4 2 5)) := fun h =>
  done (((h (received (withCtx run 4 2 5)) 3).1 31 64).1 (by decide +kernel))

theorem wit_rptr : Obligations.ReceiversReleaseAndDeliver → Completes (.rptrWrite 3 31 32) (received (withCtx run 4 2 5)) := fun h => by
  refine done (((h (received (withCtx run 4 2 5)) 3).1 31 32).2 rxIdle ?_ ?_ ?_ ?_ ?_ ?_ ?_) <;> decide +kernel

/-- Port 2 delivers the records of select group 3, which holds channel 31. -/
def selecting (pos : List (Nat × Nat)) : State :=
  ((boundPort (received (withCtx run 4 2 5)) 3 2 1 3 []).puts [(Reg.FLD_CH_SEL_CTRL_DELIVER 3 3, 1), (Reg.FLD_CH_SEL_MASK_MASK 3 3, 2 ^ 31)]).modCh 3 fun x =>
    { x with selPos := pos }
def headGo (s : State) : Acc (State × List Byte) := s.fmRead 3 (some 1) 0x4000 16
def bodyGo (s : State) : Acc (State × List Byte) := s.fmRead 3 (some 1) 0x4010 16
def head16 (pos : List (Nat × Nat)) (h : (headGo (selecting pos)).toOption.isSome = true) : State × List Byte := (headGo (selecting pos)).toOption.get h
def body16 (s : State) (h : (bodyGo s).toOption.isSome = true) : State × List Byte := (bodyGo s).toOption.get h
def headFirst : State × List Byte := head16 [] (by decide +kernel)
def bodyFirst : State × List Byte := body16 headFirst.1 (by decide +kernel)
def headLast : State × List Byte := head16 [(3, 63)] (by decide +kernel)
def bodyLast : State × List Byte := body16 headLast.1 (by decide +kernel)
def entryFirst : QEntry := (deliverEntry headFirst.2 bodyFirst.2 0 none 7).get (by decide +kernel)
def entryLast : QEntry := (deliverEntry headLast.2 bodyLast.2 1 none 7).get (by decide +kernel)
def goesFirst : State := (bodyFirst.1.portSend 3 2 31 3 entryFirst).get (by decide +kernel)
def goesLast : State := (bodyLast.1.portSend 3 2 31 3 entryLast).get (by decide +kernel)

theorem wit_select_head : Obligations.ReceiversReleaseAndDeliver → Completes (.selectDeliver 3 2 31 3 7) (selecting []) := fun h => by
  refine done (((h (selecting []) 3).2 2 31 3 7 31 rxIdle headFirst.2 bodyFirst.2 entryFirst headFirst.1 bodyFirst.1 goesFirst ?_ ?_ (grid_plain ?_
    ?_) ?_ ?_ ?_ ?_ (ok_eq (by decide +kernel)) (ok_eq (by decide +kernel)) (Option.some_get _).symm).1 ?_ ?_ ?_ ?_) <;> decide +kernel

theorem wit_select_last : Obligations.ReceiversReleaseAndDeliver → Completes (.selectDeliver 3 2 31 3 7) (selecting [(3, 63)]) := fun h => by
  refine done (((h (selecting [(3, 63)]) 3).2 2 31 3 7 31 rxIdle headLast.2 bodyLast.2 entryLast headLast.1 bodyLast.1 goesLast ?_ ?_ (grid_plain
    ?_ ?_) ?_ ?_ ?_ ?_ (ok_eq (by decide +kernel)) (ok_eq (by decide +kernel)) (Option.some_get _).symm).2 1 ?_ ?_ ?_ ?_ ?_ ?_ ?_ ?_) <;> decide +kernel

/-- Virtual hurdle 1023 of slot 1 is hurdle 255 of Field 4, which expects 7. -/
def hurdle (n : Nat) (ws : List Waiter) : State :=
  (((withCtx run 4 2 5).modCh 3 fun x => { x with hmap := [(1024 + 1023, 1 + 4 * 4 + 255 * 256)] }).puts [(Reg.FLD_HRD_STATE_EN 4 255, 1),
    (Reg.FLD_HRD_STATE_OWNER 4 255, 5), (Reg.FLD_HRD_CFG_EXPECTED 4 255, 7), (Reg.FLD_HRD_STATE_COUNT 4 255, n)]).modCh 4 fun x => { x with waiters := ws }

theorem wit_arrive : Obligations.HurdlesCountArrivalsAndWaits → Completes (.arrive 3 (.dcs 1 1023 7)) (hurdle 0 []) := fun h => by
  refine done (((h (hurdle 0 []) 3).1 1 1023 7 4 255 ?_ ?_ ?_).1 ?_) <;> decide +kernel

theorem wit_arrive_over : Obligations.HurdlesCountArrivalsAndWaits → Completes (.arrive 3 (.dcs 1 1023 8)) (hurdle 0 []) := fun h => by
  refine done (((h (hurdle 0 []) 3).1 1 1023 8 4 255 ?_ ?_ ?_).2.1 ?_) <;> decide +kernel

theorem wit_claim : Obligations.HurdlesCountArrivalsAndWaits → Completes (.claim 3 (.dcs 1 1023 7)) (hurdle 7 []) := fun h => by
  refine done (((h (hurdle 7 []) 3).1 1 1023 7 4 255 ?_ ?_ ?_).2.2.1 ?_ ?_) <;> decide +kernel

/-- The seams carry traffic. -/
def seamsUp (s : State) : State :=
  s.puts ((List.range 8).flatMap fun d => [(Reg.SEAM_DIR_STATUS_DOMAIN_ON d, 1), (Reg.SEAM_DIR_STATUS_LINK_UP d, 1)])

/-- The same hurdle in Field 50, of another quadrant, which is logical Field 40. -/
def hurdleFar (n : Nat) : State :=
  ((((withCtx run 50 2 5).modCh 3 fun x => { x with hmap := [(1024 + 1023, 1 + 40 * 4 + 255 * 256)] }).setReg (Reg.aDEV_FIELD_MAP 40) 50).puts [(Reg.FLD_HRD_STATE_EN 50 255, 1),
    (Reg.FLD_HRD_STATE_OWNER 50 255, 5), (Reg.FLD_HRD_CFG_EXPECTED 50 255, 7), (Reg.FLD_HRD_STATE_COUNT 50 255, n)])
def hurdleNear : State := seamsUp (hurdleFar 0)

/-- A waiter from port 2 of Field 3. -/
def waiter : Waiter := { hurdle := 255, field := 3, port := 2, ctx := 5, n := 5 }

theorem wit_claim_under : Obligations.HurdlesCountArrivalsAndWaits → Completes (.claim 3 (.dcs 1 1023 1)) (hurdle 7 [waiter]) := fun h => by
  refine done (((h (hurdle 7 [waiter]) 3).1 1 1023 1 4 255 ?_ ?_ ?_).2.2.2 ?_) <;> decide +kernel

theorem wit_arrive_crosses : Obligations.HurdlesCountArrivalsAndWaits → Completes (.arrive 3 (.dcs 1 1023 7)) (hurdleNear) := fun h => by
  refine done (((h hurdleNear 3).2.1 1 1023 7 50 255 ?_ ?_ ?_ ?_).1 ?_ ?_) <;> decide +kernel

theorem wit_arrive_waits : Obligations.HurdlesCountArrivalsAndWaits → Completes (.arrive 3 (.dcs 1 1023 7)) (hurdleFar 0) := fun h => by
  refine done (((h (hurdleFar 0) 3).2.1 1 1023 7 50 255 ?_ ?_ ?_ ?_).2 ?_) <;> decide +kernel

/-- The operation word of a token at port 2. -/
def hrdWord (op n : Nat) : Nat := op + 1023 * 2 ^ 4 + n * 2 ^ 14
def hurdlePort (op n k : Nat) : State := boundPort (hurdle k []) 3 3 1 0 (hrdWord op n :: List.replicate 31 0)

theorem wit_port_arrive : Obligations.HurdlesCountArrivalsAndWaits → Completes (.arrive 3 (.port 2)) (hurdlePort 0 7 0) := fun h => by
  refine done (((h (hurdlePort 0 7 0) 3).2.2.1 2 (hrdWord 0 7) 4 255 ?_ ?_ ?_ ?_ (grid_plain ?_ ?_)).1 ?_ ?_) <;> decide +kernel

theorem wit_port_claim : Obligations.HurdlesCountArrivalsAndWaits → Completes (.claim 3 (.port 2)) (hurdlePort 2 7 7) := fun h => by
  refine done (((h (hurdlePort 2 7 7) 3).2.2.1 2 (hrdWord 2 7) 4 255 ?_ ?_ ?_ ?_ (grid_plain ?_ ?_)).2.1 ?_ ?_ ?_) <;> decide +kernel

theorem wit_port_wait : Obligations.HurdlesCountArrivalsAndWaits → Completes (.hurdleWait 3 2) (hurdlePort 1 7 0) := fun h => by
  refine done (((h (hurdlePort 1 7 0) 3).2.2.1 2 (hrdWord 1 7) 4 255 ?_ ?_ ?_ ?_ (grid_plain ?_ ?_)).2.2 ?_ ?_ ?_ ?_ ?_ ?_ ?_) <;> decide +kernel

theorem wit_wait_more : Obligations.HurdlesCountArrivalsAndWaits → Completes (.waitComplete 4 255) (hurdle 4 [waiter]) := fun h => by
  refine done (((h (hurdle 4 [waiter]) 4).2.2.2 255 waiter [] (by decide +kernel)).1 (by decide +kernel))

theorem wit_wait_done : Obligations.HurdlesCountArrivalsAndWaits → Completes (.waitComplete 4 255) (hurdle 5 [waiter]) := fun h => by
  refine done (((h (hurdle 5 [waiter]) 4).2.2.2 255 waiter [] ?_).2 ?_ ?_) <;> decide +kernel

/-! DMA engines and slot rings. -/

/-- A check of a transfer that passes, and one that refuses. -/
def dmaPass : DmaCheck → Option (State × DmaRun × List (Nat × Nat × Nat))
  | .ok u r sts => some (u, r, sts)
  | _ => none
theorem dmaPass_eq {e : DmaCheck} {sts : List (Nat × Nat × Nat)} (h : (dmaPass e).isSome = true) (hs : ((dmaPass e).get h).2.2 = sts) :
    e = .ok ((dmaPass e).get h).1 ((dmaPass e).get h).2.1 sts := by
  cases e with
  | ok u a b => simp [dmaPass] at hs; subst hs; rfl
  | _ => simp [dmaPass] at h
/-- A check that reads no chain record leaves the state as it is. -/
theorem dmaCheck_keeps {s u : State} {p c : Nat} {x : Posted} {r : DmaRun} {sts : List (Nat × Nat × Nat)} (hr : ddRelay x.desc = false)
    (h : s.dmaCheck p c x = .ok u r sts) : s.dmaCheck p c x = .ok s r sts ∧ u = s := by
  have e : u = s := by
    simp only [State.dmaCheck, hr, Bool.not_false, Bool.and_true, Bool.false_eq_true, if_false] at h
    repeat' split at h
    all_goals first | (cases h; rfl) | cases h
  exact ⟨by rw [h, e], e⟩
def dmaRefusal : DmaCheck → Option (Nat × Nat)
  | .refused code detail => some (code, detail)
  | _ => none
theorem dmaRefusal_eq {e : DmaCheck} {c d : Nat} (h : dmaRefusal e = some (c, d)) : e = .refused c d := by
  cases e <;> simp [dmaRefusal] at h; rw [h.1, h.2]

/-- A transfer within Field memory of `n` bytes from 0x1000 to the end, its record at 0x2000. -/
def ddOf (op rate n : Nat) : List Byte :=
  words [op, 0, n, 1, 0x1000, 0, 0x1000000 - n, 0, 0, 0, 0, 0, rate, 0x04030201, 0x100 * 2 ^ 11, 0]
/-- A relay of 256 bytes along the chain at 0x3000, to ring 2 of Field 3 and ring 15 of Field 4. -/
def ddRelayed : List Byte := words [0x71 + 2 * 2 ^ 11, 0, 256, 1, 0x1000, 0, 0, 0, 0, 0, 0, 0, 0, 0, 0x100 * 2 ^ 11, 0xC0]

/-- A descriptor waits for engine 0. -/
def dmaQueued (d : List Byte) : State :=
  ((run.puts [(Reg.PWR_DOM_STATE_READY 1, 0x3FFFF)]).mwrite (fmLoc 3 0x1000) [1, 2, 3]).modField 3 fun f =>
    { f with dmas := [(0, { queue := [{ slot := 1, order := 0, split := 0, desc := d }], runs := [] })] }

theorem wit_dma_refused : Obligations.TransfersIssueInOrder → Completes (.relay 3 0) (dmaQueued (ddOf 0x71 0 256)) := fun h => by
  refine done ((h (dmaQueued (ddOf 0x71 0 256)) 3 0 (post (ddOf 0x71 0 256)) 5 ?_).1 (.relay 3 0, 0x71) ?_ ?_ Flt.DMA_MALFORMED 0 (dmaRefusal_eq
    ?_)) <;> decide +kernel

def dmaGo (d : List Byte) : Option (State × DmaRun × List (Nat × Nat × Nat)) := dmaPass ((dmaQueued d).dmaCheck 3 5 { slot := 1, order := 0, split := 0, desc := d })
def dmaBound (d : List Byte) : Option State := (dmaQueued d).dmaBind 3 0 1 d

theorem wit_copy : Obligations.TransfersIssueInOrder → Completes (.copy 3 0) (dmaQueued (ddOf 0x70 0 256)) := fun h => by
  refine done (((h (dmaQueued (ddOf 0x70 0 256)) 3 0 (post (ddOf 0x70 0 256)) 5 (by decide +kernel)).2.1 ((dmaGo (ddOf 0x70 0 256)).get
    (by decide +kernel)).2.1 ((dmaBound (ddOf 0x70 0 256)).get (by decide +kernel)) (dmaCheck_keeps (by decide +kernel) (dmaPass_eq
    (by decide +kernel) (by decide +kernel))).1 (Option.some_get _).symm).1 (by decide +kernel))

theorem wit_fill : Obligations.TransfersIssueInOrder → Completes (.fill 3 0) (dmaQueued (ddOf 0x72 0 3)) := fun h => by
  refine done (((h (dmaQueued (ddOf 0x72 0 3)) 3 0 (post (ddOf 0x72 0 3)) 5 (by decide +kernel)).2.1 ((dmaGo (ddOf 0x72 0 3)).get
    (by decide +kernel)).2.1 ((dmaBound (ddOf 0x72 0 3)).get (by decide +kernel)) (dmaCheck_keeps (by decide +kernel) (dmaPass_eq (by decide +kernel)
    (by decide +kernel))).1 (Option.some_get _).symm).2 (by decide +kernel))

/-- The same for a relay that found no entry. -/
def relayWaits (used : Nat) : State :=
  (((withCtx (dmaQueued ddRelayed) 4 2 5).mwrite (fmLoc 3 0x3000) (words [2, 0, 0, 0, 3 + 64 * 2, 4 + 64 * 15])).puts
    [(Reg.FLD_DMA_STATUS_RELAY_WAIT 3 0, 1), (Reg.FLD_RING_CFG_SLOTS 3 2, 1), (Reg.FLD_RING_CFG_CTX 3 2, 1), (Reg.FLD_RING_CFG_FWD 3 2, 1),
     (Reg.FLD_RING_CFG_SLOT_UNITS 3 2, 1), (Reg.FLD_RING_CFG_SLOTS 4 15, 1), (Reg.FLD_RING_CFG_CTX 4 15, 2),
     (Reg.FLD_RING_CFG_SLOT_UNITS 4 15, 1)]).modField 4 fun f =>
      { f with relays := (List.range used).map fun k =>
          (k, { slot := 2, headField := 3, headEng := 1, seq := 1, left := 1, ring := 14, next := none, inbox := [], held := false }) }
def relayGo (n : Nat) : Option (State × DmaRun × List (Nat × Nat × Nat)) := dmaPass ((relayWaits n).dmaCheck 3 5 { slot := 1, order := 0, split := 0, desc := ddRelayed })
def relayBound (n : Nat) : Option State := (relayWaits n).dmaBind 3 0 1 ddRelayed
def relayStations : List (Nat × Nat × Nat) := [(3, 2, 1), (4, 15, 2)]
def reserved (n : Nat) (h : (relayBound n).isSome = true) : Option (State × List Station) := ((relayBound n).get h).relayReserve 3 0 5 1 1 relayStations

theorem wit_relay_waits : Obligations.TransfersIssueInOrder → Completes (.relayReserve 3 0) (relayWaits 8) := fun h => by
  refine done ((((h (relayWaits 8) 3 0 (post ddRelayed) 5 (by decide +kernel)).2.2 (by decide +kernel) ((relayGo 8).get (by decide +kernel)).1
    ((relayGo 8).get (by decide +kernel)).2.1 relayStations ((relayBound 8).get (by decide +kernel)) (dmaPass_eq (by decide +kernel)
    (by decide +kernel)) (Option.some_get _).symm).1 (Option.isNone_iff_eq_none.mp (by decide +kernel))).2 (by decide +kernel))

theorem wit_relay_first_waits : Obligations.TransfersIssueInOrder → Completes (.relay 3 0) (relayWaits 8) := fun h => by
  refine done ((((h (relayWaits 8) 3 0 (post ddRelayed) 5 (by decide +kernel)).2.2 (by decide +kernel) ((relayGo 8).get (by decide +kernel)).1
    ((relayGo 8).get (by decide +kernel)).2.1 relayStations ((relayBound 8).get (by decide +kernel)) (dmaPass_eq (by decide +kernel)
    (by decide +kernel)) (Option.some_get _).symm).1 (Option.isNone_iff_eq_none.mp (by decide +kernel))).1)

theorem wit_relay : Obligations.TransfersIssueInOrder → Completes (.relayReserve 3 0) (relayWaits 7) := fun h => by
  refine done ((((h (relayWaits 7) 3 0 (post ddRelayed) 5 (by decide +kernel)).2.2 (by decide +kernel) ((relayGo 7).get (by decide +kernel)).1
    ((relayGo 7).get (by decide +kernel)).2.1 relayStations ((relayBound 7).get (by decide +kernel)) (dmaPass_eq (by decide +kernel)
    (by decide +kernel)) (Option.some_get _).symm).2 ((reserved 7 (by decide +kernel)).get (by decide +kernel)).1 ((reserved 7
    (by decide +kernel)).get (by decide +kernel)).2 (Option.some_get (x := reserved 7 (by decide +kernel)) (by decide +kernel)).symm).2
    (by decide +kernel))

theorem wit_relay_first : Obligations.TransfersIssueInOrder → Completes (.relay 3 0) (relayWaits 7) := fun h => by
  refine done ((((h (relayWaits 7) 3 0 (post ddRelayed) 5 (by decide +kernel)).2.2 (by decide +kernel) ((relayGo 7).get (by decide +kernel)).1
    ((relayGo 7).get (by decide +kernel)).2.1 relayStations ((relayBound 7).get (by decide +kernel)) (dmaPass_eq (by decide +kernel)
    (by decide +kernel)) (Option.some_get _).symm).2 ((reserved 7 (by decide +kernel)).get (by decide +kernel)).1 ((reserved 7
    (by decide +kernel)).get (by decide +kernel)).2 (Option.some_get (x := reserved 7 (by decide +kernel)) (by decide +kernel)).symm).1)

/-- A transfer as it runs, and the engines that run some. -/
def dmaOf (d : List Byte) : DmaRun :=
  { slot := 1, ctx := 5, seq := 1, post := 0, desc := d, rows := 1, stations := [], rep := 0, row := 0, off := 0, got := none, inb := [], outb := [], sending := false, toks := [], bytesDone := 0,
    slotsPub := 0, srcHeld := true, dstHeld := true, suspended := false, waits := 0, fault := none }
def dmaRuns (rs : List (Nat × DmaRun)) (grant : Option Nat) : State :=
  ((run.setReg (Reg.aFLD_FM_BANK_STATE 3 3) 0).mwrite (fmLoc 3 0x1000) [1, 2, 3]).modField 3 fun f =>
    { f with dmas := rs.map (fun x => (x.1, { queue := [], runs := [x.2] })), dmaGrant := grant }

theorem wit_granule_copy : Obligations.TransfersMoveGranulesAndComplete →
    Completes (.dmaGranule 3 3 31 3 7) (dmaRuns [(3, dmaOf (ddOf 0x70 0 256))] (some 3)) := fun h => by
  refine done ((h.1 (dmaRuns [(3, dmaOf (ddOf 0x70 0 256))] (some 3)) 3 3 (dmaOf (ddOf 0x70 0 256))).1 31 3 7 ?_ ?_ ?_ ?_ ?_ ?_ ?_ ?_ ?_ ?_ ?_ ?_
    ?_ ?_ ?_ ?_ ?_ ?_ ?_ (fun _ => ⟨?_, ?_, ?_⟩)) <;> decide +kernel

theorem wit_granule_fill : Obligations.TransfersMoveGranulesAndComplete →
    Completes (.dmaGranule 3 3 31 3 7) (dmaRuns [(3, dmaOf (ddOf 0x72 0 3))] (some 3)) := fun h => by
  refine done ((h.1 (dmaRuns [(3, dmaOf (ddOf 0x72 0 3))] (some 3)) 3 3 (dmaOf (ddOf 0x72 0 3))).1 31 3 7 ?_ ?_ ?_ ?_ ?_ ?_ ?_ ?_ ?_ ?_ ?_ ?_ ?_ ?_
    ?_ ?_ ?_ ?_ ?_ (fun e => absurd e (by decide +kernel))) <;> decide +kernel

/-- The context is descheduled. -/
def dmaLeaves : State := (dmaRuns [(3, dmaOf (ddOf 0x70 0 256))] none).modCtx 5 fun x => { x with desched := true }

theorem wit_dma_suspend : Obligations.TransfersMoveGranulesAndComplete → Completes (.dmaSuspend 3 3) dmaLeaves := fun h => by
  refine done (((h.1 dmaLeaves 3 3 (dmaOf (ddOf 0x70 0 256))).2 ?_ ?_ ?_).1 ?_ ?_) <;> decide +kernel

/-- The transfer at its end. -/
def dmaEnd : DmaRun := { dmaOf (ddOf 0x70 0 256) with rep := 1, bytesDone := 256 }

theorem wit_dma_complete : Obligations.TransfersMoveGranulesAndComplete → Completes (.dmaComplete 3 3) (dmaRuns [(3, dmaEnd)] none) := fun h => by
  refine done (((h.1 (dmaRuns [(3, dmaEnd)] none) 3 3 dmaEnd).2 ?_ ?_ ?_).2 ?_ ?_ ?_ ?_ ?_) <;> decide +kernel

/-- A granule has reached entry 7 of Field 4, which passes on to entry 0 of Field 3. -/
def aGran : RelayGran := { off := 4, data := [7, 8, 9, 10], src := 4, last := false }
def station (held : Bool) : RelayEntry := { slot := 2, headField := 2, headEng := 1, seq := 1, left := 1, ring := 15, next := some (3, 0), inbox := [aGran], held := held }
def nextStation : RelayEntry := { slot := 1, headField := 2, headEng := 1, seq := 1, left := 1, ring := 2, next := none, inbox := [aGran], held := true }
def relayingWith (held : Bool) (pub : Nat) (gs : List RelayGran) : State :=
  (((((withCtx run 4 2 5).puts [(Reg.PWR_DOM_STATE_READY 1, 0x3FFFF), (Reg.FLD_RING_CFG_SLOTS 4 15, 2), (Reg.FLD_RING_CFG_CTX 4 15, 2),
    (Reg.FLD_RING_CFG_SLOT_UNITS 4 15, 1), (Reg.FLD_RING_STATE_PUBLISHED 4 15, pub), (Reg.FLD_RING_STATE_HEAD 4 15, 1)])).modField 4 fun f =>
      { f with relays := [(7, { station held with inbox := gs })] }).modField 3 fun f => { f with relays := [(0, nextStation)] })

def relaying (held : Bool) (pub : Nat) : State := relayingWith held pub [aGran]

theorem wit_relay_stalls : Obligations.TransfersMoveGranulesAndComplete → Completes (.relayGranule 4 7) (relaying false 2) := fun h => by
  refine done ((h.2 (relaying false 2) 4 7 (station false) ?_ ?_ ?_).1 ?_ ?_ ?_) <;> decide +kernel

theorem wit_relay_takes : Obligations.TransfersMoveGranulesAndComplete → Completes (.relayGranule 4 7) (relayingWith false 1 []) := fun h => by
  refine done ((h.2 (relayingWith false 1 []) 4 7 { station false with inbox := [] } ?_ ?_ ?_).2.1 ?_ ?_ ?_ ?_) <;> decide +kernel

theorem wit_relay_granule : Obligations.TransfersMoveGranulesAndComplete → Completes (.relayGranule 4 7) (relaying true 1) := fun h => by
  refine done ((h.2 (relaying true 1) 4 7 (station true) ?_ ?_ ?_).2.2 aGran [] 3 0 nextStation ?_ ?_ ?_ ?_ ?_ ?_ ?_ ?_ ?_ ?_ ?_) <;> decide +kernel

/-- A deadline stream on engine 3 and a best-effort stream on engine 2, each ready. -/
def rated : DmaRun := dmaOf (ddOf 0x70 5 256)
def effort (n : Nat) : DmaRun := { dmaOf (ddOf 0x70 0 256) with waits := n }
def streams (n : Nat) : State := dmaRuns [(2, effort n), (3, rated)] none

theorem held_all {s : State} {p : Nat} (h : ((List.range 4).all fun e => decide (((s.dma p e).runs.map (·.ctx)).Nodup) && (match s.dmaRun p e with
      | some r => r.rows == 0 || (r.dstHeld && r.srcHeld)
      | none => true)) = true) :
    ∀ e, e < 4 → ((s.dma p e).runs.map (·.ctx)).Nodup ∧ ∀ r, s.dmaRun p e = some r → r.rows = 0 ∨ (r.dstHeld = true ∧ r.srcHeld = true) := by
  intro e he
  have k := List.all_eq_true.mp h e (List.mem_range.mpr he)
  simp only [Bool.and_eq_true, decide_eq_true_eq] at k
  refine ⟨k.1, fun r hr => ?_⟩
  have k2 := k.2
  rw [hr] at k2
  simpa using k2

/-- A stream of a kind is ready on engine `k` alone. -/
theorem only_on {s : State} {p : Nat} (f : DmaRun → Bool) (k : Nat) (h : ((List.range 4).all fun e => e == k || (match s.dmaReady p e with
      | some r => !f r
      | none => true)) = true) {e : Nat} {r : DmaRun} (he : e < 4) (hr : s.dmaReady p e = some r) (hf : f r = true) : e = k := by
  have a := List.all_eq_true.mp h e (List.mem_range.mpr he)
  rw [hr] at a
  simp [hf] at a
  exact a

theorem wit_no_stream : Obligations.TheStreamThatRunsDryFirstHasTheGrant → Completes (.streamArbitrate 3) run := fun h =>
  done ((h run 3 (held_all (by decide +kernel))).1 (by decide +kernel))

theorem wit_deadline : Obligations.TheStreamThatRunsDryFirstHasTheGrant → Completes (.streamArbitrate 3) (streams 6) := fun h =>
  done ((h (streams 6) 3 (held_all (by decide +kernel))).2.1 3 rated ⟨(by decide +kernel), (by decide +kernel), (by decide +kernel)⟩
    (fun _ _ a b => absurd (only_on (fun r => ddRate r.desc != 0) 3 (by decide +kernel) a.1 a.2.1 (bne_iff_ne.mpr a.2.2)) b) (.inr (by decide +kernel)))

theorem wit_effort : Obligations.TheStreamThatRunsDryFirstHasTheGrant → Completes (.streamArbitrate 3) (streams 7) := fun h =>
  done ((h (streams 7) 3 (held_all (by decide +kernel))).2.2 2 (effort 7) ⟨(by decide +kernel), (by decide +kernel), (by decide +kernel)⟩
    (fun _ _ a b => absurd (only_on (fun r => ddRate r.desc == 0) 2 (by decide +kernel) a.1 a.2.1 (beq_iff_eq.mpr a.2.2)) b) (.inr (by decide +kernel)))

/-- Ring 15 of slot 1 with two slots, so many of them published. -/
def ring15 (pub tail : Nat) (x : RingX) : State :=
  (run.puts [(Reg.FLD_RING_CFG_SLOTS 3 15, 2), (Reg.FLD_RING_CFG_CTX 3 15, 1), (Reg.FLD_RING_CFG_SLOT_UNITS 3 15, 1),
    (Reg.FLD_RING_STATE_PUBLISHED 3 15, pub), (Reg.FLD_RING_STATE_HEAD 3 15, 1), (Reg.FLD_RING_STATE_TAIL 3 15, tail)]).modRing 3 15 fun _ => x

theorem wit_produce_refused : Obligations.RingsPublishAndFreeSlots → Completes (.ringProduce 3 15 1 0xFFFFFF) (ring15 2 1 RingX.reset) := fun h =>
  done (((h (ring15 2 1 RingX.reset) 3 15 1).1 0xFFFFFF).1 (by decide +kernel))

theorem wit_produce : Obligations.RingsPublishAndFreeSlots → Completes (.ringProduce 3 15 1 0xFFFFFF) (ring15 1 1 RingX.reset) := fun h => by
  refine done (((h (ring15 1 1 RingX.reset) 3 15 1).1 0xFFFFFF).2 ?_ ?_ ?_ ?_) <;> decide +kernel

theorem wit_free_refused : Obligations.RingsPublishAndFreeSlots → Completes (.ringFree 3 15 1) (ring15 0 1 RingX.reset) := fun h =>
  done ((h (ring15 0 1 RingX.reset) 3 15 1).2.1 (by decide +kernel))

theorem wit_free : Obligations.RingsPublishAndFreeSlots → Completes (.ringFree 3 15 1) (ring15 1 1 RingX.reset) := fun h =>
  done ((h (ring15 1 1 RingX.reset) 3 15 1).2.2.1 (by decide +kernel) (by decide +kernel) (by decide +kernel))

/-- The ring's wait on its release hurdle has completed. -/
def releasing : State :=
  (ring15 1 1 { RingX.reset with waiting := true }).modCh 3 fun x => { x with done := [{ hurdle := 0, field := 3, port := 31, ctx := 5, n := 1 }] }

theorem wit_release : Obligations.RingsPublishAndFreeSlots → Completes (.ringRelease 3 15) releasing := fun h => by
  refine done ((h releasing 3 15 1).2.2.2 ?_ ?_ ?_ ?_ ?_ ?_) <;> decide +kernel

/-! Memory stacks and translation. -/

/-- Context 63 of partition 15 in slot 3 of logical Field 4, as the image in force declares it. -/
def image63 : CtxLoad :=
  { decl := { part := 15, model := 7, fields := [(4, 3)], gang := [], pairs := [], lenShape := 0, input := (0, 0), demand := [], copies := [],
              fmCopies := [], silt := [], variants := [] },
    group := none, root := 0x100002, regs := [], muZero := [], stackZero := [], legs := [], blocks := [], stackData := [], trees := [] }

/-- The declarations of a context whose first GiB is a demand region. -/
def demand5 : CtxLoad := { image63 with decl := { image63.decl with demand := [(0, 2 ^ 30)] } }

/-- Stack 31 serves. -/
def stack31 : State := base.puts [(Reg.STK_STATUS_PWR_STATE 31, 0), (Reg.STK_STATUS_READY 31, 1), (Reg.STK_STATUS_SPARE_DIE_FREE 31, 1)]

/-- Who asks. -/
def asks : Requester := { field := 3, slot := 1, agent := 4, index := 63 }

theorem wit_stk_fault : Obligations.StacksServeAccesses → exec (.stackRead 31 0xC00000000 (some asks) .good) stack31 = .fault .noSuchAddress := fun h =>
  (h.1 stack31 31 0xC00000000 (some asks) .good).1 (by decide +kernel)

theorem wit_stk_read : Obligations.StacksServeAccesses → Completes (.stackRead 31 0xBFFFFFFFF (some asks) .good) stack31 := fun h => by
  refine done ((((h.1 stack31 31 0xBFFFFFFFF (some asks) .good).2 ?_).1 ?_ ?_).1 ?_) <;> decide +kernel

/-- The last transfer of the stack is not to be corrected. -/
def stackBad : State := stack31.markBad (stackLoc 31 0xBFFFFFFC0) true

theorem wit_stk_bad : Obligations.StacksServeAccesses → Completes (.stackRead 31 0xBFFFFFFFF none .good) stackBad := fun h => by
  refine done ((((h.1 stackBad 31 0xBFFFFFFFF none .good).2 ?_).1 ?_ ?_).2 (stackLoc 31 0xBFFFFFFC0) ?_) <;> decide +kernel

/-- It is in self-refresh. -/
def stackSleeps : State := stack31.puts [(Reg.STK_STATUS_PWR_STATE 31, 1)]

theorem wit_stk_held : Obligations.StacksServeAccesses → Completes (.stackRead 31 0 (some asks) .good) stackSleeps := fun h => by
  refine done (((h.1 stackSleeps 31 0 (some asks) .good).2 ?_).2.1 ?_) <;> decide +kernel

/-- Its first row is under remap. -/
def rowMoves : State := stack31.puts [(Reg.STK_ROW_REMAP_BUSY 31, 1)]

theorem wit_stk_row_held : Obligations.StacksServeAccesses → Completes (.stackRead 31 0 (some asks) .good) (rowMoves) := fun h => by
  refine done (((h.1 rowMoves 31 0 (some asks) .good).2 ?_).2.2 ?_ ?_) <;> decide +kernel

theorem wit_stk_write : Obligations.StacksServeAccesses → Completes (.stackWrite 31 0xBFFFFFFFF [7] none .good) stack31 := fun h => by
  refine done ((h.2.1 stack31 31 0xBFFFFFFFF [7] none ?_).2 ?_ ?_ ?_ ?_) <;> decide +kernel

theorem wit_stk_gate : Obligations.StacksServeAccesses → Completes (.stackWrite 31 0xBFFFFFFFF [7] none .good) State.reset := fun h =>
  done ((h.2.1 State.reset 31 0xBFFFFFFFF [7] none (by decide +kernel)).1 (by decide +kernel))

theorem wit_gather : Obligations.StacksServeAccesses → Completes (.gather 31 [0xBFFFFFF80, 0] (some asks) .good) stack31 := fun h => by
  refine done (h.2.2.1 stack31 31 [0xBFFFFFF80, 0] (some asks) ?_ ?_ ?_ ?_) <;> decide +kernel

/-- The last two tokens of the first GiB of stack 0, which context 5 has at VA 0, hold something. -/
def summed : State := run.mwrite 0x3FFFFF80 (List.replicate 128 0xFF)

theorem wit_scatter : Obligations.StacksServeAccesses → Completes (.scatterAdd 0x3FFFFF80 fmtINT32 0x80000001 (List.replicate 128 2) asks) summed := fun h => by
  refine done (h.2.2.2.1 summed 0x3FFFFF80 0x3FFFFF80 fmtINT32 0x80000001 true (List.replicate 128 2) asks ?_ ?_ (acc_eq ?_) ?_ ?_ ?_ ?_ ?_)
    <;> decide +kernel

theorem wit_atomic : Obligations.StacksServeAccesses → Completes (.atomic 0x3FFFFFF8 0 1 0 asks) summed := fun h => by
  refine done (h.2.2.2.2 summed 0x3FFFFFF8 0x3FFFFFF8 0 1 0 true asks ?_ (acc_eq ?_) ?_ ?_ ?_ ?_ ?_) <;> decide +kernel

theorem wit_refresh : Obligations.StacksScrubSpareAndSleep → Completes (.stackRefresh 31 31 63 12287) stack31 := fun h =>
  done ((h stack31 31).1 31 63 12287)

theorem wit_stk_temp : Obligations.StacksScrubSpareAndSleep → Completes (.stackTempUpdate 31 96) stack31 := fun h =>
  done ((h stack31 31).2.1 96)

/-- The scrub is at a page. -/
def stackScrubs (n : Nat) : State := (stack31.puts [(Reg.STK_SCRUB_CTRL_EN 31, 1)]).modStk 31 fun x => { x with scrubPos := n }

theorem wit_stk_scrub : Obligations.StacksScrubSpareAndSleep → Completes (.stackScrubPage 31 .good 31) (stackScrubs 25165823) := fun h => by
  refine done (((h (stackScrubs 25165823) 31).2.2.1 31 ?_ ?_ ?_ ?_ ?_).1) <;> decide +kernel

/-- No context has been loaded. -/
theorem no_loads (c : Nat) : ((stackScrubs 25165823).serve c).load = none := by rfl

theorem wit_stk_scrub_bad : Obligations.StacksScrubSpareAndSleep → Completes (.stackScrubPage 31 .uncorrectable 31) (stackScrubs 25165823) := fun h => by
  refine done (((h (stackScrubs 25165823) 31).2.2.1 31 ?_ ?_ ?_ ?_ ?_).2 (.uncorrectable, Reg.STK_ECC_STATUS_UNCORR_SEEN 31) ?_ (fun _ c =>
    no_loads c)) <;> decide +kernel

theorem wit_die_copy : Obligations.StacksScrubSpareAndSleep → Completes (.dieCopyStart 31 15) stack31 := fun h => by
  have g := (h stack31 31).2.2.2.1 15
  rw [if_pos (by decide +kernel)] at g
  exact done g

/-- The copy of die 15 runs. -/
def copying : State := (stack31.puts [(Reg.STK_SPARE_STATUS_COPY_ACTIVE 31, 1)]).modStk 31 fun x => { x with copyDie := some 15 }

theorem wit_die_done : Obligations.StacksScrubSpareAndSleep → Completes (.dieCopyDone 31) copying := fun h =>
  done ((h copying 31).2.2.2.2.1 15 (by decide +kernel))

/-- The last row of a bank may be remapped; the row has been copied. -/
def remaps (busy used : Nat) : State :=
  (stack31.puts [(Reg.STK_ROW_REMAP_BUSY 31, busy), (Reg.STK_ROW_REMAP_NO_SPARE 31, 0), (Reg.STK_ROW_REMAP_PC 31, 31),
    (Reg.STK_ROW_REMAP_BANK 31, 63), (Reg.STK_ROW_REMAP_ROW 31, 12287)]).modStk 31 fun x => { x with spareUsed := [(2047, used)] }

theorem wit_remap : Obligations.StacksScrubSpareAndSleep → Completes (.rowRemap 31 31 63 12287) (remaps 0 15) := fun h =>
  done ((h (remaps 0 15) 31).2.2.2.2.2.1 31 63 12287 (by decide +kernel) (by decide +kernel))

theorem wit_remap_none : Obligations.StacksScrubSpareAndSleep → Completes (.rowRemap 31 31 63 12287) (remaps 0 16) := fun h =>
  done ((h (remaps 0 16) 31).2.2.2.2.2.1 31 63 12287 (by decide +kernel) (by decide +kernel))

theorem wit_remap_done : Obligations.StacksScrubSpareAndSleep → Completes (.rowRemapDone 31) (remaps 1 15) := fun h => by
  refine done ((h (remaps 1 15) 31).2.2.2.2.2.2.1 ?_ ?_ ?_) <;> decide +kernel

theorem wit_stk_idle : Obligations.StacksScrubSpareAndSleep → Completes (.stackIdleExpiry 31) (stack31.puts [(Reg.STK_PWR_CTRL_REQ 31, 4)]) := fun h =>
  done ((h (stack31.puts [(Reg.STK_PWR_CTRL_REQ 31, 4)]) 31).2.2.2.2.2.2.2.1 (by decide +kernel) (by decide +kernel) (by decide +kernel))

/-- It wakes with a write held. -/
def stackWakes : State :=
  stackSleeps.modStk 31 fun x => { x with waking := true, held := [.write 0xBFFFFFFFF [9] none .good] }

theorem wit_stk_wake : Obligations.StacksScrubSpareAndSleep → Completes (.stackWake 31) stackWakes := fun h => by
  refine done (((h stackWakes 31).2.2.2.2.2.2.2.2 (.inl ?_) ?_ ?_).2 0xBFFFFFFFF [9] none ?_ ?_ ?_) <;> decide +kernel

/-- It wakes from deep power-down, with nothing held. -/
def stackDeep : State := (stack31.puts [(Reg.STK_STATUS_PWR_STATE 31, 2)]).modStk 31 fun x => { x with waking := true }

theorem wit_stk_wake_none : Obligations.StacksScrubSpareAndSleep → Completes (.stackWake 31) (stackDeep) := fun h => by
  refine done (((h stackDeep 31).2.2.2.2.2.2.2.2 (.inr ?_) ?_ ?_).1 ?_) <;> decide +kernel

/-- Context 5's root table is at 2 MiB, and its first entry a leaf of the page before. -/
def rooted (en : Nat) : State :=
  (run.puts [(Reg.XLT_CTX_ROOT_EN 5, en), (Reg.XLT_CTX_ROOT_ROOT 5, 1)]).mwrite 0x200000 (leBytes 8 (5 * 2 ^ 41 + 2 ^ 30 + 7))

/-- The same, with nothing in the TLB. -/
def missed : State := (rooted 1).modField 3 fun f => { f with tlb := [] }

/-- The leaf of the page, and of what the TLB holds. -/
def leafWalked : Leaf := { vbase := 0, size := 2 ^ 30, frame := 5 * 2 ^ 41 + 2 ^ 30, rights := 1 }
def leafHeld : Leaf := { vbase := 0, size := 2 ^ 30, frame := 5 * 2 ^ 41, rights := 7 }

theorem wit_walk_tlb : Obligations.WalksFaultsAndInvalidations → Completes (.tlbWalk 3 1 4 63 0x3FFFFFFF 0) missed := fun h => by
  refine done (((h missed).1 3 1 4 63 0x3FFFFFFF 5 ?_).1 leafWalked (.stack 0x7FFFFFFF, true) (acc_eq ?_) ?_ (acc_eq ?_)) <;> decide +kernel

theorem wit_walk_hit : Obligations.WalksFaultsAndInvalidations → Completes (.tlbWalk 3 1 4 63 0x3FFFFFFF 0) (rooted 1) := fun h => by
  refine done (((h (rooted 1)).1 3 1 4 63 0x3FFFFFFF 5 ?_).2.1 leafHeld (.stack 0x3FFFFFFF, true) (acc_eq ?_) ?_ (acc_eq ?_)) <;> decide +kernel

theorem wit_walk_fault : Obligations.WalksFaultsAndInvalidations → Completes (.tlbWalk 3 1 4 63 0xFFFFFFFFFFFF 1) (rooted 0) := fun h => by
  refine done (((h (rooted 0)).1 3 1 4 63 0xFFFFFFFFFFFF 5 ?_).2.2.2 (((h (rooted 0)).1 3 1 4 63 0xFFFFFFFFFFFF 5 ?_).2.2.1 ?_) ?_)
    <;> decide +kernel

/-- An entry waits for the queue of quadrant 0, which is at its last place. -/
def fault1 : FqEntry :=
  { va := 7, rga := 0, code := Flt.XLT_NOT_PRESENT, agent := 4, index := 0, lfield := 3, ctx := 5, write := true, retries := 0, stamp := 9 }
def faults (r : Nat) : State :=
  { run.puts [(Reg.XLT_FQ_BASE_BASE 0, 1), (Reg.XLT_FQ_WPTR_WPTR 0, 1023), (Reg.XLT_FQ_RPTR_RPTR 0, r)] with xlt := { fqWait := [(0, fault1)], inval := none, invalTags := [], invalHeld := [] } }

theorem wit_fq_full : Obligations.WalksFaultsAndInvalidations → Completes (.faultQueueWrite 0) (faults 0) := fun h =>
  done (((h (faults 0)).2.1 0 fault1 (by decide +kernel)).1 (by decide +kernel))

theorem wit_fq : Obligations.WalksFaultsAndInvalidations → Completes (.faultQueueWrite 0) (faults 1) := fun h => by
  refine done (((h (faults 1)).2.1 0 fault1 ?_).2 ?_ ?_ ?_ ?_) <;> decide +kernel

/-- Invalidation of so many units of 64 KiB from the last page of the first GiB. -/
def inval (busy len : Nat) : State :=
  { run.puts [(Reg.XLT_INVAL_STATUS_BUSY, busy), (Reg.XLT_INVAL_BASE_LO_BASE_LO, 0x3FFF), (Reg.XLT_INVAL_LEN_LEN, len)] with
    xlt := { fqWait := [], inval := some (1, 5), invalTags := [], invalHeld := [] } }

theorem wit_inval_busy : Obligations.WalksFaultsAndInvalidations → Completes .invalAll (inval 1 1) := fun h =>
  done (((h (inval 1 1)).2.2.1 5).1 (by decide +kernel) .invalAll (by decide +kernel))

theorem wit_inval_range : Obligations.WalksFaultsAndInvalidations → Completes (.invalRange 5) (inval 0 1) := fun h =>
  done ((((h (inval 0 1)).2.2.1 5).2.1 (by decide +kernel)).1 (by decide +kernel))

theorem wit_inval_none : Obligations.WalksFaultsAndInvalidations → Completes (.invalRange 5) (inval 0 0) := fun h =>
  done ((((h (inval 0 0)).2.2.1 5).2.1 (by decide +kernel)).2.1 (by decide +kernel))

theorem wit_inval_all : Obligations.WalksFaultsAndInvalidations → Completes .invalAll (inval 0 0) := fun h =>
  done ((((h (inval 0 0)).2.2.1 5).2.1 (by decide +kernel)).2.2.2)

theorem wit_inval_done : Obligations.WalksFaultsAndInvalidations → Completes .invalDone (inval 1 1) := fun h => by
  refine done (((h (inval 1 1)).2.2.1 5).2.2.2.1 ?_ ?_) <;> decide +kernel

/-- The same, with an access outstanding. -/
def invalHeld : State :=
  let s := (inval 1 1).modStk 31 fun x => { x with held := [.read 0 64 (some asks) .good] }
  { s with xlt := { s.xlt with invalHeld := [(31, .read 0 64 (some asks) .good)] } }

theorem wit_inval_waits : Obligations.WalksFaultsAndInvalidations → Completes (.invalDone) (invalHeld) := fun h => by
  refine done (((h invalHeld).2.2.1 5).2.2.1 ?_ ?_) <;> decide +kernel

/-- An agent of context 5 repeats a remote access. -/
def stopped (n : Nat) : State :=
  (run.puts [(Reg.XLT_REMOTE_RETRY_RETRY_LIMIT, 1)]).modField 3 fun f =>
    { f with stops := [(agentKey 7 63 5, { kind := .remoteRetry, code := 0, ctx := 5, va := 7, rga := 9, write := false, retries := n })],
             retryCount := [(agentKey 7 63 5, n)] }
def stop (n : Nat) : Stop := { kind := .remoteRetry, code := 0, ctx := 5, va := 7, rga := 9, write := false, retries := n }

theorem wit_retry : Obligations.WalksFaultsAndInvalidations → Completes (.remoteRetryTimer 3 7 63) (stopped 0) := fun h =>
  done (((h (stopped 0)).2.2.2 3 7 63 (agentKey 7 63 5) (stop 0) (by decide +kernel)).1 (by decide +kernel))

theorem wit_retry_end : Obligations.WalksFaultsAndInvalidations → Completes (.remoteRetryTimer 3 7 63) (stopped 1) := fun h =>
  done (((h (stopped 1)).2.2.2 3 7 63 (agentKey 7 63 5) (stop 1) (by decide +kernel)).2 (by decide +kernel) (by decide +kernel))

/-- An agent of context 5 waits for RESOLVE. -/
def suspended : State := (stopped 0).modField 3 fun f => { f with stops := f.stops.map fun e => (e.1, { e.2 with kind := .suspended }) }

/-- The same, where the image in force makes what it waits for a demand region. -/
def demanded : State := (suspended.puts [(Reg.XLT_CTX_ROOT_ROOT 5, 1)]).modServe 5 fun x => { x with load := some demand5 }

theorem wit_resolve_retry : Obligations.WalksFaultsAndInvalidations → Completes (.resolveRetry 5 [(7, 0x40000000)]) demanded := fun h => by
  refine done ((((h demanded).2.2.1 5).2.2.2.2.1 ?_).2 7 0x40000000 1 0x200000 ?_ ?_ ?_ ?_ ?_) <;> decide +kernel

theorem wit_resolve_none : Obligations.WalksFaultsAndInvalidations → Completes (.resolveRetry 5 []) (demanded) := fun h => by
  refine done ((((h demanded).2.2.1 5).2.2.2.2.1 (by decide +kernel)).1)

theorem wit_resolve_outside : Obligations.WalksFaultsAndInvalidations → Completes (.resolveRetry 5 [(7, 0)]) (suspended) := fun h => by
  refine done (((h suspended).2.2.1 5).2.2.2.2.2.1 [(7, 0)] (by decide +kernel))

theorem wit_resolve_fail : Obligations.WalksFaultsAndInvalidations → Completes (.resolveFail 5) suspended := fun h => by
  refine done (((h suspended).2.2.1 5).2.2.2.2.2.2)


/-! Quipel. -/

/-- Port 3 of the part: its SerDes domain is on, its link as given. -/
def qport (up training : Nat) (g : PortState → PortState) : State :=
  ((run.puts [(Reg.QPL_PORT_CTRL_EN 3, 1), (Reg.QPL_PORT_STATUS_LINK_UP 3, up), (Reg.QPL_PORT_STATUS_TRAINING 3, training)]).modPort 3 g)

theorem wit_training : Obligations.LinksTrainSteerAndFail → Completes (.portTraining 3) (qport 0 0 id) := fun h =>
  done ((h (qport 0 0 id) 3).1 (by decide +kernel) (by decide +kernel) (by decide +kernel))

/-- A flit, and one that waits in the retry buffer. -/
def qflit (kind vc cls : Nat) : QFlit := { kind := kind, vc := vc, last := true, cls := cls, body := List.replicate 240 3 }
def retrains : State := qport 0 1 fun x => { x with retraining := true, nakSeq := 65535, retry := [(65535, qflit 1 0 0)], txSeq := 0 }

theorem wit_link_up : Obligations.LinksTrainSteerAndFail → Completes (.linkUp 3 1023 3 true true) (qport 0 1 id) := fun h =>
  done ((h (qport 0 1 id) 3).2.1 1023 3 true true (by decide +kernel))

theorem wit_link_again : Obligations.LinksTrainSteerAndFail → Completes (.linkUp 3 1023 3 true true) retrains := fun h =>
  done ((h retrains 3).2.1 1023 3 true true (by decide +kernel))

theorem wit_lane_good : Obligations.LinksTrainSteerAndFail → Completes (.laneErrorCheck 3 4 15 false) (qport 1 0 id) := fun h =>
  done ((h (qport 1 0 id) 3).2.2.1 4 15)

/-- The lanes of both directions are at their places, lane 4 the spare. -/
def laned : State := (qport 1 0 id).puts ((List.range 10).map fun i => (Reg.QPL_LANE_STATE_ROLE 3 i, i % 5))

theorem wit_lane_check : Obligations.LinksTrainSteerAndFail → Completes (.laneErrorCheck 3 3 15 true) laned := fun h =>
  done (((h laned 3).2.2.2.1 1 3 (by decide +kernel)).1 4 (.laneErrorCheck 3 3 15 true) 15 (by decide +kernel) (by decide +kernel))

theorem wit_lane_loss : Obligations.LinksTrainSteerAndFail → Completes (.laneLossOfLock 3 0 3) laned := fun h =>
  done (((h laned 3).2.2.2.1 0 3 (by decide +kernel)).1 4 (.laneLossOfLock 3 0 3) 0 (by decide +kernel) (by decide +kernel))

/-- The spare of a direction is used up, and so many lanes have failed. -/
def lanes (dir k : Nat) : State :=
  laned.puts ((Reg.QPL_LANE_STATE_FAILED 3 (4 + 5 * dir), 1) :: (List.range k).map fun l => (Reg.QPL_LANE_STATE_FAILED 3 (l + 5 * dir), 1))

theorem wit_lane_narrow : Obligations.LinksTrainSteerAndFail → Completes (.laneLossOfLock 3 1 3) (lanes 1 1) := fun h =>
  done (((h (lanes 1 1) 3).2.2.2.1 1 3 (by decide +kernel)).2.1 (by decide +kernel) (by decide +kernel))

theorem wit_lane_down : Obligations.LinksTrainSteerAndFail → Completes (.laneLossOfLock 3 0 3) (lanes 0 2) := fun h =>
  done (((h (lanes 0 2) 3).2.2.2.1 0 3 (by decide +kernel)).2.1 (by decide +kernel) (by decide +kernel))

theorem wit_steer_none : Obligations.LinksTrainSteerAndFail → Completes (.qplSteer 3 3 1) (lanes 1 0) := fun h =>
  done (((h (lanes 1 0) 3).2.2.2.1 1 3 (by decide +kernel)).2.2.1 (by decide +kernel))

theorem wit_steer : Obligations.LinksTrainSteerAndFail → Completes (.qplSteer 3 3 1) laned := fun h =>
  done (((h laned 3).2.2.2.1 1 3 (by decide +kernel)).2.2.2.1 (by decide +kernel) (by decide +kernel))

/-- A lane change is under way. -/
def steers : State := (laned.modPort 3 fun x => { x with steer := some (1, 3) }).puts [(Reg.QPL_STEER_BUSY 3, 1)]

theorem wit_steer_done : Obligations.LinksTrainSteerAndFail → Completes (.steerDone 3) steers := fun h =>
  done (((h steers 3).2.2.2.1 1 3 (by decide +kernel)).2.2.2.2 4 (by decide +kernel) (by decide +kernel))

/-- The link has retrained since stamp 0. -/
def retrainAt (n : Nat) : State := (qport 0 1 fun x => { x with retraining := true, retrainSince := 0 }).puts [(⟨Reg.aBRK_TIME_LO, 31, 0⟩, n)]

theorem wit_retrain_timeout : Obligations.LinksTrainSteerAndFail → Completes (.retrainTimeout 3) (retrainAt (ticksOfMs 10)) := fun h => by
  have g := (h (retrainAt (ticksOfMs 10)) 3).2.2.2.2.1
  rw [if_pos (by decide +kernel)] at g
  exact done g

theorem wit_retrain_goes : Obligations.LinksTrainSteerAndFail → Completes (.retrainTimeout 3) (retrainAt (ticksOfMs 10 - 1)) := fun h => by
  have g := (h (retrainAt (ticksOfMs 10 - 1)) 3).2.2.2.2.1
  rw [if_neg (by decide +kernel)] at g
  exact done g

theorem wit_link_down : Obligations.LinksTrainSteerAndFail → Completes (.qplLinkDown 3) retrains := fun h =>
  done (h retrains 3).2.2.2.2.2.1

/-- The bytes of a flit as the peer sends it, and one whose last byte is wrong. -/
def wired (f : QFlit) (seq ack : Nat) : List Byte := f.bytes seq ack 1 1 255
def wrong : List Byte := (wired (qflit 1 3 1) 65535 65535).take 255 ++ [0]
/-- The last sequence number comes next, and one flit waits for its ACK. -/
def qreceives : State := qport 1 0 fun x => { x with rxSeq := 65535, retry := [(65535, qflit 1 0 0)] }

theorem qplain : qreceives.LinkPlain 3 := by
  refine ⟨?_, ?_, ?_, ?_⟩ <;> decide +kernel

theorem wit_flit_crc : Obligations.FlitsMoveInOrderWithCredit → Completes (.flitReceive 3 wrong []) qreceives := fun h =>
  done (((h qreceives 3).1 wrong _ _ _ _ _ _ qplain rfl).1 (by decide +kernel))

theorem wit_flit_next : Obligations.FlitsMoveInOrderWithCredit → Completes (.flitReceive 3 (wired (qflit 1 3 1) 65535 65535) []) qreceives := fun h =>
  done (((h qreceives 3).1 (wired (qflit 1 3 1) 65535 65535) _ _ _ _ _ _ qplain rfl).2 (by decide +kernel) (by decide +kernel))

theorem wit_flit_gap : Obligations.FlitsMoveInOrderWithCredit → Completes (.flitReceive 3 (wired (qflit 2 3 1) 0 7) []) qreceives := fun h =>
  done (((h qreceives 3).1 (wired (qflit 2 3 1) 0 7) _ _ _ _ _ _ qplain rfl).2 (by decide +kernel) (by decide +kernel))

/-- What a flit says. -/
def flitSays (f : QFlit) (seq ack : Nat) : QFlit × Nat × Nat × Nat × Nat × Nat := parseFlit (wired f seq ack)

theorem wit_flit_taken : Obligations.LinksTrainSteerAndFail → Completes (.flitReceive 3 (wired (qflit 1 3 1) 65535 65535) []) qreceives := fun h =>
  done ((h qreceives 3).2.2.2.2.2.2.1 (wired (qflit 1 3 1) 65535 65535) (flitSays (qflit 1 3 1) 65535 65535).1 65535 1 1 255 qplain (by decide +kernel)
    (by decide +kernel) (by decide +kernel))

/-- No Field holds what it sends back; the port as given. -/
def qsends (g : PortState → PortState) : State := { qport 1 0 g with fields := [] }
theorem qsends_quiet (g : PortState → PortState) (p : Nat) : ((qsends g).field p).ch.outbound = [] := rfl
def qnak : State := qsends fun x => { x with nakOwed := true, rxSeq := 65535, owed := [(7, 300)] }
def qresend : State := qsends fun x => { x with resend := some 65535, retry := [(65535, qflit 1 0 0)] }
/-- A request and a reduction wait, the request overtaken so often. -/
def qchoice (n used : Nat) : State :=
  qsends fun x => { x with txq := [(1, [qflit 1 0 1]), (4, [qflit 1 2 0])], credit := [(1, 1), (4, 64)], waited := [(0, n)], txSeq := 65535,
                           retry := List.replicate used (0, qflit 1 0 0) }

theorem wit_send_nak : Obligations.FlitsMoveInOrderWithCredit → Completes (.flitSend 3) qnak := fun h =>
  done (((h qnak 3).2.1 (by decide +kernel) (by decide +kernel) (qsends_quiet _)).1 (by decide +kernel))

theorem wit_resend : Obligations.FlitsMoveInOrderWithCredit → Completes (.flitSend 3) qresend := fun h =>
  done (((h qresend 3).2.1 (by decide +kernel) (by decide +kernel) (qsends_quiet _)).2.1 65535 (qflit 1 0 0) (by decide +kernel) (by decide +kernel) (by decide +kernel) (by decide +kernel))

theorem wit_choice : Obligations.FlitsMoveInOrderWithCredit → (qsends id).vcChoice 3 = [3, 1, 2, 0].find? ((qsends id).vcReady 3) := fun h =>
  ((h (qsends id) 3).2.1 (by decide +kernel) (by decide +kernel) (qsends_quiet _)).2.2.1 (fun v => by rw [show ((qsends id).port (3 : Fin 4)).waited = [] by decide +kernel]; exact Nat.zero_lt_succ 6)

theorem wit_send_reduction : Obligations.FlitsMoveInOrderWithCredit → Completes (.flitSend 3) (qchoice 6 511) := fun h => by
  refine done (((h (qchoice 6 511) 3).2.1 ?_ ?_ (qsends_quiet _)).2.2.2.2 2 0 (qflit 1 2 0) [] ?_ ?_ ?_ ?_ ?_ ?_ ?_) <;> decide +kernel

theorem wit_send_request : Obligations.FlitsMoveInOrderWithCredit → Completes (.flitSend 3) (qchoice 7 0) := fun h => by
  refine done (((h (qchoice 7 0) 3).2.1 ?_ ?_ (qsends_quiet _)).2.2.2.2 0 1 (qflit 1 0 1) [] ?_ ?_ ?_ ?_ ?_ ?_ ?_) <;> decide +kernel

theorem wit_overtaken : Obligations.FlitsMoveInOrderWithCredit → ∃ u, (qchoice 7 0).vcChoice 3 = some u ∧ 7 ≤ Tab.get (fun _ => 0) ((qchoice 7 0).port 3).waited u :=
  fun h => ((h (qchoice 7 0) 3).2.1 (by decide +kernel) (by decide +kernel) (qsends_quiet _)).2.2.2.1 0 (by decide +kernel) (by decide +kernel)
    (by decide +kernel)

/-- One flit waits. -/
def qalone : State := qsends fun x => { x with txq := [(7, [qflit 1 3 1])], credit := [(7, 1)], txSeq := 65535, retry := List.replicate 511 (0, qflit 1 0 0) }

theorem only_tx {s : State} {n v c : Nat} (h : ((List.range 4).all fun u => (List.range 2).all fun d => (u == v && d == c) || (s.txOf n u d).isEmpty) = true) :
    ∀ u d, u < 4 → d < 2 → u ≠ v ∨ d ≠ c → s.txOf n u d = [] := by
  intro u d hu hd hn
  have k := List.all_eq_true.mp (List.all_eq_true.mp h u (List.mem_range.mpr hu)) d (List.mem_range.mpr hd)
  rcases hn with hn | hn <;> simpa [hn] using k

theorem wit_flit_sent : Obligations.LinksTrainSteerAndFail → Completes (.flitSend 3) qalone := fun h => by
  refine done ((h qalone 3).2.2.2.2.2.2.2 3 1 (qflit 1 3 1) [] ?_ ?_ ?_ ?_ (qsends_quiet _) ?_ ?_ ?_ ?_ (only_tx ?_) ?_ ?_) <;> decide +kernel

/-- A message has arrived in its virtual channel, in class 1. -/
def qmsg (op dst rga len a0 a1 : Nat) (bs : List Byte) : QMsg :=
  { op := op, status := 0, fence := false, ce := false, ceEcho := false, tag := 8191, srcDev := 1023, srcLf := 63, dstDev := dst, dstLf := 3,
    rga := rga, len := len, arg0 := a0, arg1 := a1, data := bs }
def arrived (s : State) (m : QMsg) : State := s.modPort 3 fun x => { x with rx := [(2 * m.vc + 1, m.flits m.vc 1)] }
/-- What has arrived for another part, as the port reads it. -/
def passing (s : State) (m : QMsg) : Option (QMsg × Nat × Nat) := (arrived s m).rxHead 3 m.vc fun m' => m'.dstDev != (arrived s m).deviceId
def qhead (s : State) (m : QMsg) : QMsg × Nat × Nat := (passing s m).getD (m, 0, 0)
theorem qhead_eq {s : State} {m : QMsg} (h : (passing s m).isSome = true) : passing s m = some (qhead s m) := by
  unfold qhead; revert h; cases passing s m <;> simp

/-- Device 6 has a route by port 0, whose queue is deep; the others have none. -/
def routed (v d : Nat) : State :=
  ((qport 1 0 id).puts [(Reg.QPL_ROUTE_VALID 0 d, v), (Reg.QPL_ROUTE_PORT 0 d, 0), (Reg.QPL_CONG_CTRL_MARK_THRESH 0, 0)]).modPort 0 fun x =>
    { x with txq := [(0, [qflit 1 0 0])] }
def passes : QMsg := qmsg 0x02 6 0x1000 300 0 0 (List.replicate 300 7)

theorem wit_forward : Obligations.FlitsMoveInOrderWithCredit → Completes (.flitForward 3 0) (arrived (seamsUp (routed 1 6)) passes) := fun h => by
  refine done (((h (arrived (seamsUp (routed 1 6)) passes) 3).2.2.1 0 (qhead (seamsUp (routed 1 6)) passes).1 (qhead (seamsUp (routed 1 6)) passes).2.1
    (qhead (seamsUp (routed 1 6)) passes).2.2 (qhead_eq ?_)).1 ?_ ?_) <;> decide +kernel

theorem wit_unroutable : Obligations.FlitsMoveInOrderWithCredit → Completes (.flitForward 3 0) (arrived (routed 0 6) passes) := fun h => by
  refine done (((h (arrived (routed 0 6) passes) 3).2.2.1 0 (qhead (routed 0 6) passes).1 (qhead (routed 0 6) passes).2.1 (qhead (routed 0 6) passes).2.2
    (qhead_eq ?_)).2 ?_ ?_) <;> decide +kernel

/-- The same way with room in its queue. -/
def wayFree : State := (seamsUp (routed 1 6)).puts [(Reg.QPL_CONG_CTRL_MARK_THRESH 0, 63)]

theorem wit_passed_on : Obligations.ResponsesAndReductionsReachTheirEnds → Completes (.flitForward 3 0) (arrived wayFree passes) := fun h => by
  refine done ((h (arrived wayFree passes) 3 (qhead wayFree passes).1 (qhead wayFree passes).2.1 (qhead wayFree passes).2.2).2.2.2.1 0 (qhead_eq ?_) ?_ ?_ ?_)
    <;> decide +kernel

/-- A tag is in use, for agent 4 of context 5 of Field 3. -/
def qtag (req : QMsg) (late : Bool) : QTag :=
  { tag := 8191, req := req, user := { field := 3, agent := 4, index := 63, ctx := 5, va := 77, off := 0 }, issued := 0, bytes := 64, timedOut := late }
def tagged (req : QMsg) (late : Bool) : State :=
  (qport 1 0 fun x => { x with tags := [qtag req late], windows := [(1023, { size := 8192, halvedAt := 0 })] })

/-- Long after the request. -/
def overdue (late : Bool) : State := (tagged passes late).puts [(⟨Reg.aBRK_TIME_LO, 31, 0⟩, 2 ^ 31)]

theorem wit_resp_timeout : Obligations.FlitsMoveInOrderWithCredit → Completes (.qplResponseTimeout 3 2047) (overdue false) := fun h => by
  refine done (((h (overdue false) 3).2.2.2 2047).1 (qtag passes false) ?_ ?_ ?_ ?_) <;> decide +kernel

theorem wit_tag_release : Obligations.FlitsMoveInOrderWithCredit → Completes (.qplTagRelease 3 2047) (tagged passes true) := fun h =>
  done ((h (tagged passes true) 3).2.2.2 2047).2

theorem wit_timed_out : Obligations.ResponsesAndReductionsReachTheirEnds → Completes (.qplResponseTimeout 3 2047) (overdue false) := fun h => by
  refine done (((h (overdue false) 3 passes 0 0).2.2.2.2.1 2047 (qtag passes false) ?_).1 ?_ ?_ ?_ ?_) <;> decide +kernel

theorem wit_tag_freed : Obligations.ResponsesAndReductionsReachTheirEnds → Completes (.qplTagRelease 3 2047) (overdue true) := fun h => by
  refine done (((h (overdue true) 3 passes 0 0).2.2.2.2.1 2047 (qtag passes true) ?_).2 ?_ ?_ ?_) <;> decide +kernel

/-- The last export entry covers the last 64 KiB of the stacks, for device 1023, with every right. -/
def exports (present : Nat) : State :=
  ((seamsUp (qport 1 0 id)).puts [(Reg.XLT_EXPORT_BASE_BASE 63, (stackBytes - 65536) / 65536), (Reg.XLT_EXPORT_LEN_LEN 63, 1), (Reg.XLT_EXPORT_CFG_EN 63, 1),
    (Reg.XLT_EXPORT_CFG_PRESENT 63, present), (Reg.XLT_EXPORT_CFG_R 63, 1), (Reg.XLT_EXPORT_CFG_W 63, 1), (Reg.XLT_EXPORT_CFG_A 63, 1),
    (Reg.XLT_EXPORT_CFG_DEVICE 63, 1023), (Reg.STK_STATUS_PWR_STATE 31, 0), (Reg.STK_STATUS_READY 31, 1)])
/-- Requests for the part that end at the end of the stacks: read, write, atomic, scatter-add. -/
def rgaOf (n : Nat) : Nat := 5 * 2 ^ 41 + stackBytes - n
def qread (n : Nat) : QMsg := qmsg 0x01 5 (rgaOf n) 0 n 0 []
def qwrite : QMsg := qmsg 0x02 5 (rgaOf 4096) 4096 0 0 (List.replicate 4096 7)
def qatomic : QMsg := qmsg 0x03 5 (rgaOf 8) 8 2 1 [1, 0, 0, 0, 0, 0, 0, 0]
def qscatter : QMsg := qmsg 0x04 5 (rgaOf 128) 128 0xFFFFFFFF fmtINT32 (List.replicate 128 1)

theorem arrived_eq {s : State} {n vc op cls k : Nat} {m : QMsg} (h : s.rxHead n vc (s.takes op) = some (m, cls, k)) : s.Arrived n vc op m cls k := h

theorem wit_q_malformed : Obligations.HoldingPartsPerformRequests → Completes (.qplRead 3) (arrived (exports 1) (qread 32)) := fun h => by
  refine done ((h (arrived (exports 1) (qread 32)) 3 (qread 32) 1 1).1 (.qplRead 3, 0x01, .read) ?_ (arrived_eq ?_) ?_ 4 ?_) <;> decide +kernel

theorem wit_q_refused : Obligations.HoldingPartsPerformRequests → Completes (.qplWrite 3) (arrived (routed 0 6) qwrite) := fun h => by
  refine done ((h (arrived (routed 0 6) qwrite) 3 qwrite 1 18).1 (.qplWrite 3, 0x02, .write) ?_ (arrived_eq ?_) ?_ 2 ?_) <;> decide +kernel

theorem wit_q_absent : Obligations.HoldingPartsPerformRequests → Completes (.qplAtomic 3) (arrived (exports 0) qatomic) := fun h => by
  refine done ((h (arrived (exports 0) qatomic) 3 qatomic 1 1).1 (.qplAtomic 3, 0x03, .atomic) ?_ (arrived_eq ?_) ?_ 1 ?_) <;> decide +kernel

theorem wit_q_read : Obligations.HoldingPartsPerformRequests → Completes (.qplRead 3) (arrived (exports 1) (qread 4096)) := fun h => by
  refine done ((h (arrived (exports 1) (qread 4096)) 3 (qread 4096) 1 1).2.1.1 (arrived_eq ?_) ?_) <;> decide +kernel

theorem wit_q_write : Obligations.HoldingPartsPerformRequests → Completes (.qplWrite 3) (arrived (exports 1) qwrite) := fun h => by
  refine done ((h (arrived (exports 1) qwrite) 3 qwrite 1 18).2.1.2.1 (arrived_eq ?_) ?_) <;> decide +kernel

theorem wit_q_atomic : Obligations.HoldingPartsPerformRequests → Completes (.qplAtomic 3) (arrived (exports 1) qatomic) := fun h => by
  refine done ((h (arrived (exports 1) qatomic) 3 qatomic 1 1).2.1.2.2.1 (arrived_eq ?_) ?_) <;> decide +kernel

theorem wit_q_scatter : Obligations.HoldingPartsPerformRequests → Completes (.qplScatterAdd 3) (arrived (exports 1) qscatter) := fun h => by
  refine done ((h (arrived (exports 1) qscatter) 3 qscatter 1 1).2.1.2.2.2 (arrived_eq ?_) ?_) <;> decide +kernel

/-- A receiver endpoint whose sender is on another part. -/
def rxFar : RxChan := { rxIdle with remote := true }

/-- A record of 32 bytes for channel 31 of Field 3, of the last generation, whose place is the last of the ring. -/
def record : QMsg := qmsg 0x05 5 0 32 (31 + 2047 * 32) 0 (List.replicate 32 9)
def qchannel (gen : Nat) : State :=
  (channel ((qport 1 0 id).setReg (Reg.aFLD_FM_BANK_STATE 3 0) 0) rxFar txIdle 4064 4064 0).puts
    [(Reg.FLD_CH_RX_STATE_GEN 3 31, gen)]

theorem wit_q_stale : Obligations.HoldingPartsPerformRequests → Completes (.msg 3) (arrived (qchannel 0) record) := fun h => by
  refine done (((h (arrived (qchannel 0) record) 3 record 1 1).2.2.1 3 rxFar (arrived_eq ?_) ?_ ?_ ?_ ?_ ?_).1 ?_) <;> decide +kernel

theorem wit_q_msg : Obligations.HoldingPartsPerformRequests → Completes (.msg 3) (arrived (qchannel 2047) record) := fun h => by
  refine done (((h (arrived (qchannel 2047) record) 3 record 1 1).2.2.1 3 rxFar (arrived_eq ?_) ?_ ?_ ?_ ?_ ?_).2 ?_ ?_ ?_ ?_ ?_ ?_ ?_ ?_ ?_ ?_
    ?_) <;> decide +kernel

/-- An arrival of 2 at hurdle 255 of Field 3, which expects 7 and holds 5. -/
def arrival : QMsg := qmsg 0x06 5 0 0 (255 * 65536 + 65535) 2 []
def qhurdle (gen : Nat) : State :=
  (seamsUp (qport 1 0 id)).puts [(Reg.FLD_HRD_STATE_EN 3 255, 1), (Reg.FLD_HRD_CFG_GEN 3 255, gen), (Reg.FLD_HRD_CFG_EXPECTED 3 255, 7),
    (Reg.FLD_HRD_STATE_COUNT 3 255, 5), (Reg.FLD_HRD_STATE_OWNER 3 255, 5)]

theorem wit_q_arrive : Obligations.HoldingPartsPerformRequests → Completes (.hurdleArrive 3) (arrived (qhurdle 65535) arrival) := fun h => by
  refine done (((h (arrived (qhurdle 65535) arrival) 3 arrival 1 1).2.2.2.1 3 (arrived_eq ?_) ?_ ?_ ?_ ?_ ?_).1 ?_ ?_ ?_) <;> decide +kernel

theorem wit_q_arrive_refused : Obligations.HoldingPartsPerformRequests → Completes (.hurdleArrive 3) (arrived (qhurdle 1) arrival) := fun h => by
  refine done (((h (arrived (qhurdle 1) arrival) 3 arrival 1 1).2.2.2.1 3 (arrived_eq ?_) ?_ ?_ ?_ ?_ ?_).2 ?_) <;> decide +kernel

/-- Credit for endpoint 31 of Field 3. -/
def creditIn : QMsg := qmsg 0x88 5 0 0 (31 * 65536 + 31 + 32) 4064 []
def qsender : State := (seamsUp (qport 1 0 id)).setTx 3 31 txFar

theorem wit_q_credit : Obligations.HoldingPartsPerformRequests → Completes (.chCredit 3) (arrived qsender creditIn) := fun h => by
  refine done ((h (arrived (qsender) creditIn) 3 creditIn 1 1).2.2.2.2 3 txFar (arrived_eq ?_) ?_ ?_ ?_ ?_ ?_ ?_) <;> decide +kernel

/-- A tag in use for a request to device 1023. -/
def qtagFar (late : Bool) : QTag := qtag { passes with dstDev := 1023 } late

/-- The answer to a request, with the congestion echo or without. -/
def answer1 (op : Nat) (echo : Bool) : QMsg := { qmsg op 5 0 0 0 7 [] with ceEcho := echo }
def asked (late : Bool) : State := (tagged { passes with dstDev := 1023 } late).puts [(⟨Reg.aBRK_TIME_LO, 31, 0⟩, 9)]

theorem wit_q_late : Obligations.ResponsesAndReductionsReachTheirEnds → Completes (.wrAck 3) (arrived (asked true) (answer1 0x82 false)) := fun h => by
  refine done ((h (arrived (asked true) (answer1 0x82 false)) 3 (answer1 0x82 false) 1 1).1 (.wrAck 3, 1, 0x82) ?_ 3 (qtagFar true) (arrived_eq ?_) ?_ ?_ ?_) <;> decide +kernel

theorem wit_q_answer : Obligations.ResponsesAndReductionsReachTheirEnds → Completes (.rdData 3) (arrived (asked false) (answer1 0x81 false)) := fun h => by
  refine done (((h (arrived (asked false) (answer1 0x81 false)) 3 (answer1 0x81 false) 1 1).2.1 3 (qtagFar false) ?_ ?_ ?_ ?_ ?_).1 (arrived_eq ?_))
    <;> decide +kernel

theorem wit_q_wrAck : Obligations.ResponsesAndReductionsReachTheirEnds → Completes (.wrAck 3) (arrived (asked false) (answer1 0x82 false)) := fun h => by
  refine done (((h (arrived (asked false) (answer1 0x82 false)) 3 (answer1 0x82 false) 1 1).2.1 3 (qtagFar false) ?_ ?_ ?_ ?_ ?_).2.1 (arrived_eq ?_)) <;> decide +kernel

theorem wit_q_atData : Obligations.ResponsesAndReductionsReachTheirEnds → Completes (.atData 3) (arrived (asked false) (answer1 0x83 false)) := fun h => by
  refine done (((h (arrived (asked false) (answer1 0x83 false)) 3 (answer1 0x83 false) 1 1).2.1 3 (qtagFar false) ?_ ?_ ?_ ?_ ?_).2.2.1 (arrived_eq ?_)) <;> decide +kernel

theorem wit_q_saAck : Obligations.ResponsesAndReductionsReachTheirEnds → Completes (.saAck 3) (arrived (asked false) (answer1 0x84 false)) := fun h => by
  refine done (((h (arrived (asked false) (answer1 0x84 false)) 3 (answer1 0x84 false) 1 1).2.1 3 (qtagFar false) ?_ ?_ ?_ ?_ ?_).2.2.2.1 (arrived_eq ?_)) <;> decide +kernel

theorem wit_q_msgAck : Obligations.ResponsesAndReductionsReachTheirEnds → Completes (.msgAck 3) (arrived (asked false) (answer1 0x85 false)) := fun h => by
  refine done (((h (arrived (asked false) (answer1 0x85 false)) 3 (answer1 0x85 false) 1 1).2.1 3 (qtagFar false) ?_ ?_ ?_ ?_ ?_).2.2.2.2.1 (arrived_eq ?_)) <;> decide +kernel

theorem wit_q_haAck : Obligations.ResponsesAndReductionsReachTheirEnds → Completes (.haAck 3) (arrived (asked false) (answer1 0x86 false)) := fun h => by
  refine done (((h (arrived (asked false) (answer1 0x86 false)) 3 (answer1 0x86 false) 1 1).2.1 3 (qtagFar false) ?_ ?_ ?_ ?_ ?_).2.2.2.2.2.1 (arrived_eq ?_)) <;> decide +kernel

theorem wit_q_pong : Obligations.ResponsesAndReductionsReachTheirEnds → Completes (.pong 3) (arrived (asked false) (answer1 0xC0 true)) := fun h => by
  refine done (((h (arrived (asked false) (answer1 0xC0 true)) 3 (answer1 0xC0 true) 1 1).2.1 3 (qtagFar false) ?_ ?_ ?_ ?_ ?_).2.2.2.2.2.2 (arrived_eq ?_)) <;> decide +kernel

theorem wit_q_ping : Obligations.ResponsesAndReductionsReachTheirEnds → Completes (.ping 3) (arrived (asked false) (answer1 0x40 true)) := fun h => by
  refine done ((h (arrived (asked false) (answer1 0x40 true)) 3 (answer1 0x40 true) 1 1).2.2.1 (arrived_eq ?_) ?_ ?_) <;> decide +kernel

/-- An operand of side 1 for node 63 of tree 65535, in INT32, one element and its clamp map. -/
def operand : QMsg := qmsg 0x07 5 0 20 (65535 + 63 * 2 ^ 16 + 2 ^ 22 + 15 * 2 ^ 23 + fmtINT32 * 2 ^ 27) (2 ^ 32 + 64) (List.replicate 20 1)
def nodes (os : List QOperand) : State :=
  (seamsUp (qport 1 0 fun x => { x with operands := os })).puts [(Reg.QPL_RNODE_CFG_EN 3 63, 1), (Reg.QPL_RNODE_KEY_TREE 3 63, 65535),
    (Reg.QPL_RNODE_KEY_NODE 3 63, 63), (Reg.QPL_RNODE_CFG_GEN 3 63, 15), (Reg.QPL_RNODE_CFG_FMT 3 63, fmtINT32), (Reg.QPL_RNODE_DEST_DEVICE 3 63, 6),
    (Reg.QPL_ROUTE_VALID 0 6, 1)]
def partner : QOperand :=
  { tree := 65535, node := 63, side := 0, fmt := fmtINT32, off := 64, count := 1, data := List.replicate 20 2, spilled := none }

theorem wit_reduce_first : Obligations.ResponsesAndReductionsReachTheirEnds → Completes (.reduce 3) (arrived (nodes []) operand) := fun h => by
  refine done (((h (arrived (nodes []) operand) 3 operand 1 1).2.2.2.2.2 63 ?_ (arrived_eq ?_) ?_ ?_ ?_ ?_ ?_).1 ?_ ?_) <;> decide +kernel

theorem wit_reduce : Obligations.ResponsesAndReductionsReachTheirEnds → Completes (.reduce 3) (arrived (nodes [partner]) operand) := fun h => by
  refine done (((h (arrived (nodes [partner]) operand) 3 operand 1 1).2.2.2.2.2 63 ?_ (arrived_eq ?_) ?_ ?_ ?_ ?_ ?_).2 partner 6 ?_ ?_ ?_ ?_ ?_ ?_ ?_ ?_)
    <;> decide +kernel

/-! Contexts, and the Ethernet port. -/

theorem wit_deschedule : Obligations.ContextsLoadAndLeaveAndAreCharged → Completes (.contextDeschedule 5) run := fun h =>
  done (((h run).1 5).2.1 (by decide +kernel) (by decide +kernel) (by decide +kernel))

theorem wit_deschedule_idle : Obligations.ContextsLoadAndLeaveAndAreCharged → Completes (.contextDeschedule 63) run := fun h =>
  done (((h run).1 63).2.2.1 (.inl (by decide +kernel)))

/-- A region of context 5 is under reconfiguration, or none is. -/
def regionOf (s : State) (region : Option RegionRun) : State := s.modField 3 fun f => { f with grid := { f.grid with region := region } }
def regionOn : Option RegionRun := some { slot := 1, rcd := [], started := true, seals := [], gone := 0 }

theorem wit_deschedule_region : Obligations.ContextsLoadAndLeaveAndAreCharged → Completes (.contextDeschedule 5) (regionOf run regionOn) := fun h =>
  done (((h (regionOf run regionOn)).1 5).1 (by decide +kernel) (by decide +kernel) (by decide +kernel))

/-- Context 5 has been told to stop. -/
def descheduled (region : Option RegionRun) : State :=
  regionOf ((run.modCtx 5 fun x => { x with desched := true }).puts [(Reg.FLD_CTX_MAP_SCHED 3 1, 0)]) region

theorem wit_descheduled : Obligations.ContextsLoadAndLeaveAndAreCharged → Completes (.contextDescheduled 5) (descheduled none) := fun h => by
  refine done (((h (descheduled none)).1 5).2.2.2.1 ?_ ?_ ?_ ?_) <;> decide +kernel

theorem wit_desched_region : Obligations.ContextsLoadAndLeaveAndAreCharged → Completes (.contextDescheduled 5) (descheduled regionOn) := fun h =>
  done (((h (descheduled regionOn)).1 5).2.2.2.2.1 (by decide +kernel))

/-- The image in force declares context 63. -/
def loads63 (part : Fin 16) : State :=
  { base with nv := { base.nv with slots := [(3, { state := 3, version := 1, len := 0, hash := 0, ok := true, ctxs := [(63, image63)] })],
                                   record := { DeployRec.none with ctxs := [(63, part)] } } }

theorem wit_ctx_load : Obligations.ContextsLoadAndLeaveAndAreCharged → Completes (.contextLoad 63) (loads63 15) := fun h => by
  have g := ((h (loads63 15)).1 63).2.2.2.2.2 image63 (by decide +kernel)
  rw [if_pos (by decide +kernel)] at g
  exact done g

theorem wit_ctx_load_not : Obligations.ContextsLoadAndLeaveAndAreCharged → Completes (.contextLoad 63) (loads63 14) := fun h => by
  have g := ((h (loads63 14)).1 63).2.2.2.2.2 image63 (by decide +kernel)
  rw [if_neg (by decide +kernel)] at g
  exact done g

theorem wit_ctx_map : Obligations.ContextsLoadAndLeaveAndAreCharged → Completes (.ctxMapWrite 3 3 0x7FF) run := fun h =>
  done (((h run).2 3).1 3 0x7FF).1

theorem wit_ctx_map_clear : Obligations.ContextsLoadAndLeaveAndAreCharged → Completes (.ctxMapWrite 3 1 0) run := fun h =>
  done ((((h run).2 3).1 1 0).2 (by decide +kernel) (by decide +kernel))

/-- Partition 2 has so many busy steps of Field 3 that are not yet charged. -/
def busy (n : Nat) : State := { run with srv := { run.srv with rem := [(16 * 3 + 2, n)] } }

theorem wit_busy_less : Obligations.ContextsLoadAndLeaveAndAreCharged → Completes (.busyCharge 3 2) (busy 62) := fun h =>
  done ((((h (busy 62)).2 3).2.1 2 2).1 (by decide +kernel))

theorem wit_busy_unit : Obligations.ContextsLoadAndLeaveAndAreCharged → Completes (.busyCharge 3 15) (busy 63) := fun h =>
  done ((((h (busy 63)).2 3).2.1 15 2).1 (by decide +kernel))

theorem wit_busy_none : Obligations.ContextsLoadAndLeaveAndAreCharged → Completes (.busyCharge 3 13) (busy 63) := fun h =>
  done ((((h (busy 63)).2 3).2.1 13 2).2 (by decide +kernel))

theorem wit_refill : Obligations.ContextsLoadAndLeaveAndAreCharged → Completes (.bucketRefill 71 7) run := fun h =>
  done (((h run).2 71).2.2 7)

/-- The Ethernet port is enabled; its link as given. -/
def ethAt (up rate : Nat) : State :=
  base.puts [(Reg.ETH_PORT_CTRL_EN, 1), (Reg.ETH_PORT_STATUS_LINK_UP, up), (Reg.ETH_PORT_STATUS_RATE, rate), (Reg.ETH_PORT_STATUS_LANE_FAILED, 0),
    (Reg.ETH_PORT_CTRL_MACSEC_EN, 0), (Reg.ETH_PORT_CTRL_UNTAGGED_EN, 1), (Reg.ETH_ADMIT_EN 63, 1), (Reg.ETH_ADMIT_VLAN 63, 4094)]

theorem wit_eth_up : Obligations.TheEthernetPortTrainsAndCarriesFrames → Completes (.ethLinkUp 0x80 false) (ethAt 0 0) := fun h => by
  refine done (((h (ethAt 0 0)).1 0x80 false ?_).1 ?_) <;> decide +kernel

theorem wit_retry_800 : Obligations.TheEthernetPortTrainsAndCarriesFrames → Completes (.retry800 0) (ethAt 1 2) := fun h => by
  refine done (((h (ethAt 1 2)).1 0 false ?_).2 ?_ ?_) <;> decide +kernel

theorem wit_eth_fallback : Obligations.TheEthernetPortTrainsAndCarriesFrames → Completes (.ethFallback 7) (ethAt 1 3) := fun h =>
  done ((h (ethAt 1 3)).2.1 7 (by decide +kernel))

theorem wit_eth_other_group : Obligations.TheEthernetPortTrainsAndCarriesFrames → Completes (.ethFallback 4) (ethAt 1 1) := fun h =>
  done ((h (ethAt 1 1)).2.1 4 (by decide +kernel))

theorem wit_eth_down : Obligations.TheEthernetPortTrainsAndCarriesFrames → Completes .ethLinkDown (ethAt 1 3) := fun h =>
  done ((h (ethAt 1 3)).2.2.1 (by decide +kernel))

/-- A frame of a peer for the part's addresses, in VLAN 4094 with priority 7. -/
def frame (len : Nat) (b : NetBody) : EthFrame :=
  { len := len, fcsOk := true, dst := 0, src := 0x020000000001, tags := [(4094, 7)], sec := none,
    ip := some { v6 := false, src := 1, dst := 0, frag := false, ecn := 0 }, body := b }

theorem wit_frame_short : Obligations.TheEthernetPortTrainsAndCarriesFrames → Completes (.frameReceive (frame 63 (.arp 0))) (ethAt 1 3) := fun h =>
  done (((h (ethAt 1 3)).2.2.2.1 (frame 63 (.arp 0)) (by decide +kernel)).1 (by decide +kernel) (by decide +kernel) (by decide +kernel))

theorem wit_frame : Obligations.TheEthernetPortTrainsAndCarriesFrames → Completes (.frameReceive (frame 9216 (.echo [1]))) (ethAt 1 3) := fun h => by
  refine done (((h (ethAt 1 3)).2.2.2.1 (frame 9216 (.echo [1])) ?_).2.1 ?_ ?_ ?_ ?_) <;> decide +kernel

theorem wit_frame_other : Obligations.TheEthernetPortTrainsAndCarriesFrames → Completes (.frameReceive (frame 64 (.udp 0 1 []))) (ethAt 1 3) := fun h => by
  refine done (((h (ethAt 1 3)).2.2.2.1 (frame 64 (.udp 0 1 [])) ?_).2.2.1 ?_ ?_ ?_) <;> decide +kernel

/-- Frames wait: one whose priority is paused, then another. -/
def txFrame (pcp : Nat) : TxFrame := { dst := framePeer (frame 64 (.arp 0)) 0, pcp := pcp, ect := false, body := .arpReply 0, sec := none }
def ethSends (xs : List TxFrame) : State := { ethAt 1 3 with eth := { EthState.reset with pausedTx := 128, txq := xs } }

theorem wit_send_paused : Obligations.TheEthernetPortTrainsAndCarriesFrames → Completes .frameSend (ethSends [txFrame 7]) := fun h =>
  done (((h (ethSends [txFrame 7])).2.2.2.2.1 (by decide +kernel)).1 (by decide +kernel))

theorem wit_send_plain : Obligations.TheEthernetPortTrainsAndCarriesFrames → Completes .frameSend (ethSends [txFrame 7, txFrame 6]) := fun h =>
  done ((((h (ethSends [txFrame 7, txFrame 6])).2.2.2.2.1 (by decide +kernel)).2 [txFrame 7] [] (txFrame 6) (by decide +kernel) (by decide +kernel) (by decide +kernel)).1 (.inl (by decide +kernel)))

/-- MACsec is on, with association 3 for what is sent. -/
def macSa : MacSa := { chan := 0, an := 3, xpn := false, sci := 1, pn := 0xBFFFFFFF, ssci := 0, salt := 0, sak := 9 }
def ethSecure : State :=
  ({ ethAt 1 3 with eth := { EthState.reset with pausedTx := 128, txq := [txFrame 7, txFrame 6], sas := [macSa], txAn := some 3 } }).puts
    [(Reg.ETH_PORT_CTRL_MACSEC_EN, 1)]

theorem wit_send_macsec : Obligations.TheEthernetPortTrainsAndCarriesFrames → Completes .frameSend ethSecure := fun h =>
  done ((((h ethSecure).2.2.2.2.1 (by decide +kernel)).2 [txFrame 7] [] (txFrame 6) (by decide +kernel) (by decide +kernel) (by decide +kernel)).2 macSa (by decide +kernel) (fun _ _ e => by cases e) (by decide +kernel) (by decide +kernel))

/-- A TELEMETRY datagram with record 2 of the buffer waits. -/
def telWaits : State :=
  { ethSends [{ txFrame 6 with body := .udp 4791 [9] }] with
    tel := { base.tel with out := [([9], [2])],
                           buffer := [{ seq := 2, off := 0, len := 32, rank := 3, slot := none, exported := false,
                                        rcd := { cls := 2, level := 3, source := 0, stamp := 0, code := 7, ctx := none, part := none, count := 1, body := .none } }] } }

theorem wit_send_export : Obligations.TheEthernetPortTrainsAndCarriesFrames → ∃ t, exec .frameSend telWaits = .next t ∧ t.tel.buffer.all (·.exported) = true := fun h => by
  obtain ⟨t, e, g⟩ := (((h telWaits).2.2.2.2.1 (by decide +kernel)).2 [] [] { txFrame 6 with body := .udp 4791 [9] } (by decide +kernel)
    (by decide +kernel) (by decide +kernel)).1 (.inl (by decide +kernel))
  exact ⟨t, e, by rw [g.2.2.2.2.2 4791 [9] ([9], [2]) rfl (by decide +kernel)]; decide +kernel⟩

theorem wit_pfc : Obligations.TheEthernetPortTrainsAndCarriesFrames → Completes (.pfcFrame 1 128 none) (ethSends []) := fun h =>
  done (((h (ethSends [])).2.2.2.2.2 1 128 none (by decide +kernel)).1 (by decide +kernel))

theorem wit_pfc_unprotected : Obligations.TheEthernetPortTrainsAndCarriesFrames → Completes (.pfcFrame 1 128 none) ethSecure := fun h =>
  done (((h ethSecure).2.2.2.2.2 1 128 none (by decide +kernel)).2 (by decide +kernel) rfl)

/-- Frames have been received, and queue pair 0xFFFFFF exists: it sends into channel 31 of Field 3. -/
def qp1 : QueuePair :=
  { mtu := 4096, remote := 1, sendPsn := 0, recvPsn := 0xFFFFFF, peer := framePeer (frame 64 (.arp 0)) 4791, part := 2, lfield := 3, rx := 31, gen := 0,
    seq16 := 65535, cnpAt := none, alpha := 1, rate := 800000, target := 800000, periods := 0 }
def netIn (s : State) (fs : List EthFrame) : State := { s with eth := { EthState.reset with rxq := fs, qps := [(0xFFFFFF, qp1)] } }

theorem wit_arp : Obligations.TheNetworkPortAnswers → Completes .arpRequest (netIn (ethAt 1 3) [frame 64 (.arp 0)]) := fun h => by
  refine done (((h (netIn (ethAt 1 3) [frame 64 (.arp 0)])).1 (frame 64 (.arp 0))).1 0 rfl rfl)

theorem wit_arp_other : Obligations.TheNetworkPortAnswers → Completes .arpRequest (netIn (ethAt 1 3) [frame 64 (.arp 1)]) := fun h => by
  refine done (((h (netIn (ethAt 1 3) [frame 64 (.arp 1)])).1 (frame 64 (.arp 1))).1 1 rfl rfl)

theorem wit_neighbour : Obligations.TheNetworkPortAnswers → Completes .neighbourSolicitation (netIn (ethAt 1 3) [frame 64 (.neighbour 0)]) := fun h => by
  refine done (((h (netIn (ethAt 1 3) [frame 64 (.neighbour 0)])).1 (frame 64 (.neighbour 0))).2.1 0 rfl rfl)

theorem wit_neighbour_other : Obligations.TheNetworkPortAnswers → Completes (.neighbourSolicitation) (netIn (ethAt 1 3) [frame 64 (.neighbour 1)]) := fun h => by
  refine done (((h (netIn (ethAt 1 3) [frame 64 (.neighbour 1)])).1 (frame 64 (.neighbour 1))).2.1 1 rfl rfl)

theorem wit_echo : Obligations.TheNetworkPortAnswers → Completes .echoRequest (netIn (ethAt 1 3) [frame 64 (.echo [7])]) := fun h => by
  refine done (((h (netIn (ethAt 1 3) [frame 64 (.echo [7])])).1 (frame 64 (.echo [7]))).2.2 [7] rfl rfl)

/-- A RoCEv2 packet for the queue pair, of the number it expects. -/
def roce (op : RoceOp) (va len : Nat) (data : List Byte) : RocePkt :=
  { rc := true, op := op, qp := 0xFFFFFF, psn := 0xFFFFFF, va := va, rkey := 63 + 128 * 0x1FFFFFF, len := len, imm := none, data := data }
def roceIn (s : State) (k : RocePkt) : State := netIn s [frame 64 (.roce k)]

/-- Sixteen READs of the queue pair wait. -/
def readsWait : State := netIn (ethAt 1 3) (List.replicate 16 (frame 64 (.roce (roce .read 0 64 []))))

theorem wit_read_17 : Obligations.TheEthernetPortTrainsAndCarriesFrames → Completes (.frameReceive (frame 64 (.roce (roce .read 0 64 [])))) readsWait := fun h => by
  refine done (((h readsWait).2.2.2.1 (frame 64 (.roce (roce .read 0 64 []))) ?_).2.2.2 (roce .read 0 64 []) qp1 ?_ ?_ ?_ ?_ ?_ ?_ ?_) <;> decide +kernel

theorem wit_cnp : Obligations.TheNetworkPortAnswers → Completes .cnpReceive (roceIn (ethAt 1 3) (roce .cnp 0 0 [])) := fun h =>
  done ((h (roceIn (ethAt 1 3) (roce .cnp 0 0 []))).2.1 (frame 64 (.roce (roce .cnp 0 0 []))) (roce .cnp 0 0 []) qp1 rfl rfl rfl)

theorem wit_dcqcn : Obligations.TheNetworkPortAnswers → Completes (.dcqcnRateRecovery 0xFFFFFF) (netIn (ethAt 1 3) []) := fun h =>
  done ((h (netIn (ethAt 1 3) [])).2.2.1 0xFFFFFF qp1 rfl)

/-- Window 63 is the last 64 KiB of the stacks, which are all ready. -/
def windowed (r w : Nat) : State :=
  (seamsUp (ethAt 1 3)).puts ([(Reg.ETH_ROCE_WIN_CFG_EN 63, 1), (Reg.ETH_ROCE_WIN_CFG_KEY 63, 0x1FFFFFF), (Reg.ETH_ROCE_WIN_CFG_R 63, r),
    (Reg.ETH_ROCE_WIN_CFG_W 63, w), (Reg.ETH_ROCE_WIN_CFG_PARTITION 63, 2), (Reg.ETH_ROCE_WIN_LEN_LEN 63, 1), (Reg.ETH_ROCE_WIN_DEV_DEVICE 63, 5),
    (Reg.ETH_ROCE_WIN_BASE_OFFSET 63, (stackBytes - 65536) / 65536)] ++
    (List.range 32).flatMap fun k => [(Reg.STK_STATUS_PWR_STATE k, 0), (Reg.STK_STATUS_READY k, 1)])
def reads : RocePkt := roce .read 65472 64 []
def writes : RocePkt := roce .write 65533 3 [1, 2, 3]

theorem roce_in (s : State) (k : RocePkt) (op : RoceOp) (ho : k.op = op) (hq : k.qp = 0xFFFFFF) (hp : k.psn = 0xFFFFFF) (hc : op ≠ .cnp) :
    (roceIn s k).RoceIn op k qp1 := by
  refine ⟨⟨frame 64 (.roce k), ?_, rfl⟩, ?_, ho, hp⟩
  · simp [roceIn, netIn, roceHead, frame, ho, hc]
  · simp [roceIn, netIn, State.qp, hq]

theorem wit_rdma_refused : Obligations.TheNetworkPortAnswers → Completes .rdmaWrite (roceIn (windowed 1 0) writes) := fun h => by
  refine done (((h (roceIn (windowed 1 0) writes)).2.2.2.1 writes qp1).1 (roce_in _ _ _ rfl rfl rfl ?_) ?_) <;> decide +kernel

theorem wit_rdma_read_refused : Obligations.TheNetworkPortAnswers → Completes (.rdmaRead) (roceIn (windowed 0 1) reads) := fun h => by
  refine done (((h (roceIn (windowed 0 1) reads)).2.2.2.1 reads qp1).2.1 (roce_in _ _ _ rfl rfl rfl ?_) ?_) <;> decide +kernel

theorem wit_rdma_write : Obligations.TheNetworkPortAnswers → Completes .rdmaWrite (roceIn (windowed 0 1) writes) := fun h => by
  refine done ((((h (roceIn (windowed 0 1) writes)).2.2.2.1 writes qp1).2.2 63 ?_ ?_ ?_ ?_ ?_ ?_).1 (roce_in _ _ _ rfl rfl rfl ?_) ?_ ?_ ?_ ?_)
    <;> decide +kernel

theorem wit_rdma_read : Obligations.TheNetworkPortAnswers → Completes .rdmaRead (roceIn (windowed 1 0) reads) := fun h => by
  refine done ((((h (roceIn (windowed 1 0) reads)).2.2.2.1 reads qp1).2.2 63 ?_ ?_ ?_ ?_ ?_ ?_).2 (roce_in _ _ _ rfl rfl rfl ?_) ?_ ?_)
    <;> decide +kernel

/-- Channel 31 of Field 3 takes what the queue pair sends; as given. -/
def roceChan (r : RxChan) (w rp : Nat) : State :=
  (channel (withCtx base 3 1 5) r txIdle w rp 0).setReg (Reg.aFLD_FM_BANK_STATE 3 0) 0
def sends : RocePkt := roce .send 0 16 (List.replicate 16 1)

theorem wit_rdma_rnr : Obligations.TheNetworkPortAnswers → Completes .rdmaSend (roceIn (roceChan { rxIdle with limit := 31 } 0 0) sends) := fun h => by
  refine done (((h (roceIn (roceChan { rxIdle with limit := 31 } 0 0) sends)).2.2.2.2 sends qp1 3 { rxIdle with limit := 31 } (roce_in _ _ _ rfl
    rfl rfl ?_) ?_ ?_ ?_ ?_ ?_ ?_ ?_ ?_ ?_ ?_ ?_).1 ?_) <;> decide +kernel

theorem wit_rdma_send : Obligations.TheNetworkPortAnswers → Completes .rdmaSend (roceIn (roceChan rxIdle 4064 4064) sends) := fun h => by
  refine done (((h (roceIn (roceChan rxIdle 4064 4064) sends)).2.2.2.2 sends qp1 3 rxIdle (roce_in _ _ _ rfl rfl rfl ?_) ?_ ?_ ?_ ?_ ?_ ?_ ?_ ?_ ?_
    ?_ ?_).2 ?_ ?_ ?_ ?_ ?_) <;> decide +kernel

/-! CSP requests. -/

/-- The port serves partition 2: context 5 holds model 7, whose inputs may be 100 long, and VLAN 4094 is admitted. -/
def model7 : CtxLoad :=
  { decl := { part := 2, model := 7, fields := [(3, 1)], gang := [], pairs := [], lenShape := 15, input := (0, 0), demand := [], copies := [],
              fmCopies := [], silt := [], variants := [{ shapes := List.replicate 16 100, legs := [], macros := [], outMax := 64, phases := [] }] },
    group := none, root := 0, regs := [], muZero := [], stackZero := [], legs := [], blocks := [], stackData := [], trees := [] }
def serving (exists' on max : Nat) (rs : List Request) (e : EthState) : State :=
  { (run.puts [(Reg.SCH_PART_CFG_EXISTS 2, exists'), (Reg.SCH_PART_CFG_SERVING 2, on), (Reg.ETH_CSP_CTRL_QUEUE_MAX, max), (Reg.ETH_ADMIT_EN 63, 1),
      (Reg.ETH_ADMIT_VLAN 63, 4094), (Reg.ETH_ADMIT_PART_MASK 63, 4), (⟨Reg.aBRK_TIME_LO, 31, 0⟩, 1966080)]) with
    srv := { run.srv with reqs := rs, orders := 9, ctxs := [(5, { CtxServe.reset with load := some model7 })], bufSize := [(2, 384)] }
    eth := e }
def udp (d : List Byte) : EthFrame := frame 1518 (.udp 49152 4790 d)
def received1 (d : List Byte) (rs : List Reasm) : State := serving 1 1 1 [] { EthState.reset with rxq := [udp d], reasm := rs }

theorem wit_csp_drop : Obligations.RequestsAreReassembledAdmittedAndKept → Completes .cspDatagram (received1 (List.replicate 32 0) []) := fun h =>
  done (((h (received1 (List.replicate 32 0) [])).1 (udp (List.replicate 32 0)) 49152 4790 (List.replicate 32 0) (by decide +kernel) (by decide +kernel)).1 (by decide +kernel) (by decide +kernel) (by decide +kernel))

/-- A header of a SUBMIT of so many bytes, and its datagram. -/
def cspH (len frag frags : Nat) : CspHead :=
  { typ := 1, flags := 0, status := 0, len := len, part := 2, frag := frag, frags := frags, id := 2 ^ 64 - 1, stream := 0 }
def cspD (len frag frags n : Nat) : List Byte := (cspH len frag frags).datagram (List.replicate n 1)

theorem wit_csp_bad : Obligations.RequestsAreReassembledAdmittedAndKept → Completes .cspDatagram (received1 (cspD 40 0 1 39) []) := fun h => by
  refine done ((((h (received1 (cspD 40 0 1 39) [])).1 (udp (cspD 40 0 1 39)) 49152 4790 (cspD 40 0 1 39) ?_ ?_).2 (cspH 40 0 1) (List.replicate 39
    1) ?_ ?_ ?_ ?_ ?_ ?_).2.1 ?_ ?_) <;> decide +kernel

theorem wit_csp_whole : Obligations.RequestsAreReassembledAdmittedAndKept → Completes .cspDatagram (received1 (cspD 40 0 1 40) []) := fun h => by
  refine done (((((h (received1 (cspD 40 0 1 40) [])).1 (udp (cspD 40 0 1 40)) 49152 4790 (cspD 40 0 1 40) ?_ ?_).2 (cspH 40 0 1) (List.replicate
    40 1) ?_ ?_ ?_ ?_ ?_ ?_).2.2 ?_ ?_).1 ?_ ?_ ?_) <;> decide +kernel

theorem wit_csp_fragment : Obligations.RequestsAreReassembledAdmittedAndKept → Completes .cspDatagram (received1 (cspD 8200 1 2 8) []) := fun h => by
  refine done (((((h (received1 (cspD 8200 1 2 8) [])).1 (udp (cspD 8200 1 2 8)) 49152 4790 (cspD 8200 1 2 8) ?_ ?_).2 (cspH 8200 1 2)
    (List.replicate 8 1) ?_ ?_ ?_ ?_ ?_ ?_).2.2 ?_ ?_).2 ?_) <;> decide +kernel

/-- A CANCEL with the same number is being put together. -/
def otherOpen : Reasm :=
  { src := framePeer (udp (cspD 8200 1 2 8)) 49152, typ := 2, flags := 0, part := 2, id := 2 ^ 64 - 1, status := 0, len := 8200, count := 2, frags := [], at' := 0 }

theorem wit_csp_other : Obligations.RequestsAreReassembledAdmittedAndKept → Completes .cspDatagram (received1 (cspD 8200 1 2 8) [otherOpen]) := fun h => by
  refine done ((((h (received1 (cspD 8200 1 2 8) [otherOpen])).1 (udp (cspD 8200 1 2 8)) 49152 4790 (cspD 8200 1 2 8) ?_ ?_).2 (cspH 8200 1 2)
    (List.replicate 8 1) ?_ ?_ ?_ ?_ ?_ ?_).1 ?_ ?_ ?_) <;> decide +kernel

theorem wit_reassembly : Obligations.RequestsAreReassembledAdmittedAndKept → Completes .reassemblyTimeout (received1 [] []) := fun h =>
  done (h (received1 [] [])).2.1

/-- A message of the peer waits. -/
def peer : Peer := framePeer (frame 64 (.arp 0)) 49152
def message (typ : Nat) (body : List Byte) : CspMsg := { src := peer, typ := typ, flags := 2, part := 2, id := 2 ^ 64 - 1, body := body }
def waits1 (ex on max : Nat) (rs : List Request) (m : CspMsg) : State := serving ex on max rs { EthState.reset with msgs := [m] }
/-- A SUBMIT for a model with one sequence so long and no input. -/
def submitB (model tokens : Nat) : List Byte := words [model, 0x07010001, 9, 0, 0, 0, 0xFFFFFFFF, 0xFFFFFFFF, tokens, 0]
/-- A request of the peer that is queued, one in the batch, and one that has ended. -/
def seq1 (slot : Option Nat) (ended : Bool) : SeqRun := { inLen := 0, inOff := 0, input := none, tracked := 1, slot := slot, ended := ended }
def req (id admitted : Nat) (slot : Option Nat) (ended : Option Nat) : Request :=
  { order := 8, src := peer, id := id, part := 2, ctx := 5, prio := 0, maxHeats := 1, place := none, outAt := none, seqs := [seq1 slot ended.isSome],
    heats := 0, stream := 2 ^ 32 - 1, kept := [{ stream := 2 ^ 32 - 2, len := 1, place := none, bytes := [1] }], cancelled := false, admitted := admitted, ended := ended }

theorem wit_submit_bad : Obligations.RequestsAreReassembledAdmittedAndKept → Completes .submit (waits1 1 1 1 [] (message 1 [])) := fun h =>
  done (((h (waits1 1 1 1 [] (message 1 []))).2.2.1 (message 1 []) rfl).1 (.inr (by decide +kernel)))

/-- What SUBMIT is answered when a point of R387 fails, and when none does. -/
def submits (ex on max model tokens : Nat) (rs : List Request) : State := waits1 ex on max rs (message 1 (submitB model tokens))

theorem wit_submit_ok : Obligations.RequestsAreReassembledAdmittedAndKept → Completes .submit (submits 1 1 1 7 100 []) := fun h =>
  done (((h (submits 1 1 1 7 100 [])).2.2.1 (message 1 (submitB 7 100)) rfl).2 ((Submit.parse (submitB 7 100)).get (by decide +kernel)) (by decide +kernel) (by decide +kernel))

theorem wit_submit_long : Obligations.RequestsAreReassembledAdmittedAndKept → Completes .submit (submits 1 1 1 7 101 []) := fun h =>
  done (((h (submits 1 1 1 7 101 [])).2.2.1 (message 1 (submitB 7 101)) rfl).2 ((Submit.parse (submitB 7 101)).get (by decide +kernel)) (by decide +kernel) (by decide +kernel))

theorem wit_submit_full : Obligations.RequestsAreReassembledAdmittedAndKept → Completes .submit (submits 1 1 1 7 100 [req 1 0 none none]) := fun h =>
  done (((h (submits 1 1 1 7 100 [req 1 0 none none])).2.2.1 (message 1 (submitB 7 100)) rfl).2 ((Submit.parse (submitB 7 100)).get (by decide +kernel)) (by decide +kernel) (by decide +kernel))

theorem wit_submit_again : Obligations.RequestsAreReassembledAdmittedAndKept → Completes .submit (submits 1 1 1 7 100 [req (2 ^ 64 - 1) 1 none none]) := fun h =>
  done (((h (submits 1 1 1 7 100 [req (2 ^ 64 - 1) 1 none none])).2.2.1 (message 1 (submitB 7 100)) rfl).2 ((Submit.parse (submitB 7 100)).get (by decide +kernel)) (by decide +kernel) (by decide +kernel))

theorem wit_submit_model : Obligations.RequestsAreReassembledAdmittedAndKept → Completes .submit (submits 1 1 1 8 100 []) := fun h =>
  done (((h (submits 1 1 1 8 100 [])).2.2.1 (message 1 (submitB 8 100)) rfl).2 ((Submit.parse (submitB 8 100)).get (by decide +kernel)) (by decide +kernel) (by decide +kernel))

theorem wit_submit_not_serving : Obligations.RequestsAreReassembledAdmittedAndKept → Completes .submit (submits 1 0 1 7 100 []) := fun h =>
  done (((h (submits 1 0 1 7 100 [])).2.2.1 (message 1 (submitB 7 100)) rfl).2 ((Submit.parse (submitB 7 100)).get (by decide +kernel)) (by decide +kernel) (by decide +kernel))

def cancels (rs : List Request) : State := waits1 1 1 1 rs (message 2 [])

theorem wit_cancel_none : Obligations.RequestsAreReassembledAdmittedAndKept → Completes .cancel (cancels [req 1 0 none none]) := fun h =>
  done (((h (cancels [req 1 0 none none])).2.2.2.1 (message 2 []) rfl (by decide +kernel) (by decide +kernel)).1 (by decide +kernel))

theorem wit_cancel_queued : Obligations.RequestsAreReassembledAdmittedAndKept → Completes .cancel (cancels [req (2 ^ 64 - 1) 0 none none]) := fun h =>
  done ((((h (cancels [req (2 ^ 64 - 1) 0 none none])).2.2.2.1 (message 2 []) rfl (by decide +kernel) (by decide +kernel)).2 (req (2 ^ 64 - 1) 0 none none) (by decide +kernel) (by decide +kernel) (by decide +kernel)).1 (by decide +kernel) (by decide +kernel))

theorem wit_cancel_running : Obligations.RequestsAreReassembledAdmittedAndKept → Completes .cancel (cancels [req (2 ^ 64 - 1) 0 (some 0) none]) := fun h =>
  done ((((h (cancels [req (2 ^ 64 - 1) 0 (some 0) none])).2.2.2.1 (message 2 []) rfl (by decide +kernel) (by decide +kernel)).2 (req (2 ^ 64 - 1) 0 (some 0) none) (by decide +kernel) (by decide +kernel) (by decide +kernel)).2 (by decide +kernel) (by decide +kernel))

/-- A STATUS query that asks for what has been kept from the last stream number but one. -/
def query : CspMsg := message 4 (leBytes 4 0xFFFFFFFE)
def queries (rs : List Request) : State := waits1 1 1 1 rs query

theorem wit_status_none : Obligations.RequestsAreReassembledAdmittedAndKept → Completes .cspStatus (queries []) := fun h =>
  done (((h (queries [])).2.2.2.2.1 query rfl (by decide +kernel) (by decide +kernel)).1 (by decide +kernel))

/-- A request whose results have no place in the buffer, or whose places read well. -/
theorem places_ok {s : State} {r : Request} (h : (r.kept.all fun k => match k.place with
    | some a => decide (a < stackBytes) && s.get (Reg.STK_STATUS_PWR_STATE (a / stackSize)) == 0 && (s.badWord? a k.len).isNone
    | none => true) = true) :
    ∀ k ∈ r.kept, ∀ a, k.place = some a → a < stackBytes ∧ s.get (Reg.STK_STATUS_PWR_STATE (a / stackSize)) = 0 ∧ s.badWord? a k.len = none := by
  intro k hk a ha
  have x := List.all_eq_true.mp h k hk
  rw [ha] at x
  simpa [and_assoc] using x

theorem wit_status : Obligations.RequestsAreReassembledAdmittedAndKept → Completes .cspStatus (queries [req (2 ^ 64 - 1) 0 (some 0) (some 3)]) := fun h => by
  refine done (((h (queries [req (2 ^ 64 - 1) 0 (some 0) (some 3)])).2.2.2.2.1 query rfl ?_ ?_).2 (req (2 ^ 64 - 1) 0 (some 0) (some 3)) ?_
    fun _ => places_ok ?_) <;> decide +kernel

/-- A request whose last result lies at the end of the first GiB of stack 0. -/
def reqPlaced : Request :=
  { req (2 ^ 64 - 1) 0 (some 0) (some 3) with kept := [{ stream := 2 ^ 32 - 2, len := 64, place := some 0x3FFFFFC0, bytes := [] }] }

theorem wit_status_placed : Obligations.RequestsAreReassembledAdmittedAndKept → Completes .cspStatus (queries [reqPlaced]) := fun h => by
  refine done (((h (queries [reqPlaced])).2.2.2.2.1 query rfl ?_ ?_).2 reqPlaced ?_ fun _ => places_ok ?_) <;> decide +kernel

theorem wit_request_expiry : Obligations.RequestsAreReassembledAdmittedAndKept → Completes .requestStateExpiry (queries [req 1 0 none (some 0)]) := fun h =>
  done (h (queries [req 1 0 none (some 0)])).2.2.2.2.2

/-! Management. Where a request needs a signature, its hash itself is both halves of the signature, and the key is the one under which that holds. -/

/-- A request of a role with its signature and the key it names; the byte after the role is reserved. -/
structure Ask where
  op : Nat
  role : Nat
  key : Nat
  id : Nat
  body : List Byte
  r : Nat
  s : Nat
  x : Nat
  y : Nat

def nonce9 : List Byte := List.replicate 48 9
def Ask.head (a : Ask) : List Byte :=
  leBytes 2 a.op ++ leBytes 2 a.role ++ leBytes 4 a.key ++ nonce9 ++ leBytes 4 a.body.length ++ leBytes 4 0 ++ a.body
def Ask.msg (a : Ask) : CspMsg :=
  { src := peer, typ := 6, flags := 0, part := 0xFF, id := a.id, body := a.head ++ beBytes 48 a.r ++ beBytes 48 a.s }
def Ask.req (a : Ask) : MgmtReq :=
  { op := a.op, role := a.role % 256, key := a.key, nonce := nonce9, body := a.body, signed := beBytes 8 a.id ++ a.head, r := a.r, sg := a.s,
    odd := decide (256 ≤ a.role) }

/-- The request waits in a part that knows its key and has given out its nonce. -/
def Ask.waits (a : Ask) (s : State) (keys : List KeyEnt) : State :=
  { s with
    eth := { s.eth with msgs := [a.msg], nonces := [{ bytes := nonce9, at' := s.stamp }] }
    nv := { s.nv with keys := { id := a.key, x := a.x, y := a.y } :: keys } }

theorem allowed {s : State} {op : Nat} {roles : List Nat} {m : CspMsg} {q : MgmtReq} (k : Nat × Nat) (h1 : s.mgmtHead = some (m, q))
    (h2 : (!q.odd && s.nonceOk q.nonce) = true) (h3 : q.role ≠ 0) (h4 : q.key / 2 ^ 24 = q.role) (h5 : s.keyOf q.key = some k)
    (h6 : ecdsaVerify k (sha384 q.signed) q.r q.sg = true) (h7 : q.op = op) (h8 : q.role ∈ roles) (h9 : s.auditOk = true) : s.Allowed op roles m q :=
  ⟨⟨h1, by simpa using (Bool.and_eq_true_iff.mp h2).1, (Bool.and_eq_true_iff.mp h2).2, h3, h4, k, h5, h6⟩, h7, h8, h9⟩

theorem key_good {s : State} {q : MgmtReq} (k : Nat × Nat) (h3 : q.role ≠ 0) (h4 : q.key / 2 ^ 24 = q.role) (h5 : s.keyOf q.key = some k)
    (h6 : ecdsaVerify k (sha384 q.signed) q.r q.sg = true) :
    ¬ (q.role = 0 ∨ q.key / 2 ^ 24 ≠ q.role ∨ ∀ k, s.keyOf q.key = some k → ecdsaVerify k (sha384 q.signed) q.r q.sg = false) := by
  rintro (h | h | h)
  · exact h3 h
  · exact h h4
  · have g := h k h5
    rw [h6] at g
    exact Bool.noConfusion g



def askRead : Ask :=
  { op := 0x10, role := 1, key := 0x1000001, id := 1, body := words [1, 0x800000],
    r := 0xc74ace3927cbb0f8addb7868e56a67304dc645b1669fd4fc34d1bd985074fe7d223ee3a464e5eab4c5a9b9c32fc0d0fa, s := 0xc74ace3927cbb0f8addb7868e56a67304dc645b1669fd4fc34d1bd985074fe7d223ee3a464e5eab4c5a9b9c32fc0d0fa,
    x := 0x38e4288ee6ae1dc3fd53536e57b2c458012fac0d94c2f7f000869546dc4f3a0160d4172c25d5904c1228f4cc08584f61, y := 0xe035c40a163d89e40d3d86ab5597b217ead5164f5e8ad1045ad530a78f3dbf662ed986e981a1e060a540da02a228ece9 }

theorem wit_m_nonce : Obligations.ManagementChecksComeBeforeEffect → Completes .dcsRead ({ base with eth := { EthState.reset with msgs := [askRead.msg] } }) := fun h =>
  done (((h ({ base with eth := { EthState.reset with msgs := [askRead.msg] } }) askRead.msg askRead.req).1 (0x10, .dcsRead, [1, 2, 3]) (by decide +kernel) (by decide +kernel) (by decide +kernel)).1 0x31
    (.inl ⟨rfl, (by decide +kernel)⟩))


def askGrant : Ask :=
  { op := 0x30, role := 3, key := 0x3000001, id := 1, body := words [0x3d090, 0x64, 0, 0],
    r := 0xe534eae20f961d2d3ea93bab9213d76dfd298a08a0c6d6ed59590f7d7501a701ecf08f76e3e3b1f95a89ca7fac617c32, s := 0xe534eae20f961d2d3ea93bab9213d76dfd298a08a0c6d6ed59590f7d7501a701ecf08f76e3e3b1f95a89ca7fac617c32,
    x := 0x6cfacf2d1871bbaf8ca2e2c6db51fce311018b6ecf4b8a7d978c0634cdd108a8aba23d83d5f63ca75769608c52a36de7, y := 0x7fcc76a71b977e8853d72c9378080a49ca08ab50dbcf7a9c45b9ab73a19615ac82ac60fa10e2adaea35fe4c7ab71f677 }

/-- The same with a key of another role. -/
def askOther : Ask := { askGrant with key := 0x02000001 }

theorem wit_m_auth : Obligations.ManagementChecksComeBeforeEffect → Completes .powerGrant (askOther.waits base []) := fun h =>
  done (((h (askOther.waits base []) askOther.msg askOther.req).1
    (0x30, .powerGrant, [3]) (by decide +kernel) (by decide +kernel) (by decide +kernel)).1 0x30 (.inr (.inl ⟨rfl, (by decide +kernel), .inr (.inl (by decide +kernel))⟩)))


def askRecord3 : Ask :=
  { op := 0x51, role := 3, key := 0x3000001, id := 4, body := words [0],
    r := 0x96c0a6f21ebb7847bbf25887e8ba44031b8798dfcab128724b406c60ac2ec609a2f53ff8474ba34cdcd557f2128c2cd8, s := 0x96c0a6f21ebb7847bbf25887e8ba44031b8798dfcab128724b406c60ac2ec609a2f53ff8474ba34cdcd557f2128c2cd8,
    x := 0x62a7a0f217ed0539236d3f8dd4218b7852ecca40925f366b4369032d54d603662e21d6f6022a0aac5535e6ba0575afb0, y := 0x866cd752afa02d916136ed0469e7c5016b219b927c306ac6c107269fb475571120f4c8fa02297f35cbc7d8cc1b0b55b8 }

theorem wit_m_denied : Obligations.ManagementChecksComeBeforeEffect → Completes .deploymentRecord (askRecord3.waits base []) := fun h => by
  refine done (((h (askRecord3.waits base []) askRecord3.msg askRecord3.req).1 (0x51, .deploymentRecord, [2]) ?_ ?_ ?_).1 0x32 (.inr (.inr ⟨rfl,
    ?_, key_good (askRecord3.x, askRecord3.y) ?_ ?_ ?_ ?_, ?_⟩))) <;> decide +kernel


theorem wit_m_audit : Obligations.ManagementChecksComeBeforeEffect → Completes .powerGrant (askGrant.waits State.reset []) := fun h => by
  refine done (((h (askGrant.waits State.reset []) askGrant.msg askGrant.req).1 (0x30, .powerGrant, [3]) ?_ ?_ ?_).2.1 ?_ (key_good (askGrant.x,
    askGrant.y) ?_ ?_ ?_ ?_) ?_ ?_ ?_) <;> decide +kernel

/-- A read whose reserved byte is not zero. -/
def askOdd : Ask :=
  { op := 0x10, role := 257, key := 0x1000001, id := 1, body := words [1, 0x800000],
    r := 0xd932955698414d3a978540eb5526f6b3eb0162772009f38aca4f7273e4adb0756971afac7a1bdfd514eb596cb3eee836, s := 0xd932955698414d3a978540eb5526f6b3eb0162772009f38aca4f7273e4adb0756971afac7a1bdfd514eb596cb3eee836,
    x := 0x76b5cf7d5ed3c63c8a1b9dee28d6483c1449d1ff0ffe6f1215a3927420c599bf20d97080f9da470edc39abc5d418fc9b, y := 0xf29e3cd019d0433628f81b9717459e7a3f188984d2d2917fe4c9343f9298b3d24dcb5070f6d70734e69def66ec8a1f1d }

theorem wit_m_odd : Obligations.ManagementChecksComeBeforeEffect → Completes .dcsRead (askOdd.waits base []) := fun h => by
  refine done (((h (askOdd.waits base []) askOdd.msg askOdd.req).1 (0x10, .dcsRead, [1, 2, 3]) ?_ ?_ ?_).2.2 ?_ (key_good (askOdd.x,
    askOdd.y) ?_ ?_ ?_ ?_) ?_ ?_ ?_) <;> decide +kernel

/-- NONCE is not signed. -/
def nonceMsg : CspMsg := { src := peer, typ := 6, flags := 0, part := 0xFF, id := 1, body := leBytes 8 1 ++ nonce9 ++ leBytes 8 0 }
def nonceAsked : State := { base with eth := { EthState.reset with msgs := [nonceMsg], nonces := List.replicate 64 { bytes := nonce9, at' := 0 } } }
def nonceReq : MgmtReq := { op := 1, role := 0, key := 0, nonce := nonce9, body := [], signed := beBytes 8 1 ++ nonceMsg.body, r := 0, sg := 0, odd := false }

theorem wit_nonce : Obligations.ManagementChecksComeBeforeEffect → Completes .nonce nonceAsked := fun h => by
  refine done ((h nonceAsked nonceMsg nonceReq).2.1 ?_ ?_ ?_ ?_ ?_) <;> decide +kernel

theorem wit_nonce_expiry : Obligations.ManagementChecksComeBeforeEffect → Completes .nonceExpiry nonceAsked := fun h =>
  done (h nonceAsked nonceMsg nonceReq).2.2


/-- A claim, signed by the key that it names. -/
def askClaim : Ask :=
  { op := 0x70, role := 2, key := 0x02000001, id := 1,
    body := words [1, 0x2000001, 0x68cef704, 0x9516fbba, 0x466f5b48, 0xc6367bf1, 0x5b2daa4a, 0x29a5d2a0, 0xa9ccb65f, 0xb29ad462, 0x94c3dff4, 0x4eda92d7, 0xf5321ec, 0x9e99f6e, 0x9b38fdbb, 0xbb038c4f, 0x345cef1d, 0xbb5213eb, 0xd3d8dbc5, 0xac25972a, 0xf629ef5b, 0x52a7095e, 0x53a63768, 0x7eb956b6, 0xd3b2ee9b, 0x483dc3e8, 0x29, 0, 0, 0, 0, 0, 0, 0, 0, 0, 0, 0, 0, 0, 0, 0, 0, 0, 0, 0, 0, 0, 0, 0, 0, 0],
    r := 0x723dc0102e691466fd1afd55d7f78cbe21bda029399254e5328ba2c86846897d5542f825775db011d80ca9295f1b27a3,
    s := 0x447f078f2a893357cb31e03caa2cf9f7ce9475a68be0b3b0d05d756f2ae512f4b5a34fb5f61ae7dd0f2a60d2497d995f,
    x := 0xf7ce68bafb1695485b6f46f17b36c64aaa2d5ba0d2a5295fb6cca962d49ab2f4dfc394d792da4eec21530f6e9fe909bb,
    y := 0xfd389b4f8c03bb1def5c34eb1352bbc5dbd8d32a9725ac5bef29f65e09a7526837a653b656b97e9beeb2d3e8c33d4829 }

def claims (b : Bool) : State := let s := askClaim.waits base []; { s with nv := { s.nv with keys := [], claimed := b } }

/-! The signature of the claim, over parts: the key is in what it signs, so that both multiples are of full size. -/

/-- A multiple continued from the one of the higher bits, over the bits that are left. -/
def ecFrom (q h : Option (Nat × Nat)) (k : Nat) : Nat → Option (Nat × Nat)
  | 0 => h
  | n + 1 =>
    let e := ecFrom q h (k / 2) n
    let d := ecAdd e e
    if k % 2 = 1 then ecAdd d q else d

theorem ecMul_from (q : Option (Nat × Nat)) (n m k : Nat) : ecMul q k (n + m) = ecFrom q (ecMul q (k / 2 ^ m) n) k m := by
  induction m generalizing k with
  | zero => simp [ecFrom]
  | succ m ih =>
    rw [← Nat.add_assoc, ecMul, ecFrom, ih, Nat.div_div_eq_div_mul, Nat.pow_succ, Nat.mul_comm 2]

theorem ecMul_next {q p p' : Option (Nat × Nat)} (k : Nat) {n : Nat} (h : ecMul q (k / 2 ^ 64) n = p) (e : ecFrom q p k 64 = p') :
    ecMul q k (n + 64) = p' := by
  rw [ecMul_from, h, e]

theorem ecdsa_of {key : Nat × Nat} {hash : List Byte} {r s : Nat} (u1 u2 : Nat) {p1 p2 : Option (Nat × Nat)} (p : Nat × Nat)
    (hr : 1 ≤ r ∧ r < pN ∧ 1 ≤ s ∧ s < pN) (hk : onCurve key = true) (h1 : beNat hash * invMod pN s % pN = u1) (h2 : r * invMod pN s % pN = u2)
    (g1 : ecMul (some pG) u1 384 = p1) (g2 : ecMul (some key) u2 384 = p2) (h3 : ecAdd p1 p2 = some p) (h4 : p.1 % pN = r) :
    ecdsaVerify key hash r s = true := by
  unfold ecdsaVerify
  rw [decide_eq_true hr, hk]
  dsimp only
  rw [h1, h2, g1, g2, h3]
  simp [h4]

def claimU : Nat := 0x6574200a2e0e15c79cf7edfd10c239dddb24aa0d9f6c09f0de6dde337daac22f0049d19f7022f0d62cd623840d8186d6
def claimU1 : Option (Nat × Nat) :=
  some (0x6323e69e1eb99d932c25e9fdab2e890394b1c9cdc565cb4f8934e0ade442cd1b4fe55b7748f5e79e61a6e03bb677d723,
    0x7dce61c4230af16a3150ffabb96a070a1bbe4c455eb08fcd366213041ee180e573e7fed086244510b0f8eedc91745ea)
def claimU2 : Option (Nat × Nat) :=
  some (0x2ca1d6ad2c69b9e22f2d455d102606a21ef0225ef3fc5dd1081be535a07ff1e37e5792bdc38a1ead0360e3244a5ef913,
    0x229ba001ac5110a4288f08bd829094097e0a86b29c131e73538734df96129b7f5af97b131166b2962d4eda8b1eceb243)
def claimU3 : Option (Nat × Nat) :=
  some (0xe20e6d32bf22f14fe14316cda5903f7178ea5426822b7ee22baf9f045e713620dffd02178a4f0868ba882bab2a52cf3b,
    0x1d7fbfc60eb142fe4530e85c78a7c7a5a21f862a398b919e048d4e603039c8f1e357e9df1ee3fefdd52aa1bdd0f42efd)
def claimU4 : Option (Nat × Nat) :=
  some (0xcab688ea016978767b4b58435fab174e83c5c304be11a7796f581df01c651a0430157abe3ae6246276a605484f986df1,
    0x49698b40c91d3e420872845f95db64b0e4fdbca2cf4e8ff37c564fd5545f807fac261892a1a2de55e349ff1aa8a118ca)
def claimU5 : Option (Nat × Nat) :=
  some (0xd6a0a83cf687f1b14a290e8eec52a02de4222cb3f754b9220579d53e1f203a0eaebb2369fe5714d761f6cb5204377dac,
    0x65439d47c3b3e360a3ef57fa8d2a601c777fb1a301bd7d2f381a01a8a1ef904f0d389cdcc52ecee064b5a9011a93771d)
def claimU6 : Option (Nat × Nat) :=
  some (0x89c3aa1239e8be77dd64d5b6173904994071dbc789040b6ce3abbc5454f8733faf742526055989743978f4a310dcd583,
    0xa045fc474146efe6ed602b08e9f655e06390c2989fefe9a11cd71c3f784842e2c54c2b7ecc9a706d9c6195f830fbc185)

theorem claimU_1 : ecMul (some pG) (claimU / 2 ^ 64 / 2 ^ 64 / 2 ^ 64 / 2 ^ 64 / 2 ^ 64) 64 = claimU1 := by decide +kernel
theorem claimU_2 : ecFrom (some pG) claimU1 (claimU / 2 ^ 64 / 2 ^ 64 / 2 ^ 64 / 2 ^ 64) 64 = claimU2 := by decide +kernel
theorem claimU_3 : ecFrom (some pG) claimU2 (claimU / 2 ^ 64 / 2 ^ 64 / 2 ^ 64) 64 = claimU3 := by decide +kernel
theorem claimU_4 : ecFrom (some pG) claimU3 (claimU / 2 ^ 64 / 2 ^ 64) 64 = claimU4 := by decide +kernel
theorem claimU_5 : ecFrom (some pG) claimU4 (claimU / 2 ^ 64) 64 = claimU5 := by decide +kernel
theorem claimU_6 : ecFrom (some pG) claimU5 (claimU) 64 = claimU6 := by decide +kernel
theorem claimU_all : ecMul (some pG) claimU 384 = claimU6 :=
  ecMul_next _ (ecMul_next _ (ecMul_next _ (ecMul_next _ (ecMul_next _ (claimU_1) claimU_2) claimU_3) claimU_4) claimU_5) claimU_6

def claimV : Nat := 0x5c0e07881a4affa7006a121f55306ef3e12a3b60c0d27bdd1ffee1279a1f240b9fae39c78da5d77e7349fd4444807711
def claimV1 : Option (Nat × Nat) :=
  some (0xb2d89d1907c9729de7f6d9827e8bfbaa207c9eec4805e4a0b57fe82f6a01fa07bc6399b5eab03f93a02ad22b251ef32c,
    0xcd1c7bdf063d7b148f96eef78c2278a7cf6db646f53567aaaeb0c5d60077c7904ea541d07794070d4123c71a81a35125)
def claimV2 : Option (Nat × Nat) :=
  some (0xa1ffa0b68c744f43c2622d3c07927f3438fb2603020c29fac4827c1de2f6ac0a093860a7b323e389007120110f9859e0,
    0x4369f8497c338c866d08e59ee3e4ad4276911f7aa6438af2b79c29b7265f38df4aaa28d3c9179111b678c04ba9185d)
def claimV3 : Option (Nat × Nat) :=
  some (0x3aae318fe664a6b9329ba23a5b6aea09d9dd82c42f0daa247ad5575ff1d42dfaf7e826ddb0c36f92a111d419bd5c21c1,
    0x6fb0a5fbc5c2fa630d3d0a823f683bee22c4c7ced28a86228d23c07d80a218e6b7e72fa2ebf23829fab40a504c0739d7)
def claimV4 : Option (Nat × Nat) :=
  some (0x79d482daf136b9b79d9d28c8e43a296d722d7c0bf0914f2091b4e1a5d7ec055cb89986020215b184b5aeb262ea6ca7bf,
    0xc19e0c7ceeba83021f0f03e9c685c6dd33f88ec27922d33e639414bc40d0a117b335f1a3b8d1256a701dcfe3ba16142a)
def claimV5 : Option (Nat × Nat) :=
  some (0x8a0972406c8a7182e676ed7c2f91b25b1040b16118117829454f8221e97cf66ef672f418c626f5ffef429e8ba5022d30,
    0xeaf60ab96893b66db76e6ba5a8f2ebf90f3b8e90e6141ea07ed34afc47517a208c337bf070ff938e074ba28d79514002)
def claimV6 : Option (Nat × Nat) :=
  some (0x546ad92644a349d8c1bdeefa9dfd8d5433fd2238b066baf2c372906cb7bb0ba10468eb6aa04e09bbd1b33d8e3c5b48ed,
    0x808cfcb37ff93325b5a891235840c8395e5c2f36b7a165b5355571ef12664435a87db6419624edde507ac80e12a8c7e6)

theorem claimV_1 : ecMul (some (askClaim.x, askClaim.y)) (claimV / 2 ^ 64 / 2 ^ 64 / 2 ^ 64 / 2 ^ 64 / 2 ^ 64) 64 = claimV1 := by decide +kernel
theorem claimV_2 : ecFrom (some (askClaim.x, askClaim.y)) claimV1 (claimV / 2 ^ 64 / 2 ^ 64 / 2 ^ 64 / 2 ^ 64) 64 = claimV2 := by decide +kernel
theorem claimV_3 : ecFrom (some (askClaim.x, askClaim.y)) claimV2 (claimV / 2 ^ 64 / 2 ^ 64 / 2 ^ 64) 64 = claimV3 := by decide +kernel
theorem claimV_4 : ecFrom (some (askClaim.x, askClaim.y)) claimV3 (claimV / 2 ^ 64 / 2 ^ 64) 64 = claimV4 := by decide +kernel
theorem claimV_5 : ecFrom (some (askClaim.x, askClaim.y)) claimV4 (claimV / 2 ^ 64) 64 = claimV5 := by decide +kernel
theorem claimV_6 : ecFrom (some (askClaim.x, askClaim.y)) claimV5 (claimV) 64 = claimV6 := by decide +kernel
theorem claimV_all : ecMul (some (askClaim.x, askClaim.y)) claimV 384 = claimV6 :=
  ecMul_next _ (ecMul_next _ (ecMul_next _ (ecMul_next _ (ecMul_next _ (claimV_1) claimV_2) claimV_3) claimV_4) claimV_5) claimV_6

theorem claim_u : beNat (sha384 askClaim.req.signed) * invMod pN askClaim.req.sg % pN = claimU := by decide +kernel
theorem claim_v : askClaim.req.r * invMod pN askClaim.req.sg % pN = claimV := by decide +kernel

theorem claim_key : ecdsaVerify (askClaim.x, askClaim.y) (sha384 askClaim.req.signed) askClaim.req.r askClaim.req.sg = true :=
  ecdsa_of claimU claimV (0x723dc0102e691466fd1afd55d7f78cbe21bda029399254e5328ba2c86846897d5542f825775db011d80ca9295f1b27a3, 0x64256a73d9d8ecdd8bc3576a636da8f2321043a0a18676dcdfa97a5e3b316487edff82cd9715aa11b7dc8e1e1ff66f13)
    (by decide +kernel) (by decide +kernel) claim_u claim_v claimU_all claimV_all (by decide +kernel) (by decide +kernel)

theorem wit_key_claim : Obligations.KeysAreEnrolledAndTheLogIsRead → Completes .installerClaim (claims false) := fun h => by
  refine done (((h (claims false) askClaim.msg askClaim.req).1 ⟨?_, ?_, ?_, ?_, ?_, (askClaim.x, askClaim.y), ?_, claim_key⟩ ?_ ?_ ?_ ⟨?_, ?_, ?_, ?_,
    ?_⟩).1 askClaim.x askClaim.y ?_ ?_ ?_ ⟨?_, ?_, ?_⟩ ?_ ?_) <;> decide +kernel

theorem wit_key_claim_again : Obligations.KeysAreEnrolledAndTheLogIsRead → Completes .installerClaim (claims true) := fun h => by
  refine done (((h (claims true) askClaim.msg askClaim.req).1 ⟨?_, ?_, ?_, ?_, ?_, (askClaim.x, askClaim.y), ?_, claim_key⟩ ?_ ?_ ?_ ⟨?_, ?_, ?_, ?_,
    ?_⟩).2 ?_) <;> decide +kernel


def askOperator : Ask :=
  { op := 0x70, role := 2, key := 0x2000001, id := 2, body := words [2, 0x3ffffff, 0xca87aa04, 0x58bbe22, 0xc7b18e37, 0xad20f31e, 0x3b1d6e74, 0x9ba78b62, 0x41f75998, 0x2a5482e0, 0xf2025538, 0x2955bf5d, 0x5e543a6c, 0xa767238, 0xde1736b7, 0x2c26964a, 0x989e5d6f, 0xdc9292bf, 0x1df4f829, 0x149a28bd, 0x31dae97c, 0xb8f0b513, 0xb1600ac0, 0x817e1dce, 0x1d437a9d, 0xeea907c, 0x5f, 0, 0, 0, 0, 0, 0, 0, 0, 0, 0, 0, 0, 0, 0, 0, 0, 0, 0, 0, 0, 0, 0, 0, 0, 0],
    r := 0x7f41a3baedd6fafc4270ae2a4d68686f9e3bd61b8fe21c192bc6e5d2a49e5bd647a46adcaffb577cd69a41ded0bff783, s := 0x7f41a3baedd6fafc4270ae2a4d68686f9e3bd61b8fe21c192bc6e5d2a49e5bd647a46adcaffb577cd69a41ded0bff783,
    x := 0x7fd9dbd748d8f2343eb10776efef6a367b52288221c1d2740b9210ce0cbc43a0a9b4d01ff120e88089a86e5a007f775a, y := 0x5123e2d8067e0c6640f4f163cf2d495d09433ca025ea2626e765f23a3ffbc2f57f66c818f865fca8cc597f59b7cf1622 }

/-- The part has been claimed. -/
def claimed (a : Ask) (keys : List KeyEnt) : State := let s := a.waits base keys; { s with nv := { s.nv with claimed := true } }
def keysOf (cls k : Nat) : List KeyEnt := (List.range k).map fun i => { id := 2 ^ 24 * cls + 9 + i, x := 0, y := 0 }

theorem wit_operator_add : Obligations.KeysAreEnrolledAndTheLogIsRead → Completes .operatorAdd (claimed askOperator (keysOf 3 15)) := fun h => by
  refine done (((h (claimed askOperator (keysOf 3 15)) askOperator.msg askOperator.req).2.1.1 (allowed (askOperator.x, askOperator.y) ?_ ?_ ?_ ?_
    ?_ ?_ ?_ ?_ ?_) ⟨?_, ?_, ?_, ?_, ?_⟩).1 pG.1 pG.2 ?_ ⟨⟨?_, ?_, ?_⟩, ?_, ?_⟩ ?_) <;> decide +kernel

theorem wit_operator_full : Obligations.KeysAreEnrolledAndTheLogIsRead → Completes (.operatorAdd) (claimed askOperator (keysOf 3 16)) := fun h => by
  refine done (((h (claimed askOperator (keysOf 3 16)) askOperator.msg askOperator.req).2.1.1 (allowed (askOperator.x, askOperator.y) ?_ ?_ ?_ ?_
    ?_ ?_ ?_ ?_ ?_) ⟨?_, ?_, ?_, ?_, ?_⟩).2 ?_) <;> decide +kernel


def askInstaller : Ask :=
  { op := 0x70, role := 2, key := 0x2000001, id := 1, body := words [6, 0x2ffffff, 0xca87aa04, 0x58bbe22, 0xc7b18e37, 0xad20f31e, 0x3b1d6e74, 0x9ba78b62, 0x41f75998, 0x2a5482e0, 0xf2025538, 0x2955bf5d, 0x5e543a6c, 0xa767238, 0xde1736b7, 0x2c26964a, 0x989e5d6f, 0xdc9292bf, 0x1df4f829, 0x149a28bd, 0x31dae97c, 0xb8f0b513, 0xb1600ac0, 0x817e1dce, 0x1d437a9d, 0xeea907c, 0x5f, 0, 0, 0, 0, 0, 0, 0, 0, 0, 0, 0, 0, 0, 0, 0, 0, 0, 0, 0, 0, 0, 0, 0, 0, 0],
    r := 0xc2ce9e853a37ec41b68c4fc4957fbd68b84d3da3aab3c8bb47a4f6c5dae910308b97fbbc503e807d8454caca3112ad44, s := 0xc2ce9e853a37ec41b68c4fc4957fbd68b84d3da3aab3c8bb47a4f6c5dae910308b97fbbc503e807d8454caca3112ad44,
    x := 0x127df207ad788ca2df16722738a02ea42def3b334a7ba9456fe960698111aae31cc651bb8f8b778ff76de3e8e8bce532, y := 0xa2bbe8f746b624b5172e379877a05031d65e6c770dc5164283c62b9333110c0fa2722844647fda08d0424bc9bf3c793a }

theorem wit_installer_add : Obligations.KeysAreEnrolledAndTheLogIsRead → Completes .installerKeyAdd (claimed askInstaller (keysOf 2 2)) := fun h => by
  refine done (((h (claimed askInstaller (keysOf 2 2)) askInstaller.msg askInstaller.req).2.1.2.2 (allowed (askInstaller.x, askInstaller.y) ?_ ?_
    ?_ ?_ ?_ ?_ ?_ ?_ ?_) ⟨?_, ?_, ?_, ?_, ?_⟩).1 pG.1 pG.2 ?_ ⟨⟨?_, ?_, ?_⟩, ?_, ?_⟩ ?_) <;> decide +kernel

theorem wit_installer_full : Obligations.KeysAreEnrolledAndTheLogIsRead → Completes .installerKeyAdd (claimed askInstaller (keysOf 2 3)) := fun h => by
  refine done (((h (claimed askInstaller (keysOf 2 3)) askInstaller.msg askInstaller.req).2.1.2.2 (allowed (askInstaller.x, askInstaller.y) ?_ ?_
    ?_ ?_ ?_ ?_ ?_ ?_ ?_) ⟨?_, ?_, ?_, ?_, ?_⟩).2 ?_) <;> decide +kernel


def askMaker : Ask :=
  { op := 0x70, role := 1, key := 0x1000001, id := 4, body := words [5, 0x2000009, 0xca87aa04, 0x58bbe22, 0xc7b18e37, 0xad20f31e, 0x3b1d6e74, 0x9ba78b62, 0x41f75998, 0x2a5482e0, 0xf2025538, 0x2955bf5d, 0x5e543a6c, 0xa767238, 0xde1736b7, 0x2c26964a, 0x989e5d6f, 0xdc9292bf, 0x1df4f829, 0x149a28bd, 0x31dae97c, 0xb8f0b513, 0xb1600ac0, 0x817e1dce, 0x1d437a9d, 0xeea907c, 0x5f, 0, 0, 0, 0, 0, 0, 0, 0, 0, 0, 0, 0, 0, 0, 0, 0, 0, 0, 0, 0, 0, 0, 0, 0, 0],
    r := 0x9791ab8d1e3c1c9e023d18b88a8e382dc112c02462dfaabe49869996e08b4fd02cc621f2f64057b078628bc5fc403c80, s := 0x9791ab8d1e3c1c9e023d18b88a8e382dc112c02462dfaabe49869996e08b4fd02cc621f2f64057b078628bc5fc403c80,
    x := 0x763e880097133ff67ede6d10da099e98bd9b1eaf26409863001a50a41d743160da7a8af93f56c5080eded55a5ee18ea1, y := 0x7768ef2646942cec48c311bfa6001bd80c968183bab30c987141e6c7e3a4d3d404c2d3f81fb5a9581c813fdf300a3bf1 }

theorem wit_maker_denied : Obligations.KeysAreEnrolledAndTheLogIsRead → Completes .makerKeyAdd (claimed askMaker []) := fun h => by
  refine done (((h (claimed askMaker []) askMaker.msg askMaker.req).2.1.2.1 (allowed (askMaker.x, askMaker.y) ?_ ?_ ?_ ?_ ?_ ?_ ?_ ?_ ?_) ⟨?_, ?_,
    ?_, ?_, ?_⟩).2 ?_) <;> decide +kernel


def askRevoke : Ask :=
  { op := 0x70, role := 2, key := 0x2000001, id := 1, body := words [3, 0x2000009, 0, 0, 0, 0, 0, 0, 0, 0, 0, 0, 0, 0, 0, 0, 0, 0, 0, 0, 0, 0, 0, 0, 0, 0, 0, 0, 0, 0, 0, 0, 0, 0, 0, 0, 0, 0, 0, 0, 0, 0, 0, 0, 0, 0, 0, 0, 0, 0, 0, 0],
    r := 0x4a8af344398da2d074fdd41dde665d48085fee3ba8d37bb6b67a2c9f86f544b2557d22ee4e41ad057d62ed6c5bf487ca, s := 0x4a8af344398da2d074fdd41dde665d48085fee3ba8d37bb6b67a2c9f86f544b2557d22ee4e41ad057d62ed6c5bf487ca,
    x := 0x6f8a4d1cd233dc94ad0950e65d925b50d9f62673950d9464df54fa322922dd7ed7b2a283e54be820d8b6ebce13fa5c8d, y := 0x18d77ee673feedaba106694a53d7bbbb9f970189c125601591201383958d736319ccb525045760d00becd6cbd1399d80 }

theorem wit_revoke : Obligations.KeysAreEnrolledAndTheLogIsRead → Completes .keyRevoke (claimed askRevoke (keysOf 2 1)) := fun h => by
  refine done (((h (claimed askRevoke (keysOf 2 1)) askRevoke.msg askRevoke.req).2.2.1 (allowed (askRevoke.x, askRevoke.y) ?_ ?_ ?_ ?_ ?_ ?_ ?_ ?_
    ?_) ⟨?_, ?_, ?_, ?_, ?_⟩).1 ?_ ?_ ?_ ?_ ?_) <;> decide +kernel

theorem wit_revoke_last : Obligations.KeysAreEnrolledAndTheLogIsRead → Completes .keyRevoke (claimed askRevoke []) := fun h => by
  refine done (((h (claimed askRevoke []) askRevoke.msg askRevoke.req).2.2.1 (allowed (askRevoke.x, askRevoke.y) ?_ ?_ ?_ ?_ ?_ ?_ ?_ ?_ ?_) ⟨?_,
    ?_, ?_, ?_, ?_⟩).2 ?_) <;> decide +kernel


def askRelease : Ask :=
  { op := 0x70, role := 1, key := 0x1000001, id := 1, body := words [4, 0, 0, 0, 0, 0, 0, 0, 0, 0, 0, 0, 0, 0, 0, 0, 0, 0, 0, 0, 0, 0, 0, 0, 0, 0, 0, 0, 0, 0, 0, 0, 0, 0, 0, 0, 0, 0, 0, 0x7070707, 0x7070707, 0x7070707, 0x7070707, 0x7070707, 0x7070707, 0x7070707, 0x7070707, 0x7070707, 0x7070707, 0x7070707, 0x7070707, 0],
    r := 0x271c606e923285b2c51d45809b2818bf476111fb0f14be6c8e9676c04eb4ffa5d1502a7c52ea85916c6bc30e7a5b2a7a, s := 0x271c606e923285b2c51d45809b2818bf476111fb0f14be6c8e9676c04eb4ffa5d1502a7c52ea85916c6bc30e7a5b2a7a,
    x := 0xb47e5a2e54d2b556248d2f6abfecaf7e297a3e409938bed5b13e184f9d59770c8579d2ac0812d0d19af43ed0f7af3273, y := 0x491c212377a97b2f019080e5629029cd0d5a52bc166f879a27264b77eb04390e81b14bb7c882d84a11f3439c99268328 }

theorem wit_key_release : Obligations.KeysAreEnrolledAndTheLogIsRead → Completes .installerRelease (claimed askRelease (keysOf 2 4)) := fun h => by
  refine cont ((h (claimed askRelease (keysOf 2 4)) askRelease.msg askRelease.req).2.2.2.1 (allowed (askRelease.x, askRelease.y) ?_ ?_ ?_ ?_ ?_
    ?_ ?_ ?_ ?_) ⟨?_, ?_, ?_, ?_, ?_⟩ ?_) (fun g => ?fin)
  case fin =>
    split at g <;> exact done g
  all_goals decide +kernel


def askAttest : Ask :=
  { op := 0x60, role := 1, key := 0x1000001, id := 1, body := words [0x1010101, 0x1010101, 0x1010101, 0x1010101, 0x1010101, 0x1010101, 0x1010101, 0x1010101, 0x1010101, 0x1010101, 0x1010101, 0x1010101],
    r := 0x78fbddaf878ac0ec3f3d16b0d7e59d06ba089c6843b33c21e018ba4f83fb91b0d547505450aed9e36b847a73b657daa4, s := 0x78fbddaf878ac0ec3f3d16b0d7e59d06ba089c6843b33c21e018ba4f83fb91b0d547505450aed9e36b847a73b657daa4,
    x := 0xd69f1ac1d384ab10323c1613e129593746600938403efa0839b5c10a8aa06a8159bffd28d5f7e682c4c26f2448910b4a, y := 0x57e2f27c46ad78e4afcd59142c6a36a3a680c4e7c621cb4755bed3c6d91f7fbf11d952a61810d4ae346bae796bb5dd57 }

theorem wit_attest : Obligations.KeysAreEnrolledAndTheLogIsRead → Completes .attest (askAttest.waits base []) := fun h => by
  refine done ((((h (askAttest.waits base []) askAttest.msg askAttest.req).2.2.2.2 ⟨?_, ?_, ?_, ?_, ?_, (askAttest.x, askAttest.y), ?_, ?_⟩ ?_).1 ?_
    ?_).2.2) <;> decide +kernel


def askAudit : Ask :=
  { op := 0x61, role := 3, key := 0x3000001, id := 1, body := words [0, 0, 0x800],
    r := 0x31f4328f12691c5dafb0bed3a55518294516e0dbca9f7f7b9065ed8edab4e6c591bfd77e17f0ec226bec65b4d098c41e, s := 0x31f4328f12691c5dafb0bed3a55518294516e0dbca9f7f7b9065ed8edab4e6c591bfd77e17f0ec226bec65b4d098c41e,
    x := 0x55d238e92542e17f8146e2efd33ae0ce858bc71b284d6f7267c843da0f878a4fdddec0e58e08468ce8e154bb24b83b22, y := 0x51dc8e2bf4b3d200508ad5a2b7b06aff0d2b4668ee7a94ee49ca0cee38fed749f8a7f3c5190dd05770179afbbe4aba45 }

theorem wit_audit_read : Obligations.KeysAreEnrolledAndTheLogIsRead → Completes .auditRead (askAudit.waits base []) := fun h => by
  refine done (((h (askAudit.waits base []) askAudit.msg askAudit.req).2.2.2.2 ⟨?_, ?_, ?_, ?_, ?_, (askAudit.x, askAudit.y), ?_, ?_⟩ ?_).2 ?_ ?_ ?_
    ?_) <;> decide +kernel


def askReads : Ask :=
  { op := 0x10, role := 2, key := 0x2000001, id := 2, body := words [0x40, 0x800000, 0x800000, 0x800000, 0x800000, 0x800000, 0x800000, 0x800000, 0x800000, 0x800000, 0x800000, 0x800000, 0x800000, 0x800000, 0x800000, 0x800000, 0x800000, 0x800000, 0x800000, 0x800000, 0x800000, 0x800000, 0x800000, 0x800000, 0x800000, 0x800000, 0x800000, 0x800000, 0x800000, 0x800000, 0x800000, 0x800000, 0x800000, 0x800000, 0x800000, 0x800000, 0x800000, 0x800000, 0x800000, 0x800000, 0x800000, 0x800000, 0x800000, 0x800000, 0x800000, 0x800000, 0x800000, 0x800000, 0x800000, 0x800000, 0x800000, 0x800000, 0x800000, 0x800000, 0x800000, 0x800000, 0x800000, 0x800000, 0x800000, 0x800000, 0x800000, 0x800000, 0x800000, 0x800000, 0x800000],
    r := 0xc48bae9a99d401a477fbd3858cb5dd1b7d1ff12a5e477f1dd50b9cae1db633f9a1a1ec5a37d51f96163ad141b95a5a0e, s := 0xc48bae9a99d401a477fbd3858cb5dd1b7d1ff12a5e477f1dd50b9cae1db633f9a1a1ec5a37d51f96163ad141b95a5a0e,
    x := 0x99f08ecb51270528a7beac54b13c7e0f819a6e5bdb2b810bd6f0f287b1ce5f2381d45226939eaabb30c33c399f6c1cbb, y := 0x84950fae36894b413dfe9770cf8bb7ad08c47ff1a64bacf9ccc0a77c42141249f4d0d9eae503903eb590e73df459fc66 }

theorem wit_dcs_reads : Obligations.ManagementOperationsTakeEffect → Completes .dcsRead (askReads.waits base []) := fun h => by
  refine done ((h (askReads.waits base []) askReads.msg askReads.req).1 ⟨?_, ?_, ?_, ?_, ?_, (askReads.x, askReads.y), ?_, ?_⟩ ?_ ?_ ?_ ?_ ?_)
    <;> decide +kernel


def askWrite : Ask :=
  { op := 0x11, role := 3, key := 0x3000001, id := 3, body := words [1, 0x800000, 0x10001],
    r := 0xff9d321d9ef628d069d610c7f31454e08a1190ee4d9e9f94810117f2d8e1d140efedb2bdc3d5112a8b216b5547c4c114, s := 0xff9d321d9ef628d069d610c7f31454e08a1190ee4d9e9f94810117f2d8e1d140efedb2bdc3d5112a8b216b5547c4c114,
    x := 0xf6b74a24e1ccb20ace891c8d9105e61999ca21dba1630f42369539c1dd16ed9c1388e487e31e9988fd68a33686557056, y := 0x63fab9cee6565ff0c128c86ee120f02fdc837638649c8d7b63f0f30364a9f36494d3057ed08f134815d17dd4af8d31ac }

theorem wit_m_dcs_write : Obligations.ManagementOperationsTakeEffect → Completes .dcsWrite (askWrite.waits base []) := fun h => by
  have e : leAt askWrite.req.body 0 4 = 1 := by decide +kernel
  have only : ∀ i, i < leAt askWrite.req.body 0 4 → i = 0 := fun i hi => by omega
  refine done (((h (askWrite.waits base []) askWrite.msg askWrite.req).2.1 (allowed (askWrite.x, askWrite.y) ?_ ?_ ?_ ?_ ?_ ?_ ?_ ?_ ?_) ?_ ?_ ?_
    ?_).1 (fun i hi => only i hi ▸ ⟨0, 0, ?_⟩)) <;> decide +kernel


def askWrites : Ask :=
  { op := 0x11, role := 3, key := 0x3000001, id := 2, body := words [2, 0x800000, 0x10001, 0x900000, 0],
    r := 0xc8aa4aa5937d8716815d608b336872b936000339c91e25d4e3fbb900d092a6c677997e93d68d52b35876c028804011af, s := 0xc8aa4aa5937d8716815d608b336872b936000339c91e25d4e3fbb900d092a6c677997e93d68d52b35876c028804011af,
    x := 0x1ae2c61e3575f8362e02e8068e4dec7ae1ea217d43143f79299aee4cceebfadb8ab99125c8dde34820243e1e18baef88, y := 0x439917d4b3d5a7e74aa4ad69afa7a41292b241bc029f03b3a155fdd3d73636597bc10bf8c373617197a49cf4300783c1 }

theorem wit_dcs_write_other : Obligations.ManagementOperationsTakeEffect → Completes .dcsWrite (askWrites.waits base []) := fun h => by
  refine done (((h (askWrites.waits base []) askWrites.msg askWrites.req).2.1 (allowed (askWrites.x, askWrites.y) ?_ ?_ ?_ ?_ ?_ ?_ ?_ ?_ ?_) ?_
    ?_ ?_ ?_).2 1 ?_ (fun i hi => (fun e : i = 0 => by subst e; exact ⟨0, 0, (by decide +kernel)⟩) (by omega)) ⟨.cfg, 0, 0, (by decide +kernel),
    (by decide +kernel), (by decide +kernel)⟩) <;> decide +kernel


def askStart : Ask :=
  { op := 0x20, role := 3, key := 0x3000001, id := 1, body := words [0x8004],
    r := 0x53acfec08a6792408361efb8328a74470697f08c2d821746027ad5ee2688f735b8bcc2750c2b68df93396f85692fd6ba, s := 0x53acfec08a6792408361efb8328a74470697f08c2d821746027ad5ee2688f735b8bcc2750c2b68df93396f85692fd6ba,
    x := 0xeb4e8a896196fe94640cf43d7f3b5706807920ee3d4617f2b91a4b7f17f4c82e043a148d09fa63794d73360c27a9d5ca, y := 0x2e28e1b3333b20e444e6a6b12d31ec8ce2640cbcb13be88990fa85552c0e7e90f1949e30e5c614f946c60dd1f6499526 }

theorem wit_serve_start : Obligations.ManagementOperationsTakeEffect → Completes .serveStart (askStart.waits (serving 1 0 1 [] EthState.reset) []) := fun h => by
  refine done ((h (askStart.waits (serving 1 0 1 [] EthState.reset) []) askStart.msg askStart.req).2.2.1 (allowed (askStart.x, askStart.y) ?_ ?_ ?_
    ?_ ?_ ?_ ?_ ?_ ?_) ?_ ?_) <;> decide +kernel


def askStop0 : Ask :=
  { op := 0x21, role := 3, key := 0x3000001, id := 1, body := words [0x8004],
    r := 0xf487cc2b3379b21b401c57136af38a8b29e6ef6efe79257bca11390571cd67b76e5ebb1e413a1e1dbf81d41554b2463e, s := 0xf487cc2b3379b21b401c57136af38a8b29e6ef6efe79257bca11390571cd67b76e5ebb1e413a1e1dbf81d41554b2463e,
    x := 0x89a2bb5c48366189e6e0f2e935cfd251393288d80b2c552d1e93d92e61de0beae69d4dc33ef20ef2296c6e93e1dae862, y := 0xea5bb01c5d4998b7ce03c108de9c19dc10fbfbaa80e5a440c43bb7fb9e8e72e69718de7e04a0e8a6c8cfc9c87c392f05 }

theorem wit_serve_stop : Obligations.ManagementOperationsTakeEffect → Completes .serveStop (askStop0.waits (serving 1 1 1 [req 1 0 none none] EthState.reset) []) := fun h => by
  refine done (((h (askStop0.waits (serving 1 1 1 [req 1 0 none none] EthState.reset) []) askStop0.msg askStop0.req).2.2.2.1 (allowed (askStop0.x,
    askStop0.y) ?_ ?_ ?_ ?_ ?_ ?_ ?_ ?_ ?_) ?_ ?_).1 ?_) <;> decide +kernel


def askStop1 : Ask :=
  { op := 0x21, role := 3, key := 0x3000001, id := 2, body := words [0x18004],
    r := 0x96b6b25b65a69812b640d31972ce3ed9bbc881605eeeb2b5b2fb034bbaebb46992f0d435028710b6f37626d426689113, s := 0x96b6b25b65a69812b640d31972ce3ed9bbc881605eeeb2b5b2fb034bbaebb46992f0d435028710b6f37626d426689113,
    x := 0x71b8ee87acd0d23b209887feecd24cebf6f11e7437169d21b9f7dee3d2efa808837ac0c582baa3383cab2c6aca72a062, y := 0x1dec54703e184191ea6440b95f41901afe8aa44c15ef2245c52c5731c546df3e9f504d4b5ecc5d958287ff26247747d }

theorem wit_serve_stop_now : Obligations.ManagementOperationsTakeEffect → Completes .serveStop (askStop1.waits (serving 1 1 1 [req 1 0 (some 0) none] EthState.reset) []) := fun h => by
  refine done (((h (askStop1.waits (serving 1 1 1 [req 1 0 (some 0) none] EthState.reset) []) askStop1.msg askStop1.req).2.2.2.1 (allowed
    (askStop1.x, askStop1.y) ?_ ?_ ?_ ?_ ?_ ?_ ?_ ?_ ?_) ?_ ?_).2 ?_ ?_ ?_) <;> decide +kernel


def askShares : Ask :=
  { op := 0x22, role := 3, key := 0x3000001, id := 1, body := words [0x8001, 0xffff, 0, 0, 0, 0, 0, 0, 0x10000],
    r := 0xa347b5d9a063d4f6ef6048b6fda57ee9d0dc7d2b9b6bfe9386b6f3db6bb6e069c8bf8b304d2e20c91720176c135296c3, s := 0xa347b5d9a063d4f6ef6048b6fda57ee9d0dc7d2b9b6bfe9386b6f3db6bb6e069c8bf8b304d2e20c91720176c135296c3,
    x := 0x72ad01e20aa66890026ad8b22cc3dd7e76a26d48d24090da49d3c4ad787e8382cbbba59d4871fee13327eb9ca550cb4f, y := 0x984b12594f52516814602a550ee83045f0b40373b867ed049ff7d1dd2932297a77f558a98a7ff17ab0636d71ebd5577d }

theorem wit_set_shares : Obligations.ManagementOperationsTakeEffect → Completes .setShares (askShares.waits base []) := fun h => by
  refine done ((h (askShares.waits base []) askShares.msg askShares.req).2.2.2.2.1 (allowed (askShares.x, askShares.y) ?_ ?_ ?_ ?_ ?_ ?_ ?_ ?_ ?_)
    ?_ ?_ ?_) <;> decide +kernel


def askWeights : Ask :=
  { op := 0x23, role := 3, key := 0x3000001, id := 4, body := words [7, 2, 0x3f, 0, 0, 0, 0x10000, 0],
    r := 0xe2ecdfbf97776683ba82db65e78735ef8009be09db81fc2534d203fb9acda02f157ba5150d772f7ec4667ebbb50ae165, s := 0xe2ecdfbf97776683ba82db65e78735ef8009be09db81fc2534d203fb9acda02f157ba5150d772f7ec4667ebbb50ae165,
    x := 0xfa5b18f2c19e991e5272340336e484f016f94f4115cc11c3cd734b80db32115256ae56bcf4de9b6731a64a67202846f6, y := 0x9864e5cee331789cd58c68665c4a3f5ed23de69d3e6d2b8be84e37033cdca18f9a3975fc92edb0065fe2ddd1c3503a4c }

def askWeights8 : Ask :=
  { op := 0x23, role := 3, key := 0x3000001, id := 2, body := words [8, 2, 0x3f, 0, 0, 0, 0x10000, 0],
    r := 0xd205d6e47fff8d93d20992736421a5c49210df259f25b4233ef4a1ab41b505cb9cf3622b1a6536d16562a36882215963, s := 0xd205d6e47fff8d93d20992736421a5c49210df259f25b4233ef4a1ab41b505cb9cf3622b1a6536d16562a36882215963,
    x := 0xc47dda6d7ddbf974f8c82bf4f64b713a50e80cc9d5666139edce2150abd28a052e2411ed468b151089cfac67b32fd39, y := 0x58d5fd157b8ee076c237834cf97fbe993316ba1586897f645bb096993ce68d144889bea2f3cd3b4f54f041376be42619 }

theorem wit_load_weights : Obligations.ManagementOperationsTakeEffect → Completes .loadWeights (askWeights.waits ((serving 1 1 1 [] EthState.reset).puts [(Reg.ETH_ROCE_WIN_LEN_LEN 63, 1)]) []) := fun h => by
  refine cont ((h (askWeights.waits ((serving 1 1 1 [] EthState.reset).puts [(Reg.ETH_ROCE_WIN_LEN_LEN 63, 1)]) []) askWeights.msg
    askWeights.req).2.2.2.2.2.1 (allowed (askWeights.x, askWeights.y) ?_ ?_ ?_ ?_ ?_ ?_ ?_ ?_ ?_) ?_ ?_ ?_ ?_ ?_ ?_ ?_) (fun g => ?fin)
  case fin =>
    have e : (askWeights.waits ((serving 1 1 1 [] EthState.reset).puts [(Reg.ETH_ROCE_WIN_LEN_LEN 63, 1)]) []).serves (leAt askWeights.req.body 4 1) (leAt askWeights.req.body 0 4) = some (5, model7) := (by decide +kernel)
    simp only [e] at g
    exact done g
  all_goals decide +kernel


theorem wit_load_weights_none : Obligations.ManagementOperationsTakeEffect → Completes .loadWeights (askWeights8.waits ((serving 1 1 1 [] EthState.reset).puts [(Reg.ETH_ROCE_WIN_LEN_LEN 63, 1)]) []) := fun h => by
  refine cont ((h (askWeights8.waits ((serving 1 1 1 [] EthState.reset).puts [(Reg.ETH_ROCE_WIN_LEN_LEN 63, 1)]) []) askWeights8.msg
    askWeights8.req).2.2.2.2.2.1 (allowed (askWeights8.x, askWeights8.y) ?_ ?_ ?_ ?_ ?_ ?_ ?_ ?_ ?_) ?_ ?_ ?_ ?_ ?_ ?_ ?_) (fun g => ?fin)
  case fin =>
    have e : (askWeights8.waits ((serving 1 1 1 [] EthState.reset).puts [(Reg.ETH_ROCE_WIN_LEN_LEN 63, 1)]) []).serves (leAt askWeights8.req.body 4 1) (leAt askWeights8.req.body 0 4) = none := (by decide +kernel)
    simp only [e] at g
    exact done g
  all_goals decide +kernel


theorem wit_power_grant : Obligations.ManagementOperationsTakeEffect → Completes .powerGrant (askGrant.waits base []) := fun h => by
  refine done ((h (askGrant.waits base []) askGrant.msg askGrant.req).2.2.2.2.2.2.1 (allowed (askGrant.x, askGrant.y) ?_ ?_ ?_ ?_ ?_ ?_ ?_ ?_ ?_)
    ?_ ?_ ?_ ?_ ?_ ?_) <;> decide +kernel


def askSubscribe : Ask :=
  { op := 0x40, role := 3, key := 0x3000001, id := 1, body := words [0xfff0704, 0xffff1234, 0xffffffff, 0, 0x100000a, 0, 0, 0],
    r := 0xf4d330175f45e4fad8ff3ceb2e7e24196eb7dc97e4ac2441e72b2a8e67e16cb326e1e6f23f89a279b14f6add44f3206, s := 0xf4d330175f45e4fad8ff3ceb2e7e24196eb7dc97e4ac2441e72b2a8e67e16cb326e1e6f23f89a279b14f6add44f3206,
    x := 0xdcf276d820a27213114d338ae13fc7cc4e1174a42ebbd9975d4106b44fd42779f93016bdc848f593341024b0f45eebf9, y := 0xa0decc138673318b2155be3220e4747c9b028c1e828723f392d93f5d5ee4a9adccc48648b395f20bdbacdf64aaa5951a }

theorem wit_subscribe : Obligations.ManagementOperationsTakeEffect → Completes .telemetrySubscribe (askSubscribe.waits base []) := fun h => by
  refine done ((h (askSubscribe.waits base []) askSubscribe.msg askSubscribe.req).2.2.2.2.2.2.2.1 (allowed (askSubscribe.x, askSubscribe.y) ?_ ?_
    ?_ ?_ ?_ ?_ ?_ ?_ ?_) ?_ ?_ ?_ false 0x0A000001 ?_) <;> decide +kernel


def askSak : Ask :=
  { op := 0x41, role := 3, key := 0x3000001, id := 3, body := words [0x1010300, 0xffffffff, 0xffffffff, 0xffffffff, 0xffffffff, 1, 2, 3, 4, 0, 0xabcdef01, 0xabcdef01, 0xabcdef01, 0xabcdef01, 0xabcdef01, 0xabcdef01, 0xabcdef01, 0xabcdef01],
    r := 0x9a55af46ffdc57a7acb7f5c9186033dbe98f1c34168851d38a35493a42c37b7660d9237a17ec803ca929864c01c55ac4, s := 0x9a55af46ffdc57a7acb7f5c9186033dbe98f1c34168851d38a35493a42c37b7660d9237a17ec803ca929864c01c55ac4,
    x := 0xe0bf135dfb290114c46d809047762e1424d5ed7bae3026f2e960c7c3b1dd726fcdaa5cb9688eb01b712fd3df17bf4492, y := 0x40e1ed3a0d6cd2a227edfcba22b756660d555f4d4b3be61874b478fc0dc60bea5f31cf13fdcad019d6f22a4380e8560b }

theorem wit_macsec_sak : Obligations.ManagementOperationsTakeEffect → Completes .macsecSak (askSak.waits base []) := fun h => by
  refine done ((h (askSak.waits base []) askSak.msg askSak.req).2.2.2.2.2.2.2.2.1 (allowed (askSak.x, askSak.y) ?_ ?_ ?_ ?_ ?_ ?_ ?_ ?_ ?_) ?_ ?_
    ?_ ?_ ?_ ?_ (fun e => absurd e ?_)) <;> decide +kernel


def askWindow : Ask :=
  { op := 0x42, role := 3, key := 0x3000001, id := 1, body := words [0xf073f, 0x1ffffff, 0x3ff, 0x1ffffff, 1],
    r := 0x4070a4554541a1cb77eb39cd36133161e3ce22b2e5ea1eeee6564ec78ca276d298eeb2e0cbb7433f6f00374dd3fb59ae, s := 0x4070a4554541a1cb77eb39cd36133161e3ce22b2e5ea1eeee6564ec78ca276d298eeb2e0cbb7433f6f00374dd3fb59ae,
    x := 0xee63d89cb0315f7e5a14f051e772e5e9109b528adb4137d5ca3620bbf18244ae186bb07c14e788c34b77c16c4140541d, y := 0xe1b025701c1091521685b996bbc7bf87f6a6c3fc3f09613cdc9660f245bf301c5516a1d7097b8dd782177b50a3952362 }

theorem wit_window : Obligations.ManagementOperationsTakeEffect → Completes .roceWindow (askWindow.waits base []) := fun h => by
  refine done ((h (askWindow.waits base []) askWindow.msg askWindow.req).2.2.2.2.2.2.2.2.2.1 (allowed (askWindow.x, askWindow.y) ?_ ?_ ?_ ?_ ?_ ?_
    ?_ ?_ ?_) ?_ ?_ ?_ ?_ ?_ ?_ ?_ ?_ ?_ ?_) <;> decide +kernel


def askDestroy : Ask :=
  { op := 0x43, role := 3, key := 0x3000001, id := 2, body := words [2, 0xff, 0, 0, 0, 0, 0, 0, 0, 0, 0, 0, 0, 0],
    r := 0xee80cf88751c71dfede50a06c89ba39b223ab6a50cecce0802d0a48e17e8b4ab0d5f48b4a10159996b0b896f7418b8d3, s := 0xee80cf88751c71dfede50a06c89ba39b223ab6a50cecce0802d0a48e17e8b4ab0d5f48b4a10159996b0b896f7418b8d3,
    x := 0xe15ec9437b7a7107aa4a79a5228e05829f8b0e6bde8d780dee8273d8b008421a752329f5ea9b4d279208de2a789a472d, y := 0x3919b3171ad80621c904bc7b34d58ffa70d78c0f574ea4ecfcda126578b45fa471a383fa28d3bce995a8c1979289a665 }

def qps (k : Nat) : State := { base with eth := { EthState.reset with qps := (List.range k).map fun i => (i, qp1) } }


theorem wit_qp_destroy : Obligations.ManagementOperationsTakeEffect → Completes .roceQp (askDestroy.waits (qps 256) []) := fun h => by
  refine done (((h (askDestroy.waits (qps 256) []) askDestroy.msg askDestroy.req).2.2.2.2.2.2.2.2.2.2 (allowed (askDestroy.x, askDestroy.y) ?_ ?_
    ?_ ?_ ?_ ?_ ?_ ?_ ?_) ?_ ?_ ?_ ?_ ?_).1 ?_) <;> decide +kernel


def askCreate : Ask :=
  { op := 0x43, role := 3, key := 0x3000001, id := 3, body := words [0x301, 0, 0xffffff, 0xffffff, 0xffffff, 0xfff0f06, 0xffffffff, 0xffff, 1, 2, 3, 4, 0x7ff1f3f, 0],
    r := 0x645132236df0d5a858be7e98aa093d26845ca8445c70945e51976bf0e873125b6cc6a7d7e4a7995bdd042c4356efe0a3, s := 0x645132236df0d5a858be7e98aa093d26845ca8445c70945e51976bf0e873125b6cc6a7d7e4a7995bdd042c4356efe0a3,
    x := 0x9208a3b0f3d7442e999c12a6572aeec101c91b0d02d33236dd581ac81d371eec13e58249e393449bb1bb5e12b8f7eae, y := 0xa314c66dec975c42ba9d69b4b9c8ee9a6d3a5a1dca680509880ff298c6d6abb35f7cbe7f8dc396a00b9e02e84b4d94d3 }

theorem wit_qp_create : Obligations.ManagementOperationsTakeEffect → Completes .roceQp (askCreate.waits (qps 255) []) := fun h => by
  refine done ((((h (askCreate.waits (qps 255) []) askCreate.msg askCreate.req).2.2.2.2.2.2.2.2.2.2 (allowed (askCreate.x, askCreate.y) ?_ ?_ ?_ ?_
    ?_ ?_ ?_ ?_ ?_) ?_ ?_ ?_ ?_ ?_).2 ?_ ?_ ?_ ?_ ?_ ?_ ?_ ?_ ?_ ?_ ?_ ?_).1 255 ?_ ?_ ?_) <;> decide +kernel


theorem wit_qp_full : Obligations.ManagementOperationsTakeEffect → Completes .roceQp (askCreate.waits (qps 256) []) := fun h => by
  refine done ((((h (askCreate.waits (qps 256) []) askCreate.msg askCreate.req).2.2.2.2.2.2.2.2.2.2 (allowed (askCreate.x, askCreate.y) ?_ ?_ ?_ ?_
    ?_ ?_ ?_ ?_ ?_) ?_ ?_ ?_ ?_ ?_).2 ?_ ?_ ?_ ?_ ?_ ?_ ?_ ?_ ?_ ?_ ?_ ?_).2 ?_) <;> decide +kernel


/-! Heats and groups. -/

/-- Context 5 in a state, with what serving keeps of it, its declaration, and requests. -/
def heat (st : Nat) (x : CtxServe) (rs : List Request) (s : State) : State :=
  { (s.setReg (Reg.aSCH_CTX_STATE 5) 0).puts [(Reg.SCH_CTX_STATE_STATE 5, st), (Reg.SCH_CTX_STATE_PART 5, 2), (Reg.SCH_PART_CFG_EXISTS 2, 1), (Reg.SCH_PART_CFG_SERVING 2, 1)] with
    srv := { s.srv with reqs := rs, orders := 9, ctxs := [(5, x)], bufSize := [(2, 384)] } }
def serve0 : CtxServe := { CtxServe.reset with load := some model7 }
/-- A request with an inline input, queued or in the batch. -/
def job (slot : Option Nat) : Request :=
  { req 1 0 slot none with seqs := [{ seq1 slot false with input := some [] }], maxHeats := 9 }

theorem wit_heat_idle : Obligations.HeatsStartWithTheirBatch → Completes (.heatStart 5) (heat 1 serve0 [] run) := fun h =>
  done ((h (heat 1 serve0 [] run) 5 model7 rfl).1 (by decide +kernel))

/-- What a window access ends in, where it is done. -/
def winDone : WinEnd → Option (State × List Byte)
  | .done s bs => some (s, bs)
  | _ => none
theorem winDone_eq {e : WinEnd} (h : (winDone e).isSome = true) : e = .done ((winDone e).get h).1 ((winDone e).get h).2 := by
  cases e with
  | done a b => rfl
  | _ => simp [winDone] at h

/-- A load heat waits, or is run again, of the first 64 bytes of window 63. -/
def load0 : LoadHeat := { window := 63, off := 0, len := 64 }
def loadHeat (again : Bool) : State :=
  heat 1 { serve0 with loads := if again then [] else [load0], loading := if again then some load0 else none, rerun := again } []
    ((seamsUp run).puts [(Reg.ETH_ROCE_WIN_LEN_LEN 63, 1), (Reg.ETH_ROCE_WIN_DEV_DEVICE 63, 5), (Reg.ETH_ROCE_WIN_BASE_OFFSET 63, 1)])
def loadWin (again : Bool) : WinEnd := (((loadHeat again).schedPoint ((loadHeat again).homeQ 5)).fixWords 5).winAccess 63 0 64 none

theorem wit_load_heat : Obligations.HeatsStartWithTheirBatch → Completes (.heatStart 5) (loadHeat false) := fun h =>
  done (((h (loadHeat false) 5 model7 rfl).2.2 (by decide +kernel) (by decide +kernel) (by decide +kernel) (by decide +kernel)).1 load0 ((winDone (loadWin false)).get (by decide +kernel)).1 ((winDone (loadWin false)).get (by decide +kernel)).2 (by decide +kernel) (winDone_eq (by decide +kernel)))

theorem wit_load_heat_again : Obligations.HeatsStartWithTheirBatch → Completes (.heatStart 5) (loadHeat true) := fun h =>
  done (((h (loadHeat true) 5 model7 rfl).2.2 (by decide +kernel) (by decide +kernel) (by decide +kernel) (by decide +kernel)).1 load0 ((winDone (loadWin true)).get (by decide +kernel)).1 ((winDone (loadWin true)).get (by decide +kernel)).2 (by decide +kernel) (winDone_eq (by decide +kernel)))

/-- A request joins, or the batch is run again. -/
def joins : State := heat 1 serve0 [job none] run
def reruns : State := heat 1 { serve0 with rerun := true, batch := [(8, 0)] } [job (some 0)] run

theorem joins_joiners : ((joins.schedPoint (joins.homeQ (5 : Fin 64))).fixWords (5 : Fin 64)).joiners (5 : Fin 64) = [(8, 0)] := (by decide +kernel)

theorem wit_heat_joins : Obligations.HeatsStartWithTheirBatch → Completes (.heatStart 5) joins := fun h => by
  refine done (((h joins 5 model7 rfl).2.2 ?_ ?_ ?_ ?_).2 ?_ ?_ (fun _ y hy => (List.mem_singleton.mp (joins_joiners ▸ hy)) ▸ ⟨job none,
    { seq1 none false with input := some [] }, ?_, ?_, ?_⟩) ?_) <;> decide +kernel

theorem wit_heat_again : Obligations.HeatsStartWithTheirBatch → Completes (.heatStart 5) reruns := fun h =>
  done (((h reruns 5 model7 rfl).2.2 (by decide +kernel) (by decide +kernel) (by decide +kernel) (by decide +kernel)).2 (by decide +kernel) (by decide +kernel) (fun e => absurd e (by decide +kernel)) (by decide +kernel))

/-- A remap of the row that holds the context's tables waits. -/
def remapWaits : State := (heat 1 serve0 [job none] (rooted 1)).modStk 0 fun x => { x with remapNext := [(0, 32, 0)] }

theorem wit_heat_held : Obligations.HeatsStartWithTheirBatch → Completes (.heatStart 5) remapWaits := fun h => by
  refine done ((h remapWaits 5 model7 rfl).2.1 ?_ ?_ ?_) <;> decide +kernel

theorem wit_heat_not_done : Obligations.HeatsCheckAndCommit → Completes (.heatEndChecks 5 [] none) (heat 1 serve0 [] run) := fun h =>
  done ((h (heat 1 serve0 [] run) 5 model7 rfl).1 [] none (by decide +kernel))

/-- An entry of the context is left in a queue of unit 31. -/
def leg0 : Leg :=
  { cfg := List.replicate 256 0, values := [], limits := [], halted := [], carry := [], sel := 0, skip := [], due := [], ags := [], sent := 0,
    target := none, lane0 := 0, seals := [], sealDone := false }
def leftover : State :=
  (heat 2 serve0 [] run).modField 3 fun f =>
    { f with grid := { f.grid with units := [(31, { queues := [(7, [QEntry.data 7 [] 0])],
                                                    legs := [(7, { leg0 with cfg := leBytes 256 (2 + 2 ^ 5) })], old := none })] } }

theorem clean {s : State} {c : Nat} (h : ∀ x ∈ s.slotsOf c, (∀ l ∈ (s.field x.1).fm.lines, l.slot ≠ x.2) ∧ s.cacheSending x.1 c = false) :
    s.CacheClean c := h

theorem wit_heat_residue : Obligations.HeatsCheckAndCommit → Completes (.heatEndChecks 5 [] none) leftover := fun h => by
  refine done (((h leftover 5 model7 rfl).2 ?_ ?_ ?_).2.1 (3, 1) [] none (clean ?_) ?_ ?_) <;> decide +kernel

/-- A line of the context is dirty, and its stack sleeps. -/
def flushes : State := heat 2 serve0 [] ((cached [aLine]).puts [(Reg.STK_STATUS_PWR_STATE 0, 1)])

theorem wit_heat_flushes : Obligations.HeatsCheckAndCommit → Completes (.heatEndChecks 5 [] none) (flushes) := fun h => by
  refine done (((h flushes 5 model7 rfl).2 ?_ ?_ ?_).1 [] none ?_) <;> decide +kernel

/-- The model with one pair of areas. -/
def model2 (g : Option GroupDecl) : CtxLoad := { model7 with decl := { model7.decl with pairs := [(0, 0x7FC0000000)] }, group := g }
def paired1 : State := heat 2 { serve0 with load := some (model2 none) } [] (run.puts [(Reg.XLT_CTX_ROOT_EN 5, 1), (Reg.XLT_CTX_ROOT_ROOT 5, 1)])

theorem wit_commit_cut : Obligations.HeatsCheckAndCommit → Completes (.heatEndChecks 5 [] (some 8)) paired1 := fun h => by
  refine done ((((h paired1 5 (model2 none) rfl).2 ?_ ?_ ?_).2.2 (clean ?_) ?_ ?_ rfl ?_).1 8) <;> decide +kernel

theorem wit_commit : Obligations.HeatsCheckAndCommit → Completes (.heatEndChecks 5 [] none) paired1 := fun h => by
  refine done (((((h paired1 5 (model2 none) rfl).2 ?_ ?_ ?_).2.2 (clean ?_) ?_ ?_ rfl ?_).2 ?_).1 ?_ ?_ ?_) <;> decide +kernel

/-- The result buffer of partition 2 begins where the context's tables end. -/
def buffered : State := { paired1 with srv := { paired1.srv with bufAt := [(2, 0x400000)] } }

theorem wit_commit_buffer : Obligations.HeatsCheckAndCommit → Completes (.heatEndChecks 5 [] none) buffered := fun h => by
  refine done (((((h buffered 5 (model2 none) rfl).2 ?_ ?_ ?_).2.2 (clean ?_) ?_ ?_ rfl ?_).2 ?_).1 ?_ ?_ ?_) <;> decide +kernel

/-- The sequence in batch slot 0 has made 5 bytes at VA 0x3FFFFFFB. -/
def out0 : SeqOut := { slot := 0, va := 0x3FFFFFFB, len := 5, ended := false, grow := 1 }
def outputs : State := heat 2 { serve0 with batch := [(8, 0)] } [job (some 0)] (rooted 1)
/-- A control core reads bytes of a stack that is awake. -/
theorem core_read {s : State} {c : Nat} {ps : List (Nat × Nat)} (va n a : Nat) {bs : List Byte} (hp : ps = [(va, n)]) (h : (s.coreTarget c va false).toOption = some a) (hs : a < 2 ^ 44)
    (hw : ¬ (s.get (Reg.STK_STATUS_PWR_STATE (a / stackSize)) = 1 ∨ s.get (Reg.STK_STATUS_PWR_STATE (a / stackSize)) = 2))
    (hb : s.badWord? a n = none) (hd : s.mread a n = bs) : s.vaCoreRead c ps = .ok (s, bs) := by
  subst hp
  have w : s.coreAwake a n false = s := (if_pos hs).trans (if_neg hw)
  simp [State.vaCoreRead, acc_eq h, w, hb, hd]

theorem wit_commit_output : Obligations.HeatsCheckAndCommit → Completes (.heatEndChecks 5 [out0] none) outputs := fun h => by
  refine done (((((h outputs 5 model7 rfl).2 ?_ ?_ ?_).2.2 (clean ?_) ?_ ?_ rfl ?_).2 ?_).2 out0 (job (some 0))
    { seq1 (some 0) false with input := some [] } 0 (List.replicate 5 0) ?_ ?_ ?_ ?_ ?_ ?_ ?_ ?_ (core_read 0x3FFFFFFB 5 0x7FFFFFFB ?_ ?_ ?_ ?_ ?_
    ?_) ?_ ?_ ?_ ?_) <;> decide +kernel

theorem wit_abandon_not : Obligations.HeatsAreAbandonedReplayedAndPreempted → Completes (.heatAbandon 5) (heat 2 serve0 [] run) := fun h =>
  done ((h (heat 2 serve0 [] run) 5).1 (by decide +kernel))

/-- The heat is uncommittable by faults of a rank; it has been replayed so often. -/
def faulted1 (rank replay : Nat) : State :=
  (((heat 2 { serve0 with batch := [(8, 0)] } [job (some 0)] run).puts [(Reg.SCH_CTX_STATE_UNCOMMITTABLE 5, 1), (Reg.SCH_CTX_STATE_REPLAY 5, replay)]).modCtx 5
    fun x => { x with pendRank := rank, pendCode := 0xFFF })

theorem wit_abandon_reject : Obligations.HeatsAreAbandonedReplayedAndPreempted → Completes (.heatAbandon 5) (faulted1 3 0) := fun h => by
  refine done ((h (faulted1 3 0) 5).2.1 model7 rfl rfl ?_ ?_ ?_ ?_ ?_ ?_ ?_) <;> decide +kernel

theorem wit_abandon_limit : Obligations.HeatsAreAbandonedReplayedAndPreempted → Completes (.heatAbandon 5) (faulted1 1 3) := fun h => by
  refine done ((h (faulted1 1 3) 5).2.1 model7 rfl rfl ?_ ?_ ?_ ?_ ?_ ?_ ?_) <;> decide +kernel

theorem wit_abandon_replay : Obligations.HeatsAreAbandonedReplayedAndPreempted → Completes (.heatAbandon 5) (faulted1 0 2) := fun h => by
  refine done ((h (faulted1 0 2) 5).2.1 model7 rfl rfl ?_ ?_ ?_ ?_ ?_ ?_ ?_) <;> decide +kernel

/-- The Silt of the heat has run out on Field 3, logical Field 3, which has so many chunks of the image's largest 8. -/
def modelSilt : CtxLoad := { model7 with decl := { model7.decl with silt := [(3, 8)] } }
def siltGone (n : Nat) : State :=
  ((heat 2 { serve0 with load := some modelSilt, batch := [(8, 0)] } [job (some 0)] run).puts [(Reg.SCH_CTX_STATE_UNCOMMITTABLE 5, 1),
    (Reg.FLD_SILT_CTRL_CHUNKS 3 1, n)]).modCtx 5 fun x => { x with pendRank := 1, siltOut := [3] }

theorem wit_silt_doubles : Obligations.HeatsAreAbandonedReplayedAndPreempted → ∃ t, exec (.heatAbandon 5) (siltGone 7) = .next t ∧
    t.get (Reg.FLD_SILT_CTRL_CHUNKS 3 1) = 8 := fun h => by
  refine cont ((h (siltGone 7) 5).2.1 modelSilt rfl rfl ?_ ?_ ?_ ?_ ?_ ?_ ?_) (fun ⟨t, e, g⟩ => ⟨t, e, ((g.2.2.2.2.2.2.2.2.2 3 1 ?_ ?_ ?_).2 ?_
    ?_).2.2⟩) <;> decide +kernel

theorem wit_silt_rejects : Obligations.HeatsAreAbandonedReplayedAndPreempted → ∃ t, exec (.heatAbandon 5) (siltGone 8) = .next t ∧
    (t.serve 5).batch = [] := fun h => by
  refine cont ((h (siltGone 8) 5).2.1 modelSilt rfl rfl ?_ ?_ ?_ ?_ ?_ ?_ ?_) (fun ⟨t, e, g⟩ => ⟨t, e, ((g.2.2.2.2.2.2.2.2.2 3 1 ?_ ?_ ?_).1
    ?_).2⟩) <;> decide +kernel

/-- The heat has run for so many ticks of a limit of 1 ms. -/
def runsFor (n : Nat) : State := heat 2 { serve0 with ran := n } [] (run.puts [(Reg.SCH_CTRL_HEAT_LIMIT_MS, 1)])

theorem wit_heat_late : Obligations.HeatsAreAbandonedReplayedAndPreempted → Completes (.heatTimeout 5) (runsFor 34) := fun h =>
  done ((h (runsFor 34) 5).2.2.1.1 (by decide +kernel))

theorem wit_heat_in_time : Obligations.HeatsAreAbandonedReplayedAndPreempted → Completes (.heatTimeout 5) (runsFor 33) := fun h =>
  done ((h (runsFor 33) 5).2.2.1.2 (by decide +kernel))

theorem wit_susp_limit : Obligations.HeatsAreAbandonedReplayedAndPreempted →
    Completes (.suspendedWaitLimit 5) ((heat 3 serve0 [] run).modCtx 5 fun x => { x with waitSusp := true }) := fun h =>
  done ((h ((heat 3 serve0 [] run).modCtx 5 fun x => { x with waitSusp := true }) 5).2.2.2.1 (by decide +kernel) (by decide +kernel))

/-- Context 63 of partition 15 could start on Field 3, where context 5 runs, of a partition that has had more. -/
def competes (en : Nat) : State :=
  let s := (heat 2 serve0 [] run).puts [(Reg.FLD_CTX_MAP_CTX_ID 3 3, 63), (Reg.FLD_CTX_MAP_PART 3 3, 15), (Reg.FLD_CTX_MAP_VALID 3 3, 1),
    (Reg.SCH_CTX_STATE_STATE 63, 1), (Reg.SCH_CTX_STATE_PART 63, 15), (Reg.SCH_CTRL_MAX_CONC, 1), (Reg.SCH_CTRL_PREEMPT_EN, en)]
  { s with srv := { s.srv with ctxs := [(5, serve0), (63, { serve0 with loads := [load0] })], vt := [(2, 1), (15, 0)] } }

theorem only_prey (s : State) (p c : Nat) (h : ∀ k, k < 4 → s.ctxOf p k = none ∨ s.ctxOf p k = some 5 ∨ s.ctxOf p k = some 63)
    (h63 : s.ctxState 63 ≠ ctxRunning) (f : Nat)
    (hf : (∃ k, k < 4 ∧ s.ctxOf p k = some f) ∧ s.ctxState f = ctxRunning ∧ s.ctxActive f = true ∧ s.vtOf c < s.vtOf f) : f = 5 := by
  obtain ⟨⟨k, hk, e⟩, hr, -⟩ := hf
  rcases h k hk with g | g | g
  · rw [g] at e; cases e
  · rw [g] at e; exact (Option.some.inj e).symm
  · rw [g] at e; rw [← Option.some.inj e] at hr; exact absurd hr h63

theorem wit_preempt : Obligations.HeatsAreAbandonedReplayedAndPreempted → Completes (.preemptWaitExpiry 3 63) (competes 1) := fun h =>
  done (((h (competes 1) 63).2.2.2.2 3).1 5 (by decide +kernel) (by decide +kernel) (fun f hf => .inl (only_prey _ 3 63 (by decide +kernel) (by decide +kernel) f hf)))

theorem wit_preempt_off : Obligations.HeatsAreAbandonedReplayedAndPreempted → Completes (.preemptWaitExpiry 3 63) (competes 0) := fun h =>
  done (((h (competes 0) 63).2.2.2.2 3).2 (.inl (by decide +kernel)))

/-- Context 5 is member `me` of a group of two that member 0 leads; its heat is 2^64 - 1. -/
def group0 (me : Nat) : GroupDecl := { members := 2, me := me, leader := 0, word := 0x1000 }
def grouped (me st : Nat) (x : CtxServe) : State :=
  (heat st { x with load := some { model7 with group := some (group0 me) } } [] run).puts
    [(Reg.SCH_CTX_HEAT_LO_HEAT_LO 5, 0xFFFFFFFF), (Reg.SCH_CTX_HEAT_HI_HEAT_HI 5, 0xFFFFFFFF), (Reg.SCH_CTRL_GROUP_MS, 1), (⟨Reg.aBRK_TIME_LO, 31, 0⟩, 528)]
def groupL (me : Nat) : CtxLoad := { model7 with group := some (group0 me) }
def told1 (member what : Nat) : List Byte := groupRecord (2 ^ 64 - 1) member what 0

theorem wit_vote : Obligations.GroupsVoteAndDecide → Completes (.groupVote 5 (told1 1 1)) (grouped 0 2 serve0) := fun h => by
  refine done (((h (grouped 0 2 serve0) 5 (groupL 0) (group0 0) rfl rfl).1 (told1 1 1) ?_ ?_ ?_ ?_ ?_ ?_).1 ?_ ?_) <;> decide +kernel

theorem wit_vote_abandon : Obligations.GroupsVoteAndDecide → Completes (.groupVote 5 (told1 1 2)) (grouped 0 2 serve0) := fun h => by
  refine done (((h (grouped 0 2 serve0) 5 (groupL 0) (group0 0) rfl rfl).1 (told1 1 2) ?_ ?_ ?_ ?_ ?_ ?_).2.1 ?_ ?_) <;> decide +kernel

/-- The leader's own vote is in. -/
def ready0 : CtxServe := { serve0 with votes := [{ member := 0, ready := true }], awaitDecision := true, votedAt := 495 }

theorem wit_vote_commit : Obligations.GroupsVoteAndDecide → Completes (.groupVote 5 (told1 1 1)) (grouped 0 5 ready0) := fun h => by
  refine done (((h (grouped 0 5 ready0) 5 (groupL 0) (group0 0) rfl rfl).1 (told1 1 1) ?_ ?_ ?_ ?_ ?_ ?_).2.2 ?_ ?_ ?_) <;> decide +kernel

theorem wit_decision_abandon : Obligations.GroupsVoteAndDecide → Completes (.groupDecision 5 (told1 0 4)) (grouped 1 2 serve0) := fun h => by
  refine done (((h (grouped 1 2 serve0) 5 (groupL 1) (group0 1) rfl rfl).2.1 (told1 0 4) ?_ ?_ ?_ ?_).1 ?_ ?_) <;> decide +kernel

theorem wit_decision_commit : Obligations.GroupsVoteAndDecide → Completes (.groupDecision 5 (told1 0 3)) (grouped 1 5 serve0) := fun h => by
  refine done (((h (grouped 1 5 serve0) 5 (groupL 1) (group0 1) rfl rfl).2.1 (told1 0 3) ?_ ?_ ?_ ?_).2 ?_ ?_ ?_) <;> decide +kernel

theorem wit_vote_timeout : Obligations.GroupsVoteAndDecide → Completes (.groupVoteTimeout 5 []) (grouped 0 5 ready0) := fun h =>
  done ((((h (grouped 0 5 ready0) 5 (groupL 0) (group0 0) rfl rfl).2.2.1 [] (by decide +kernel)).1 (by decide +kernel) (by decide +kernel)).2 (by decide +kernel) (by decide +kernel))

theorem wit_vote_waits : Obligations.GroupsVoteAndDecide → Completes (.groupVoteTimeout 5 []) (grouped 0 5 { ready0 with votedAt := 496 }) := fun h =>
  done ((((h (grouped 0 5 { ready0 with votedAt := 496 }) 5 (groupL 0) (group0 0) rfl rfl).2.2.1 [] (by decide +kernel)).1 (by decide +kernel) (by decide +kernel)).1 (by decide +kernel))

/-- The leader has decided; member 1 has not read it. -/
def decided1 : CtxServe := { ready0 with decision := some true, undelivered := [1] }

theorem wit_delivery : Obligations.GroupsVoteAndDecide → Completes (.groupVoteTimeout 5 [0]) (grouped 0 1 decided1) := fun h =>
  done (((h (grouped 0 1 decided1) 5 (groupL 0) (group0 0) rfl rfl).2.2.1 [0] (by decide +kernel)).2 true (by decide +kernel))

theorem wit_member_waits : Obligations.GroupsVoteAndDecide → Completes (.groupVoteTimeout 5 []) (grouped 1 5 serve0) := fun h =>
  done (((h (grouped 1 5 serve0) 5 (groupL 1) (group0 1) rfl rfl).2.2.2 (by decide +kernel) (by decide +kernel)).1 [])

/-- A member whose leader has been silent for 16 times GROUP_MS. -/
def silent : State := grouped 1 5 { serve0 with votedAt := 3 }

theorem wit_leader_lost : Obligations.GroupsVoteAndDecide → Completes (.leaderLost 5 [none]) silent := fun h => by
  refine done ((((((h silent 5 (groupL 1) (group0 1) rfl rfl).2.2.2 ?_ ?_).2 [none]).1 ?_ ?_)).2.2 (fun ⟨_, e, _⟩ => by simp at e) (fun ⟨_, e, _⟩
    => by simp at e) ?_) <;> decide +kernel

theorem wit_leader_lost_commit : Obligations.GroupsVoteAndDecide → Completes (.leaderLost 5 [some (told1 1 3), none]) (silent) := fun h => by
  refine done ((((((h silent 5 (groupL 1) (group0 1) rfl rfl).2.2.2 ?_ ?_).2 [some (told1 1 3), none]).1 ?_ ?_)).1 ⟨told1 1 3, ?_, ?_, ?_⟩ ?_)
    <;> decide +kernel

theorem not_told (n : Nat) : ¬ ∃ b, some b ∈ [some (told1 1 4)] ∧ leAt b 0 8 = n ∧ leAt b 9 1 = 3 := fun ⟨b, e, _, w⟩ => by
  have k : leAt (told1 1 4) 9 1 ≠ 3 := by decide +kernel
  simp at e
  exact k (e ▸ w)

theorem wit_leader_lost_abandon : Obligations.GroupsVoteAndDecide → Completes (.leaderLost 5 [some (told1 1 4)]) (silent) := fun h => by
  refine done ((((((h silent 5 (groupL 1) (group0 1) rfl rfl).2.2.2 ?_ ?_).2 [some (told1 1 4)]).1 ?_ ?_)).2.1 (not_told _) (.inl ⟨told1 1 4, ?_, ?_, ?_⟩)) <;> decide +kernel

/-- The leader is lost. -/
def lost1 : State := grouped 1 5 { serve0 with groupLost := true }

theorem wit_word_commit : Obligations.GroupsVoteAndDecide → Completes (.decisionWordPoll 5 [some (told1 1 3), none]) lost1 := fun h => by
  refine done ((((((h lost1 5 (groupL 1) (group0 1) rfl rfl).2.2.2 ?_ ?_).2 [some (told1 1 3), none]).2 ?_)).1 ⟨told1 1 3, ?_, ?_, ?_⟩ ?_)
    <;> decide +kernel

theorem wit_word_abandon : Obligations.GroupsVoteAndDecide → Completes (.decisionWordPoll 5 [some (told1 1 4)]) lost1 := fun h => by
  refine done ((((((h lost1 5 (groupL 1) (group0 1) rfl rfl).2.2.2 ?_ ?_).2 [some (told1 1 4)]).2 ?_)).2.1 (not_told _) (.inl ⟨told1 1 4, ?_, ?_, ?_⟩)) <;> decide +kernel

theorem wit_word_waits : Obligations.GroupsVoteAndDecide → Completes (.decisionWordPoll 5 [none]) (lost1) := fun h => by
  refine done ((((((h lost1 5 (groupL 1) (group0 1) rfl rfl).2.2.2 ?_ ?_).2 [none]).2 ?_)).2.2 (fun ⟨_, e, _⟩ => by simp at e) (fun ⟨_, e, _⟩ => by
    simp at e) ?_) <;> decide +kernel

/-! Staging and activation. -/

/-- The window of partition 2 that staged objects are read from holds `b`, and slot 4 of the NV store is free. -/
def holding (b : List Byte) (e : EthState) : State :=
  let s := (serving 1 1 1 [] e).puts [(Reg.ETH_ROCE_WIN_CFG_EN 63, 1), (Reg.ETH_ROCE_WIN_CFG_R 63, 1), (Reg.ETH_ROCE_WIN_LEN_LEN 63, 1),
    (Reg.ETH_ROCE_WIN_DEV_DEVICE 63, 5)]
  s.mwrite 0 b
def stagingOf1 (record : Bool) (target len : Nat) : Staging := { record := record, target := target, window := 63, off := 0, len := len, activate := 0 }
def atWork (s : State) : State := { s with plane := { s.plane with staging := some (stagingOf1 false 0 388) } }


def askStage : Ask :=
  { op := 0x50, role := 2, key := 0x2000001, id := 3, body := words [0x3f, 0, 0, 0, 0x184, 0, 0, 0],
    r := 0x3eb62a3645a4450cf367489c1c39cdc4fe489c40b15ff975a8c2008c5d4fc5bed1105c74f30e7d9246a51a627412717e, s := 0x3eb62a3645a4450cf367489c1c39cdc4fe489c40b15ff975a8c2008c5d4fc5bed1105c74f30e7d9246a51a627412717e,
    x := 0x4891df9bc4ac8049d01eca4fd397493995888fe1287daf41621afb16fa367e4c378bfce7cc65ada78b0395ea0a9f414d, y := 0xdbc3c329e5789e9907527673f1effdfb42b770ba06c73cf99a03bd38ede81537a50e0f9e0636ac74303eea47a3b2974b }

def askFirm : Ask :=
  { op := 0x50, role := 1, key := 0x1000001, id := 2, body := words [0x3f, 2, 0, 0, 0x184, 0, 0, 0],
    r := 0x6a051cbcec6a4a24e9124216b2133aaf2bca06967e79c838d0cbf27b754861656fdbd8545c7d84c92b3b67bf02a1d0d9, s := 0x6a051cbcec6a4a24e9124216b2133aaf2bca06967e79c838d0cbf27b754861656fdbd8545c7d84c92b3b67bf02a1d0d9,
    x := 0x81ead69ebeca765de7a97614ae6883b87d359f2c189ab1e319703d5ef2e2c82097699618dd779879ebb550fa64edcd55, y := 0x201431d2b3c827f6bb15eeadce288c656c8bb0c031c9d566ba6f47c141036255e6885a31e7af2b1aa3227d9e4f0ee1ed }

def askRec : Ask :=
  { op := 0x51, role := 2, key := 0x2000001, id := 3, body := words [0x3f, 0, 0, 0, 0xc4, 0, 0, 0],
    r := 0x8c6aafffb69f6a20d26fc9a5cfc31a46305e00f8eb18703f908185c8354ee9c9d7f0fef8d931f43d84019902694b1d0e, s := 0x8c6aafffb69f6a20d26fc9a5cfc31a46305e00f8eb18703f908185c8354ee9c9d7f0fef8d931f43d84019902694b1d0e,
    x := 0x7998ddd9dfd4af1c4c1016b45efd6d35f6d1a1d8e3f46952c9a19197f6c32749e3a9aa490a5ab3cd5031ba4f3414e132, y := 0x9973177ed9d5ec4fce3bcb068acff5c6ff879b386cbbec5bc842ee2278e23a58369129043003ff15094288b332a14636 }

theorem wit_stage_busy : Obligations.ObjectsAreStagedAndFirmwareIsHandedOver → Completes .stageImage (askStage.waits (atWork (holding [] EthState.reset)) []) := fun h => by
  refine done ((((h (askStage.waits (atWork (holding [] EthState.reset)) [])).1 askStage.msg askStage.req false (stagingOf1 false 0 388) ?_ ?_ ?_
    ?_ ?_ ?_ ?_).1 rfl (allowed (askStage.x, askStage.y) ?_ ?_ ?_ ?_ ?_ ?_ ?_ ?_ ?_)).1 (.inl ?_)) <;> decide +kernel


theorem wit_stage_bad : Obligations.ObjectsAreStagedAndFirmwareIsHandedOver → Completes .stageImage (askStage.waits base []) := fun h => by
  refine done ((((h (askStage.waits base [])).1 askStage.msg askStage.req false (stagingOf1 false 0 388) ?_ ?_ ?_ ?_ ?_ ?_ ?_).1 rfl (allowed
    (askStage.x, askStage.y) ?_ ?_ ?_ ?_ ?_ ?_ ?_ ?_ ?_)).2.1 ?_ ?_) <;> decide +kernel


theorem wit_staging : Obligations.ObjectsAreStagedAndFirmwareIsHandedOver → Completes .stageImage (askStage.waits (holding [] EthState.reset) []) := fun h => by
  refine done ((((h (askStage.waits (holding [] EthState.reset) [])).1 askStage.msg askStage.req false (stagingOf1 false 0 388) ?_ ?_ ?_ ?_ ?_ ?_
    ?_).1 rfl (allowed (askStage.x, askStage.y) ?_ ?_ ?_ ?_ ?_ ?_ ?_ ?_ ?_)).2.2 ?_ ?_) <;> decide +kernel


theorem wit_stage_firmware : Obligations.ObjectsAreStagedAndFirmwareIsHandedOver → Completes .stageImage (askFirm.waits (holding [] EthState.reset) []) := fun h => by
  refine done ((((h (askFirm.waits (holding [] EthState.reset) [])).1 askFirm.msg askFirm.req false (stagingOf1 false 2 388) ?_ ?_ ?_ ?_ ?_ ?_
    ?_).1 rfl (allowed (askFirm.x, askFirm.y) ?_ ?_ ?_ ?_ ?_ ?_ ?_ ?_ ?_)).2.2 ?_ ?_) <;> decide +kernel


theorem wit_stage_record : Obligations.ObjectsAreStagedAndFirmwareIsHandedOver → Completes .deploymentRecord (askRec.waits (holding [] EthState.reset) []) := fun h => by
  refine done ((((h (askRec.waits (holding [] EthState.reset) [])).1 askRec.msg askRec.req true (stagingOf1 true 0 196) ?_ ?_ ?_ ?_ ?_ ?_ ?_).2 rfl
    (allowed (askRec.x, askRec.y) ?_ ?_ ?_ ?_ ?_ ?_ ?_ ?_ ?_)).2.2 ?_ ?_) <;> decide +kernel


/-- A deployment record without entries. -/
def recObj : List Byte :=
  words [0x52445843, 1, 9] ++ List.replicate 52 0 ++ words [0xdfccf872] ++ beBytes 48 0xdd7b36dd2b31d2677294dcdae98cfe7803cd5b6b845df89e87e912bd7e030cd3af95a8ff2777b98ada103c51366fd0a7 ++
    beBytes 48 0xdd7b36dd2b31d2677294dcdae98cfe7803cd5b6b845df89e87e912bd7e030cd3af95a8ff2777b98ada103c51366fd0a7 ++ words [0x2000001, 0, 0, 0, 0, 0, 0, 0]

def recObjKey : KeyEnt :=
  { id := 0x2000001, x := 0x7b08f1e1698a50144733e443299e3a32a1e39ede8c8cf1b5c89e0bb0ea94d904dacfb58ac7c2070e1bf8450fbc15082b,
    y := 0x26419f8925b957b10947dadac93399ad0fcb8a6eaef2be2b94990133399687207e044abd45d80e942f1db398d2391933 }

/-- A grid set with one section of eight bytes. -/
def gridObj : List Byte :=
  words [0x584e5953, 0x2020001, 7, 0, 1, 0x28c, 0, 0, 0, 0xc64] ++ List.replicate 216 0 ++ words [1, 0, 0x200, 0, 8, 0, 0x595a6933] ++ List.replicate 228 0 ++ words [0x5050505, 0x5050505, 0x6851a5de] ++ beBytes 48 0x2b3a84e1b756fe18c5ae844cb245ae9956d17502423b622f2bbd2ce99d214c0925476bde315ad87f5a8e465ea25c2f9e ++
    beBytes 48 0x2b3a84e1b756fe18c5ae844cb245ae9956d17502423b622f2bbd2ce99d214c0925476bde315ad87f5a8e465ea25c2f9e ++ words [0x2000001, 0, 0, 0, 0, 0, 0, 0]

def gridObjKey : KeyEnt :=
  { id := 0x2000001, x := 0xaa2c6c66c1438b0e2bfb101133fd1efe381545502ec050120ab0730a432b3ae655da780a14e1e8682127670e2dd30444,
    y := 0x85d4f30992ea600e33fb13d90df9492fd73f8065656418b32be533e1279e80fdcac8bc4f0b4afa1d8563fa98f70a7360 }

def staged (g : Staging) (b : List Byte) (keys : List KeyEnt) : State :=
  let s := seamsUp (holding b EthState.reset)
  { s with plane := { s.plane with staging := some g }, nv := { s.nv with keys := keys } }
/-- What the window's read leaves and gives. -/
def readDone : WinEnd → Option (State × List Byte)
  | .done v b => some (v, b)
  | _ => none
theorem readDone_eq {e : WinEnd} (h : (readDone e).isSome = true) : e = .done ((readDone e).get h).1 ((readDone e).get h).2 := by
  cases e with
  | done v b => rfl
  | _ => simp [readDone] at h
/-- Lists with equal halves are equal. -/
theorem halves {l m : List Byte} (n : Nat) (h1 : l.take n = m.take n) (h2 : l.drop n = m.drop n) : l = m := by
  rw [← List.take_append_drop n l, h1, h2, List.take_append_drop]
theorem window_at {g : Staging} {b : List Byte} {keys : List KeyEnt} (h : (readDone ((staged g b keys).winAccess g.window g.off g.len none)).isSome = true)
    (hb : ((readDone ((staged g b keys).winAccess g.window g.off g.len none)).get h).2 = b) :
    (staged g b keys).winAccess g.window g.off g.len none =
      .done ((readDone ((staged g b keys).winAccess g.window g.off g.len none)).get h).1 b := by
  have e := readDone_eq h
  rw [hb] at e
  exact e


theorem wit_staged_bad : Obligations.ObjectsAreStagedAndFirmwareIsHandedOver → Completes (.stagingComplete (.image false []) 0) (staged (stagingOf1 false 0 652) gridObj [gridObjKey]) := fun h =>
  done (((h (staged (stagingOf1 false 0 652) gridObj [gridObjKey])).2.1 (stagingOf1 false 0 652) (.image false []) 0 _ gridObj rfl (window_at (by decide +kernel) (halves 326 (by decide +kernel) (by decide +kernel)))).1 (.inl (by decide +kernel)))


theorem wit_staged_record : Obligations.ObjectsAreStagedAndFirmwareIsHandedOver → Completes (.stagingComplete (.record DeployRec.none) 1) (staged (stagingOf1 true 0 196) recObj [recObjKey]) := fun h =>
  done (((h (staged (stagingOf1 true 0 196) recObj [recObjKey])).2.1 (stagingOf1 true 0 196) (.record DeployRec.none) 1 _ recObj rfl (window_at (by decide +kernel) (by decide +kernel))).2.1 (by decide +kernel) rfl)


theorem wit_staged : Obligations.ObjectsAreStagedAndFirmwareIsHandedOver → Completes (.stagingComplete (.image true []) 2) (staged (stagingOf1 false 0 652) gridObj [gridObjKey]) := fun h =>
  done (((h (staged (stagingOf1 false 0 652) gridObj [gridObjKey])).2.1 (stagingOf1 false 0 652) (.image true []) 2 _ gridObj rfl (window_at (by decide +kernel) (halves 326 (by decide +kernel) (by decide +kernel)))).2.2 (by decide +kernel) rfl rfl)


/-- A handover at quadrant `q`. -/
def hand (q : Nat) (since : Option Nat) (ready restarting : List Nat) (paused : Option Nat) : HandOver :=
  { quad := q, slot := 1, back := false, since := since, ready := ready, restarting := restarting, paused := paused }
def handing (h : HandOver) (e : EthState) (trial : Bool) : State :=
  let s := serving 1 1 1 [] e
  { s with plane := { s.plane with handover := some h }, nv := { s.nv with trial := trial } }
/-- No core is spare. -/
def noSpare (s : State) : State := s.puts [(Reg.DEV_CORE_MAP_FAILED, 0x30)]


theorem wit_takeover_waits : Obligations.ObjectsAreStagedAndFirmwareIsHandedOver → Completes .quadrantTakeover (handing (hand 0 none [4] [] none) EthState.reset true) := fun h =>
  done (((h (handing (hand 0 none [4] [] none) EthState.reset true)).2.2.1 (hand 0 none [4] [] none) 0 (by decide +kernel) (by decide +kernel)).1 (by decide +kernel))


theorem wit_takeover : Obligations.ObjectsAreStagedAndFirmwareIsHandedOver → Completes .quadrantTakeover ({ handing (hand 3 none [4] [] none) EthState.reset true with srv := base.srv }) := fun h =>
  done ((((h ({ handing (hand 3 none [4] [] none) EthState.reset true with srv := base.srv })).2.2.1 (hand 3 none [4] [] none) 3 (by decide +kernel) (by decide +kernel)).2 (by decide +kernel)).2 4 [] (by decide +kernel))


theorem wit_takeover_paused : Obligations.ObjectsAreStagedAndFirmwareIsHandedOver → Completes .quadrantTakeover ({ noSpare (handing (hand 3 none [] [] none) EthState.reset true) with srv := base.srv }) := fun h =>
  done ((((h ({ noSpare (handing (hand 3 none [] [] none) EthState.reset true) with srv := base.srv })).2.2.1 (hand 3 none [] [] none) 3 (by decide +kernel) (by decide +kernel)).2 (by decide +kernel)).1 (by decide +kernel))


theorem wit_core_not_restarting : Obligations.ObjectsAreStagedAndFirmwareIsHandedOver → Completes (.controlCoreRestartDone 5) (handing (hand 0 none [] [] none) EthState.reset true) := fun h =>
  done (((h (handing (hand 0 none [] [] none) EthState.reset true)).2.2.2.1 (hand 0 none [] [] none) 5 (by decide +kernel)).1 (by decide +kernel))


theorem wit_core_spare : Obligations.ObjectsAreStagedAndFirmwareIsHandedOver → Completes (.controlCoreRestartDone 5) (handing (hand 0 none [] [5] none) EthState.reset true) := fun h =>
  done ((((h (handing (hand 0 none [] [5] none) EthState.reset true)).2.2.2.1 (hand 0 none [] [5] none) 5 (by decide +kernel)).2 (by decide +kernel)).1 (by decide +kernel))


theorem wit_core_resumes : Obligations.ObjectsAreStagedAndFirmwareIsHandedOver → Completes (.controlCoreRestartDone 3) (handing (hand 3 none [] [3] (some 3)) EthState.reset true) := fun h =>
  done ((((h (handing (hand 3 none [] [3] (some 3)) EthState.reset true)).2.2.2.1 (hand 3 none [] [3] (some 3)) 3 (by decide +kernel)).2 (by decide +kernel)).2 3 (by decide +kernel) (by decide +kernel))


theorem wit_hjelmar_restart : Obligations.ObjectsAreStagedAndFirmwareIsHandedOver → Completes .hjelmarRestartDone (handing (hand 4 none [] [] none) { EthState.reset with hjmDown := true } true) := fun h =>
  done ((h (handing (hand 4 none [] [] none) { EthState.reset with hjmDown := true } true)).2.2.2.2.1 (by decide +kernel) (by decide +kernel))


theorem wit_no_trial : Obligations.ObjectsAreStagedAndFirmwareIsHandedOver → Completes (.fwTrialEnd true) (handing (hand 4 (some 0) [] [] none) EthState.reset false) := fun h =>
  done ((h (handing (hand 4 (some 0) [] [] none) EthState.reset false)).2.2.2.2.2.1 (by decide +kernel) true)


theorem wit_trial_fault : Obligations.ObjectsAreStagedAndFirmwareIsHandedOver → Completes (.fwTrialEnd true) (handing (hand 4 (some 0) [] [] none) EthState.reset true) := fun h =>
  done (((h (handing (hand 4 (some 0) [] [] none) EthState.reset true)).2.2.2.2.2.2 (by decide +kernel) (by decide +kernel)).1)


theorem wit_trial_ends : Obligations.ObjectsAreStagedAndFirmwareIsHandedOver → Completes (.fwTrialEnd false) (handing (hand 4 (some 0) [] [] none) EthState.reset true) := fun h =>
  done ((((h (handing (hand 4 (some 0) [] [] none) EthState.reset true)).2.2.2.2.2.2 (by decide +kernel) (by decide +kernel)).2 (hand 4 (some 0) [] [] none) 0 (by decide +kernel) (by decide +kernel)).2 (by decide +kernel))


theorem wit_trial_runs : Obligations.ObjectsAreStagedAndFirmwareIsHandedOver → Completes (.fwTrialEnd false) (handing (hand 4 (some 1) [] [] none) EthState.reset true) := fun h =>
  done ((((h (handing (hand 4 (some 1) [] [] none) EthState.reset true)).2.2.2.2.2.2 (by decide +kernel) (by decide +kernel)).2 (hand 4 (some 1) [] [] none) 1 (by decide +kernel) (by decide +kernel)).1 (by decide +kernel))


/-! Power and heat. -/

/-- A reading of so many tenths of a watt, and of 60 °C. -/
def reading (p : Fin 65536) : PowerReading :=
  { p100 := p, stackStep := 0, quadStep := [0, 0, 0, 0], wantMw := 0, floorMw := 0, tj := [60, 60, 60, 60], excess := [0, 2, 1, 0], waitFrac := 0, avsFail := [] }
/-- The loop is on with 250 W, every quadrant at a point under a ceiling and a preference, and every stack's share alike. -/
def points (op pref share : Nat) : State :=
  base.puts ([(Reg.PWR_CTRL_EN, 1), (Reg.PWR_LIMIT_LIMIT_W, 700), (Reg.PWR_LIMIT_DEFAULT_GRANT_W, 250)] ++
    ((List.range 4).flatMap fun q => [(Reg.PWR_Q_STATUS_OP q, op), (Reg.PWR_Q_STATUS_CEILING q, 7), (Reg.PWR_Q_PREF_PREF q, pref)]) ++
    (List.range 32).map fun k => (Reg.STK_THROTTLE_SHARE k, share))
theorem four {A B : Nat → Prop} (h : ∀ q, q < 4 → A q → B q) : ∀ q, (q < 4 ∧ A q) → B q := fun q hq => h q hq.1 hq.2

theorem wit_power_early : Obligations.PowerIsKeptWithinItsBudget → Completes (.powerManagerAction (reading 2450)) State.reset := fun h =>
  done ((((h State.reset).1 (reading 2450) (by decide +kernel)).1 (by decide +kernel)))

theorem wit_power : Obligations.PowerIsKeptWithinItsBudget → Completes (.powerManagerAction (reading 2450)) (points 0 0 16) := fun h =>
  done ((((h (points 0 0 16)).1 (reading 2450) (by decide +kernel)).2 (by decide +kernel)).1)

theorem wit_power_quad_down : Obligations.PowerIsKeptWithinItsBudget → Completes (.powerManagerAction (reading 2451)) (points 7 7 16) := fun h => by
  refine done ((((h (points 7 7 16)).1 (reading 2451) ?_).2 ?_).2.1 1 ⟨?_, ?_, four ?_⟩ ?_ ?_ ?_ (four ?_)) <;> decide +kernel

theorem wit_power_share_down : Obligations.PowerIsKeptWithinItsBudget → Completes (.powerManagerAction (reading 2451)) (points 0 0 2) := fun h =>
  done (((((h (points 0 0 2)).1 (reading 2451) (by decide +kernel)).2 (by decide +kernel)).2.2.1 ⟨(by decide +kernel), (by decide +kernel), four (by decide +kernel)⟩ (by decide +kernel) (four (by decide +kernel))).1 ⟨31, (by decide +kernel), (by decide +kernel)⟩)

theorem wit_power_held : Obligations.PowerIsKeptWithinItsBudget → Completes (.powerManagerAction (reading 2451)) (points 0 0 1) := fun h =>
  done (((((h (points 0 0 1)).1 (reading 2451) (by decide +kernel)).2 (by decide +kernel)).2.2.1 ⟨(by decide +kernel), (by decide +kernel), four (by decide +kernel)⟩ (by decide +kernel) (four (by decide +kernel))).2 (by decide +kernel))

theorem wit_power_share_up : Obligations.PowerIsKeptWithinItsBudget → Completes (.powerManagerAction (reading 2450)) (points 0 0 15) := fun h =>
  done (((((h (points 0 0 15)).1 (reading 2450) (by decide +kernel)).2 (by decide +kernel)).2.2.2 ⟨(by decide +kernel), (by decide +kernel), four (by decide +kernel)⟩ (by decide +kernel)).1 ⟨31, (by decide +kernel), (by decide +kernel)⟩ (by decide +kernel))

theorem wit_power_quad_up : Obligations.PowerIsKeptWithinItsBudget → Completes (.powerManagerAction { reading 2450 with excess := [1, 1, 0, 1] }) (points 6 7 16) := fun h => by
  refine done (((((h (points 6 7 16)).1 { reading 2450 with excess := [1, 1, 0, 1] } ?_).2 ?_).2.2.2 ⟨?_, ?_, four ?_⟩ ?_).2.1 2 ?_ ?_ ?_ ?_ (four
    ?_)) <;> decide +kernel

def below (s : State) : State := { s with power := { s.power with belowRuns := 99 } }

theorem wit_power_held_clear : Obligations.PowerIsKeptWithinItsBudget → Completes (.powerManagerAction (reading 2450)) (below (points 0 0 16)) := fun h =>
  done (((((h (below (points 0 0 16))).1 (reading 2450) (by decide +kernel)).2 (by decide +kernel)).2.2.2 ⟨(by decide +kernel), (by decide +kernel), four (by decide +kernel)⟩ (by decide +kernel)).2.2 (by decide +kernel))

/-- Domain 44 and one more are requested on. -/
def domains (extra : Nat) (eth : Nat) : State :=
  ((base.setReg (Reg.aPWR_DOM_REQ 0) 0x80000000).setReg (Reg.aPWR_DOM_REQ 1) (BitVec.ofNat 32 (0x1000 + extra))).puts [(Reg.ETH_PORT_CTRL_EN, eth)]

theorem wit_dom_on : Obligations.PowerIsKeptWithinItsBudget → Completes (.domReqWrite 1 0x11000) (domains 0 0) := fun h =>
  done (((h (domains 0 0)).2.1 1 0x11000 16 (by decide +kernel) (by decide +kernel) (by decide +kernel)).1 (by decide +kernel))

theorem wit_dom_refused : Obligations.PowerIsKeptWithinItsBudget → Completes (.domReqWrite 1 0) (domains 0 1) := fun h =>
  done (((h (domains 0 1)).2.1 1 0 12 (by decide +kernel) (by decide +kernel) (by decide +kernel)).2.1 (by decide +kernel) (by decide +kernel) (by decide +kernel))

theorem wit_dom_off : Obligations.PowerIsKeptWithinItsBudget → Completes (.domReqWrite 0 0) (domains 0 1) := fun h =>
  done (((h (domains 0 1)).2.1 0 0 31 (by decide +kernel) (by decide +kernel) (by decide +kernel)).2.2 (by decide +kernel) (by decide +kernel) (by decide +kernel))

theorem wit_dom_is_ready : Obligations.PowerIsKeptWithinItsBudget → Completes (.domainReady 31) (domains 0 1) := fun h =>
  done ((((h (domains 0 1)).2.2.1 31).1 (by decide +kernel)).1)

theorem wit_dom_no_fail : Obligations.PowerIsKeptWithinItsBudget → Completes (.domainFail 0) (domains 0 1) := fun h =>
  done ((((h (domains 0 1)).2.2.1 0).1 (by decide +kernel)).2)

/-- Domain 39 has been asked for. -/
def asked39 : State := (domains 0x80 1).setReg (Reg.aPWR_DOM_STATE 1) 0

theorem wit_dom_fail : Obligations.PowerIsKeptWithinItsBudget → Completes (.domainFail 39) asked39 := fun h =>
  done ((((h asked39).2.2.1 39).2 (by decide +kernel) (by decide +kernel)).1)

theorem wit_dom_ready : Obligations.PowerIsKeptWithinItsBudget → Completes (.domainReady 39) asked39 := fun h =>
  done ((((h asked39).2.2.1 39).2 (by decide +kernel) (by decide +kernel)).2 (by decide +kernel))

def granted (at' : Nat) : State :=
  let s := base.puts [(⟨Reg.aBRK_TIME_LO, 31, 0⟩, 3277)]
  { s with power := { s.power with grant := some 250000, ttlMs := 100, grantAt := at', grantSeq := some 1 } }

theorem wit_grant_runs : Obligations.PowerIsKeptWithinItsBudget → Completes .grantExpiry (granted 1) := fun h =>
  done (((h (granted 1)).2.2.2.1 250000 (by decide +kernel)).1 (by decide +kernel))

theorem wit_grant_ends : Obligations.PowerIsKeptWithinItsBudget → Completes .grantExpiry (granted 0) := fun h =>
  done (((h (granted 0)).2.2.2.1 250000 (by decide +kernel)).2 (by decide +kernel))

def logging : State := base.puts [(Reg.TEL_CTRL_LOG_MIN, 1)]

theorem wit_power_record : Obligations.PowerIsKeptWithinItsBudget → Completes .powerRecord logging := fun h =>
  done ((h logging).2.2.2.2.1 _ (by decide +kernel) (by decide +kernel) rfl ⟨(by decide +kernel), (by decide +kernel)⟩)

theorem wit_energy : Obligations.PowerIsKeptWithinItsBudget → Completes (.energyAttribution 1000 [1, 2, 3, 4, 5, 6, 7, 8]) run := fun h =>
  done ((h run).2.2.2.2.2 1000 [1, 2, 3, 4, 5, 6, 7, 8] 5)

/-! Alerts and trips. -/

theorem wit_alert : Obligations.AlertsAndTripsActAtOnce → Completes .regAlertAssert run := fun h => done ((h run).1 (by decide +kernel) (by decide +kernel) (by decide +kernel))

theorem wit_alert_in_reset : Obligations.AlertsAndTripsActAtOnce → Completes .regAlertAssert State.reset := fun h => done ((h State.reset).2.1 (by decide +kernel))

/-- An alert by REG_ALERT_N or by comparator 5 since 10 ms. -/
def alerted (pin ext : Bool) (since : Nat) : State :=
  let s := run.puts [(⟨Reg.aBRK_TIME_LO, 31, 0⟩, 328)]
  { s with power := { s.power with alert := true, alertSince := since }, board := { s.board with alertPin := pin, alertExt := ext } }

theorem wit_alert_end : Obligations.AlertsAndTripsActAtOnce → Completes .regAlertDeassert (alerted true false 0) := fun h =>
  done ((h (alerted true false 0)).2.2.1 (by decide +kernel) (by decide +kernel))

theorem wit_alert_held : Obligations.AlertsAndTripsActAtOnce → Completes .regAlertDeassert (alerted true true 0) := fun h =>
  done ((h (alerted true true 0)).2.2.2.1 (by decide +kernel))

theorem wit_alert_long : Obligations.AlertsAndTripsActAtOnce → Completes .alertEscalate (alerted true false 0) := fun h =>
  done ((h (alerted true false 0)).2.2.2.2.1 (by decide +kernel) (by decide +kernel))

theorem wit_alert_short : Obligations.AlertsAndTripsActAtOnce → Completes .alertEscalate (alerted true false 1) := fun h =>
  done ((h (alerted true false 1)).2.2.2.2.2.1 (by decide +kernel))

theorem wit_trip : Obligations.AlertsAndTripsActAtOnce → Completes (.overTemperatureTrip 3) run := fun h =>
  done ((h run).2.2.2.2.2.2.1 3 (by decide +kernel) (by decide +kernel))

/-- Quadrant 3 has been stopped, and its temperature is so. -/
def tripped (rail : Bool) (tj : Nat) : State :=
  let s := run.puts [(Reg.PWR_Q_STATUS_TJ_C 3, tj)]
  { s with power := { s.power with trips := [(3, { stopped := true, byRail := rail, byExt := true, final := false, stamps := [0] })] } }

theorem wit_trip_recovers : Obligations.AlertsAndTripsActAtOnce → Completes (.tripRecovery 3) (tripped false 94) := fun h =>
  done ((((h (tripped false 94)).2.2.2.2.2.2.2.1 3 (by decide +kernel)).1 (by decide +kernel) ⟨(by decide +kernel), (by decide +kernel), fun _ => (by decide +kernel)⟩))

theorem wit_trip_hot : Obligations.AlertsAndTripsActAtOnce → Completes (.tripRecovery 3) (tripped false 95) := fun h =>
  done ((((h (tripped false 95)).2.2.2.2.2.2.2.1 3 (by decide +kernel)).2.1 (.inr (by decide +kernel))))

theorem wit_rail_recovers : Obligations.AlertsAndTripsActAtOnce → Completes (.gridRailRecovery 3) (tripped true 94) := fun h =>
  done ((((h (tripped true 94)).2.2.2.2.2.2.2.1 3 (by decide +kernel)).2.2 (by decide +kernel)).1 ⟨(by decide +kernel), (by decide +kernel), fun _ => (by decide +kernel)⟩)

theorem wit_rail_hot : Obligations.AlertsAndTripsActAtOnce → Completes (.gridRailRecovery 3) (tripped true 95) := fun h =>
  done ((((h (tripped true 95)).2.2.2.2.2.2.2.1 3 (by decide +kernel)).2.2 (by decide +kernel)).2 (by decide +kernel))

def comparator5 (en action : Nat) : State := run.puts [(Reg.BRK_CMP_CFG_EN 5, en), (Reg.BRK_CMP_CFG_ACTION 5, action)]

theorem wit_ext_off : Obligations.AlertsAndTripsActAtOnce → Completes .extSenseCrossing (comparator5 0 2) := fun h =>
  done (((h (comparator5 0 2)).2.2.2.2.2.2.2.2.1 (by decide +kernel)).1 (by decide +kernel))

theorem wit_ext_record : Obligations.AlertsAndTripsActAtOnce → Completes .extSenseCrossing (comparator5 1 0) := fun h =>
  done ((((h (comparator5 1 0)).2.2.2.2.2.2.2.2.1 (by decide +kernel)).2 (by decide +kernel)).1 (by decide +kernel))

theorem wit_ext_alert : Obligations.AlertsAndTripsActAtOnce → Completes .extSenseCrossing (comparator5 1 1) := fun h =>
  done ((((h (comparator5 1 1)).2.2.2.2.2.2.2.2.1 (by decide +kernel)).2 (by decide +kernel)).2.1 (by decide +kernel) (by decide +kernel))

theorem wit_ext_trip : Obligations.AlertsAndTripsActAtOnce → Completes .extSenseCrossing (comparator5 1 2) := fun h =>
  done ((((h (comparator5 1 2)).2.2.2.2.2.2.2.2.1 (by decide +kernel)).2 (by decide +kernel)).2.2 (by decide +kernel) (by decide +kernel))

theorem wit_ext_return : Obligations.AlertsAndTripsActAtOnce → Completes .extSenseReturn (alerted false true 0) := fun h =>
  done ((h (alerted false true 0)).2.2.2.2.2.2.2.2.2.1 (by decide +kernel) (by decide +kernel))

theorem wit_ext_return_quiet : Obligations.AlertsAndTripsActAtOnce → Completes .extSenseReturn run := fun h =>
  done ((h run).2.2.2.2.2.2.2.2.2.2 (by decide +kernel))

/-! Reset and start-up. -/

theorem wit_por : Obligations.ResetsAndSuppliesStartAndStopThePart → Completes .porAssert run := fun h => done (h run).1

theorem wit_brown_out : Obligations.ResetsAndSuppliesStartAndStopThePart → Completes .brownOut run := fun h => done (h run).2.1

theorem wit_clock_loss : Obligations.ResetsAndSuppliesStartAndStopThePart → Completes .refclkSysLoss run := fun h => done ((h run).2.2.1 (by decide +kernel)).1

theorem wit_rail : Obligations.ResetsAndSuppliesStartAndStopThePart → Completes (.railFault 9) run := fun h => done (((h run).2.2.1 (by decide +kernel)).2.1 9 (by decide +kernel))

theorem wit_grid_rail : Obligations.ResetsAndSuppliesStartAndStopThePart → Completes (.railFault 3) run := fun h => done (((h run).2.2.1 (by decide +kernel)).2.2 3 (by decide +kernel))

theorem wit_clock_loss_in_reset : Obligations.ResetsAndSuppliesStartAndStopThePart → Completes .refclkSysLoss State.reset := fun h =>
  done ((h State.reset).2.2.2.1 (by decide +kernel))

/-- The part is held in reset by POR, with these of its supplies there; slot 0 holds firmware, and slot 3 a grid set. -/
def held (vbr rails por : Bool) (strap : Nat) : State :=
  { State.reset with board := { State.reset.board with held := some .por, vbr := vbr, rails := rails, porHigh := por, strap := strap, alertPin := false } }
def boot0 : BootInput := { flash := none, slotsBad := [], auditMissing := 0, auditTorn := false, sectorsBad := 0, telBuf := 0 }
def gridHeld (s : State) : State := s.setNvSlot 3 { state := 3, version := 1, len := 0, hash := 0, ok := true, ctxs := [] }

theorem wit_por_release_rom : Obligations.ResetsAndSuppliesStartAndStopThePart → Completes (.porRelease 3 boot0) (held true true false 0) := fun h => by
  refine done (((((h (held true true false 0)).2.2.2.2.1 boot0 ?_ ?_ ⟨?_, ?_, ?_⟩ ?_ ?_).1 ?_ ?_ ?_).1)) <;> decide +kernel

theorem wit_por_boot : Obligations.ResetsAndSuppliesStartAndStopThePart → Completes (.porRelease 1 boot0) (gridHeld (held true true false 0)) := fun h => by
  refine done (((((h (gridHeld (held true true false 0))).2.2.2.2.1 boot0 ?_ ?_ ⟨?_, ?_, ?_⟩ ?_ ?_).1 ?_ ?_ ?_).2.1 ?_)) <;> decide +kernel

theorem wit_por_golden : Obligations.ResetsAndSuppliesStartAndStopThePart → Completes (.porRelease 2 boot0) (held true true false 0) := fun h => by
  refine done (((((h (held true true false 0)).2.2.2.2.1 boot0 ?_ ?_ ⟨?_, ?_, ?_⟩ ?_ ?_).1 ?_ ?_ ?_).2.2 ?_)) <;> decide +kernel

theorem wit_vbr_rom : Obligations.ResetsAndSuppliesStartAndStopThePart → Completes (.vbrInRange boot0) (held false true true 3) := fun h => by
  refine done (((((h (held false true true 3)).2.2.2.2.1 boot0 ?_ ?_ ⟨?_, ?_, ?_⟩ ?_ ?_).2.1 ?_ ?_ ?_).1 ?_)) <;> decide +kernel

theorem wit_vbr_boot : Obligations.ResetsAndSuppliesStartAndStopThePart → Completes (.vbrInRange boot0) (gridHeld (held false true true 1)) := fun h => by
  refine done (((((h (gridHeld (held false true true 1))).2.2.2.2.1 boot0 ?_ ?_ ⟨?_, ?_, ?_⟩ ?_ ?_).2.1 ?_ ?_ ?_).2.1 ?_ ?_)) <;> decide +kernel

theorem wit_vbr_golden : Obligations.ResetsAndSuppliesStartAndStopThePart → Completes (.vbrInRange boot0) (held false true true 2) := fun h => by
  refine done (((((h (held false true true 2)).2.2.2.2.1 boot0 ?_ ?_ ⟨?_, ?_, ?_⟩ ?_ ?_).2.1 ?_ ?_ ?_).2.2 ?_ ?_)) <;> decide +kernel

theorem wit_rails_rom : Obligations.ResetsAndSuppliesStartAndStopThePart → Completes (.railsAndClockReady boot0) (held true false true 3) := fun h => by
  refine done (((((h (held true false true 3)).2.2.2.2.1 boot0 ?_ ?_ ⟨?_, ?_, ?_⟩ ?_ ?_).2.2 ?_ ?_).1 ?_)) <;> decide +kernel

theorem wit_rails_boot : Obligations.ResetsAndSuppliesStartAndStopThePart → Completes (.railsAndClockReady boot0) (gridHeld (held true false true 1)) := fun h => by
  refine done (((((h (gridHeld (held true false true 1))).2.2.2.2.1 boot0 ?_ ?_ ⟨?_, ?_, ?_⟩ ?_ ?_).2.2 ?_ ?_).2.1 ?_ ?_)) <;> decide +kernel

theorem wit_rails_golden : Obligations.ResetsAndSuppliesStartAndStopThePart → Completes (.railsAndClockReady boot0) (held true false true 2) := fun h => by
  refine done (((((h (held true false true 2)).2.2.2.2.1 boot0 ?_ ?_ ⟨?_, ?_, ?_⟩ ?_ ?_).2.2 ?_ ?_).2.2 ?_ ?_)) <;> decide +kernel

theorem wit_por_release_waits : Obligations.ResetsAndSuppliesStartAndStopThePart → Completes (.porRelease 1 boot0) (held false true false 0) := fun h =>
  done ((h (held false true false 0)).2.2.2.2.2.1 1 boot0 (by decide +kernel) (.inl (by decide +kernel)))

theorem wit_vbr : Obligations.ResetsAndSuppliesStartAndStopThePart → Completes (.vbrInRange boot0) (held false true false 0) := fun h => by
  refine done ((h (held false true false 0)).2.2.2.2.2.2.1 boot0 ?_ ⟨?_, ?_, ?_⟩) <;> decide +kernel

theorem wit_sd_loss : Obligations.ResetsAndSuppliesStartAndStopThePart → Completes .refclkSdLoss run := fun h => done (h run).2.2.2.2.2.2.2.1

theorem wit_sd_return : Obligations.ResetsAndSuppliesStartAndStopThePart → Completes .refclkSdReturn run := fun h => done (h run).2.2.2.2.2.2.2.2

/-- Step 15 of the start-up order, with this action, is next. -/
def atStep (action arg : Nat) : State :=
  let s := base.puts [(Reg.CFG_STEP_ACTION 15, action), (Reg.CFG_STEP_ARG 15, arg), (Reg.CFG_BOOT_STATUS_PHASE, 7)]
  { s with board := { s.board with step := some 15, devOk := false } }
theorem step_at (a g : Nat) (h : (atStep a g).get (Reg.CFG_STEP_ACTION 15) = a) : (atStep a g).StepAt a := ⟨15, rfl, by rw [if_pos (by decide)]; exact h⟩
theorem not_step_at (a g b : Nat) (h : (atStep a g).get (Reg.CFG_STEP_ACTION 15) ≠ b) : ¬ (atStep a g).StepAt b := by
  rintro ⟨n, hn, e⟩
  have : n = 15 := (Option.some.inj hn).symm
  subst this
  rw [if_pos (by decide)] at e
  exact h e

theorem wit_step_other : Obligations.StartUpStepsRunInOrder → Completes .endStep (atStep 6 0) := fun h =>
  done ((h (atStep 6 0)).1 (.endStep, 0) (by decide +kernel) (not_step_at 6 0 0 (by decide +kernel)))

theorem wit_lock_other : Obligations.StartUpStepsRunInOrder → Completes .waitLock (atStep 6 0) := fun h =>
  done ((h (atStep 6 0)).1 (.waitLock, 1) (by decide +kernel) (not_step_at 6 0 1 (by decide +kernel)))

theorem wit_lock : Obligations.StartUpStepsRunInOrder → Completes .waitLock (atStep 1 0) := fun h =>
  done (((h (atStep 1 0)).2.1 15 rfl).1 (step_at 1 0 (by decide +kernel)))

theorem wit_outputs : Obligations.StartUpStepsRunInOrder → Completes .releaseOutputs (atStep 2 0) := fun h =>
  done (((h (atStep 2 0)).2.1 15 rfl).2.1 (step_at 2 0 (by decide +kernel)))

theorem wit_grid : Obligations.StartUpStepsRunInOrder → Completes .releaseGrid (atStep 3 0) := fun h =>
  done (((h (atStep 3 0)).2.1 15 rfl).2.2.1 (step_at 3 0 (by decide +kernel)))

theorem wit_writes : Obligations.StartUpStepsRunInOrder → Completes .enableWrites (atStep 4 0) := fun h =>
  done (((h (atStep 4 0)).2.1 15 rfl).2.2.2.1 (step_at 4 0 (by decide +kernel)))

theorem wit_start_wait : Obligations.StartUpStepsRunInOrder → Completes .startupWait (atStep 6 0) := fun h =>
  done (((h (atStep 6 0)).2.1 15 rfl).2.2.2.2 (step_at 6 0 (by decide +kernel)))

theorem wit_power_on : Obligations.StartUpStepsRunInOrder → Completes .powerOn (atStep 5 48) := fun h =>
  done ((h (atStep 5 48)).2.2.1 15 rfl (step_at 5 48 (by decide +kernel)) (by decide +kernel))

theorem wit_end : Obligations.StartUpStepsRunInOrder → Completes .endStep (atStep 0 0) := fun h =>
  done ((h (atStep 0 0)).2.2.2.1 (step_at 0 0 (by decide +kernel)))

theorem wit_step_fails : Obligations.StartUpStepsRunInOrder → Completes .startupStepFail (atStep 5 48) := fun h =>
  done ((h (atStep 5 48)).2.2.2.2.1 (.inr (step_at 5 48 (by decide +kernel))))

theorem wit_step_fails_not : Obligations.StartUpStepsRunInOrder → Completes .startupStepFail (atStep 6 0) := fun h =>
  done ((h (atStep 6 0)).2.2.2.2.2 (not_step_at 6 0 1 (by decide +kernel)) (not_step_at 6 0 5 (by decide +kernel)))

/-! Migration. -/

/-- Logical Field 3 is to leave Field 3, or is on its way to Field 17 since `since`. -/
def asks3 (fault : Nat) : Migration := { lfield := 3, src := 3, dst := 0, fault := fault, phase := 0, since := 0 }
def wants (fault : Nat) (spare : Bool) : State :=
  { run with plane := { run.plane with queued := [asks3 fault] },
             nv := { run.nv with map := { run.nv.map with retired := List.range (if spare then 17 else 18) } } }
def on3 (phase since : Nat) : Migration := { lfield := 3, src := 3, dst := 17, fault := 0, phase := phase, since := since }
def moving (phase since : Nat) : State :=
  let s := run.puts [(⟨Reg.aBRK_TIME_LO, 31, 0⟩, 328), (Reg.DEV_MIGRATE_CTRL_MIGRATE_WAIT_MS, 10)]
  { s with plane := { s.plane with migrations := [(0, on3 phase since)] } }
/-- Its context rests. -/
def resting : State := ((moving 4 0).put (Reg.SCH_CTX_STATE_STATE 5) 1).modServe 5 fun x => { x with held := [3] }

theorem wit_mig_early : Obligations.MigrationsMoveALogicalField → Completes (.fieldMigration 0) State.reset := fun h =>
  done ((h State.reset 0).1 (.inl (by decide +kernel)))

theorem wit_mig_no_spare : Obligations.MigrationsMoveALogicalField → Completes (.fieldMigration 0) (wants 0 false) := fun h => by
  refine done (((h (wants 0 false) 0).2.1 (asks3 0) 3 ?_ ?_ ?_ ?_).1 ?_ |>.1 ?_) <;> decide +kernel

theorem wit_mig_lost : Obligations.MigrationsMoveALogicalField → Completes (.fieldMigration 0) (wants 513 false) := fun h => by
  refine done (((h (wants 513 false) 0).2.1 (asks3 513) 3 ?_ ?_ ?_ ?_).1 ?_ |>.2 ?_) <;> decide +kernel

theorem wit_mig : Obligations.MigrationsMoveALogicalField → Completes (.fieldMigration 0) (wants 0 true) := fun h => by
  refine done (((h (wants 0 true) 0).2.1 (asks3 0) 3 ?_ ?_ ?_ ?_).2 17 [] ?_) <;> decide +kernel

theorem wit_migrate_zero : Obligations.MigrationsMoveALogicalField → Completes (.migrate 0x43) run := fun h =>
  done (((h run 0).2.2.1 0x43).1 (by decide +kernel))

theorem wit_migrate_off : Obligations.MigrationsMoveALogicalField → Completes (.migrate 0xFF0003) run := fun h =>
  done ((((h run 0).2.2.1 0xFF0003).2 (by decide +kernel)).1 (.inl (by decide +kernel)))

theorem wit_migrate : Obligations.MigrationsMoveALogicalField → Completes (.migrate 0xFF0043) run := fun h => by
  refine done ((((h run 0).2.2.1 0xFF0043).2 ?_).2 ?_ ?_ ?_ ?_ ?_) <;> decide +kernel

theorem wit_mig_wait_none : Obligations.MigrationsMoveALogicalField → Completes (.migrateWaitExpiry 3) run := fun h =>
  done (((h run 3).2.2.2.1 (by decide +kernel)).1)

theorem wit_mig_copy_none : Obligations.MigrationsMoveALogicalField → Completes (.migrationCopyDone 3 true) run := fun h =>
  done (((h run 3).2.2.2.1 (by decide +kernel)).2 true)

theorem wit_mig_wait_runs : Obligations.MigrationsMoveALogicalField → Completes (.migrateWaitExpiry 0) (moving 3 1) := fun h => by
  refine done (((h (moving 3 1) 0).2.2.2.2 (on3 3 1) ?_ ?_ ?_ ?_ ?_).1 (.inr ?_)) <;> decide +kernel

theorem wit_mig_wait : Obligations.MigrationsMoveALogicalField → Completes (.migrateWaitExpiry 0) (moving 3 0) := fun h => by
  refine done (((h (moving 3 0) 0).2.2.2.2 (on3 3 0) ?_ ?_ ?_ ?_ ?_).2.1 ?_ ?_) <;> decide +kernel

theorem wit_mig_copy_waits : Obligations.MigrationsMoveALogicalField → Completes (.migrationCopyDone 0 false) (moving 4 0) := fun h => by
  refine done (((h (moving 4 0) 0).2.2.2.2 (on3 4 0) ?_ ?_ ?_ ?_ ?_).2.2.1 ?_) <;> decide +kernel

theorem wit_mig_copy : Obligations.MigrationsMoveALogicalField → Completes (.migrationCopyDone 0 false) resting := fun h => by
  refine done (((h resting 0).2.2.2.2 (on3 4 0) ?_ ?_ ?_ ?_ ?_).2.2.2.2.1 ?_ (show resting.mem.wf = true from ?_) ?_ ?_ ?_ (grid_plain ?_ ?_))
    <;> decide +kernel

/-- A dirty line of it is still there, and its stack sleeps. -/
def restingDirty : State :=
  (resting.modField 3 fun f => { f with fm := { f.fm with lines := [aLine] } }).puts [(Reg.STK_STATUS_PWR_STATE 0, 1)]

theorem wit_mig_copy_flushes : Obligations.MigrationsMoveALogicalField → Completes (.migrationCopyDone 0 false) (restingDirty) := fun h => by
  refine done (((h restingDirty 0).2.2.2.2 (on3 4 0) ?_ ?_ ?_ ?_ ?_).2.2.2.1 ?_ ?_) <;> decide +kernel

theorem wit_mig_error : Obligations.MigrationsMoveALogicalField → Completes (.migrationCopyDone 0 true) (moving 4 0) := fun h => by
  refine done (((h (moving 4 0) 0).2.2.2.2 (on3 4 0) ?_ ?_ ?_ ?_ ?_).2.2.2.2.2) <;> decide +kernel

/-! Cores, Hjelmar, legs and seams. -/

theorem wit_core_spare_fails : Obligations.CoresHjelmarLegsAndSeamsFailAndRecover → Completes (.heartbeatMiss 5) run := fun h => by
  refine done (((h run).1 5).1 (.inr (.inl (by decide +kernel))))

theorem wit_core_spare_uncorr : Obligations.CoresHjelmarLegsAndSeamsFailAndRecover → Completes (.controlCoreUncorrReport 5) (run) := fun h => by
  refine done (((h run).1 5).2.1 (.inr (.inl (by decide +kernel))))

theorem wit_core_fails : Obligations.CoresHjelmarLegsAndSeamsFailAndRecover → Completes (.heartbeatMiss 3) run := fun h => by
  refine done (((((h run).1 3).2.2 3 ?_ ?_ ?_ ?_ ?_ ?_).1 4 [5] ?_).1) <;> decide +kernel

theorem wit_core_uncorr : Obligations.CoresHjelmarLegsAndSeamsFailAndRecover → Completes (.controlCoreUncorrReport 3) (run) := fun h => by
  refine done (((((h run).1 3).2.2 3 ?_ ?_ ?_ ?_ ?_ ?_).1 4 [5] ?_).2) <;> decide +kernel

theorem wit_core_fails_last : Obligations.CoresHjelmarLegsAndSeamsFailAndRecover → Completes (.controlCoreUncorrReport 3) (noSpare run) := fun h => by
  refine done (((((h (noSpare run)).1 3).2.2 3 ?_ ?_ ?_ ?_ ?_ ?_).2 ?_).2) <;> decide +kernel

theorem wit_core_missed_last : Obligations.CoresHjelmarLegsAndSeamsFailAndRecover → Completes (.heartbeatMiss 3) (noSpare run) := fun h => by
  refine done (((((h (noSpare run)).1 3).2.2 3 ?_ ?_ ?_ ?_ ?_ ?_).2 ?_).1) <;> decide +kernel

/-- Hjelmar has mismatched twice within the hour, and is, or is not, left in reset. -/
def mismatched (down : Bool) : State := { run with plane := { run.plane with mismatches := [0, 0], hjmStopped := down } }

theorem wit_lockstep_down : Obligations.CoresHjelmarLegsAndSeamsFailAndRecover → Completes .hjelmarLockstep (mismatched true) := fun h =>
  done ((h (mismatched true)).2.1 (.inr (by decide +kernel)))

theorem wit_lockstep : Obligations.CoresHjelmarLegsAndSeamsFailAndRecover → Completes .hjelmarLockstep (mismatched false) := fun h =>
  done ((h (mismatched false)).2.2.1 (by decide +kernel) (by decide +kernel))

def legHeld (l : Leg) : State := unitHolds gridOn 31 7 l 0 []

theorem no_leg {s : State} {p u x : Nat} (e : s.leg p u x = none) : ∀ l, s.leg p u x = some l → s.legLive p u x l = false :=
  fun l g => by rw [e] at g; cases g

theorem wit_parity : Obligations.CoresHjelmarLegsAndSeamsFailAndRecover → Completes (.legParityUpset 3 31 7) (legHeld cuLeg) := fun h =>
  done (((h (legHeld cuLeg)).2.2.2.1 3 31 7).1 cuLeg (by decide +kernel) (by decide +kernel) (by decide +kernel))

theorem wit_parity_none : Obligations.CoresHjelmarLegsAndSeamsFailAndRecover → Completes (.legParityUpset 71 31 7) (legHeld cuLeg) := fun h =>
  done (((h (legHeld cuLeg)).2.2.2.1 71 31 7).2 (.inr (no_leg (by decide +kernel))))

/-- Engine `e` scrubs and is at a position; the sum of leg 7 of unit 31 of Field 3 is known. -/
def scrubAt (e pos crc en : Nat) : State :=
  let s := (legHeld cuLeg).puts [(Reg.CFG_SCRUB_CTRL_EN e, en)]
  { s with plane := { s.plane with scrubs := [(e, pos)], crcs := [(legKey 3 31 7, crc)] } }

theorem wit_scrub_off : Obligations.CoresHjelmarLegsAndSeamsFailAndRecover → Completes (.legScrub 7 [2047] true true) (scrubAt 7 2303 0 0) := fun h =>
  done (((h (scrubAt 7 2303 0 0)).2.2.2.2.1 7 [2047]).1 true true (.inr (by decide +kernel)))

theorem wit_scrub_copy : Obligations.CoresHjelmarLegsAndSeamsFailAndRecover → Completes (.legScrub 7 [] true true) (scrubAt 7 2303 0 1) := fun h =>
  done ((((h (scrubAt 7 2303 0 1)).2.2.2.2.1 7 []).2 (by decide +kernel) (by decide +kernel)).1 true)

theorem wit_scrub_empty : Obligations.CoresHjelmarLegsAndSeamsFailAndRecover → Completes (.legScrub 7 [] false false) (scrubAt 7 2303 0 1) := fun h =>
  done ((((h (scrubAt 7 2303 0 1)).2.2.2.2.1 7 []).2 (by decide +kernel) (by decide +kernel)).2.1 (by decide +kernel))

theorem wit_scrub_good : Obligations.CoresHjelmarLegsAndSeamsFailAndRecover → Completes (.legScrub 0 [] false false) (scrubAt 0 1023 (crc32c cuCfg) 1) := fun h =>
  done (((((h (scrubAt 0 1023 (crc32c cuCfg) 1)).2.2.2.2.1 0 []).2 (by decide +kernel) (by decide +kernel)).2.2 cuLeg (by decide +kernel)).1 (.inr (.inr (by decide +kernel))))

theorem wit_scrub_bad : Obligations.CoresHjelmarLegsAndSeamsFailAndRecover → Completes (.legScrub 0 [2047] false false) (scrubAt 0 1023 (crc32c cuCfg) 1) := fun h =>
  done (((((h (scrubAt 0 1023 (crc32c cuCfg) 1)).2.2.2.2.1 0 [2047]).2 (by decide +kernel) (by decide +kernel)).2.2 cuLeg (by decide +kernel)).2 (by decide +kernel) (by decide +kernel) (by decide +kernel))

/-- Seam direction 7 is up or not, and its routes are on it or away. -/
def seam7 (up : Nat) (away : Bool) : State :=
  let s := run.puts [(Reg.SEAM_DIR_STATUS_LINK_UP 7, up)]
  { s with plane := { s.plane with routesAway := if away then [7] else [] } }

theorem wit_seam_down : Obligations.CoresHjelmarLegsAndSeamsFailAndRecover → Completes (.seamDirectionFail 7) (seam7 0 true) := fun h =>
  done (((h (seam7 0 true)).2.2.2.2.2.1 7).1 (by decide +kernel))

theorem wit_seam_fail : Obligations.CoresHjelmarLegsAndSeamsFailAndRecover → Completes (.seamDirectionFail 7) (seam7 1 false) := fun h =>
  done (((h (seam7 1 false)).2.2.2.2.2.1 7).2.1 (by decide +kernel) (by decide +kernel))

theorem wit_seam_no_retrain : Obligations.CoresHjelmarLegsAndSeamsFailAndRecover → Completes (.seamRetrain 7 false) (seam7 0 true) := fun h =>
  done (((h (seam7 0 true)).2.2.2.2.2.1 7).2.2.1 false (.inl rfl))

theorem wit_seam_retrain : Obligations.CoresHjelmarLegsAndSeamsFailAndRecover → Completes (.seamRetrain 7 true) (seam7 0 true) := fun h =>
  done (((h (seam7 0 true)).2.2.2.2.2.1 7).2.2.2 (by decide +kernel) (by decide +kernel) (by decide +kernel))

/-- A row of stack 31 has been worn twice. -/
def worn (writes : Nat) : State :=
  let s := run.puts [(Reg.CFG_BOOT_STATUS_WRITES_EN, writes)]
  { s with plane := { s.plane with wearLog := [(7 * 2 ^ 48 + 31 * 2 ^ 25, [0, 0])] } }

theorem wit_wear_early : Obligations.CoresHjelmarLegsAndSeamsFailAndRecover → Completes .wearCountCopy State.reset := fun h =>
  done ((h State.reset).2.2.2.2.2.2.1 (by decide +kernel))

theorem wit_wear : Obligations.CoresHjelmarLegsAndSeamsFailAndRecover → Completes .wearCountCopy (worn 1) := fun h =>
  done ((h (worn 1)).2.2.2.2.2.2.2.1 (by decide +kernel) (by decide +kernel))

theorem wit_wear_held : Obligations.CoresHjelmarLegsAndSeamsFailAndRecover → Completes .wearCountCopy (worn 0) := fun h =>
  done ((h (worn 0)).2.2.2.2.2.2.2.2 (by decide +kernel) (by decide +kernel))

/-! Telemetry. -/

/-- A log, and an alarm of severity MAJ. -/
def log1 : TelRec := { cls := 2, level := 3, source := 2047, stamp := 5, code := 7, ctx := some 63, part := some 15, count := 1, body := .none }
def alarm1 : TelRec := { log1 with cls := 1, level := 1 }
/-- These records wait in a stage, at 10 ms. -/
def telBase : State := base.puts [(⟨Reg.aBRK_TIME_LO, 31, 0⟩, 328), (Reg.STK_STATUS_READY 0, 1), (Reg.STK_STATUS_PWR_STATE 0, 0)]
def waiting (k : Nat) (rs : List TelRec) (gs : List GapCount) : State := telBase.setStage k { recs := rs, gaps := gs }

theorem wit_collector_none : Obligations.RecordsReachSlotsBufferAndHost → Completes (.collectorWrite (.collector 3)) telBase := fun h =>
  done ((h telBase).1 (.collector 3) (by decide +kernel))

theorem wit_collector_log : Obligations.RecordsReachSlotsBufferAndHost → Completes (.collectorWrite (.source 2047)) (waiting 2047 [log1] []) := fun h =>
  done (((h (waiting 2047 [log1] [])).2.1 (.source 2047) log1 [] (by decide +kernel) (by decide +kernel) (.inr (by decide +kernel))).1 2047 (by decide +kernel) (by rw [if_neg (by decide +kernel)]; exact ⟨(by decide +kernel), (by decide +kernel)⟩))

theorem wit_collector_alarm : Obligations.RecordsReachSlotsBufferAndHost → Completes (.collectorWrite (.source 2047)) (waiting 2047 [alarm1] []) := fun h =>
  done (((h (waiting 2047 [alarm1] [])).2.1 (.source 2047) alarm1 [] (by decide +kernel) (by decide +kernel) (.inl (by decide +kernel))).1 2047 (by decide +kernel) (by rw [if_pos (by decide +kernel)]; exact (by decide +kernel)))

/-- Slot 255 holds an alarm of this source, and every slot, or no other, is in use. -/
def slot255 (src count : Nat) : AlarmSlot := { AlarmSlot.free with code := 7, sev := 3, source := src, ctx := some 63, count := count }
def slotted (src count : Nat) (all : Bool) : State :=
  let s := (waiting (collectorKey 3) [alarm1] []).puts ((List.range 256).filterMap fun n => if n = 255 || all then some (Reg.TEL_ALARM_SLOT_IN_USE n, 1) else none)
  { s with tel := { s.tel with slots := [(255, slot255 src count)] } }

theorem wit_alarm_again : Obligations.RecordsReachSlotsBufferAndHost → Completes (.collectorWrite (.collector 3)) (slotted 2047 (2 ^ 32 - 1) false) := fun h =>
  done ((((h (slotted 2047 (2 ^ 32 - 1) false)).2.1 (.collector 3) alarm1 [] (by decide +kernel) (by decide +kernel) (.inl (by decide +kernel))).2 3 (by decide +kernel)).1 (by decide +kernel) |>.1 255 (by decide +kernel) (by decide +kernel) (by decide +kernel))

theorem wit_alarm_new : Obligations.RecordsReachSlotsBufferAndHost → Completes (.collectorWrite (.collector 3)) (slotted 2046 1 false) := fun h => by
  refine done ((((h (slotted 2046 1 false)).2.1 (.collector 3) alarm1 [] ?_ ?_ (.inl ?_)).2 3 ?_).1 ?_ |>.2.1 0 ?_ ?_ ?_ ?_) <;> decide +kernel

theorem wit_alarm_merged : Obligations.RecordsReachSlotsBufferAndHost → Completes (.collectorWrite (.collector 3)) (slotted 2046 1 true) := fun h => by
  refine done ((((h (slotted 2046 1 true)).2.1 (.collector 3) alarm1 [] ?_ ?_ (.inl ?_)).2 3 ?_).1 ?_ |>.2.2 255 ?_ ?_ ?_ ?_) <;> decide +kernel

theorem wit_buffered : Obligations.RecordsReachSlotsBufferAndHost → Completes (.collectorWrite (.collector 3)) (waiting (collectorKey 3) [log1] []) := fun h =>
  done ((((h (waiting (collectorKey 3) [log1] [])).2.1 (.collector 3) log1 [] (by decide +kernel) (by decide +kernel) (.inr (by decide +kernel))).2 3 (by decide +kernel)).2 (by decide +kernel) (by decide +kernel) 0 (by decide +kernel))

def gap3 : GapCount := { level := 3, count := 2, first := 0, last := 0 }

theorem wit_gap_source : Obligations.RecordsReachSlotsBufferAndHost → Completes (.gapRecord (some (.source 2047)) 3) (waiting 2047 [] [gap3]) := fun h =>
  done (((h (waiting 2047 [] [gap3])).2.2.1 (.source 2047) 3 gap3 (by decide +kernel)).1 2047 (by decide +kernel) ⟨(by decide +kernel), (by decide +kernel)⟩)

theorem wit_gap_collector : Obligations.RecordsReachSlotsBufferAndHost → Completes (.gapRecord (some (.collector 3)) 3) (waiting (collectorKey 3) [] [gap3]) := fun h =>
  done (((h (waiting (collectorKey 3) [] [gap3])).2.2.1 (.collector 3) 3 gap3 (by decide +kernel)).2 3 (by decide +kernel) (by decide +kernel) 0 (by decide +kernel))

def bufGap3 : State := { telBase with tel := { telBase.tel with bufGaps := [gap3] } }

theorem wit_gap_buffer : Obligations.RecordsReachSlotsBufferAndHost → Completes (.gapRecord none 3) bufGap3 := fun h =>
  done ((h bufGap3).2.2.2.1 3 gap3 (by decide +kernel) 0 (by decide +kernel))

/-- Slot 255 was written a second ago, with such a count. -/
def periodic (written : Nat) : State :=
  let s := telBase.puts [(⟨Reg.aBRK_TIME_LO, 31, 0⟩, 32768), (Reg.TEL_ALARM_SLOT_IN_USE 255, 1)]
  { s with tel := { s.tel with slots := [(255, { slot255 2047 2 with written := written, merged := true })] } }

theorem wit_period_not : Obligations.RecordsReachSlotsBufferAndHost → Completes (.alarmPeriodicRecord 255) (periodic 2) := fun h =>
  done (((h (periodic 2)).2.2.2.2.1 255).1 (by decide +kernel))

theorem wit_period : Obligations.RecordsReachSlotsBufferAndHost → Completes (.alarmPeriodicRecord 255) (periodic 1) := fun h =>
  done (((h (periodic 1)).2.2.2.2.1 255).2 (by decide +kernel) 0 (by decide +kernel))

theorem wit_ack_all : Obligations.RecordsReachSlotsBufferAndHost → Completes (.telAlarmAck 0x1FF) (periodic 1) := fun h =>
  done (((h (periodic 1)).2.2.2.2.2.1 0x1FF).1 (by decide +kernel))

theorem wit_ack : Obligations.RecordsReachSlotsBufferAndHost → Completes (.telAlarmAck 0xFF) (periodic 1) := fun h =>
  done (((h (periodic 1)).2.2.2.2.2.1 0xFF).2 (by decide +kernel))

theorem wit_export_none : Obligations.RecordsReachSlotsBufferAndHost → Completes .telemetryExport telBase := fun h =>
  done ((h telBase).2.2.2.2.2.2.1 (.inl (by decide +kernel)))

/-- A subscriber to logs, and a record of the buffer, which it has or has not been sent. -/
def subscriber : Subscription :=
  { mac := 2 ^ 48 - 1, vlan := some 4094, pcp := 7, v6 := false, ip := 0x0A000001, port := 65535, id := 2 ^ 64 - 1, classes := 2, stream := 2 ^ 32 - 1 }
def subscribed (exported : Bool) : State :=
  let s := ethAt 1 0
  { s with tel := { s.tel with subscription := some subscriber,
                               buffer := [{ seq := 2, off := 0, len := 32, rank := 3, slot := none, exported := exported, rcd := log1 }] } }

theorem wit_export_nothing : Obligations.RecordsReachSlotsBufferAndHost → Completes .telemetryExport (subscribed true) := fun h =>
  done (((h (subscribed true)).2.2.2.2.2.2.2 subscriber (by decide +kernel) (by decide +kernel)).1 (by decide +kernel))

theorem wit_export : Obligations.RecordsReachSlotsBufferAndHost → Completes .telemetryExport (subscribed false) := fun h =>
  done (((h (subscribed false)).2.2.2.2.2.2.2 subscriber (by decide +kernel) (by decide +kernel)).2 (by decide +kernel) (by decide +kernel) (by decide +kernel))

/-! Time and the sideband pins. -/

theorem wit_epoch : Obligations.TimeAndSidebandPinsFollowTheirRules → Completes (.epochWrite 0xFFFFFFFF) run := fun h => done ((h run).1 0xFFFFFFFF)

theorem wit_tick : Obligations.TimeAndSidebandPinsFollowTheirRules → Completes .bedrockTick run := fun h => done (((h run).2.1 (by decide +kernel)).1)

theorem wit_xtal : Obligations.TimeAndSidebandPinsFollowTheirRules → Completes .xtal32kStart run := fun h => done (((h run).2.1 (by decide +kernel)).2)

theorem wit_tick_off : Obligations.TimeAndSidebandPinsFollowTheirRules → Completes .bedrockTick State.reset := fun h => done (((h State.reset).2.2.1 (by decide +kernel)).1)

theorem wit_xtal_off : Obligations.TimeAndSidebandPinsFollowTheirRules → Completes .xtal32kStart State.reset := fun h => done (((h State.reset).2.2.1 (by decide +kernel)).2)

theorem wit_xtal_stop_off : Obligations.TimeAndSidebandPinsFollowTheirRules → Completes .xtal32kStop State.reset := fun h =>
  done ((h State.reset).2.2.2.1 (by decide +kernel))

theorem wit_xtal_stop : Obligations.TimeAndSidebandPinsFollowTheirRules → Completes .xtal32kStop run := fun h => done ((h run).2.2.2.2.1 (by decide +kernel))

theorem wit_smb_off : Obligations.TimeAndSidebandPinsFollowTheirRules → Completes .smbStatus State.reset := fun h =>
  done ((h State.reset).2.2.2.2.2.1 (by decide +kernel) .smbStatus (.inr (.inr (.inr rfl))))

theorem wit_smb_address : Obligations.TimeAndSidebandPinsFollowTheirRules → Completes (.setAddress 0xFFFFFFFC) run := fun h =>
  done (((h run).2.2.2.2.2.2.1 (by decide +kernel)).1 0xFFFFFFFC)

theorem wit_smb_read : Obligations.TimeAndSidebandPinsFollowTheirRules → Completes .smbRead run := fun h => done (((h run).2.2.2.2.2.2.1 (by decide +kernel)).2.1)

theorem wit_smb_ack : Obligations.TimeAndSidebandPinsFollowTheirRules → Completes (.smbAlarmAck 255 false) run := fun h =>
  done (((h run).2.2.2.2.2.2.1 (by decide +kernel)).2.2.1 255 false)

theorem wit_smb_status : Obligations.TimeAndSidebandPinsFollowTheirRules → Completes .smbStatus run := fun h => done (((h run).2.2.2.2.2.2.1 (by decide +kernel)).2.2.2)

theorem wit_smb_timeout : Obligations.TimeAndSidebandPinsFollowTheirRules → Completes .smbSclTimeout run := fun h => done ((h run).2.2.2.2.2.2.2.1)

/-- BOOT_MODE has been sampled as 0b11. -/
def maker3 : State := { run with board := { run.board with strap := 3 } }

theorem wit_jtag_lands : Obligations.TimeAndSidebandPinsFollowTheirRules → Completes (.jtagInstruction .extestTrain) run := fun h =>
  done (((h run).2.2.2.2.2.2.2.2 .extestTrain).1 (by decide +kernel) (by decide +kernel) (by decide +kernel))

theorem wit_jtag_no_maker : Obligations.TimeAndSidebandPinsFollowTheirRules → Completes (.jtagInstruction (.maker 1)) run := fun h =>
  done (((h run).2.2.2.2.2.2.2.2 (.maker 1)).2.1 ⟨1, rfl⟩ (.inl (by decide +kernel)))

theorem wit_jtag_maker : Obligations.TimeAndSidebandPinsFollowTheirRules → Completes (.jtagInstruction (.maker 0xFFFFFFFF)) maker3 := fun h =>
  done (((h maker3).2.2.2.2.2.2.2.2 (.maker 0xFFFFFFFF)).2.2.1 0xFFFFFFFF (by decide +kernel) (by decide +kernel) (by decide +kernel))

theorem wit_jtag : Obligations.TimeAndSidebandPinsFollowTheirRules → Completes (.jtagInstruction .extest) maker3 := fun h =>
  done (((h maker3).2.2.2.2.2.2.2.2 .extest).2.2.2 (fun x => by simp) (fun _ => .inr (by decide +kernel)))

/-! Whole-machine statements. -/

theorem wit_step_next : ∃ s t, s.MemoryCanonical ∧ step s = .next t :=
  ⟨run, run, show run.mem.wf = true from (by decide +kernel), rfl⟩

theorem wit_reset_memory : State.reset.MemoryCanonical := show State.reset.mem.wf = true from (by decide +kernel)

/-! Every check of WellFormed refuses a command that breaks it. -/

theorem ill_size : (Instr.dcsRegisterWrite 0x900000 3 0).wellFormed = false := by decide
theorem ill_token : (Instr.handshakeStep 0 0 (some (List.replicate 129 0))).wellFormed = false := by decide
theorem ill_crossing : (Instr.crossingToken 0 true (some (List.replicate 129 0)) false).wellFormed = false := by decide
theorem ill_tree : (Instr.treeCombine 0 0 0 6 0).wellFormed = false := by decide
theorem ill_bank_granule : (Instr.bankAccess 0 0 [{ breq 0 false with off := 255, len := 2 }]).wellFormed = false := by decide
theorem ill_bank_data : (Instr.bankAccess 0 0 [{ breq 0 true with data := [] }]).wellFormed = false := by decide
theorem ill_bank_ranks : (Instr.bankAccess 0 0 [breq 1 true, breq 1 true]).wellFormed = false := by decide
theorem ill_line : (Instr.cacheAccess 0 0 255 2 none .good).wellFormed = false := by decide
theorem ill_line_data : (Instr.cacheAccess 0 0 0 2 (some [1]) .good).wellFormed = false := by decide
theorem ill_stack_read : (Instr.stackRead 0 (48 * 2 ^ 30) none .good).wellFormed = false := by decide
theorem ill_stack_write : (Instr.stackWrite 0 63 [1, 2] none .good).wellFormed = false := by decide
theorem ill_gather : (Instr.gather 0 (List.replicate 33 0) none .good).wellFormed = false := by decide
theorem ill_va : (Instr.tlbWalk 0 0 0 0 (2 ^ 48) 0).wellFormed = false := by decide
theorem ill_flit : (Instr.flitReceive 0 [1] []).wellFormed = false := by decide
theorem ill_frame : (Instr.frameReceive { frame 64 (.arp 0) with tags := [(4096, 0)] }).wellFormed = false := by decide
theorem ill_record : (Instr.stagingComplete (.record { DeployRec.none with mac := 2 ^ 48 }) 0).wellFormed = false := by decide
theorem ill_load : (Instr.stagingComplete (.image true [(5, { model7 with legs := [(0, { unit := 0, leg := 0, lfield := 0, bytes := [] })] })]) 0).wellFormed = false := by decide
theorem ill_outs : (Instr.heatEndChecks 0 [⟨1, 0, 0, false, 0⟩, ⟨1, 0, 0, false, 0⟩] none).wellFormed = false := by decide
theorem ill_vote : (Instr.groupVote 0 []).wellFormed = false := by decide
theorem ill_decision : (Instr.groupDecision 0 []).wellFormed = false := by decide
theorem ill_answers : (Instr.leaderLost 0 [none, some []]).wellFormed = false := by decide
theorem ill_poll : (Instr.decisionWordPoll 0 [some []]).wellFormed = false := by decide
theorem ill_reading : (Instr.powerManagerAction { reading 0 with tj := [] }).wellFormed = false := by decide
theorem ill_groups : (Instr.energyAttribution 0 [1]).wellFormed = false := by decide
theorem ill_boot : (Instr.porRelease 0 { boot0 with auditMissing := 253953 }).wellFormed = false := by decide

/-! Values. Those of the functions are known from outside the model: the check value of CRC-32C, the example of FIPS 180-4 for SHA-384, and roundings
of e, ln 2, √2, 1/√2, tanh 1, SiLU(1) and GELU(1) worked out to sixty digits. The others are read off the spec's tables. -/

theorem test_crc32c : crc32c [0x31, 0x32, 0x33, 0x34, 0x35, 0x36, 0x37, 0x38, 0x39] = 0xE3069283 := by decide +kernel
theorem test_sha384 : beNat (sha384 [0x61, 0x62, 0x63]) =
    0xcb00753f45a35e8bb5a03d699ac65007272c32ab0eded1631a8b605a43ff5bed8086072ba1e7cc2358baeca134c825a7 := by decide +kernel
theorem test_exp : f32Exp 0x3F800000 = 0x402DF854 := by decide +kernel
theorem test_log : f32Log 0x40000000 = 0x3F317218 := by decide +kernel
theorem test_sqrt : f32Sqrt 0x40000000 = 0x3FB504F3 := by decide +kernel
theorem test_rsqrt : f32Rsqrt 0x40000000 = 0x3F3504F3 := by decide +kernel
theorem test_tanh : f32Tanh 0x3F800000 = 0x3F42F7D6 := by decide +kernel
theorem test_silu : f32Silu 0x3F800000 = 0x3F3B26A8 := by decide +kernel
theorem test_gelu : f32Gelu 0x3F800000 = 0x3F57585C := by decide +kernel

/-- R62: INT32 accumulation saturates at ±2,147,483,647. -/
theorem test_int32_saturates : i32SatAdd 0x7FFFFFFF 1 = (0x7FFFFFFF, true) ∧ i32SatAdd 0x80000001 0xFFFFFFFF = (0x80000001, true) := by decide +kernel

/-- Table 3-3: the largest finite values of E4M3, E5M2, E2M3, E3M2, E2M1 and FP16. -/
theorem test_largest : ffE4M3.decode 0x7E = .fin false 14 5 ∧ (ffE4M3.convert .rne true (.fin false 1000 0)) = 0x7E ∧
    ffE5M2.convert .rne false (.fin false 57344 0) = 0x7B ∧ ffE2M3.convert .rne true (.fin false 8 0) = 0x1F ∧
    ffE3M2.convert .rne true (.fin false 28 0) = 0x1F ∧ ffE2M1.convert .rne true (.fin false 6 0) = 7 ∧
    ffFP16.convert .rne false (.fin false 65504 0) = 0x7BFF := by decide +kernel

/-- R77: ties go to an even last bit; Table 3-3: the smallest subnormal of E4M3 is 2⁻⁹. -/
theorem test_ties : ffBF16.convert .rne false (f32v 0x3F808000) = 0x3F80 ∧ ffBF16.convert .rne false (f32v 0x3F818000) = 0x3F82 ∧
    ffE4M3.convert .rne false (.fin false 1 (-9)) = 1 ∧ ffE4M3.convert .rne false (.fin false 1 (-10)) = 0 := by decide +kernel

/-- R79: integer outputs saturate to the full range. R82: an exact value never rounds away. -/
theorem test_int8 : intConvert 8 .rne (.fin true 1000 0) = 0x80 ∧ intConvert 8 .rne (.fin false 5 (-1)) = 2 ∧
    intConvert 8 (.sr 8 255) (.fin false 3 0) = 3 ∧ intConvert 8 (.sr 8 255) (.fin false 3 (-1)) = 2 := by decide +kernel

/-- R80: the scale of a block of zeros is 2⁻¹²⁷, and of a block whose largest magnitude is 448 in E4M3 is 1. -/
theorem test_mx : (mxBlock fmtE4M3 true (List.replicate 32 (.fin false 0 0, .rne))).1 = 0 ∧
    mxBlock 0x11 true [(.fin false 448 0, .rne), (.fin true 1 0, .rne)] = (127, [0x7E, 0xB8]) := by decide +kernel

/-- Table 3-2: element 1 of a packing unit of 6-bit elements lies in bits 11 to 6. -/
theorem test_packing : elemAt 0x13 [0xC0, 0x0F, 0] 1 = 0x3F ∧ elemAt 0x00 [0x5A] 1 = 5 := by decide +kernel

/-- R47 and the example of chapter 2: RATE_CODE 65 is 1.15 G steps/s. -/
theorem test_rate : rateOf 65 = 1150 := by decide +kernel

/-- The worked example of chapter 3: 13.25, 500 and −3.5 to E4M3 and INT8, to the nearest even and with the random values 201 and 58. -/
theorem test_drain : ffE4M3.convert .rne false (.fin false 53 (-2)) = 0x55 ∧ ffE4M3.convert (.sr 8 201) false (.fin false 53 (-2)) = 0x56 ∧
    ffE4M3.convert (.sr 8 58) false (.fin false 53 (-2)) = 0x55 ∧ ffE4M3.convert .rne false (.fin false 500 0) = 0x7F ∧
    ffE4M3.convert (.sr 8 58) false (.fin false 500 0) = 0x7F ∧ ffE4M3.convert .rne true (.fin false 500 0) = 0x7E := by decide +kernel
theorem test_drain_int8 : intConvert 8 .rne (.fin false 53 (-2)) = 13 ∧ intConvert 8 (.sr 8 201) (.fin false 53 (-2)) = 14 ∧
    intConvert 8 .rne (.fin true 7 (-1)) = 0xFC ∧ intConvert 8 (.sr 8 201) (.fin true 7 (-1)) = 0xFC ∧
    intConvert 8 (.sr 8 58) (.fin true 7 (-1)) = 0xFD := by decide +kernel

/-- The worked examples of chapters 4 and 15: 2²⁴ + 1 + 1 in order is 2²⁴, and (2²⁴ + 1) + (1 + 2) is 16,777,220. -/
theorem test_sums : f32Add (f32Add (f32OfNat (2 ^ 24)) (f32OfNat 1)) (f32OfNat 1) = f32OfNat 16777216 ∧
    f32Add (f32Add (f32OfNat (2 ^ 24)) (f32OfNat 1)) (f32Add (f32OfNat 1) (f32OfNat 2)) = f32OfNat 16777220 := by decide +kernel

/-- The worked example of chapter 23: four addresses, and one that names no register. -/
theorem test_addresses : Reg.aFLD_CH_WPTR 34 5 = 0x04205194 ∧ Reg.aSTK_ECC_STATUS 17 = 0x01880010 ∧ Reg.aQPL_LANE_STATE 2 7 = 0x0058002C ∧
    Reg.aQPL_ROUTE 0 37 = 0x00501094 ∧ (regRow? 0x04230000).isNone = true := by decide +kernel

/-- The worked examples of chapters 13 and 14: where a part offset lies, and the entries of a VA. -/
theorem test_offsets : offsetTarget 0x1234567800 = some (.stack 0x1234567800) ∧ 0x1234567800 / stackSize = 1 ∧
    tableIndex 1 0x7A4123456780 = 125188 ∧ tableIndex 2 0x7A4123456780 = 282 ∧ bits 0x4AC80040000F 50 21 * 2 ^ 21 = 0x4AC800400000 := by decide +kernel
end Sys2Proof.Tests
end

section
/-!
SUPPORT. Chapter 2, what the proofs about stages, crossings and pacers share: how a command that answers completes, and the frames that hold when
a command changes only registers or only what one Field holds.
-/

namespace Sys2Proof.Machine

/-- A command that answers with `u` completes with `u` after its alerts have been shown. -/
theorem completesWith_of_answer {c : Instr} {s u : State} {P : State → Prop} (h : exec c s = answer u) (hP : P u.alerts) :
    CompletesWith c s P := ⟨u.alerts, h, hP⟩

theorem regsBut_alerts {s u : State} {as : List Nat} (h : ∀ a, a ∉ as → u.rd a = s.rd a) : RegsBut s u.alerts as :=
  fun a ha hne => (u.rd_alerts_ne hne).trans (h a ha)

theorem regsBut_alerts_of_regs {s u : State} (h : u.regs = s.regs) : RegsBut s u.alerts [] :=
  regsBut_alerts fun a _ => State.rd_of_regs h a

/-- The frame of a command that writes registers and nothing else. -/
theorem onlyRegs_alerts {s u : State} {as : List Nat} (hr : ∀ a, a ∉ as → u.rd a = s.rd a) (hu : u = { s with regs := u.regs }) :
    OnlyRegs s u.alerts as := by
  refine ⟨regsBut_alerts hr, ?_⟩
  rw [hu]; rfl

/-- Nothing but registers and what physical Field `p` holds beside them differs between two states. -/
def DiffersInField (s u : State) (p : Nat) : Prop :=
  (∀ q, q ≠ p → u.field q = s.field q) ∧ u = { s with regs := u.regs, fields := u.fields }

theorem DiffersInField.refl (s : State) (p : Nat) : DiffersInField s s p := ⟨fun _ _ => rfl, rfl⟩

theorem DiffersInField.modField {s u : State} {p : Nat} (h : DiffersInField s u p) (g : FieldState → FieldState) :
    DiffersInField s (u.modField p g) p := by
  obtain ⟨hf, hu⟩ := h
  refine ⟨fun q hq => (u.field_modField_ne g hq).trans (hf q hq), ?_⟩
  rw [hu]; rfl

theorem DiffersInField.put {s u : State} {p : Nat} (h : DiffersInField s u p) (f : RF) (v : Nat) : DiffersInField s (u.put f v) p := by
  obtain ⟨hf, hu⟩ := h
  refine ⟨hf, ?_⟩
  rw [hu]; rfl

/-- The frame of a command that changes what one Field holds, and registers of a list. -/
theorem onlyField_alerts {s u : State} {p : Nat} {as : List Nat} (h : DiffersInField s u p) (hr : ∀ a, a ∉ as → u.rd a = s.rd a) :
    OnlyField s u.alerts p as := by
  obtain ⟨hf, hu⟩ := h
  refine ⟨regsBut_alerts hr, hf, ?_⟩
  rw [hu]; rfl

theorem onlyField_alerts_of_regs {s u : State} {p : Nat} (h : DiffersInField s u p) (hr : u.regs = s.regs) : OnlyField s u.alerts p [] :=
  onlyField_alerts h fun a _ => State.rd_of_regs hr a

/-- When each step of a fold settles its own entry, and a step for another entry leaves it settled, every entry is settled at the end. -/
theorem foldl_settles {α β : Type} {f : β → α → β} {P : α → β → Prop} (own : ∀ b a, P a (f b a))
    (other : ∀ b a c, a ≠ c → P a b → P a (f b c)) (l : List α) (b : β) : ∀ a ∈ l, P a (l.foldl f b) := by
  induction l using List.reverseRecOn with
  | nil => simp
  | append_singleton l c ih =>
    intro a ha
    rw [List.foldl_append, List.foldl_cons, List.foldl_nil]
    by_cases hac : a = c
    · subst hac; exact own _ _
    · exact other _ _ _ hac (ih a (by simpa [hac] using ha))

/-- What each step of a fold leaves as it was, the fold leaves as it was. -/
theorem foldl_keeps {α β γ : Type} {f : β → α → β} {g : β → γ} {l : List α} (h : ∀ b, ∀ a ∈ l, g (f b a) = g b) (b : β) :
    g (l.foldl f b) = g b := by
  induction l generalizing b with
  | nil => rfl
  | cons a l ih =>
    rw [List.foldl_cons, ih fun b c hc => h b c (List.mem_cons_of_mem a hc)]
    exact h b a List.mem_cons_self

end Sys2Proof.Machine
end

section
/-!
SUPPORT. The registers of a pacer: where they lie, and the rate of its permits.
-/

namespace Sys2Proof.Machine

theorem aFLD_PACER_CTRL_inj {p q : Nat} : Reg.aFLD_PACER_CTRL p = Reg.aFLD_PACER_CTRL q ↔ p = q := by
  simp [Reg.aFLD_PACER_CTRL]

theorem aFLD_PACER_STATUS_inj {p q : Nat} : Reg.aFLD_PACER_STATUS p = Reg.aFLD_PACER_STATUS q ↔ p = q := by
  simp [Reg.aFLD_PACER_STATUS]

theorem aFLD_PACER_STATUS_ne_CTRL (p q : Nat) : Reg.aFLD_PACER_STATUS p ≠ Reg.aFLD_PACER_CTRL q := by
  simp only [Reg.aFLD_PACER_STATUS, Reg.aFLD_PACER_CTRL]; omega

theorem aFLD_PACER_CTRL_ne_alarms (p : Nat) : Reg.aFLD_PACER_CTRL p ≠ Reg.aTEL_ALARM_SUMMARY := by
  simp only [Reg.aFLD_PACER_CTRL, Reg.aTEL_ALARM_SUMMARY]; omega

theorem aFLD_PACER_STATUS_ne_alarms (p : Nat) : Reg.aFLD_PACER_STATUS p ≠ Reg.aTEL_ALARM_SUMMARY := by
  simp only [Reg.aFLD_PACER_STATUS, Reg.aTEL_ALARM_SUMMARY]; omega

theorem aFLD_RATE_MON_ne_alarms (p : Nat) : Reg.aFLD_RATE_MON p ≠ Reg.aTEL_ALARM_SUMMARY := by
  simp only [Reg.aFLD_RATE_MON, Reg.aTEL_ALARM_SUMMARY]; omega

/-- A field reads the same in two states in which its register does. -/
theorem State.get_of_rd {s t : State} {f : RF} (h : t.rd f.addr = s.rd f.addr) : t.get f = s.get f := by
  simp [State.get, State.rdN, h]

/-- The rate of the permits follows from the Field's FLD_PACER_STATUS and the clamp of its pacer. -/
theorem State.permitRate_congr {s t : State} {p : Nat} (hr : t.rd (Reg.aFLD_PACER_STATUS p) = s.rd (Reg.aFLD_PACER_STATUS p))
    (hc : (t.field p).pacer.clamp = (s.field p).pacer.clamp) : t.permitRate p = s.permitRate p := by
  have hget : ∀ f : RF, f.addr = Reg.aFLD_PACER_STATUS p → t.get f = s.get f := fun f hf => State.get_of_rd (by rw [hf, hr])
  simp [State.permitRate, State.on, hc, hget (Reg.FLD_PACER_STATUS_FIXED_ACTIVE p) rfl, hget (Reg.FLD_PACER_STATUS_RATE_CODE_ACTIVE p) rfl]

/-- In fixed-rate mode with no clamp the permits come at the set rate (R47). -/
theorem State.permitRate_fixed {s : State} {p : Nat} (h : s.on (Reg.FLD_PACER_STATUS_FIXED_ACTIVE p) = true)
    (hc : (s.field p).pacer.clamp = 0) : s.permitRate p = some (s.setRate p) := by
  simp [State.permitRate, h, hc, State.setRate]

end Sys2Proof.Machine
end

section
/-!
SUPPORT. Handshake stages (R39, R41, R46): what a write of a stage leaves alone, and what a step of the handshake does in each of its cases.
-/

namespace Sys2Proof.Machine

variable (s : State) (p k : Nat)

@[simp] theorem State.stg_alerts : s.alerts.stg p k = s.stg p k := rfl

@[simp] theorem State.stg_setStg_same (x : Stage) : (s.setStg p k x).stg p k = x := by simp [State.stg, State.setStg]

theorem State.stg_setStg_ne {j : Nat} (x : Stage) (h : j ≠ k) : (s.setStg p k x).stg p j = s.stg p j := by
  simp [State.stg, State.setStg, Tab.get_set_ne _ _ _ h]

@[simp] theorem State.pacer_setStg (x : Stage) : ((s.setStg p k x).field p).pacer = (s.field p).pacer := by simp [State.setStg]

@[simp] theorem State.regs_setStg (x : Stage) : (s.setStg p k x).regs = s.regs := rfl

theorem DiffersInField.setStg {s u : State} {p : Nat} (h : DiffersInField s u p) (k : Nat) (x : Stage) :
    DiffersInField s (u.setStg p k x) p := h.modField _

/-- A step that takes its permit changes the pacer's account of permits taken, and nothing else of the Field. -/
theorem State.stepTaken_cases (u : Nat) :
    (s.permitRate p = none ∧ s.stepTaken p u = s) ∨
    ((s.permitRate p).isSome = true ∧
      s.stepTaken p u = s.modPacer p fun x => { x with taken := Tab.set (fun _ => 0) x.taken u x.issued }) := by
  cases h : s.permitRate p <;> simp [State.stepTaken, h]

@[simp] theorem State.stg_stepTaken (u : Nat) : (s.stepTaken p u).stg p k = s.stg p k := by
  obtain ⟨_, h⟩ | ⟨_, h⟩ := s.stepTaken_cases p u <;> simp [h, State.stg, State.modPacer]

@[simp] theorem State.regs_stepTaken (u : Nat) : (s.stepTaken p u).regs = s.regs := by
  obtain ⟨_, h⟩ | ⟨_, h⟩ := s.stepTaken_cases p u <;> rw [h]; rfl

theorem State.differsInField_stepTaken (u : Nat) : DiffersInField s (s.stepTaken p u) p := by
  obtain ⟨_, h⟩ | ⟨_, h⟩ := s.stepTaken_cases p u <;> rw [h]
  · exact .refl s p
  · exact (DiffersInField.refl s p).modField _

/-- Once a unit has taken its permit it may begin no step, whatever else of the Field has changed, until another permit comes (R46). -/
theorem State.mayStep_of_stepTaken {s t : State} {p u : Nat} (hp : (s.permitRate p).isSome = true)
    (hr : t.rd (Reg.aFLD_PACER_STATUS p) = s.rd (Reg.aFLD_PACER_STATUS p)) (hf : (t.field p).pacer = ((s.stepTaken p u).field p).pacer) :
    t.mayStep p u = false := by
  obtain ⟨hnone, _⟩ | ⟨_, h⟩ := s.stepTaken_cases p u
  · simp [hnone] at hp
  · simp only [h, State.modPacer, State.field_modField_same] at hf
    have hrate : t.permitRate p = s.permitRate p := State.permitRate_congr hr (by rw [hf])
    simp [State.mayStep, State.permitted, hrate, hf, hp]

section
variable {s p k} {place : Option (List Byte)} (hrun : s.gridRuns p = true)
include hrun

/-- A stage that may step and has data passes them on when its successor is free: request and acknowledge toggle once each. -/
theorem State.handshake_passes {d : List Byte} (hm : s.mayStep p (unitStage k) = true) (hreq : (s.stg p k).req = (s.stg p k).ack)
    (hd : (s.stg p k).got.or place = some d) (hy : (s.stg p (k + 1)).got = none) :
    s.handshake p k place =
      ((s.stepTaken p (unitStage k)).setStg p k { req := !(s.stg p k).req, ack := !(s.stg p k).req, bundle := d, got := none }).setStg p (k + 1)
        { s.stg p (k + 1) with got := some d } := by
  cases hgot : (s.stg p k).got <;> simp [hgot] at hd <;> simp [State.handshake, hrun, hm, hreq, hgot, hd, hy]

/-- A stage at rest that may begin no step does nothing. -/
theorem State.handshake_rests (hm : s.mayStep p (unitStage k) = false) (hreq : (s.stg p k).req = (s.stg p k).ack) :
    s.handshake p k place = s := by
  simp [State.handshake, hrun, hm, hreq]

/-- A stage whose request has not been acknowledged waits for its successor to be free. -/
theorem State.handshake_waits (hreq : (s.stg p k).req ≠ (s.stg p k).ack) (hy : (s.stg p (k + 1)).got ≠ none) :
    s.handshake p k place = s := by
  simp [State.handshake, hrun, hreq, hy]

/-- A successor that is free again captures the data and acknowledges. -/
theorem State.handshake_acknowledges (hreq : (s.stg p k).req ≠ (s.stg p k).ack) (hy : (s.stg p (k + 1)).got = none) :
    s.handshake p k place =
      (s.setStg p k { s.stg p k with ack := (s.stg p k).req }).setStg p (k + 1) { s.stg p (k + 1) with got := some (s.stg p k).bundle } := by
  simp [State.handshake, hrun, hreq, hy]

end

end Sys2Proof.Machine
end

section
/-!
SUPPORT. Crossing queues (R51, R52, R54): what one command makes of a queue.
-/

namespace Sys2Proof.Machine

namespace Crossing

variable (x : Crossing) (tok : Option (List Byte)) (take : Bool)

/-- The sender's side once it has accepted a token for which it has space. -/
def accept : List (List Byte) := x.near ++ (if x.near.length < 8 then tok.toList else [])

/-- The receiver's side once tokens have crossed as far as it has space. -/
def crossed : List (List Byte) := x.far ++ (x.accept tok).take (8 - x.far.length)

/-- A crossing queue after a token has been offered, tokens have crossed, and the receiver may have taken the oldest. -/
def pass : Crossing :=
  { near := (x.accept tok).drop (8 - x.far.length),
    far := if take then (x.crossed tok).drop 1 else x.crossed tok,
    last := if take then (x.crossed tok).head?.or x.last else x.last }

theorem length_accept_le (h : x.near.length ≤ 8) : (x.accept tok).length ≤ 8 := by
  unfold accept
  split
  · cases tok <;> simp <;> omega
  · simpa using h

theorem length_crossed_le (h : x.far.length ≤ 8) : (x.crossed tok).length ≤ 8 := by
  simp [crossed]; omega

theorem crossed_append_drop : x.crossed tok ++ (x.accept tok).drop (8 - x.far.length) = x.far ++ x.accept tok := by
  simp [crossed]

/-- Tokens cross as long as the receiver's side has none: it is empty only when the whole queue is. -/
theorem drop_eq_nil_of_crossed (h : x.crossed tok = []) : (x.accept tok).drop (8 - x.far.length) = [] := by
  obtain ⟨hfar, hnear⟩ := List.append_eq_nil_iff.mp h
  simp only [hfar, List.length_nil, Nat.sub_zero, List.take_eq_nil_iff] at hnear
  simp [hnear.resolve_left (by decide)]

theorem far_append_near_pass :
    (x.pass tok take).far ++ (x.pass tok take).near = if take then (x.far ++ x.accept tok).drop 1 else x.far ++ x.accept tok := by
  rw [← crossed_append_drop]
  cases take with
  | false => simp [pass]
  | true =>
    cases hc : x.crossed tok with
    | nil => simp [pass, hc, x.drop_eq_nil_of_crossed tok hc]
    | cons a l => simp [pass, hc]

theorem length_far_pass_le (h : x.far.length ≤ 8) : (x.pass tok take).far.length ≤ 8 := by
  have := x.length_crossed_le tok h
  cases take <;> simp [pass] <;> omega

theorem length_near_pass_le (h : x.near.length ≤ 8) : (x.pass tok take).near.length ≤ 8 := by
  have := x.length_accept_le tok h
  simp [pass]; omega

/-- The receiver takes the oldest token of the queue. -/
theorem last_pass (h : x.far ++ x.accept tok ≠ []) : (x.pass tok true).last = (x.far ++ x.accept tok).head? := by
  rw [← crossed_append_drop] at h ⊢
  cases hc : x.crossed tok with
  | nil => simp [hc, x.drop_eq_nil_of_crossed tok hc] at h
  | cons a l => simp [pass, hc]

end Crossing

theorem State.cross_of_off {s : State} {i : Nat} (h : s.islandOn i = false) (out : Bool) (tok : Option (List Byte)) (take : Bool) :
    s.cross i out tok take = s := by
  simp [State.cross, h]

theorem State.cross_of_on {s : State} {i : Nat} (h : s.islandOn i = true) (out : Bool) (tok : Option (List Byte)) (take : Bool) :
    s.cross i out tok take =
      { s with crossings := Tab.set (fun _ => Crossing.reset) s.crossings (crossKey i out) ((s.crossing (crossKey i out)).pass tok take) } := by
  by_cases hn : (s.crossing (crossKey i out)).near.length < 8 <;> cases tok <;> cases take <;> 
    simp [State.cross, Crossing.pass, Crossing.crossed, Crossing.accept, h, hn]

@[simp] theorem State.crossing_alerts (s : State) (k : Nat) : s.alerts.crossing k = s.crossing k := rfl

theorem State.crossing_cross_same {s : State} {i : Nat} (h : s.islandOn i = true) (out : Bool) (tok : Option (List Byte)) (take : Bool) :
    (s.cross i out tok take).crossing (crossKey i out) = (s.crossing (crossKey i out)).pass tok take := by
  simp [State.cross_of_on h, State.crossing]

theorem State.crossing_cross_ne {s : State} {i k : Nat} {out : Bool} (hk : k ≠ crossKey i out) (tok : Option (List Byte)) (take : Bool) :
    (s.cross i out tok take).crossing k = s.crossing k := by
  cases h : s.islandOn i
  · rw [State.cross_of_off h]
  · simp [State.cross_of_on h, State.crossing, Tab.get_set_ne _ _ _ hk]

@[simp] theorem State.regs_cross (s : State) (i : Nat) (out : Bool) (tok : Option (List Byte)) (take : Bool) :
    (s.cross i out tok take).regs = s.regs := by
  cases h : s.islandOn i
  · rw [State.cross_of_off h]
  · rw [State.cross_of_on h]

@[simp] theorem State.mem_cross (s : State) (i : Nat) (out : Bool) (tok : Option (List Byte)) (take : Bool) :
    (s.cross i out tok take).mem = s.mem := by
  cases h : s.islandOn i
  · rw [State.cross_of_off h]
  · rw [State.cross_of_on h]

end Sys2Proof.Machine
end

section
/-! The statement about stages and crossings. -/

namespace Sys2Proof.Machine

section
variable {s : State} {p : Fin 72} {k : Nat} {place : Option (List Byte)}

/-- A stage that finds nothing to do leaves every stage as it was. -/
theorem handshakeStep_idle (h : s.handshake p k place = s) :
    CompletesWith (.handshakeStep p k place) s fun t => OnlyField s t p [] ∧ ∀ j, t.stg p j = s.stg p j := by
  refine completesWith_of_answer rfl ?_
  rw [h]
  exact ⟨onlyField_alerts_of_regs (.refl s p) rfl, fun _ => rfl⟩

variable (hrun : s.gridRuns p = true)
include hrun

theorem handshakeStep_passes {d : List Byte} (hm : s.mayStep p (unitStage k) = true) (hreq : (s.stg p k).req = (s.stg p k).ack)
    (hd : (s.stg p k).got.or place = some d) (hy : (s.stg p (k + 1)).got = none) :
    CompletesWith (.handshakeStep p k place) s fun t =>
      OnlyField s t p [] ∧ (t.stg p k).req = !(s.stg p k).req ∧ (t.stg p k).ack = (t.stg p k).req ∧ (t.stg p k).got = none ∧
        (t.stg p (k + 1)).got = some d ∧ (t.stg p (k + 1)).req = (s.stg p (k + 1)).req ∧ (t.stg p (k + 1)).ack = (s.stg p (k + 1)).ack ∧
        (∀ j, j ≠ k → j ≠ k + 1 → t.stg p j = s.stg p j) ∧ ((s.permitRate p).isSome = true → t.mayStep p (unitStage k) = false) := by
  refine completesWith_of_answer rfl ?_
  rw [State.handshake_passes hrun hm hreq hd hy]
  refine ⟨onlyField_alerts_of_regs (((s.differsInField_stepTaken p _).setStg _ _).setStg _ _) (by simp), ?_, ?_, ?_, ?_, ?_, ?_,
    fun j hj hj' => ?others, fun hp => State.mayStep_of_stepTaken hp ?rate (by simp)⟩
  case others => simp [State.stg_setStg_ne, hj, hj']
  case rate =>
    rw [State.rd_alerts_ne _ (aFLD_PACER_STATUS_ne_alarms p)]
    exact State.rd_of_regs (by simp) _
  all_goals simp [State.stg_setStg_ne]

theorem handshakeStep_holds (hreq : (s.stg p k).req ≠ (s.stg p k).ack) :
    CompletesWith (.handshakeStep p k place) s fun t =>
      OnlyField s t p [] ∧ (t.stg p k).req = (s.stg p k).req ∧ (t.stg p k).bundle = (s.stg p k).bundle ∧ (t.stg p k).got = (s.stg p k).got := by
  by_cases hy : (s.stg p (k + 1)).got = none
  · refine completesWith_of_answer rfl ?_
    rw [State.handshake_acknowledges hrun hreq hy]
    refine ⟨onlyField_alerts_of_regs (((DiffersInField.refl s p).setStg _ _).setStg _ _) (by simp), ?_⟩
    simp [State.stg_setStg_ne]
  · obtain ⟨t, ht, hframe, hstg⟩ := handshakeStep_idle (State.handshake_waits hrun (place := place) hreq hy)
    exact ⟨t, ht, hframe, by simp [hstg]⟩

end

theorem crossingToken_on {s : State} {i : Fin 60} {out : Bool} {tok : Option (List Byte)} {take : Bool} (hon : s.islandOn i = true) :
    CompletesWith (.crossingToken i out tok take) s fun t =>
      t.crossing (crossKey i out) = (s.crossing (crossKey i out)).pass tok take ∧ (∀ j, j ≠ crossKey i out → t.crossing j = s.crossing j) ∧
        RegsBut s t [] ∧ SameMem s t :=
  completesWith_of_answer rfl
    ⟨State.crossing_cross_same hon out tok take, fun _ hj => State.crossing_cross_ne hj tok take, regsBut_alerts_of_regs (by simp),
      fun _ => by simp⟩

theorem crossingToken_off {s : State} {i : Fin 60} {out : Bool} {tok : Option (List Byte)} {take : Bool} (hoff : s.islandOn i = false) :
    CompletesWith (.crossingToken i out tok take) s fun t => ∀ j, t.crossing j = s.crossing j :=
  completesWith_of_answer rfl fun _ => by simp [State.cross_of_off hoff]

/-- Settles O6: a stage's step by the cases of its handshake, a crossing queue by the lists of its two sides. -/
theorem stagesAndCrossingsPassTokensInOrder : Obligations.StagesAndCrossingsPassTokensInOrder := by
  unfold Obligations.StagesAndCrossingsPassTokensInOrder
  refine ⟨fun s p k place hrun => ⟨?_, ?_, ?_, ?_⟩, fun s i out tok take => ⟨?_, ?_⟩⟩
  · exact fun d => handshakeStep_passes hrun
  · exact fun hm hreq => handshakeStep_idle (State.handshake_rests hrun hm hreq)
  · exact handshakeStep_holds hrun
  · exact fun hreq hy => handshakeStep_idle (State.handshake_waits hrun hreq hy)
  · intro hon hnear hfar
    obtain ⟨t, ht, hx, hframe⟩ := crossingToken_on (out := out) (tok := tok) (take := take) hon
    refine ⟨t, ht, ?_, ?_, ?_, ?_, hframe⟩
    all_goals rw [hx]
    · rw [Crossing.far_append_near_pass, Crossing.accept, List.append_assoc]
    · exact Crossing.length_far_pass_le _ tok take hfar
    · exact Crossing.length_near_pass_le _ tok take hnear
    · rw [List.append_assoc]
      rintro rfl hne
      exact Crossing.last_pass _ tok hne
  · exact crossingToken_off

end Sys2Proof.Machine
end

section
/-!
SUPPORT. Pacers (R45 to R49): what a write of several register fields leaves alone, and what a setting makes of one member of a gang.
-/

namespace Sys2Proof.Machine

section
variable (s : State) (l : List (RF × Nat))

/-- A write of register fields changes nothing but registers. -/
theorem State.puts_eq_regs : s.puts l = { s with regs := (s.puts l).regs } := by
  induction l generalizing s with
  | nil => rfl
  | cons e l ih => exact ih (s.put e.1 e.2)

@[simp] theorem State.puts_mem : (s.puts l).mem = s.mem := by rw [s.puts_eq_regs l]

@[simp] theorem State.puts_fields : (s.puts l).fields = s.fields := by rw [s.puts_eq_regs l]

@[simp] theorem State.field_puts (q : Nat) : (s.puts l).field q = s.field q := State.field_of_fields (s.puts_fields l) q

/-- A register none of whose fields is written is left alone. -/
theorem State.rd_puts_ne {a : Nat} (h : ∀ e ∈ l, a ≠ e.1.addr) : (s.puts l).rd a = s.rd a := by
  induction l generalizing s with
  | nil => rfl
  | cons e l ih =>
    exact (ih (s.put e.1 e.2) fun x hx => h x (List.mem_cons_of_mem e hx)).trans (s.rd_put_ne e.1 e.2 (h e List.mem_cons_self))

end

/-- A one-bit field that is set reads 1. -/
theorem State.get_eq_one_of_on {s : State} {f : RF} (hf : f.hi = f.lo) (h : s.on f = true) : s.get f = 1 := by
  have hlt : s.get f < 2 := by simpa [State.get, hf] using bits_lt (s.rdN f.addr) f.hi f.lo
  have hne : s.get f ≠ 0 := by simpa [State.on] using h
  omega

section
variable (s : State) (q en code : Nat)

@[simp] theorem State.pacerApply_mem : (s.pacerApply q en code).mem = s.mem := by simp [State.pacerApply, State.modPacer]

theorem State.field_pacerApply_ne {r : Nat} (h : r ≠ q) : (s.pacerApply q en code).field r = s.field r := by
  simp [State.pacerApply, State.modPacer, State.field_modField_ne _ _ h]

theorem State.rd_pacerApply_ne {a : Nat} (h : a ≠ Reg.aFLD_PACER_STATUS q) : (s.pacerApply q en code).rd a = s.rd a :=
  State.rd_puts_ne s _ (by simpa [Reg.FLD_PACER_STATUS_FIXED_ACTIVE, Reg.FLD_PACER_STATUS_RATE_CODE_ACTIVE] using h)

@[simp] theorem State.waiting_pacerApply : ((s.pacerApply q en code).field q).pacer.waiting = none := by
  simp [State.pacerApply, State.modPacer]

/-- A setting in force shows in FLD_PACER_STATUS. -/
theorem State.get_pacerApply (hen : en < 2) (hcode : code < 128) :
    (s.pacerApply q en code).get (Reg.FLD_PACER_STATUS_FIXED_ACTIVE q) = en ∧
      (s.pacerApply q en code).get (Reg.FLD_PACER_STATUS_RATE_CODE_ACTIVE q) = code := by
  have hget : ∀ f, (s.pacerApply q en code).get f =
      ((s.put (Reg.FLD_PACER_STATUS_FIXED_ACTIVE q) en).put (Reg.FLD_PACER_STATUS_RATE_CODE_ACTIVE q) code).get f :=
    State.get_of_regs rfl
  rw [hget, hget]
  constructor
  · rw [State.get_put_beside, State.get_put_same]
    all_goals simp [Reg.FLD_PACER_STATUS_FIXED_ACTIVE, Reg.FLD_PACER_STATUS_RATE_CODE_ACTIVE]
    omega
  · rw [State.get_put_same]
    all_goals simp [Reg.FLD_PACER_STATUS_RATE_CODE_ACTIVE]
    omega

end

/-- The fields of FLD_PACER_CTRL of Field `q`, as a write of `v` sets them. -/
def pacerCtrlFields (v q : Nat) : List (RF × Nat) :=
  [(Reg.FLD_PACER_CTRL_FIXED_EN q, bits v 0 0), (Reg.FLD_PACER_CTRL_AT_BOUNDARY q, bits v 1 1), (Reg.FLD_PACER_CTRL_RATE_CODE q, bits v 14 8)]

/-- Does a setting written to Field `p` wait for the boundary of a heat on a member of its gang (R48)? -/
def State.pacerWaits (s : State) (p v : Nat) : Bool := bits v 1 1 == 1 && (s.gangFields p).any s.fieldInHeat

/-- One member of a gang takes a setting, or keeps it for the heat boundary. -/
def State.pacerMember (v : Nat) (wait : Bool) (t : State) (q : Nat) : State :=
  let u := t.puts (pacerCtrlFields v q)
  if wait then u.modPacer q fun x => { x with waiting := some (bits v 0 0, bits v 14 8) } else u.pacerApply q (bits v 0 0) (bits v 14 8)

theorem State.pacerWrite_of_gt {s : State} {v : Nat} (h : 80 < bits v 14 8) (p : Nat) : s.pacerWrite p v = s := by
  simp [State.pacerWrite, h]

theorem State.pacerWrite_of_le {s : State} {v : Nat} (h : bits v 14 8 ≤ 80) (p : Nat) :
    s.pacerWrite p v = (s.gangFields p).foldl (State.pacerMember v (s.pacerWaits p v)) s := by
  rw [State.pacerWrite, if_neg (Nat.not_lt.mpr h)]
  rfl

/-- A Field is a member of the gang that a write to its pacer reaches. -/
theorem State.mem_gangFields (s : State) (p : Nat) : p ∈ s.gangFields p := by
  unfold State.gangFields
  split
  · exact List.mem_singleton_self p
  · exact List.mem_eraseDups.mpr List.mem_cons_self

section
variable (t : State) (v q : Nat)

theorem State.rd_putCtrl_ne {a : Nat} (h : a ≠ Reg.aFLD_PACER_CTRL q) : (t.puts (pacerCtrlFields v q)).rd a = t.rd a :=
  State.rd_puts_ne t _
    (by simpa [pacerCtrlFields, Reg.FLD_PACER_CTRL_FIXED_EN, Reg.FLD_PACER_CTRL_AT_BOUNDARY, Reg.FLD_PACER_CTRL_RATE_CODE] using h)

/-- FLD_PACER_CTRL of the member holds the setting written. -/
theorem State.get_putCtrl :
    (t.puts (pacerCtrlFields v q)).get (Reg.FLD_PACER_CTRL_FIXED_EN q) = bits v 0 0 ∧
      (t.puts (pacerCtrlFields v q)).get (Reg.FLD_PACER_CTRL_AT_BOUNDARY q) = bits v 1 1 ∧
      (t.puts (pacerCtrlFields v q)).get (Reg.FLD_PACER_CTRL_RATE_CODE q) = bits v 14 8 := by
  simp only [pacerCtrlFields, State.puts]
  refine ⟨?_, ?_, ?_⟩
  · rw [State.get_put_beside, State.get_put_beside, State.get_put_same]
    all_goals simp [Reg.FLD_PACER_CTRL_FIXED_EN, Reg.FLD_PACER_CTRL_AT_BOUNDARY, Reg.FLD_PACER_CTRL_RATE_CODE, bits]
  · rw [State.get_put_beside, State.get_put_same]
    all_goals simp [Reg.FLD_PACER_CTRL_AT_BOUNDARY, Reg.FLD_PACER_CTRL_RATE_CODE, bits]
  · rw [State.get_put_same]
    all_goals simp [Reg.FLD_PACER_CTRL_RATE_CODE, bits]

variable (wait : Bool)

theorem State.pacerMember_mem : (t.pacerMember v wait q).mem = t.mem := by
  cases wait <;> simp [State.pacerMember, State.modPacer]

theorem State.field_pacerMember_ne {r : Nat} (h : r ≠ q) : (t.pacerMember v wait q).field r = t.field r := by
  cases wait
  · simp [State.pacerMember, State.field_pacerApply_ne _ _ _ _ h]
  · simp [State.pacerMember, State.modPacer, State.field_modField_ne _ _ h]

/-- A setting that waits touches FLD_PACER_CTRL only. -/
theorem State.rd_pacerMember_waiting {a : Nat} (h : a ≠ Reg.aFLD_PACER_CTRL q) : (t.pacerMember v true q).rd a = t.rd a :=
  State.rd_putCtrl_ne t v q h

theorem State.rd_pacerMember_ne {a : Nat} (hc : a ≠ Reg.aFLD_PACER_CTRL q) (hs : a ≠ Reg.aFLD_PACER_STATUS q) :
    (t.pacerMember v wait q).rd a = t.rd a := by
  cases wait
  · exact (State.rd_pacerApply_ne _ q _ _ hs).trans (State.rd_putCtrl_ne t v q hc)
  · exact State.rd_pacerMember_waiting t v q hc

theorem State.rd_pacerMember_ctrl :
    (t.pacerMember v wait q).rd (Reg.aFLD_PACER_CTRL q) = (t.puts (pacerCtrlFields v q)).rd (Reg.aFLD_PACER_CTRL q) := by
  cases wait
  · exact State.rd_pacerApply_ne _ q _ _ (aFLD_PACER_STATUS_ne_CTRL q q).symm
  · rfl

end

/-- Field `q` has taken the setting `v`: its FLD_PACER_CTRL shows it, and it waits for a heat boundary or is in force. -/
def PacerSet (v : Nat) (wait : Bool) (q : Nat) (t : State) : Prop :=
  (t.get (Reg.FLD_PACER_CTRL_FIXED_EN q) = bits v 0 0 ∧ t.get (Reg.FLD_PACER_CTRL_AT_BOUNDARY q) = bits v 1 1 ∧
    t.get (Reg.FLD_PACER_CTRL_RATE_CODE q) = bits v 14 8) ∧
  (t.field q).pacer.waiting = (if wait then some (bits v 0 0, bits v 14 8) else none) ∧
  (wait = false → t.get (Reg.FLD_PACER_STATUS_FIXED_ACTIVE q) = bits v 0 0 ∧ t.get (Reg.FLD_PACER_STATUS_RATE_CODE_ACTIVE q) = bits v 14 8)

/-- Whether a Field has taken a setting follows from its two pacer registers and its pacer. -/
theorem PacerSet.congr {v : Nat} {wait : Bool} {q : Nat} {t u : State} (h : PacerSet v wait q t)
    (hc : u.rd (Reg.aFLD_PACER_CTRL q) = t.rd (Reg.aFLD_PACER_CTRL q)) (hs : u.rd (Reg.aFLD_PACER_STATUS q) = t.rd (Reg.aFLD_PACER_STATUS q))
    (hf : u.field q = t.field q) : PacerSet v wait q u := by
  have hctrl : ∀ f : RF, f.addr = Reg.aFLD_PACER_CTRL q → u.get f = t.get f := fun f e => State.get_of_rd (by rw [e, hc])
  have hstat : ∀ f : RF, f.addr = Reg.aFLD_PACER_STATUS q → u.get f = t.get f := fun f e => State.get_of_rd (by rw [e, hs])
  unfold PacerSet
  rw [hctrl (Reg.FLD_PACER_CTRL_FIXED_EN q) rfl, hctrl (Reg.FLD_PACER_CTRL_AT_BOUNDARY q) rfl, hctrl (Reg.FLD_PACER_CTRL_RATE_CODE q) rfl,
    hstat (Reg.FLD_PACER_STATUS_FIXED_ACTIVE q) rfl, hstat (Reg.FLD_PACER_STATUS_RATE_CODE_ACTIVE q) rfl, hf]
  exact h

theorem PacerSet.alerts {v : Nat} {wait : Bool} {q : Nat} {t : State} (h : PacerSet v wait q t) : PacerSet v wait q t.alerts :=
  h.congr (t.rd_alerts_ne (aFLD_PACER_CTRL_ne_alarms q)) (t.rd_alerts_ne (aFLD_PACER_STATUS_ne_alarms q)) rfl

/-- The step for a member sets it. -/
theorem PacerSet.of_pacerMember (v : Nat) (wait : Bool) (t : State) (q : Nat) : PacerSet v wait q (t.pacerMember v wait q) := by
  have hctrl : ∀ f : RF, f.addr = Reg.aFLD_PACER_CTRL q → (t.pacerMember v wait q).get f = (t.puts (pacerCtrlFields v q)).get f :=
    fun f e => State.get_of_rd (by rw [e, State.rd_pacerMember_ctrl])
  refine ⟨?_, ?_, ?_⟩
  · rw [hctrl (Reg.FLD_PACER_CTRL_FIXED_EN q) rfl, hctrl (Reg.FLD_PACER_CTRL_AT_BOUNDARY q) rfl, hctrl (Reg.FLD_PACER_CTRL_RATE_CODE q) rfl]
    exact State.get_putCtrl t v q
  · cases wait <;> simp [State.pacerMember, State.modPacer]
  · rintro rfl
    exact State.get_pacerApply _ q _ _ (bits_lt v 0 0) (bits_lt v 14 8)

/-- The step for one member leaves another as it has been set. -/
theorem PacerSet.pacerMember_ne {v : Nat} {wait : Bool} {q r : Nat} {t : State} (hne : q ≠ r) (h : PacerSet v wait q t) :
    PacerSet v wait q (t.pacerMember v wait r) :=
  h.congr
    (State.rd_pacerMember_ne t v r wait (aFLD_PACER_CTRL_inj.not.mpr hne) (aFLD_PACER_STATUS_ne_CTRL r q).symm)
    (State.rd_pacerMember_ne t v r wait (aFLD_PACER_STATUS_ne_CTRL q r) (aFLD_PACER_STATUS_inj.not.mpr hne))
    (State.field_pacerMember_ne t v r wait hne)

section
variable {s : State} {v : Nat} (hv : bits v 14 8 ≤ 80) (p : Nat)
include hv

/-- Every member of the gang takes the setting. -/
theorem State.pacerWrite_sets : ∀ q ∈ s.gangFields p, PacerSet v (s.pacerWaits p v) q (s.pacerWrite p v) := by
  rw [State.pacerWrite_of_le hv]
  exact foldl_settles (P := PacerSet v (s.pacerWaits p v)) (fun t q => .of_pacerMember v _ t q) (fun _ _ _ hne h => h.pacerMember_ne hne) _ s

theorem State.mem_pacerWrite : (s.pacerWrite p v).mem = s.mem := by
  rw [State.pacerWrite_of_le hv]
  exact foldl_keeps (g := State.mem) (fun t q _ => State.pacerMember_mem t v q _) s

/-- A write to a pacer changes registers of members only. -/
theorem State.rd_pacerWrite_ne {a : Nat} (ha : a ∉ (s.gangFields p).flatMap fun q => [Reg.aFLD_PACER_CTRL q, Reg.aFLD_PACER_STATUS q]) :
    (s.pacerWrite p v).rd a = s.rd a := by
  simp only [List.mem_flatMap, List.mem_cons, List.not_mem_nil, or_false, not_exists, not_and, not_or] at ha
  rw [State.pacerWrite_of_le hv]
  exact foldl_keeps (g := fun t => t.rd a) (fun t q hq => State.rd_pacerMember_ne t v q _ (ha q hq).1 (ha q hq).2) s

/-- While a setting waits, FLD_PACER_STATUS shows what was in force. -/
theorem State.rd_pacerWrite_waiting (hw : s.pacerWaits p v = true) (q : Nat) :
    (s.pacerWrite p v).rd (Reg.aFLD_PACER_STATUS q) = s.rd (Reg.aFLD_PACER_STATUS q) := by
  rw [State.pacerWrite_of_le hv, hw]
  exact foldl_keeps (g := fun t => t.rd (Reg.aFLD_PACER_STATUS q))
    (fun t r _ => State.rd_pacerMember_waiting t v r (aFLD_PACER_STATUS_ne_CTRL q r)) s

end

end Sys2Proof.Machine
end

section
/-! The statement about pacers. -/

namespace Sys2Proof.Machine

section
variable {s : State} {p : Fin 72}

/-- In one oscillator period a pacer turns its rate into whole permits and a remainder (R46). -/
theorem pacerPermit_adds_rate {r : Nat} (hr : s.permitRate p = some r) (hs : (s.field p).pacer.stopped = false) :
    CompletesWith (.pacerPermit p) s fun t =>
      OnlyField s t p [] ∧ (t.field p).pacer.acc < 1250 ∧
        1250 * (t.field p).pacer.issued + (t.field p).pacer.acc = 1250 * (s.field p).pacer.issued + (s.field p).pacer.acc + r := by
  refine completesWith_of_answer rfl ?_
  simp only [State.pacerPermit, hr, hs, Bool.false_eq_true, if_false, State.modPacer]
  refine ⟨onlyField_alerts_of_regs ((DiffersInField.refl s p).modField _) rfl, ?_⟩
  simp only [State.field_alerts, State.field_modField_same]
  omega

theorem trimLock_sets_TRIM_LOCKED :
    CompletesWith (.trimLock p) s fun t =>
      OnlyRegs s t [Reg.aFLD_PACER_STATUS p] ∧ t.get (Reg.FLD_PACER_STATUS_TRIM_LOCKED p) = 1 ∧
        t.get (Reg.FLD_PACER_STATUS_FIXED_ACTIVE p) = s.get (Reg.FLD_PACER_STATUS_FIXED_ACTIVE p) ∧
        t.get (Reg.FLD_PACER_STATUS_RATE_DISTURBED p) = s.get (Reg.FLD_PACER_STATUS_RATE_DISTURBED p) ∧
        t.get (Reg.FLD_PACER_STATUS_RATE_CODE_ACTIVE p) = s.get (Reg.FLD_PACER_STATUS_RATE_CODE_ACTIVE p) := by
  have hne := aFLD_PACER_STATUS_ne_alarms p
  refine completesWith_of_answer rfl ⟨onlyRegs_alerts (fun a ha => s.rd_put_ne _ _ (List.ne_of_not_mem_cons ha)) rfl, ?_, ?_, ?_, ?_⟩
  all_goals rw [State.get_alerts_ne _ _ hne]
  · rw [State.get_put_same]
    all_goals simp [Reg.FLD_PACER_STATUS_TRIM_LOCKED]
  all_goals
    rw [State.get_put_beside]
    all_goals simp [Reg.FLD_PACER_STATUS_TRIM_LOCKED, Reg.FLD_PACER_STATUS_FIXED_ACTIVE, Reg.FLD_PACER_STATUS_RATE_DISTURBED,
      Reg.FLD_PACER_STATUS_RATE_CODE_ACTIVE]

theorem rateMonUpdate_shows_rates (natural actual : Fin 65536) :
    CompletesWith (.rateMonUpdate p natural actual) s fun t =>
      OnlyRegs s t [Reg.aFLD_RATE_MON p] ∧ t.get (Reg.FLD_RATE_MON_NATURAL_RATE p) = natural ∧ t.get (Reg.FLD_RATE_MON_ACTUAL_RATE p) = actual := by
  have hne := aFLD_RATE_MON_ne_alarms p
  refine completesWith_of_answer rfl ⟨onlyRegs_alerts (fun a ha => s.rd_puts_ne _ ?_) rfl, ?_, ?_⟩
  · simpa [Reg.FLD_RATE_MON_NATURAL_RATE, Reg.FLD_RATE_MON_ACTUAL_RATE] using ha
  · rw [State.get_alerts_ne _ _ hne, State.puts, State.puts, State.puts, State.get_put_beside, State.get_put_same]
    all_goals simp [Reg.FLD_RATE_MON_NATURAL_RATE, Reg.FLD_RATE_MON_ACTUAL_RATE]
  · rw [State.get_alerts_ne _ _ hne, State.puts, State.puts, State.puts, State.get_put_same]
    all_goals simp [Reg.FLD_RATE_MON_ACTUAL_RATE]

/-- A natural rate below the set rate disturbs the Field (R49). -/
theorem rateDisturbed_marks_field {natural : Fin 65536} (hon : s.on (Reg.FLD_PACER_STATUS_FIXED_ACTIVE p) = true)
    (hlt : (natural : Nat) < s.setRate p) :
    CompletesWith (.rateDisturbed p natural) s fun t =>
      OnlyField s t p [Reg.aFLD_PACER_STATUS p] ∧ t.get (Reg.FLD_PACER_STATUS_RATE_DISTURBED p) = 1 ∧
        t.get (Reg.FLD_PACER_STATUS_FIXED_ACTIVE p) = 1 ∧ (t.field p).pacer.disturbed = true := by
  have hne := aFLD_PACER_STATUS_ne_alarms p
  refine completesWith_of_answer rfl ?_
  rw [State.rateDisturbed, if_pos ⟨hon, hlt⟩]
  refine ⟨onlyField_alerts (((DiffersInField.refl s p).put _ _).modField _) (fun a ha => s.rd_put_ne _ _ (List.ne_of_not_mem_cons ha)), ?_, ?_, by simp⟩
  all_goals rw [State.get_alerts_ne _ _ hne, State.get_of_regs (State.modField_regs _ _ _)]
  · rw [State.get_put_same]
    all_goals simp [Reg.FLD_PACER_STATUS_RATE_DISTURBED]
  · rw [State.get_put_beside, State.get_eq_one_of_on rfl hon]
    all_goals simp [Reg.FLD_PACER_STATUS_RATE_DISTURBED, Reg.FLD_PACER_STATUS_FIXED_ACTIVE]

theorem rateRecovered_clears_disturbed {natural : Fin 65536} (hle : s.setRate p ≤ natural) :
    CompletesWith (.rateRecovered p natural) s fun t => OnlyField s t p [] ∧ (t.field p).pacer.disturbed = false := by
  refine completesWith_of_answer rfl ?_
  rw [State.rateRecovered, if_pos hle]
  exact ⟨onlyField_alerts_of_regs ((DiffersInField.refl s p).modField _) rfl, by simp [State.modPacer]⟩

/-- A setting above RATE_CODE 80 changes nothing (R47). -/
theorem pacerCtrlWrite_of_gt {v : Word} (h : 80 < bits v.toNat 14 8) :
    CompletesWith (.pacerCtrlWrite p v) s fun t => OnlyRegs s t [] := by
  refine completesWith_of_answer rfl ?_
  rw [State.pacerWrite_of_gt h]
  exact onlyRegs_alerts (fun _ _ => rfl) rfl

/-- Any other setting reaches every member of the gang, and while it waits FLD_PACER_STATUS stays (R48). -/
theorem pacerCtrlWrite_of_le {v : Word} (h : bits v.toNat 14 8 ≤ 80) :
    CompletesWith (.pacerCtrlWrite p v) s fun t =>
      RegsBut s t ((s.gangFields p).flatMap fun q => [Reg.aFLD_PACER_CTRL q, Reg.aFLD_PACER_STATUS q]) ∧ SameMem s t ∧
      (∀ q ∈ s.gangFields p, PacerSet v.toNat (s.pacerWaits p v.toNat) q t) ∧
      (s.pacerWaits p v.toNat = true → ∀ q, t.rd (Reg.aFLD_PACER_STATUS q) = s.rd (Reg.aFLD_PACER_STATUS q)) := by
  refine completesWith_of_answer rfl ⟨regsBut_alerts fun a => State.rd_pacerWrite_ne h p, fun a => ?_, fun q hq => ?_, fun hw q => ?_⟩
  · rw [State.alerts_mem, State.mem_pacerWrite h]
  · exact (State.pacerWrite_sets h p q hq).alerts
  · exact (State.rd_alerts_ne _ (aFLD_PACER_STATUS_ne_alarms q)).trans (State.rd_pacerWrite_waiting h p hw q)

end

/-- Settles O7: a setting by the fold over the members of the gang, each of which is set once and left alone by the steps for the others. -/
theorem pacersTakeSettingsAndIssueTheSetRate : Obligations.PacersTakeSettingsAndIssueTheSetRate := by
  unfold Obligations.PacersTakeSettingsAndIssueTheSetRate
  refine ⟨fun s p => ⟨?_, ?_, ?_, ?_⟩, fun s p natural => ⟨?_, ?_⟩, fun s p v => ⟨?_, ?_⟩⟩
  · exact fun r => pacerPermit_adds_rate
  · exact State.permitRate_fixed
  · exact trimLock_sets_TRIM_LOCKED
  · exact rateMonUpdate_shows_rates
  · exact rateDisturbed_marks_field
  · exact rateRecovered_clears_disturbed
  · exact pacerCtrlWrite_of_gt
  · intro h
    obtain ⟨t, ht, hregs, hmem, hset, hstat⟩ := pacerCtrlWrite_of_le (s := s) (p := p) h
    refine ⟨t, ht, hregs, hmem, s.mem_gangFields p, fun q hq => ?_⟩
    obtain ⟨⟨hen, hbound, hcode⟩, hwait, hforce⟩ := hset q hq
    refine ⟨hen, hbound, hcode, ?_⟩
    have hiff : (bits v.toNat 1 1 = 1 ∧ (s.gangFields p).any s.fieldInHeat = true) ↔ s.pacerWaits p v.toNat = true := by
      simp [State.pacerWaits]
    simp only [hiff]
    split
    next hw => exact ⟨by simp [hwait, hw], State.get_of_rd (hstat hw q), State.get_of_rd (hstat hw q)⟩
    next hw =>
      have hw' : s.pacerWaits p v.toNat = false := by simpa using hw
      exact ⟨by simp [hwait, hw'], hforce hw'⟩

end Sys2Proof.Machine
end
